-- ==== Sys2Proof/Word.lean ====
section
/-! DEFINITION. The plain word types of the FV6424 model. Multi-byte values are little-endian (R7); the byte
helpers that say so are in Machine/Bytes.lean. -/

namespace Sys2Proof

/-- One byte. -/
abbrev Byte := BitVec 8

/-- An FP32 value as its 32 bits (R85 to R90). -/
abbrev F32 := BitVec 32

/-- A 256-bit binary code (R263). -/
abbrev Code := BitVec 256

/-- A 64-bit register or packet field. -/
abbrev Word64 := BitVec 64

end Sys2Proof
end

