-- ==== Sys2Proof/Config.lean ====
section
/-! DEFINITION. What a part, its board or its Heleri image fixes, and the FREE VALUES of the spec: constants with no
body, so that a claim about the model holds whatever they are. -/

namespace Sys2Proof

/-- The scheduler parameters of R187. -/
structure SchedParams where
  fillWaitUs : Nat := 200
  fillGroups : Nat := 0
  starveSteps : Nat := 8
  chunk : Nat := 256
  maxGroups : Nat := 64
  rlaneMaxReq : Nat := 16
  rlaneArrayPct : Nat := 50
  rlanePoolPct : Nat := 25
  threadShift : Nat := 10
  defaultWeight : Nat := 100
  defaultDepth : Nat := 256
  deriving DecidableEq, Repr, Inhabited

/-- The migration parameters of R340. -/
structure EmbParams where
  intervalMs : Nat := 100
  migrateRatio : Nat := 20
  migrateMax : Nat := 1024
  spareShift : Nat := 6
  deriving DecidableEq, Repr, Inhabited

/-- The LPDDR6 tier's parameters of R385. -/
structure MemParams where
  spares : Nat := 1
  maxRate : Nat := 3
  movePct : Nat := 25
  calIntervalMs : Nat := 128
  scrubHours : Nat := 24
  retrainCe : Nat := 1000
  swapGb : Nat := 1024
  deriving DecidableEq, Repr, Inhabited

/-- The flash tier's parameters of R423. -/
structure FlashParams where
  opPct : Nat := 10
  onebitBlocks : Nat := 24
  foldPct : Nat := 50
  maxRate : Nat := 5
  gcStart : Nat := 256
  gcUrgent : Nat := 64
  wearGap : Nat := 200
  flushMs : Nat := 10
  deriving DecidableEq, Repr, Inhabited

/-- One tenant's quotas (R435): quotas 1 to 7 and the function mask. -/
structure Quotas where
  sessions : Nat := 64
  sequences : Nat := 0
  adapters : Nat := 0
  indices : Nat := 0
  tables : Nat := 0
  lpddr6 : Nat := 0
  flash : Nat := 0
  functions : BitVec 256 := 1#256
  deriving DecidableEq, Repr, Inhabited

/-- The parameters of R493 and R519, and COMPAT_IMAGE of R2. -/
structure SysParams where
  scanPct : Nat := 10
  sramScrubMs : Nat := 1000
  mgmtPort : Nat := 0
  holdS : Nat := 30
  powerCapW : Nat := 620
  idleMs : Nat := 5
  wakeOnWork : Bool := true
  compatImage : Bool := false
  deriving DecidableEq, Repr, Inhabited

/-- The subsystem identifiers where no Heleri image gives them, vendor below device: no factory default is stated (R39;
log 174, DESIGN CHOICE). -/
opaque Config.factorySubsystem : Nat

/-- What the image sets of the host interface: PF_EVENT_MASK.SIGNAL, PF_INT_MOD.COUNT and TIME_US (R44, R45), and the
subsystem identifiers (R39). -/
structure HostParams where
  signal : Nat := 0xF
  intCount : Nat := 1
  intTimeUs : Nat := 0
  subsystem : Nat := Config.factorySubsystem
  deriving DecidableEq, Repr, Inhabited

/-- Every field a Heleri image can set; the field defaults are the factory defaults (R10, R11). -/
structure Params where
  host : HostParams := {}
  sched : SchedParams := {}
  emb : EmbParams := {}
  mem : MemParams := {}
  flash : FlashParams := {}
  quota : Quotas := {}
  sys : SysParams := {}
  deriving DecidableEq, Repr, Inhabited

/-- The factory defaults (R10). -/
def Params.factory : Params := {}

/-- One field of the parameters takes a value; the fields are numbered in the order of their structures. -/
def Params.set (p : Params) (field v : Nat) : Params :=
  match field with
  | 0 => { p with sched := { p.sched with fillWaitUs := v } }
  | 1 => { p with sched := { p.sched with fillGroups := v } }
  | 2 => { p with sched := { p.sched with starveSteps := v } }
  | 3 => { p with sched := { p.sched with chunk := v } }
  | 4 => { p with sched := { p.sched with maxGroups := v } }
  | 5 => { p with sched := { p.sched with rlaneMaxReq := v } }
  | 6 => { p with sched := { p.sched with rlaneArrayPct := v } }
  | 7 => { p with sched := { p.sched with rlanePoolPct := v } }
  | 8 => { p with sched := { p.sched with threadShift := v } }
  | 9 => { p with sched := { p.sched with defaultWeight := v } }
  | 10 => { p with sched := { p.sched with defaultDepth := v } }
  | 11 => { p with emb := { p.emb with intervalMs := v } }
  | 12 => { p with emb := { p.emb with migrateRatio := v } }
  | 13 => { p with emb := { p.emb with migrateMax := v } }
  | 14 => { p with emb := { p.emb with spareShift := v } }
  | 15 => { p with mem := { p.mem with spares := v } }
  | 16 => { p with mem := { p.mem with maxRate := v } }
  | 17 => { p with mem := { p.mem with movePct := v } }
  | 18 => { p with mem := { p.mem with calIntervalMs := v } }
  | 19 => { p with mem := { p.mem with scrubHours := v } }
  | 20 => { p with mem := { p.mem with retrainCe := v } }
  | 21 => { p with mem := { p.mem with swapGb := v } }
  | 22 => { p with flash := { p.flash with opPct := v } }
  | 23 => { p with flash := { p.flash with onebitBlocks := v } }
  | 24 => { p with flash := { p.flash with foldPct := v } }
  | 25 => { p with flash := { p.flash with maxRate := v } }
  | 26 => { p with flash := { p.flash with gcStart := v } }
  | 27 => { p with flash := { p.flash with gcUrgent := v } }
  | 28 => { p with flash := { p.flash with wearGap := v } }
  | 29 => { p with flash := { p.flash with flushMs := v } }
  | 30 => { p with quota := { p.quota with sessions := v } }
  | 31 => { p with quota := { p.quota with sequences := v } }
  | 32 => { p with quota := { p.quota with adapters := v } }
  | 33 => { p with quota := { p.quota with indices := v } }
  | 34 => { p with quota := { p.quota with tables := v } }
  | 35 => { p with quota := { p.quota with lpddr6 := v } }
  | 36 => { p with quota := { p.quota with flash := v } }
  | 37 => { p with quota := { p.quota with functions := BitVec.ofNat 256 v } }
  | 38 => { p with sys := { p.sys with scanPct := v } }
  | 39 => { p with sys := { p.sys with sramScrubMs := v } }
  | 40 => { p with sys := { p.sys with mgmtPort := v } }
  | 41 => { p with sys := { p.sys with holdS := v } }
  | 42 => { p with sys := { p.sys with powerCapW := v } }
  | 43 => { p with sys := { p.sys with idleMs := v } }
  | 44 => { p with sys := { p.sys with wakeOnWork := v != 0 } }
  | 45 => { p with sys := { p.sys with compatImage := v != 0 } }
  | 46 => { p with host := { p.host with signal := v } }
  | 47 => { p with host := { p.host with intCount := v } }
  | 48 => { p with host := { p.host with intTimeUs := v } }
  | 49 => { p with host := { p.host with subsystem := v } }
  | _ => p

/-- The parameters under an image that sets some fields: a field it omits takes its factory default (R10). -/
def Params.ofImage (sets : List (Nat × Nat)) : Params := sets.foldl (fun p x => p.set x.1 x.2) Params.factory

/-- The character classes that pre-tokenization uses (R202): general categories L or M, Nd, White_Space, other. -/
inductive CharClass where
  | letter | digit | white | other
  deriving DecidableEq, Repr, Inhabited

namespace Config

/-! Free values: each is unspecified by the spec (or belongs to a standard the spec names without giving it). -/

/-- The nonce that a SESSION_CHALLENGE writes (R72); drawn by the device, fresh for each counter value (log 6, DESIGN
CHOICE). -/
opaque nonce : Nat → BitVec 256
/-- KMAC256 of NIST SP 800-185 with a 256-bit result, by key, message and label (R438, R434; log 6, DESIGN CHOICE). -/
opaque kmac256 : BitVec 256 → List Byte → String → BitVec 256
/-- KMAC256 with a 128-bit result, for the session tag (R438; log 6, DESIGN CHOICE). -/
opaque kmac128 : BitVec 256 → List Byte → String → BitVec 128
/-- RFC 3394 unwrap of a 40-byte wrapped key (R434; log 6, DESIGN CHOICE). -/
opaque keyUnwrap : BitVec 256 → List Byte → Option (BitVec 256)
/-- The tenant data key drawn at a tenant's activation (R437; log 6, DESIGN CHOICE). -/
opaque dataKey : Nat → BitVec 512
/-- SHAKE256 with a 32-byte result (R445; log 6, DESIGN CHOICE). -/
opaque shake256 : List Byte → BitVec 256
/-- Whether a signature of a parameter set of R441 is valid under a key, over a message (log 6, DESIGN CHOICE). -/
opaque sigValid : Nat → List Byte → List Byte → List Byte → Bool
/-- Yarcen's four root public keys in the boot ROM (R447). -/
opaque yarcenKey : Nat → List Byte
/-- Yarcen's service key (R450). -/
opaque serviceKey : List Byte
/-- The 2,820-byte signature of an attestation key, by serial and index (R444). -/
opaque attestSignature : Nat → Nat → List Byte → List Byte
/-- Public key and certificate bytes 3,084 onward of ATTEST's output, by serial (R444). -/
opaque attestChain : Nat → List Byte
/-- The device's unique ID (R444). -/
opaque uniqueId : BitVec 128
/-- The claim key (R427, R432). -/
opaque claimKey : BitVec 256
/-- The fields that a Heleri image sets, by the numbers of `Params.set`, with their values; the spec gives no layout of
the image's payload (R10; log 12, DESIGN CHOICE). -/
opaque heleriFields : List Byte → List (Nat × Nat)
/-- An island's cycle count, by clock identifier, power-up moment and present moment (R24, R27; log 8, DESIGN CHOICE).
-/
opaque islandCycles : BitVec 16 → Nat → Nat → Nat
/-- How many units in the last place a tile core's function lies from the exact value, by function and argument; a
bound of R122 limits it (log 10, DESIGN CHOICE). -/
opaque ulps : Nat → F32 → Int
/-- sin and cos of an argument above 2¹⁸ in magnitude, for which no value is stated (R122; log 10, DESIGN CHOICE). -/
opaque farTrig : Nat → F32 → F32
/-- The bank of a staging buffer that holds what a port reads or writes, by port and place in its stream (R82; log 155,
DESIGN CHOICE). -/
opaque bankOf : Nat → Nat → Nat
/-- The MGMT_STATUS record, from the values that the rules name for it: no rule gives its layout (R4, R64; log 13,
DESIGN CHOICE). -/
opaque statusRecord : Nat → List Nat → List Byte
/-- The bytes of a reply on the SMBus endpoint, from the message's kind and values: DSP0236, DSP0240 and DSP0248 give
them (R538; log 51, DESIGN CHOICE). -/
opaque smbusReply : Nat → List Int → List Byte
/-- NVMe structures whose layout lies in the NVMe specifications, from the values that the rules give for them: of
Identify by CNS, of a log page by its number, of Get LBA Status (R407, R411, R414; log 21, DESIGN CHOICE). -/
opaque nvmeIdentify : Nat → List Nat → List Byte
opaque nvmeLog : Nat → List Nat → List Byte
opaque nvmeLbaStatus : List (Nat × Nat) → List Byte
/-- A block after a power loss that did not complete R420 is old or new, block by block (R421). -/
opaque keptAfterLoss : Nat → Bool
/-- The two positions of a walker's 524,288-bit filter that a node sets, from the CRC-64 of its number: which bits of
it is not stated (R274; log 30, DESIGN CHOICE). -/
opaque filterBits : BitVec 64 → Nat × Nat
/-- The 64 KiB chunks allocated at a position, by the position and the bytes in use on its course: where inside a course
pages and homes lie is not stated (R381, R384; log 37, DESIGN CHOICE). -/
opaque chunksAt : Nat → Nat → Nat
/-- How long a calibration and a retune of a channel hold its requests, in ns, by the channel and the moment: only the
bounds are stated (R359, R360; log 190, DESIGN CHOICE). -/
opaque calTime : Nat → Nat → Nat
opaque retuneTime : Nat → Nat → Nat
/-- Whether a resident sequence has a home on a position of its course: where its pages lie is not stated (R142, R468;
log 40, DESIGN CHOICE). -/
opaque seqOnPosition : Nat → Nat → Bool
/-- Whether a position holds map lines of an object in flash, by kind (0 model, 1 record, 2 region, 3 sequence), number
and unit (R396, R468; log 40, DESIGN CHOICE). -/
opaque mapOnPosition : Nat → Nat → Nat → Nat → Bool
/-- The die of a band's dies on which a block of the band lies, by band and place: the order is not stated (R394;
log 43, DESIGN CHOICE). -/
opaque dieIn : Nat → Nat → Nat
/-- Bands that the blocks of the swap and object areas fill, one-bit and QLC, by their number: where those blocks lie is
not tracked (R395, R399; log 44, DESIGN CHOICE). -/
opaque deviceBands : Nat → Nat × Nat
/-- The die that holds a cold page of an index (R295, R408; log 187, DESIGN CHOICE). -/
opaque pageDie : Nat → Nat → Nat
/-- Whether an object in flash has a block on a die, by kind (0 model, 1 record, 2 region, 3 sequence), number, unit and
die (R406; log 44, DESIGN CHOICE). -/
opaque objectOnDie : Nat → Nat → Nat → Nat → Bool
/-- Bytes of journal records, by their number (R397; log 46, DESIGN CHOICE). -/
opaque journalBytes : Nat → Nat
/-- An unstated number, fresh for each counter value. -/
opaque freeNat : Nat → Nat

end Config
end Sys2Proof
end

