-- ==== Sys2Proof/Syntax.lean ====
section
/-! DEFINITION. The commands of the FV6424 block: one constructor per row of spec/opcode_table.json, with the row's
operands. The table gives no operands; they are what an agent outside the device, or a choice the spec leaves open,
brings to the row (log 1, DESIGN CHOICE). A KCP command row names the outstanding command it runs by the model's
internal number `cmd`, which COMMAND_FETCH assigned. -/

namespace Sys2Proof

/-- A 16-bit clock identifier naming an island (R26). -/
abbrev ClockId := BitVec 16

/-- The contents of one 4,096-byte logical block (R393). -/
abbrev Block := List Byte

/-- What the device reads through an input buffer descriptor (R56, R418, R461). -/
inductive Input where
  /-- the bytes the descriptor covers -/
  | data (bytes : List Byte)
  /-- a kind-2 range with a lost block; its first lost logical block -/
  | lost (block : Nat)
  /-- a poisoned host TLP -/
  | poisoned
  deriving DecidableEq, Repr, Inhabited

/-- The scatter-gather lists read for one descriptor: its byte offset as DETAIL names it, and its lists in walk
order, each as the bytes read (R57). -/
structure SgData where
  offset : Nat
  lists : List (List Byte)
  deriving DecidableEq, Repr

/-- Which host write the host refused (R544). -/
inductive WriteTarget where
  /-- a buffer of an outstanding command, by descriptor offset, after `written` bytes -/
  | buffer (cmd offset written : Nat)
  /-- a completion of a ring pair (ERROR_CODE 0x05) -/
  | completion (port : Fin 2) (fn ring : Nat)
  /-- the transfer of an NVMe command, by controller, submission queue and command identifier -/
  | nvme (ctrl : Fin 2) (sq cid : Nat)
  deriving DecidableEq, Repr

/-- The two lanes of a course (R152). -/
inductive Lane where
  | generation | retrieval
  deriving DecidableEq, Repr

/-- The endpoints that keep allotment pools (R35, R547). -/
inductive Endpoint where
  | array (a : Fin 16) | tile (t : Fin 64) | store (c : Fin 4) | hop (ch : Fin 96) | port (p : Fin 2)
  | flash (ch : Fin 16)
  deriving DecidableEq, Repr

/-- The six Mortar classes (R32); no tenant job holds allotments of the management class (R37). -/
inductive MortarClass where
  | operand | reads | writes | hop | moves | management
  deriving DecidableEq, Repr

/-- Where the supervisor places one candidate of a step and the walkers after a request's first (R17), the allotments
that each of its jobs needs beside those that the rules imply and the semaphores it takes (R35, R36, R547), and the query
that a request brings to its step (R304; log 1, DESIGN CHOICE). `cand` is a sequence's table entry, or a command's
internal number when `isCmd`. -/
structure Job where
  isCmd : Bool
  cand : Nat
  tile : Fin 16 := 0
  core : Fin 64 := 0
  walkers : List (Fin 16 × Fin 64) := []
  allots : List (List (Endpoint × MortarClass)) := []
  semaphores : List Nat := []
  query : Input := .data []
  deriving DecidableEq, Repr

/-- What one row of a step meets at its commit point: whether its pages were poisoned (R461). -/
structure RowData where
  entry : Nat
  poisoned : Bool := false
  deriving DecidableEq, Repr

/-- What a commit point finds: the rows' data and the thread cycles of each tenant's jobs (R160, R171). -/
structure CommitData where
  rows : List RowData := []
  threads : List (Nat × Nat) := []
  deriving DecidableEq, Repr

/-- The faults an array detects (R108); an uncorrectable staging word lies in a window region, whose home may itself
be uncorrectable, or holds outputs of the step (R111). -/
inductive ArrayFaultKind where
  | residue | parity | poison
  | window (homeBad : Bool)
  | stepOutput
  deriving DecidableEq, Repr

/-- How a move unit's copy ended (R367, R368): the check values matched, possibly with poisoned lines carried;
they differed; or the old home held a lost flash block (R425). -/
inductive MoveResult where
  | ok | mismatch | lost
  deriving DecidableEq, Repr

/-- What one scrub pass of a channel found (R354, R356). -/
structure ScrubData where
  slots : Nat := 0
  corrected : Nat := 0
  doubleErrors : Nat := 0
  tagErrors : Nat := 0
  patternOk : Bool := true
  deriving DecidableEq, Repr

/-- The temperature range a package reports: the refresh rate it needs, or above its highest range (R357, R358). -/
inductive RefreshRange where
  | normal | double | quadruple | over
  deriving DecidableEq, Repr

/-- The fields Namespace Management Create checks (R415). -/
structure NsRequest where
  tenant : Nat
  kind : Nat
  nsze : Nat
  ncap : Nat
  flbas : Nat := 0
  dps : Nat := 0
  deriving DecidableEq, Repr

/-- How the codewords of a flash page read ended (R405). -/
inductive ReadOutcome where
  | decoded | retried | soft | rebuilt | lost
  deriving DecidableEq, Repr

/-- What an uncorrectable line held (R461): nothing that a rule names, or the object and its part. -/
inductive Datum where
  | other
  | vocab (slot : Nat)
  | grammar (slot : Nat)
  /-- pages, page table or grammar context of a sequence -/
  | sequence (entry : Nat)
  | record (slot ident : Nat)
  | code (slot node : Nat)
  | adjacency (slot node : Nat)
  | identity (slot node : Nat)
  | upper (slot node : Nat)
  | directory (slot : Nat) (idents : List Nat)
  /-- a weight home of a model's record, or of an adapter version's -/
  | weights (slot record : Nat) (version : Option (Nat × Nat))
  /-- tile SRAM that a job of a course's lane reads -/
  | job (course : Fin 4) (lane : Lane)
  /-- the journal ring -/
  | journal
  | row (table row : Nat)
  /-- a block in the write staging buffer -/
  | staged (nsid lba : Nat)
  /-- a hop packet on a Mortar lane, by the message's number (R38) -/
  | packet (msg : Nat)
  deriving DecidableEq, Repr, Inhabited

/-- A fault an island reports (R462): its class, address and count, and what an uncorrectable line held. -/
structure FaultReport where
  cls : Nat
  datum : Datum := .other
  addr : Nat := 0
  count : Nat := 1
  /-- of an uncorrectable line of LPDDR6: its address tag did not match (R354) -/
  tag : Bool := false
  deriving DecidableEq, Repr

/-- The PLDM messages of R538: discovery, a sensor read, a threshold, an event receiver. -/
inductive Pldm where
  | discover | readSensor (sensor : Nat) | setThreshold (sensor : Nat) (value : Int) | setReceiver (eid : Byte)
  | other
  deriving DecidableEq, Repr

/-- The levels of the straps at the moment at which the Quoin samples them (R534, R535). -/
structure Straps where
  compat : Bool := false
  mgmtPrimary : Bool := false
  bootSlotPref : Bool := false
  smbAddr : BitVec 3 := 0
  deriving DecidableEq, Repr, Inhabited

/-- What start-up finds on the board and in the part (R349, R351, R352, R389, R426, R430, R535, R540; log 70, DESIGN
CHOICE). -/
structure Board where
  straps : Straps := {}
  reference : Bool := true
  rootKeyOk : Bool := true
  rootFirmwareOk : Bool := true
  rootTestOk : Bool := true
  /-- GB of each LPDDR6 package, by package number; a package not listed is of 48 GB -/
  density : List (Fin 24 × Nat) := []
  /-- channels whose highest passing rate is below code 3: number of rate codes passed, 0 for none -/
  rates : List (Fin 96 × Nat) := []
  /-- dies of every flash channel, and by channel how many of them are not used: dies of another geometry than the first
  one found, and dies that fail at the channel's rate (R389 to R391) -/
  dieRows : Nat := 16
  excluded : List (Fin 16 × Nat) := []
  /-- what the parameter page of the dies gives: data and spare bytes of a page, planes, blocks per plane, QLC pages per plane
  block, whether a block runs in one-bit mode too, the erases that it endures (R390, R392, R414) -/
  pageBytes : Nat := 16384
  spareBytes : Nat := 2048
  planes : Nat := 4
  planeBlocks : Nat := 1656
  qlcPages : Nat := 2304
  oneBitMode : Bool := true
  endurance : Nat := 1000
  /-- flash channels whose highest passing rate is below code 5: number of rate codes passed (R389) -/
  flashRates : List (Fin 16 × Nat) := []
  /-- the dies' parameter page names suspend and resume of programs and erases (R392, R408) -/
  flashSuspend : Bool := false
  /-- the part carries the suffix X (R540) -/
  suffixX : Bool := false
  /-- every security record has a valid copy, and the public key in the attestation record matches its certificate (R427,
  R430) -/
  recordsOk : Bool := true
  attestOk : Bool := true
  deriving DecidableEq, Repr, Inhabited

/-- The commands: one constructor per row of the table. -/
inductive Instr where
  /-- REGISTER_WRITE (R43). -/
  | registerWrite (port : Fin 2) (fn : Nat) (offset : Nat) (wide : Bool) (value : Word64)
  /-- FUNCTION_ENABLE (R543). -/
  | functionEnable (port : Fin 2) (fn : Nat) (value : Bool)
  /-- QUIESCE (R543). -/
  | quiesce (port : Fin 2) (fn : Nat) (value : Bool)
  /-- PF_EVENT_CLEAR (R44). -/
  | pfEventClear (port : Fin 2) (fn : Nat) (bits : BitVec 4)
  /-- RING_ENABLE (R51). -/
  | ringEnable (port : Fin 2) (fn ring : Nat) (sqLog2 cqLog2 vector : Nat)
  /-- RING_DISABLE (R50). -/
  | ringDisable (port : Fin 2) (fn ring : Nat)
  /-- RING_IDLE (R50). -/
  | ringIdle (port : Fin 2) (fn ring : Nat)
  /-- PF_SQ_TAIL (R47). -/
  | pfSqTail (port : Fin 2) (fn ring : Nat) (tail : BitVec 16)
  /-- PF_CQ_HEAD (R49). -/
  | pfCqHead (port : Fin 2) (fn ring : Nat) (head : BitVec 16)
  /-- COMMAND_FETCH (R62). -/
  | commandFetch (port : Fin 2) (fn ring : Nat) (slots : Option (List Byte)) (lists : List SgData)
  /-- ADMISSION_DISPATCH (R173). -/
  | admissionDispatch (course : Fin 4)
  /-- INTERRUPT_COALESCE_TIMER (R52). -/
  | interruptCoalesceTimer (port : Fin 2) (fn ring : Nat)
  /-- OUTPUT_WRITE_FAILED (R544). -/
  | outputWriteFailed (target : WriteTarget)
  /-- NOP (R64). -/
  | nop (cmd : Nat)
  /-- SESSION_CHALLENGE (R72). -/
  | sessionChallenge (cmd : Nat)
  /-- ADOPTION_CHALLENGE (R72). -/
  | adoptionChallenge (cmd : Nat)
  /-- SESSION_OPEN (R438). -/
  | sessionOpen (cmd : Nat)
  /-- SESSION_CLOSE (R72). -/
  | sessionClose (cmd : Nat)
  /-- SESSION_CLOSE_FINISH (R488). -/
  | sessionCloseFinish (sid : Nat)
  /-- SESSION_ADOPT (R73). -/
  | sessionAdopt (cmd : Nat)
  /-- STATE_QUERY (R64). -/
  | stateQuery (cmd : Nat)
  /-- CANCEL_COMMAND (R75). -/
  | cancelCommand (cmd : Nat)
  /-- CANCEL_OBJECT (R75). -/
  | cancelObject (cmd : Nat)
  /-- NONCE_EXPIRY (R72). -/
  | nonceExpiry (sid : Nat)
  /-- PORT_LINK_DOWN (R72). -/
  | portLinkDown (port : Fin 2)
  /-- PORT_LINK_UP (R72). -/
  | portLinkUp (port : Fin 2)
  /-- SESSION_HOLD_EXPIRY (R72). -/
  | sessionHoldExpiry (sid : Nat)
  /-- MGMT_FAILOVER (R490). -/
  | mgmtFailover
  /-- MODEL_LOAD (R130). -/
  | modelLoad (cmd : Nat) (image : Input)
  /-- MODEL_UNLOAD (R135). -/
  | modelUnload (cmd : Nat)
  /-- ADAPTER_LOAD (R148). -/
  | adapterLoad (cmd : Nat) (image : Input)
  /-- ADAPTER_RETIRE (R148). -/
  | adapterRetire (cmd : Nat)
  /-- MODEL_QUERY (R134). -/
  | modelQuery (cmd : Nat)
  /-- SEQ_CREATE (R158). -/
  | seqCreate (cmd : Nat) (course : Fin 4) (stops : Input)
  /-- SEQ_APPEND (R210). -/
  | seqAppend (cmd : Nat) (input : Input)
  /-- SEQ_GENERATE (R158). -/
  | seqGenerate (cmd : Nat)
  /-- CARRY_FLUSH_DONE (R548). -/
  | carryFlushDone (entry : Nat)
  /-- SEQ_REBIND (R149). -/
  | seqRebind (cmd : Nat)
  /-- SEQ_SWAP_OUT (R182). -/
  | seqSwapOut (cmd : Nat)
  /-- SEQ_RELEASE (R158). -/
  | seqRelease (cmd : Nat)
  /-- SEQ_QUERY (R155). -/
  | seqQuery (cmd : Nat)
  /-- RETRIEVE (R283). -/
  | retrieve (cmd : Nat)
  /-- RERANK (R309). -/
  | rerank (cmd : Nat) (set : Input)
  /-- PACK (R316). -/
  | pack (cmd : Nat) (set : Input)
  /-- RETRIEVE_RERANK_PACK (R304). -/
  | retrieveRerankPack (cmd : Nat)
  /-- TEMPLATE_LOAD (R314). -/
  | templateLoad (cmd : Nat) (image : Input)
  /-- TEMPLATE_REPLACE (R314). -/
  | templateReplace (cmd : Nat) (image : Input)
  /-- TEMPLATE_FREE (R314). -/
  | templateFree (cmd : Nat)
  /-- PROFILE_SET (R311). -/
  | profileSet (cmd : Nat)
  /-- INDEX_CREATE (R270). -/
  | indexCreate (cmd : Nat) (config : Input)
  /-- INDEX_INSERT (R290). -/
  | indexInsert (cmd : Nat) (records : Input)
  /-- INDEX_COMMIT (R291). -/
  | indexCommit (cmd : Nat)
  /-- INDEX_DELETE (R292). -/
  | indexDelete (cmd : Nat) (identifiers : Input)
  /-- INDEX_REPAIR_START (R293). -/
  | indexRepairStart (cmd : Nat)
  /-- INDEX_REPAIR_STATUS (R293). -/
  | indexRepairStatus (cmd : Nat)
  /-- INDEX_QUERY (R297). -/
  | indexQuery (cmd : Nat)
  /-- INDEX_DROP (R272). -/
  | indexDrop (cmd : Nat)
  /-- REPAIR_AUTO_START (R293). -/
  | repairAutoStart (slot : Nat)
  /-- REPAIR_SWEEP_END (R293). -/
  | repairSweepEnd (slot : Nat)
  /-- NODE_DRAIN_FREE (R293). -/
  | nodeDrainFree (slot : Nat)
  /-- REGION_PLACEMENT (R294). -/
  | regionPlacement (slot region : Nat)
  /-- CORPUS_WRITE (R302). -/
  | corpusWrite (cmd : Nat) (records : Input)
  /-- CORPUS_READ (R302). -/
  | corpusRead (cmd : Nat) (identifiers : Input)
  /-- CORPUS_DELETE (R302). -/
  | corpusDelete (cmd : Nat) (identifiers : Input)
  /-- TIER_MOVE (R373). -/
  | tierMove (cmd : Nat)
  /-- MOVE_QUERY (R376). -/
  | moveQuery (cmd : Nat)
  /-- TABLE_CREATE (R325). -/
  | tableCreate (cmd : Nat)
  /-- ROWS_WRITE (R329). -/
  | rowsWrite (cmd : Nat) (records : Input)
  /-- LOOKUP (R333). -/
  | lookup (cmd : Nat) (indices weights bags : Input)
  /-- TABLE_QUERY (R343). -/
  | tableQuery (cmd : Nat)
  /-- TABLE_DROP (R328). -/
  | tableDrop (cmd : Nat)
  /-- VOCAB_LOAD (R201). -/
  | vocabLoad (cmd : Nat) (image : Input)
  /-- VOCAB_UNLOAD (R197). -/
  | vocabUnload (cmd : Nat)
  /-- GRAMMAR_LOAD (R216). -/
  | grammarLoad (cmd : Nat) (image : Input)
  /-- GRAMMAR_UNLOAD (R216). -/
  | grammarUnload (cmd : Nat)
  /-- TOKENIZE (R235). -/
  | tokenize (cmd : Nat) (text : Input)
  /-- DETOKENIZE (R236). -/
  | detokenize (cmd : Nat) (tokens : Input)
  /-- SCAN_START (R471). -/
  | scanStart (cmd : Nat)
  /-- SCAN_SUSPEND (R474). -/
  | scanSuspend (cmd : Nat) (bytes : List Byte)
  /-- SCAN_RESUME (R474). -/
  | scanResume (cmd : Nat)
  /-- SCAN_QUERY (R474). -/
  | scanQuery (cmd : Nat)
  /-- SCAN_CONTEXT_GRANT (R474). -/
  | scanContextGrant (handle : Nat) (unit : Fin 4)
  /-- SCAN_END (R476). -/
  | scanEnd (handle : Nat) (bytes : List Byte) (bad : Bool)
  /-- MGMT_STATUS (R64). -/
  | mgmtStatus (cmd : Nat)
  /-- EPOCH_MARKER (R29). -/
  | epochMarker (cmd : Nat)
  /-- TENANT_SET (R434). -/
  | tenantSet (cmd : Nat) (key quotas : Input)
  /-- TENANT_REVOKE (R436). -/
  | tenantRevoke (cmd : Nat)
  /-- TENANT_REVOKE_FINISH (R436). -/
  | tenantRevokeFinish (tenant : Nat)
  /-- ATTEST (R444). -/
  | attest (cmd : Nat)
  /-- ATTEST_KEY_GENERATE (R442). -/
  | attestKeyGenerate
  /-- IMAGE_WRITE (R448). -/
  | imageWrite (cmd : Nat) (image : Input)
  /-- IMAGE_ACTIVATE (R449). -/
  | imageActivate (cmd : Nat)
  /-- FIRMWARE_UPDATE (R479). -/
  | firmwareUpdate (cmd : Nat) (image : Input)
  /-- ISLAND_FIRMWARE_LOADED (R479). -/
  | islandFirmwareLoaded (clk : ClockId) (pass : Bool)
  /-- ISLAND_RETIRE (R481). -/
  | islandRetire (cmd : Nat)
  /-- CHANNEL_RETRAIN (R381). -/
  | channelRetrain (cmd : Nat)
  /-- CHANNEL_ACTIVATE_SPARE (R381). -/
  | channelActivateSpare (cmd : Nat)
  /-- POWER_CAP (R505). -/
  | powerCap (cmd : Nat)
  /-- POWER_ENTER_P3 (R503). -/
  | powerEnterP3 (cmd : Nat)
  /-- POWER_LEAVE_P3 (R504). -/
  | powerLeaveP3 (cmd : Option Nat)
  /-- TELEMETRY_READ (R115). -/
  | telemetryRead (cmd : Nat)
  /-- FAULT_LOG_READ (R463). -/
  | faultLogRead (cmd : Nat)
  /-- SERVICE_ENTER (R451). -/
  | serviceEnter (cmd : Nat) (token : Input)
  /-- SERVICE_LEAVE (R452). -/
  | serviceLeave (cmd : Nat)
  /-- DEVICE_RESET_COLD (R512). -/
  | deviceResetCold (cmd : Nat)
  /-- DEVICE_RESET_ENGINE (R512). -/
  | deviceResetEngine (cmd : Nat)
  /-- ISLAND_TEST (R512). -/
  | islandTest (cmd : Nat) (failing : Option Nat)
  /-- RESET_START (R511). -/
  | resetStart (straps : Straps)
  /-- STEP_BUILD (R166). -/
  | stepBuild (course : Fin 4) (lane : Lane) (jobs : List Job)
  /-- FILL_WAIT_EXPIRY (R166). -/
  | fillWaitExpiry (course : Fin 4) (lane : Lane) (jobs : List Job)
  /-- STEP_COMMIT (R160). -/
  | stepCommit (course : Fin 4) (lane : Lane) (data : CommitData)
  /-- MASK_JOB_DONE (R223). -/
  | maskJobDone (tile : Fin 64)
  /-- PASS_COMMIT (R100); `busy` gives the array cycles in which a window fill or a Mortar transfer takes a bank of the
  staging buffer (R82). -/
  | passCommit (array : Fin 16) (busy : List (Nat × Nat))
  /-- ARRAY_FAULT (R109). -/
  | arrayFault (array : Fin 16) (kind : ArrayFaultKind)
  /-- SELECTION_UNIT_FAULT (R259). -/
  | selectionUnitFault (tile : Fin 64)
  /-- THROTTLE_PAUSE (R106), of an array, or of another island that can pause. -/
  | throttlePause (island : ClockId)
  /-- THROTTLE_RESUME (R106). -/
  | throttleResume (island : ClockId)
  /-- SEQUENCE_RESTORE (R181). -/
  | sequenceRestore (entry : Nat) (course : Fin 4)
  /-- SEQUENCE_EVICT (R178). -/
  | sequenceEvict (course : Fin 4)
  /-- SEQUENCE_RELOCATE (R486). -/
  | sequenceRelocate (entry : Nat) (course : Fin 4)
  /-- SLOT_LOAD (R279). -/
  | slotLoad (msg : Nat)
  /-- HOP_REQ (R279). -/
  | hopReq (msg : Nat)
  /-- HOP_ACK (R280). -/
  | hopAck (msg : Nat)
  /-- HOP_FWD (R279). -/
  | hopFwd (msg : Nat)
  /-- PAIR (R280). -/
  | pair (msg : Nat)
  /-- RESOLVE (R276). -/
  | resolve (msg : Nat)
  /-- ENTRY (R276). -/
  | entry (msg : Nat)
  /-- SLOT_FREE (R279). -/
  | slotFree (msg : Nat)
  /-- COLD_BATCH_EXPIRY (R295). -/
  | coldBatchExpiry (slot page : Nat) (lost : Bool)
  /-- MIGRATION_INTERVAL (R337). -/
  | migrationInterval
  /-- MOVE_START (R338). -/
  | moveStart (slot row : Nat) (crcOk : Bool)
  /-- ROW_DONE (R338). -/
  | rowDone (slot row : Nat) (forwarded : Bool)
  /-- MOVE_UNIT_START (R367). -/
  | moveUnitStart (move : Nat)
  /-- MOVE_UNIT_VERIFY (R367). -/
  | moveUnitVerify (move : Nat) (result : MoveResult)
  /-- MOVE_OLD_HOME_RELEASE (R367). -/
  | moveOldHomeRelease (move : Nat)
  /-- EVACUATION_MAP_SWITCH (R381). -/
  | evacuationMapSwitch (course : Fin 4)
  /-- EVACUATION_DRAIN_DONE (R381). -/
  | evacuationDrainDone (course : Fin 4)
  /-- CHANNEL_TRAINING_DONE (R381). -/
  | channelTrainingDone (channel : Fin 96) (pass : Bool)
  /-- CHANNEL_TEST_DONE (R381). -/
  | channelTestDone (channel : Fin 96) (pass : Bool)
  /-- AUTO_RETRAIN (R361). -/
  | autoRetrain (channel : Fin 96)
  /-- LPDDR6_PATROL_SCRUB (R356). -/
  | lpddr6PatrolScrub (channel : Fin 96) (found : ScrubData)
  /-- CHANNEL_CALIBRATION (R359). -/
  | channelCalibration (channel : Fin 96) (driftPs : Nat) (retuneOk : Bool)
  /-- REFRESH_TEMP_POLL (R357). -/
  | refreshTempPoll (package : Fin 24) (range : RefreshRange)
  /-- SRAM_PATROL (R459). -/
  | sramPatrol (clk : ClockId) (corrected : Nat) (poisoned : Nat)
  /-- NVME_DELETE_IO_SQ (R412). -/
  | nvmeDeleteIoSq (ctrl : Fin 2) (cid : Nat) (qid : Nat)
  /-- NVME_DELETE_IO_CQ (R412). -/
  | nvmeDeleteIoCq (ctrl : Fin 2) (cid : Nat) (qid : Nat)
  /-- NVME_CREATE_IO_SQ (R412). -/
  | nvmeCreateIoSq (ctrl : Fin 2) (cid : Nat) (qid size cqid : Nat)
  /-- NVME_CREATE_IO_CQ (R412). -/
  | nvmeCreateIoCq (ctrl : Fin 2) (cid : Nat) (qid size vector : Nat)
  /-- NVME_GET_LOG_PAGE (R414). -/
  | nvmeGetLogPage (ctrl : Fin 2) (cid : Nat) (page nsid : Nat)
  /-- NVME_IDENTIFY (R411). -/
  | nvmeIdentify (ctrl : Fin 2) (cid : Nat) (cns nsid : Nat)
  /-- NVME_ABORT (R417). -/
  | nvmeAbort (ctrl : Fin 2) (cid : Nat) (sqid target : Nat) (inQueue : Bool)
  /-- NVME_SET_FEATURES (R414). -/
  | nvmeSetFeatures (ctrl : Fin 2) (cid : Nat) (feature value : Nat)
  /-- NVME_GET_FEATURES (R414). -/
  | nvmeGetFeatures (ctrl : Fin 2) (cid : Nat) (feature : Nat)
  /-- NVME_ASYNC_EVENT_REQUEST (R412). -/
  | nvmeAsyncEventRequest (ctrl : Fin 2) (cid : Nat)
  /-- NAMESPACE_CREATE (R415). -/
  | namespaceCreate (ctrl : Fin 2) (cid : Nat) (request : NsRequest)
  /-- NAMESPACE_DELETE (R415). -/
  | namespaceDelete (ctrl : Fin 2) (cid : Nat) (nsid : Nat)
  /-- NAMESPACE_ATTACHMENT (R412). -/
  | namespaceAttachment (ctrl : Fin 2) (cid : Nat) (nsid : Nat) (attach : Bool) (controllers : List (Fin 2))
  /-- FORMAT_NVM (R412). -/
  | formatNvm (ctrl : Fin 2) (cid : Nat) (nsid ses : Nat)
  /-- GET_LBA_STATUS (R407). -/
  | getLbaStatus (ctrl : Fin 2) (cid : Nat) (nsid slba : Nat)
  /-- NVME_FLUSH (R413). -/
  | nvmeFlush (ctrl : Fin 2) (sq cid : Nat) (nsid : Nat)
  /-- NVME_WRITE (R399). -/
  | nvmeWrite (ctrl : Fin 2) (sq cid : Nat) (nsid slba : Nat) (blocks : List Block) (poisoned : Bool)
  /-- NVME_READ (R400). -/
  | nvmeRead (ctrl : Fin 2) (sq cid : Nat) (nsid slba count : Nat)
  /-- WRITE_ZEROES (R413). -/
  | writeZeroes (ctrl : Fin 2) (sq cid : Nat) (nsid slba count : Nat)
  /-- DATASET_MANAGEMENT (R413). -/
  | datasetManagement (ctrl : Fin 2) (sq cid : Nat) (nsid : Nat) (ranges : List (Nat × Nat))
  /-- NVME_VERIFY (R413). -/
  | nvmeVerify (ctrl : Fin 2) (sq cid : Nat) (nsid slba count : Nat)
  /-- NVME_CONTROLLER_RESET (R513). -/
  | nvmeControllerReset (ctrl : Fin 2)
  /-- STAGING_ADMIT (R399). -/
  | stagingAdmit
  /-- FLASH_PROGRAM_DONE (R399). -/
  | flashProgramDone (nsid lba : Nat) (failed : Bool)
  /-- BAND_CLOSE_VERIFY (R404). -/
  | bandCloseVerify (band : Nat) (failing : Option Nat)
  /-- FOLD_START (R401). -/
  | foldStart
  /-- GC_START (R402). -/
  | gcStart
  /-- JOURNAL_FLUSH (R397). -/
  | journalFlush
  /-- CLOSED_BAND_READ (R405). -/
  | closedBandRead (band : Nat) (soft : Bool)
  /-- FLASH_DIE_FAIL (R406). -/
  | flashDieFail (die : Fin 256)
  /-- MAP_SCAN_DONE (R406). -/
  | mapScanDone
  /-- FLASH_CALIBRATION (R392). -/
  | flashCalibration (channel : Fin 16)
  /-- PFAIL_ASSERT (R420). -/
  | pfailAssert
  /-- HOLD_EXIT (R502). -/
  | holdExit (straps : Straps)
  /-- SUPPLY_FALL (R502). -/
  | supplyFall
  /-- POWER_ON (R515). -/
  | powerOn (board : Board)
  /-- STARTUP_READY (R515). -/
  | startupReady (failed : List ClockId)
  /-- NAMESPACE_MAP_REBUILT (R397). -/
  | namespaceMapRebuilt
  /-- PWR_OK_LOSS (R531). -/
  | pwrOkLoss
  /-- SYS_RESET (R533). -/
  | sysReset
  /-- REFERENCE_LOST (R500). -/
  | referenceLost
  /-- PERST (R513). -/
  | perst (port : Fin 2)
  /-- FLR_PF0 (R513). -/
  | flrPf0 (port : Fin 2)
  /-- FLR_VF (R513). -/
  | flrVf (port : Fin 2) (vf : Nat)
  /-- GOVERNOR_SAMPLE (R506). -/
  | governorSample (watts : Nat)
  /-- GOVERNOR_WINDOW (R507). -/
  | governorWindow
  /-- PAUSE_DUTY_INTERVAL (R507). -/
  | pauseDutyInterval
  /-- THERMAL_REPORT (R509). -/
  | thermalReport (clk : ClockId) (temp : Int)
  /-- IDLE_TIMEOUT (R502). -/
  | idleTimeout
  /-- QUOIN_LOCKSTEP_MISMATCH (R465). -/
  | quoinLockstepMismatch (straps : Straps)
  /-- SUPERVISOR_LOCKSTEP_MISMATCH (R466). -/
  | supervisorLockstepMismatch (course : Fin 4)
  /-- HEARTBEAT_MISS (R464). -/
  | heartbeatMiss (clk : ClockId)
  /-- ISLAND_FAULT_REPORT (R464). -/
  | islandFaultReport (clk : ClockId) (report : FaultReport)
  /-- FAULT_LOG_SAVE (R463). -/
  | faultLogSave
  /-- MCTP_CONTROL (R538). -/
  | mctpControl (eid : Byte)
  /-- PLDM_MESSAGE (R538). -/
  | pldmMessage (message : Pldm)
  /-- ALERT_RESPONSE (R539). -/
  | alertResponse
  /-- PERST_RELEASE (R514). -/
  | perstRelease (port : Fin 2)
  /-- SYS_RESET_RELEASE (R541). -/
  | sysResetRelease (straps : Straps)
  /-- NVME_SQ_TAIL_DOORBELL (R410). -/
  | nvmeSqTailDoorbell (ctrl : Fin 2) (qid tail : Nat)
  /-- NVME_CQ_HEAD_DOORBELL (R410). -/
  | nvmeCqHeadDoorbell (ctrl : Fin 2) (qid head : Nat)
  /-- NVME_CONTROLLER_ENABLE (R410). -/
  | nvmeControllerEnable (ctrl : Fin 2) (asqs acqs : Nat)
  /-- FLASH_ERASE_DONE (R394). -/
  | flashEraseDone (band : Nat) (failed : List Nat)
  /-- FLASH_READ_DONE (R405). -/
  | flashReadDone (nsid lba : Nat) (outcome : ReadOutcome)
  deriving DecidableEq, Repr

end Sys2Proof
end

