-- ==== Sys2Proof/Decode.lean ====
section
/-! DEFINITION. The command that a word spells by the table's bits. spec/opcode_table.json gives no row any bits
(98_reader: no row with fixed bits), so every word is rejected. -/

namespace Sys2Proof

/-- See log 7, DESIGN CHOICE. -/
def decodeTableWord (_nbits _w : Nat) : Option Instr := none

end Sys2Proof
end

