-- ==== Sys2Proof/Machine/State.lean ====
section
/-! DEFINITION. The state of the FV6424 block as plain data: every register, table, queue and pin the spec gives the
device, the queue of waiting commands, and the record of what the device sends out. -/

namespace Sys2Proof.Machine

/-- A table by key. A key that is not listed holds the default record, which is its reset value. -/
abbrev Tbl (κ α : Type) := List (κ × α)

/-- No command of this block raises a fault: every failure of the spec is a completion, an error bit or a logged
fault, all of them effects on State (log 2, DESIGN CHOICE). The one constructor is never raised; safe. -/
inductive Fault where
  | none
  deriving DecidableEq, Repr

/-- Why a command has no meaning. -/
inductive Refusal where
  /-- raised only by an arm of exec that has no meaning yet; safe -/
  | notModelled (mnemonic : String)
  deriving DecidableEq, Repr

/-! ## Completions and what the device sends -/

/-- The status names of R68 and of the ranges of R69. -/
inductive Status where
  | ok | partialDone | invalidOpcode | invalidField | stateConflict | notAuthorized | busyRetry | quotaExceeded
  | cancelled | alreadyComplete | dataLost | uncorrectable | checkMismatch | outputWriteFailed | resourceRetired
  | deadlineDeferred
  | windowFit | modelSlotsFull | adapterSlotsFull | adapterMismatch | contextFull | homeFull
  | tableFull | swapNoSpace | sequenceTooLarge
  | indexFull | indexSlotsFull | pendingFull | hotStoreFull | epochLimit
  | templateSlotsFull | corpusFull | nothingPacked
  | tableSlotsFull
  | moveNoRoom | noSpare | trainingFailed | channelNotActive
  | storeFull | grammarSlotsFull | grammarDead
  | flashReadOnly
  | imageRejected | imageRollback | tokenRejected | attestUnavailable | proofLimit
  | updateFailed | lastInCourse | islandInUse
  | selfTestFailed
  deriving DecidableEq, Repr, Inhabited

/-- EFFECT of a completion (R59). -/
inductive Effect where
  | none | part | full
  deriving DecidableEq, Repr, Inhabited

/-- A completion as a command produces it (R58); phase and SQ_HEAD are set when it is written. -/
structure Completion where
  commandId : BitVec 32 := 0
  status : Status := .ok
  ring : BitVec 16 := 0
  final : Bool := true
  effect : Effect := .none
  compat : Bool := false
  adopted : Bool := false
  noint : Bool := false
  /-- its message is sent at once (R476) -/
  urgent : Bool := false
  count : BitVec 32 := 0
  value : Word64 := 0
  detail : BitVec 32 := 0
  tenant : BitVec 16 := 0
  deriving DecidableEq, Repr, Inhabited

/-- The NVMe statuses that the spec names (R410 to R417). -/
inductive NvmeStatus where
  | success | invalidOpcode | invalidField | invalidNamespace | lbaOutOfRange | unrecoveredRead | namespaceReadOnly
  | capacityExceeded | insufficientCapacity | identifierUnavailable | alreadyAttached | notAttached | abortedByRequest
  | abortedSqDeletion | dataTransferError | invalidQueue | invalidQueueSize | invalidQueueDeletion | invalidCq
  | aerLimit | namespaceNotReady | invalidFormat | invalidLogPage | invalidVector | namespaceAttached
  | writeFault | internalError
  deriving DecidableEq, Repr, Inhabited

/-- What the device sends to the world outside it (log 4, DESIGN CHOICE), in order. -/
inductive Out where
  /-- a completion entry written at a slot, with SQ_HEAD and phase (R49, R58) -/
  | completion (port : Fin 2) (fn ring slot : Nat) (sqHead : BitVec 16) (phase : Bool) (c : Completion)
  /-- an MSI-X message -/
  | msix (port : Fin 2) (fn vector : Nat)
  /-- bytes written through a buffer descriptor of a command, from byte `at_` of the buffer on -/
  | dma (port : Fin 2) (cmd offset at_ : Nat) (bytes : List Byte)
  /-- an NVMe completion of a submission queue, with the data it returned -/
  | nvme (ctrl : Fin 2) (sq cid : Nat) (status : NvmeStatus) (data : List Byte)
  /-- an NVMe asynchronous event (R414, R542) -/
  | nvmeEvent (ctrl : Fin 2) (cid kind : Nat)
  /-- an SMBus packet: MCTP or PLDM reply, alert response (R538, R539) -/
  | smbus (bytes : List Byte)
  deriving DecidableEq, Repr

/-! ## Ports, functions and rings (02) -/

/-- The function registers (R44, R542). -/
structure Func where
  enable : Bool := false
  quiesce : Bool := false
  event : BitVec 4 := 0
  signal : BitVec 4 := 0xF
  deriving DecidableEq, Repr, Inhabited

/-- What a function keeps in configuration space (R41, R42, R542): command register, the BAR0 base, MSI-X Enable and
Function Mask, VF Enable and NumVFs of PF0, and the AER status registers (log 180, PRESUMED). -/
structure ConfSpace where
  command : BitVec 16 := 0
  bar0 : Word64 := 0
  msixEnable : Bool := false
  msixMask : Bool := false
  vfEnable : Bool := false
  numVfs : Nat := 0
  aerUncorrectable : BitVec 32 := 0
  aerCorrectable : BitVec 32 := 0
  deriving DecidableEq, Repr, Inhabited

/-- A completion that waits for its ring, and the command whose final completion it is. -/
structure Held where
  entry : Completion
  cmd : Option Nat := none
  deriving DecidableEq, Repr

/-- The registers of a ring pair (R45, R542), and what R47, R49 and R52 imply the device keeps with them. -/
structure Pair where
  sqBase : Word64 := 0
  cqBase : Word64 := 0
  sqLog2 : BitVec 5 := 0
  cqLog2 : BitVec 5 := 0
  vector : BitVec 12 := 0
  enable : Bool := false
  sqHead : BitVec 16 := 0
  cqTail : BitVec 16 := 0
  error : Bool := false
  cqHold : Bool := false
  idle : Bool := true
  errorCode : BitVec 8 := 0
  count : BitVec 16 := 1
  timeUs : BitVec 16 := 0
  /-- the last tail written -/
  tail : BitVec 16 := 0
  /-- the last head written -/
  head : BitVec 16 := 0
  phase : Bool := true
  /-- completions that wait for room, oldest first -/
  held : List Held := []
  /-- completions written and not yet signalled, and the moment of the first -/
  unsignalled : Nat := 0
  unsignalledAt : Nat := 0
  deriving DecidableEq, Repr, Inhabited

/-- One MSI-X table entry and its pending bit (R542). -/
structure Vec where
  addr : Word64 := 0
  data : BitVec 32 := 0
  masked : Bool := true
  pending : Bool := false
  deriving DecidableEq, Repr, Inhabited

/-- A port: link in L0 (R72), the moment it went down (R489), retired (R481), its PERST# input asserted (R514). -/
structure Port where
  link : Bool := false
  downSince : Nat := 0
  retired : Bool := false
  perst : Bool := true
  deriving DecidableEq, Repr, Inhabited

/-! ## Commands (02) -/

/-- The fields of a command header (R53, R55), whatever its layout. -/
structure Header where
  opcode : BitVec 16 := 0
  flags : Byte := 0
  layout : Byte := 0
  slots : Byte := 0
  reserved : Byte := 0
  tenant : BitVec 16 := 0
  commandId : BitVec 32 := 0
  sid : BitVec 32 := 0
  tag : BitVec 128 := 0
  handle : Word64 := 0
  output : List Byte := []
  imm : Word64 := 0
  deriving DecidableEq, Repr, Inhabited

/-- The states of R74 in which a command is outstanding. A command of group 0x00 or 0x0F enters running at once; one whose
final completion is not yet written is committed. -/
inductive Phase where
  | queued | running | committed
  deriving DecidableEq, Repr, Inhabited

/-- What a command's commit point changes beside its completion. -/
inductive Act where
  | nothing
  /-- tokens enter a sequence, and its carry becomes the bytes given (R144, R210) -/
  | append (entry : Nat) (tokens : List Nat) (carry : List Byte)
  /-- a packed prompt enters a sequence (R320) -/
  | splice (entry : Nat) (tokens : List Nat)
  deriving DecidableEq, Repr, Inhabited

/-- The final completion that a command waits to post, the bytes it writes by descriptor offset, and its act (log 25,
DEDUCED). -/
structure Result where
  status : Status := .ok
  effect : Effect := .full
  count : Nat := 0
  value : Nat := 0
  detail : Nat := 0
  writes : List (Nat × List Byte) := []
  act : Act := .nothing
  urgent : Bool := false
  deriving DecidableEq, Repr, Inhabited

/-- An outstanding command (R74). -/
structure Cmd where
  id : Nat
  port : Fin 2
  fn : Nat
  ring : Nat
  hdr : Header
  params : List Byte := []
  phase : Phase := .queued
  /-- the cancel latch (R75) -/
  cancel : Bool := false
  course : Option (Fin 4) := none
  /-- the route of an adopted command's completions (R73) -/
  route : Option (Fin 2 × Nat × Nat) := none
  /-- a failed write: descriptor offset and bytes written before it (R544) -/
  failed : Option (Nat × Nat) := none
  /-- a result that waits for its commit point (R159) -/
  result : Option Result := none
  /-- vocabulary slots that its data name (R196) -/
  vocabs : List Nat := []
  /-- the targets that a CANCEL waits for (R61) -/
  waits : List Nat := []
  /-- an effect has begun, so that a cancel reports EFFECT 01 (R75) -/
  begun : Bool := false
  /-- when it was fetched, and when its work became runnable (R166) -/
  arrived : Nat := 0
  runnableAt : Nat := 0
  /-- the template strings at its dispatch (R314, R323), or the scope of an accepted service token (R451) -/
  template : List Byte := []
  /-- steps of an ISLAND_RETIRE of a course have moved something (R484) -/
  moved : Bool := false
  /-- its completions are discarded (R50, R542) -/
  discard : Bool := false
  /-- what a query found at its dispatch (R61) -/
  answer : Option Result := none
  /-- its object entered UNLOADING, DROPPING, MOVING or LOADING for it (R135, R197, R216, R272) -/
  holds : Bool := false
  deriving DecidableEq, Repr

/-! ## Sessions and tenants (02, 13) -/

/-- The session states of R72; CLOSED is a session that is not listed. -/
inductive SessState where
  | challenged | opened | detached | closing
  deriving DecidableEq, Repr, Inhabited

/-- A session (R71 to R73). -/
structure Session where
  tenant : Nat
  port : Fin 2
  state : SessState
  nonce : BitVec 256 := 0
  nonceAt : Nat := 0
  /-- an adoption nonce, the port that asked for it and the moment (R72) -/
  adoption : Option (BitVec 256 × Fin 2 × Nat) := none
  tag : BitVec 128 := 0
  /-- functions of the owning port that carried a command of the session (R73) -/
  fns : List Nat := []
  /-- moment at which the hold timer started -/
  holdAt : Nat := 0
  deriving DecidableEq, Repr

/-- Tenant states of R436. -/
inductive TenantState where
  | unset | active | revoking
  deriving DecidableEq, Repr, Inhabited

/-- A tenant (R434 to R437), with the shares and counts kept by it (R78, R79, R170, R173, R189, R439; log 140, DESIGN
CHOICE). -/
structure Tenant where
  state : TenantState := .unset
  key : BitVec 256 := 0
  dataKey : Option (BitVec 512) := none
  weight : Option Nat := none
  depth : Option Nat := none
  /-- none for the Heleri image's default quotas -/
  quotas : Option Quotas := none
  /-- moments of proofs found invalid (R439) -/
  badProofs : List Nat := []
  /-- moments of dispatches (R79) -/
  dispatches : List Nat := []
  /-- element-use charges of the last 10 ms (R173): moment and EU -/
  charges : List (Nat × Rat) := []
  /-- element uses since the tenant was set (R189) -/
  eu : Rat := 0
  dispatched : Nat := 0
  busyRetries : Nat := 0
  tokensCommitted : Nat := 0
  /-- retrieval and feature profiles of 64 bytes by number (R311) -/
  retrievalProfiles : Tbl Nat (List Byte) := []
  featureProfiles : Tbl Nat (List Byte) := []
  deriving DecidableEq, Repr, Inhabited

/-! ## Security (13) -/

/-- The lifecycle states of R428. -/
inductive Lifecycle where
  | factory | unowned | owned | quarantine
  deriving DecidableEq, Repr, Inhabited

/-- The scope of SERVICE (R450): the islands named, none of them for the whole device. -/
structure Service where
  scope : List ClockId := []
  deriving DecidableEq, Repr, Inhabited

/-- The firmware slots of an island class (R445, R477, R516). -/
structure Firmware where
  activeB : Bool := false
  versionA : Nat := 0
  versionB : Nat := 0
  okA : Bool := true
  okB : Bool := false
  imageA : List Byte := []
  imageB : List Byte := []
  deriving DecidableEq, Repr, Inhabited

/-- A FIRMWARE_UPDATE that runs (R478 to R480): its class, its islands still to load, those loaded, its command. -/
structure Update where
  cls : Nat
  left : List ClockId
  loaded : Nat := 0
  cmd : Nat
  deriving DecidableEq, Repr

/-- The security records of R427 and what start-up took from them. -/
structure Security where
  lifecycle : Lifecycle := .unowned
  service : Option Service := none
  serviceCounter : BitVec 32 := 0
  yarcenFloor : Nat := 0
  heleriFloor : Nat := 0
  ownerKeys : List (List Byte) := []
  /-- the owner-key section as pinned, whose digest R445 reports -/
  ownerSection : List Byte := []
  /-- Heleri slots A and B, empty or the bytes of a verified image -/
  slotA : List Byte := []
  slotB : List Byte := []
  /-- the slot the next reset that reloads images uses -/
  activeB : Bool := false
  attSerial : Nat := 1
  attNext : Nat := 0
  attEnd : Nat := 0
  /-- the two sectors of the index log: entries of a key serial and a reservation end, the latest one last in the sector that
  is not erased (R443) -/
  logA : List (Nat × Nat) := []
  logB : List (Nat × Nat) := []
  /-- the current attestation key has a certificate and unused indices -/
  attOk : Bool := true
  /-- the next attestation key is generated and certified -/
  attNextReady : Bool := false
  firmware : Tbl Nat Firmware := []
  update : Option Update := none
  deriving DecidableEq, Repr, Inhabited

/-! ## The device as a whole: start-up, power, clocks, pins (01, 14, 15, 16) -/

/-- Where the device stands outside service: P4, start-up (R515), start-up stopped (R517), in service (P0 to P3),
HOLD (R502). -/
inductive Stage where
  | off | startup | stopped | service | hold
  deriving DecidableEq, Repr, Inhabited

/-- The causes of R519. -/
inductive Cause where
  | powerOn | sysReset | cold | engine | holdExit | thermal | quoin | reference
  deriving DecidableEq, Repr, Inhabited

/-- The kinds of reset that DEVICE_RESET orders (R512). -/
inductive ResetKind where
  | cold | engine
  deriving DecidableEq, Repr, Inhabited

/-- One island (R23, R27, R29, R464, R509). -/
structure Island where
  /-- taken out of service by retirement (R464) -/
  retired : Bool := false
  /-- it leaves service at the next step boundary, and the ISLAND_RETIRE that waits for it (R481, R486) -/
  leaving : Bool := false
  leaver : Option Nat := none
  /-- in the scope of SERVICE (R451) -/
  away : Bool := false
  /-- management clock count at which its cycle counter restarted (R27) -/
  startedAt : Nat := 0
  /-- the marker latched and the island's cycle count (R29) -/
  latch : Option (Word64 × Nat) := none
  /-- its clocks are gated by a throttle order (R106), since when; and when a relock to a new frequency ends (R107, R507) -/
  paused : Bool := false
  pausedAt : Nat := 0
  relockEnd : Nat := 0
  /-- junction temperature in sixteenths of a degree (R519) -/
  temp : Int := 0
  /-- heartbeats missed (R464) -/
  misses : Nat := 0
  missAt : Nat := 0
  /-- the last SRAM patrol that ended (R459) -/
  patrolAt : Option Nat := none
  /-- moments of uncorrectable errors (R464) -/
  errors : List Nat := []
  deriving DecidableEq, Repr, Inhabited

/-- The kinds of governor step (R507). -/
inductive GovStep where
  | array | tile | duty
  /-- the duty raised at once by a single sample, from the eighths given -/
  | jump (eighths : Nat)
  deriving DecidableEq, Repr, Inhabited

/-- A ladder of steps in force: the governor's, or a course's (R507, R509). -/
structure Ladder where
  arraySteps : Nat := 0
  tileSteps : Nat := 0
  duty : Nat := 0
  /-- steps taken, the last first -/
  taken : List GovStep := []
  /-- a course's ladder is running (R509) -/
  running : Bool := false
  /-- moment from which every island of the course has stayed below Tj_max - 8 °C -/
  coolSince : Option Nat := none
  deriving DecidableEq, Repr, Inhabited

/-- The governor (R505 to R508). -/
structure Governor where
  cap : Nat := 620
  ladder : Ladder := {}
  /-- samples of the window that fills -/
  samples : List Nat := []
  average : Nat := 0
  /-- consecutive windows below the cap less 15 W -/
  below : Nat := 0
  /-- the ladder of each course (R509) -/
  courses : Tbl (Fin 4) Ladder := []
  /-- moment at which the last array chain ended (R502) -/
  lastChain : Nat := 0
  /-- moment at which the latest 100 µs interval of the pause duty began (R507) -/
  dutyAt : Option Nat := none
  deriving DecidableEq, Repr, Inhabited

/-- The pins that the model keeps (R533, R535, R539). -/
structure Pins where
  pwrOk : Bool := true
  sysResetN : Bool := true
  pfailN : Bool := true
  reference : Bool := true
  /-- FAULT_N and ALERT_N asserted -/
  fault : Bool := false
  alert : Bool := false
  deriving DecidableEq, Repr, Inhabited

/-- The SMBus endpoint (R538). -/
structure Sideband where
  eid : Byte := 0
  thresholds : Tbl Nat Int := []
  receiver : Option Byte := none
  deriving DecidableEq, Repr, Inhabited

/-- Start-up, straps and power state. -/
structure Device where
  stage : Stage := .startup
  ready : Bool := false
  /-- P2: the array domains are off -/
  gated : Bool := false
  /-- P3, and its entry under way (R503) -/
  asleep : Bool := false
  drowsy : Bool := false
  cfg : Params := Params.factory
  board : Board := {}
  /-- the straps as sampled (R534) -/
  straps : Straps := {}
  /-- the Heleri slot in use, and whether factory defaults are in force -/
  usedB : Bool := false
  factory : Bool := true
  cause : Cause := .powerOn
  /-- islands retired at self-test -/
  selfTestRetired : Nat := 0
  /-- the namespace map is rebuilt (R397) -/
  mapReady : Bool := false
  pendingReset : Option (ResetKind × Nat) := none
  stopFetch : Bool := false
  holdCause : Option Cause := none
  /-- SYS_RESET_N was seen during HOLD (R541) -/
  holdReset : Bool := false
  quoinMismatch : Option Nat := none
  supervisorMismatch : Tbl (Fin 4) Nat := []
  /-- the Quoin's epoch latch: marker and management clock count (R29) -/
  latch : Option (Word64 × Nat) := none
  deriving DecidableEq, Repr, Inhabited

/-- An entry of the fault log (R463). -/
structure FaultEntry where
  seq : Nat
  time : Nat
  clk : ClockId
  cls : Nat
  action : Nat
  addr : Nat := 0
  count : Nat := 1
  deriving DecidableEq, Repr, Inhabited

/-- The fault log and its copy in the serial NOR die (R463). -/
structure FaultLog where
  entries : List FaultEntry := []
  nor : List FaultEntry := []
  next : Nat := 0
  savedAt : Nat := 0
  deriving DecidableEq, Repr, Inhabited

/-! ## Models and adapters (04) -/

/-- The model states of R135. -/
inductive ModelState where
  | ready | moving | cold | unloading
  deriving DecidableEq, Repr, Inhabited

/-- A loaded model: its image as read, its home (0 to 3 a course, 4 striped; R134). -/
structure Model where
  reuse : Nat
  session : Nat
  tenant : Nat
  state : ModelState := .ready
  home : Nat := 4
  /-- its home is in flash (R366) -/
  cold : Bool := false
  image : List Byte := []
  /-- records whose weight home is uncorrectable (R461) -/
  badRecords : List Nat := []
  deriving DecidableEq, Repr, Inhabited

/-- The adapter version states of R148. -/
inductive AdapterState where
  | current | superseded | retiring
  deriving DecidableEq, Repr, Inhabited

/-- An adapter version with storage. -/
structure Adapter where
  state : AdapterState := .current
  tenant : Nat := 0
  image : List Byte := []
  badRecords : List Nat := []
  deriving DecidableEq, Repr, Inhabited

/-! ## Sequences and the serving loop (05) -/

/-- The sequence states of R77; FREE is an entry that is not listed. -/
inductive SeqState where
  | prefill | decode | blockedRetrieval | blockedHost | swapped | finishing | done
  deriving DecidableEq, Repr, Inhabited

/-- A grammar context (R218): state, and the stack with its top first. -/
structure Context where
  state : Nat := 0
  stack : List Nat := []
  deriving DecidableEq, Repr, Inhabited

/-- Where a sequence's move to or from flash stands (R180, R181). -/
inductive Swap where
  | none | evicting (cmd : Option Nat) | restoring (course : Fin 4) | relocating (course : Fin 4)
  deriving DecidableEq, Repr, Inhabited

/-- The run of a SEQ_GENERATE (R64): its command, the counts of this run, and its limits. -/
structure Run where
  cmd : Nat
  interval : Nat := 0
  maxNew : Nat := 0
  /-- tokens committed and text written by the run -/
  tokens : Nat := 0
  bytes : Nat := 0
  text : List Byte := []
  /-- a chunk or a token of it has committed -/
  work : Bool := false
  /-- a token since its last completion was selected under greedy fallback (R255) -/
  fallback : Bool := false
  /-- the carry flush of R548 is still running -/
  flushing : Bool := false
  deriving DecidableEq, Repr, Inhabited

/-- A sequence-table entry (R155) with what its commands and the loop keep with it (log 121, DEDUCED). -/
structure Seq where
  reuse : Nat
  session : Nat
  tenant : Nat
  course : Fin 4
  state : SeqState := .blockedHost
  model : Nat
  adapter : Option (Nat × Nat) := none
  /-- version that a SEQ_REBIND binds at the next step boundary (R149) -/
  rebind : Option Nat := none
  rebindOnReplace : Bool := false
  /-- a newer version has committed since its binding, which its rebind on replace takes (R149) -/
  replaced : Bool := false
  greedy : Bool := false
  vocab : Nat := 0
  stops : List (List Byte) := []
  maxNew : Nat := 0
  grammar : Option Nat := none
  ctx : Context := {}
  temperature : BitVec 16 := 0
  topP : BitVec 16 := 0
  topK : Nat := 0
  trigger : Option Nat := none
  profile : Nat := 0
  seed : Nat := 0
  /-- committed tokens, oldest first -/
  tokens : List Nat := []
  /-- generated tokens committed, splices excluded -/
  generated : Nat := 0
  /-- generated tokens since the last point that starts a query span (R184) -/
  span : List Nat := []
  /-- input tokens that no chunk has taken -/
  input : List Nat := []
  /-- unmerged text of appended input (R210) -/
  carry : List Byte := []
  /-- some input has entered, so that BOS has been placed (R205) -/
  started : Bool := false
  /-- text committed and not yet written to OUTPUT; the tail that may begin a stop string (R229) -/
  undelivered : List Byte := []
  tail : List Byte := []
  run : Option Run := none
  stopReason : Nat := 0
  stopIndex : Nat := 0
  /-- a stop that waits for OUTPUT room: reason, stop-string index, status, DETAIL [8] (R158) -/
  heldStop : Option (Nat × Nat × Status × Bool) := none
  runnable : Bool := false
  /-- spans of 16 positions whose pages it holds, in every block (R142, R143) -/
  spans : Nat := 0
  /-- its page table, entry j × LAYERS + ℓ for the page of span j in block ℓ: page numbers in the course's pool while it
  is resident; and the pages' contents in the same order (R141, R142) -/
  table : List Nat := []
  pages : List (List Byte) := []
  inFlash : Bool := false
  swap : Swap := .none
  maskDeferrals : Nat := 0
  /-- steps in a row that left it out (R165) -/
  starved : Nat := 0
  /-- entry to the present state: the moment, and the cycle count of the course it was in (R155) -/
  enteredAt : Nat := 0
  enteredCycles : Nat := 0
  enteredCourse : Fin 4 := 0
  runnableAt : Nat := 0
  retrievals : Nat := 0
  retrievalFails : Nat := 0
  /-- the trigger's retrieval waits for the retrieval lane -/
  retrieving : Bool := false
  /-- tile whose mask unit serves it (R222), and whether the mask for its next token is ready -/
  maskTile : Nat := 0
  maskReady : Bool := true
  /-- a selection point has passed without its mask (R225) -/
  maskLate : Bool := false
  /-- its last committed token was lost with its course or pages (R461, R486) -/
  lost : Bool := false
  /-- the adoption of R73 ends its run at the next step boundary -/
  adopting : Bool := false
  /-- a cancel of its run is latched (R75) -/
  cancelling : Bool := false
  deriving DecidableEq, Repr

/-- A row of a generation-lane step: a decode row, a prefill chunk of tokens, or a tokenize job of SEQ_APPEND. -/
inductive RowKind where
  | decode | chunk (tokens : Nat) | append (cmd : Nat)
  /-- an in-loop retrieval, in the retrieval lane (R185) -/
  | inLoop
  deriving DecidableEq, Repr, Inhabited

/-- A row or request in a step, with what it holds for the step (R35, R143, R159). -/
structure Row where
  /-- the sequence entry, or the internal number of the command when `kind` is absent -/
  who : Nat
  kind : Option RowKind := none
  tenant : Nat := 0
  model : Nat := 0
  version : Option (Nat × Nat) := none
  /-- new page spans allocated by the step, and their pages' numbers (R143) -/
  spans : Nat := 0
  pages : List Nat := []
  /-- the allotments that its jobs hold, one entry for each, and the semaphores they hold (R35, R36) -/
  allots : List (Endpoint × MortarClass) := []
  semaphores : List Nat := []
  /-- the tile whose cores and selection unit serve it, and the core of its thread (R17) -/
  tile : Fin 64 := 0
  core : Fin 64 := 0
  /-- tile and core of a request's walkers after the first -/
  walkers : List (Fin 64 × Fin 64) := []
  estimate : Rat := 0
  /-- the status that ends it at the commit point: its weights are uncorrectable (R111) -/
  fate : Option Status := none
  /-- what the request brought to its step: query or candidate set -/
  query : Input := .data []
  /-- template strings as at its dispatch, and the profile as at its build (R323) -/
  template : List Byte := []
  profile : List Byte := []
  deriving DecidableEq, Repr

/-- Where a row keeps the outputs of passes: layer record, kind of pass (0 base, 1 low-rank down, 2 scores, 3 mix), what
the kind counts (adapter version, query head, query head and part), column tile. -/
abbrev OutKey := Nat × Nat × Nat × Nat

/-- A row of a step on the arrays and tiles (R117 to R123): the position of an input it stands for, and what the tile
cores and passes of the step have made of it so far. -/
structure RowAct where
  tenant : Nat := 0
  rider : Nat := 0
  model : Nat := 0
  version : Option (Nat × Nat) := none
  /-- its array group in the step, its input among those of the rider, its position in the input -/
  group : Nat := 0
  seg : Nat := 0
  pos : Nat := 0
  token : Nat := 0
  /-- real positions of an encoder's or cross-encoder's input, the rest being padding; 0 for a decoder's row -/
  real : Nat := 0
  /-- it needs the head of the stack (R138) -/
  head : Bool := false
  /-- its weights are uncorrectable, so that it takes no further part (R111) -/
  dead : Bool := false
  /-- sum of the feature rows that its input embedding takes (R308) -/
  feature : List F32 := []
  /-- residual stream; output of the last norm; what attention, activation or pool gave; what the residual takes -/
  x : List F32 := []
  n : List F32 := []
  h : List F32 := []
  y : List F32 := []
  q : List F32 := []
  /-- key and value vector of its position in each block -/
  kv : Tbl Nat (List F32 × List F32) := []
  /-- probabilities of each query head -/
  probs : List (List F32) := []
  /-- experts chosen with their weights, and the outputs of experts (R121) -/
  route : List (Nat × F32) := []
  experts : List (Nat × List F32) := []
  outs : Tbl OutKey (List F32) := []
  /-- the head's outputs: logits, or the score; an encoder's FP16 embedding and its code -/
  result : List F32 := []
  embedding : List (BitVec 16) := []
  code : Code := 0
  deriving DecidableEq, Repr, Inhabited

/-- What a job on a hardware thread works for: a command of its lane, or a walker (R17, R275). -/
inductive JobOwner where
  | command (id : Nat) | walker (walk : Nat)
  deriving DecidableEq, Repr, Inhabited

/-- A job of a lane's step bound for a core (R17), numbered tile × 64 + core: the thread that it holds there, or none
while it waits in its supervisor's dispatch queue. -/
structure ThreadJob where
  owner : JobOwner
  course : Fin 4
  lane : Lane
  core : Nat
  thread : Option (Fin 4) := none
  deriving DecidableEq, Repr

/-- A step in flight (R159). -/
structure StepRec where
  rows : List Row := []
  /-- groups of 32 rows, by model and versions (R163) -/
  groups : Nat := 0
  /-- EU charged by committed passes, by tenant -/
  charges : Tbl Nat Rat := []
  /-- the step takes pages from the reserve (R177) -/
  reserve : Bool := false
  /-- greedy fallback was in force at its build (R258) -/
  recovery : Bool := false
  /-- the cross-encoder stage of a retrieval step has been built (R304) -/
  crossed : Bool := false
  /-- a fault met it (R258) -/
  faulted : Bool := false
  /-- its rows on the arrays; the models that still run, the one in hand first, and its next layer record -/
  acts : List RowAct := []
  models : List Nat := []
  record : Nat := 0
  deriving DecidableEq, Repr

/-- A lane of a course (R152, R166, R172). -/
structure LaneRec where
  step : Option StepRec := none
  lastRelease : Nat := 0
  deficits : Tbl Nat Rat := []
  /-- EU of the lane's previous step, Q of R172 -/
  previous : Rat := 0
  /-- requests left out of a build for query slots (R278), by command: consecutive builds -/
  leftOut : Tbl Nat Nat := []
  deriving DecidableEq, Repr, Inhabited

/-- A course (R258, R287, R467, R486). -/
structure Course where
  generation : LaneRec := {}
  retrieval : LaneRec := {}
  /-- recovery: greedy fallback in force, and the fault-free commits seen in it (R258) -/
  recovery : Bool := false
  clean : Nat := 0
  lost : Bool := false
  /-- the next retrieval step serves extended-mode requests (R287) -/
  extendedTurn : Bool := false
  deriving DecidableEq, Repr, Inhabited

/-! ## Arrays and tiles (03, 06, 07) -/

/-- One slice of an operand row or column: 32 element codes of a format, and the block scale (R83). -/
structure Slice where
  format : Nat := 5
  codes : List Nat := []
  scale : Byte := 0x7F
  deriving DecidableEq, Repr, Inhabited

/-- What one slot of a link or register holds (R83): the element field, two scale bytes, and what the pass says of it:
the format, two slices of MXFP4 in one beat, the first or second half of a 16-bit slice, the last beat of the pass. -/
structure Beat where
  format : Nat := 5
  two : Bool := false
  first : Bool := false
  second : Bool := false
  elems : List Byte := []
  scale0 : Byte := 0x7F
  scale1 : Byte := 0
  last : Bool := false
  deriving DecidableEq, Repr, Inhabited

/-- A cell (R80): its accumulator; the first half of a 16-bit slice whose products wait for the second (R89); the sums of
finished passes that wait for the bottom cell of its column, oldest first (R92; log 154, DEDUCED). -/
structure Cell where
  acc : BitVec 32 := 0
  half : Option (Beat × Beat) := none
  done : List (BitVec 32) := []
  deriving DecidableEq, Repr, Inhabited

/-- The grid of an array (R80, R81): row and column feeder links, the A register right of each cell and the B register
below it, cells, the holding registers of each column, bottom row first, the drains' queues of entries of 4 outputs, and
what the drains have written. -/
structure Grid where
  aLink : Tbl Nat (List Beat) := []
  bLink : Tbl Nat (List Beat) := []
  aReg : Tbl (Nat × Nat) (List Beat) := []
  bReg : Tbl (Nat × Nat) (List Beat) := []
  cells : Tbl (Nat × Nat) Cell := []
  holding : Tbl Nat (List (BitVec 32)) := []
  queue : Tbl Nat (List (List (BitVec 32))) := []
  written : Tbl Nat (List (BitVec 32)) := []
  /-- beats that each row and column feeder has read of the operands in staging, entries that each drain has written -/
  aRead : Tbl Nat Nat := []
  bRead : Tbl Nat Nat := []
  wrote : Tbl Nat Nat := []
  deriving DecidableEq, Repr, Inhabited

/-- The operands of a pass in staging: the beats of each row and of each column (R101). -/
structure StagedPass where
  rows : List (List Beat) := []
  cols : List (List Beat) := []
  deriving DecidableEq, Repr, Inhabited

/-- What a pass computes (R119, R145): a linear's column tile, a low-rank down pass of an adapter version, or the scores
or the mix of a key-value head, the mix over one part of the positions. -/
inductive PassKind where
  | base | down (id ver : Nat) | scores (head : Nat) | mix (head part : Nat)
  deriving DecidableEq, Repr, Inhabited

/-- One pass of a chain (R87, R100): the model and record it runs, the weight block, the row tile (group) and the
column tile, its K and formats, its rows as (row of the step, query head), and their tenants and riders. -/
structure Pass where
  model : Nat := 0
  record : Nat := 0
  kind : PassKind := .base
  block : Nat := 0
  rowTile : Nat := 0
  columnTile : Nat := 0
  rows : List (Nat × Nat) := []
  riders : List (Nat × Nat) := []
  k : Nat := 0
  formatA : Nat := 0
  formatB : Nat := 0
  formatOut : Nat := 10
  /-- none for the output region of the array's own staging, else the endpoint that takes the outputs (R96) -/
  dest : Option Endpoint := none
  deriving DecidableEq, Repr, Inhabited

/-- A block in the window of an array (R136, R137): the lane and block it serves, and the tensor tiles of its record
copied from the model's home, by column tile and adapter version (0 for the base), U and A apart; no tiles for an
attention record, whose B operand is the key pages. -/
structure WBlock where
  lane : Lane := .generation
  block : Nat := 0
  /-- bytes of the slot, WINDOW_SLOT × 64 KiB -/
  slot : Nat := 0
  tiles : Tbl (Nat × Bool × Nat × Nat) (List Byte) := []
  deriving DecidableEq, Repr

/-- An array (R81, R100, R106, R112, R136, R153): the passes of each lane not yet committed, in order. -/
structure ArrayRec where
  generation : List Pass := []
  retrieval : List Pass := []
  /-- its window: the block that is consumed, and the block that has been filled into the other slot -/
  window : List WBlock := []
  grid : Grid := {}
  /-- operands in staging of the passes that the feeders read, the running pass first -/
  staged : List StagedPass := []
  /-- passes committed in the last millisecond: moment, lane, cycles -/
  used : List (Nat × Lane × Nat) := []
  /-- the frequency in force (R107) -/
  clockMhz : Nat := 3300
  /-- attempts of the running pass that faulted (R112) -/
  attempts : Nat := 0
  /-- withdrawn from the rest of a step, of each lane (R112) -/
  withdrawn : Bool := false
  withdrawnR : Bool := false
  deriving DecidableEq, Repr, Inhabited

/-- A tile: mask jobs that wait or run, oldest first (R223), and selection faults in the step (R259). -/
structure TileRec where
  masks : List Nat := []
  selFaults : Nat := 0
  /-- its selection unit is retired (R464) -/
  selRetired : Bool := false
  deriving DecidableEq, Repr, Inhabited

/-! ## Vocabularies and grammars (06) -/

/-- The vocabulary slot states of R197. -/
inductive VocabState where
  | empty | loading | ready | unloading
  deriving DecidableEq, Repr, Inhabited

/-- A vocabulary slot: the generation slots are 0 to 7, the retrieval slots 8 to 11. -/
structure Vocab where
  state : VocabState := .empty
  tenant : Nat := 0
  session : Nat := 0
  image : List Byte := []
  /-- the closing session of its loader lets no new use begin (R488) -/
  refusing : Bool := false
  /-- an extent is uncorrectable (R461) -/
  bad : Bool := false
  /-- its extents in each quarter of the store (R16, R201) -/
  extents : List Nat := []
  /-- the VOCAB_LOAD that copies its image, or the VOCAB_UNLOAD that frees it -/
  worker : Option Nat := none
  deriving DecidableEq, Repr, Inhabited

/-- A grammar (R216, R217). -/
structure Grammar where
  reuse : Nat
  session : Nat
  tenant : Nat
  unloading : Bool := false
  image : List Byte := []
  /-- an extent is uncorrectable (R461) -/
  bad : Bool := false
  /-- its extents in each quarter of the store (R16, R201) -/
  extents : List Nat := []
  deriving DecidableEq, Repr, Inhabited

/-! ## Indices and walks (08) -/

/-- The index states of R272. -/
inductive IndexState where
  | ready | repairing | dropping
  deriving DecidableEq, Repr, Inhabited

/-- The node states of R265. -/
inductive NodeState where
  | pending | live | tombstoned | detached
  deriving DecidableEq, Repr, Inhabited

/-- A node of an index (R264 to R269): its code, identifier, epoch of insertion, base-layer neighbours, and the
neighbours of its upper-layer entries, layer 1 first. -/
structure Node where
  code : Code := 0
  ident : Nat := 0
  epoch : Nat := 0
  state : NodeState := .pending
  neighbours : List Nat := []
  upper : List (List Nat) := []
  /-- epoch whose commit tombstoned it (R292) -/
  deadEpoch : Option Nat := none
  /-- for a detached node: courses whose retrieval step in flight may still visit it (R293) -/
  draining : List Nat := []
  /-- uncorrectable lines of the node: code, adjacency slot, identity entry, upper entry (R280, R300, R461) -/
  badCode : Bool := false
  badSlot : Bool := false
  badIdent : Bool := false
  badUpper : Bool := false
  deriving DecidableEq, Repr, Inhabited

/-- A region of an extended index (R294). -/
structure Region where
  hot : Bool := false
  pinned : Bool := false
  /-- moments of the hops on it in the last 10 s -/
  hops : List Nat := []
  /-- a move of the region runs -/
  moving : Bool := false
  deriving DecidableEq, Repr, Inhabited

/-- A repair pass (R293). -/
structure Repair where
  covered : List Nat := []
  progress : Nat := 0
  running : Bool := false
  deriving DecidableEq, Repr, Inhabited

/-- An index (R264 to R294). -/
structure Index where
  reuse : Nat
  session : Nat
  tenant : Nat
  state : IndexState := .ready
  extended : Bool := false
  config : List Byte := []
  /-- quarter of the hot-graph store that holds its upper layers (R268) -/
  quarter : Fin 4 := 0
  epoch : Nat := 0
  nodes : Tbl Nat Node := []
  nextNode : Nat := 0
  /-- nodes that the next commit tombstones, because a pending insert replaces them (R290) -/
  replaced : List Nat := []
  entry : Option Nat := none
  upperLayers : Nat := 0
  repair : Repair := {}
  regions : Tbl Nat Region := []
  /-- identifiers whose directory line is uncorrectable (R461) -/
  badIdents : List Nat := []
  /-- promotions that HOT_QUOTA refused (R269) -/
  unpromoted : Nat := 0
  /-- INDEX_DELETEs that wait for retrieval steps in flight, by command: their courses (R292) -/
  deletes : Tbl Nat (List Nat) := []
  deriving DecidableEq, Repr, Inhabited

/-- The kinds of message of R279 with what each carries: an ACK its neighbour count and its unreadable flag, a FWD the
nodes, a PAIR node, distance, cold and unreadable flags, an ENTRY identifier, distance and whether the region is cold.
-/
inductive HopKind where
  | load | req | ack (expected : Nat) (bad : Bool) | fwd (targets : List Nat)
  | pair (node dist : Nat) (cold bad : Bool) | resolve (nodes : List Nat) | entry (ident dist : Nat) (cold : Bool) | free
  deriving DecidableEq, Repr, Inhabited

/-- One message between a walker and a hop engine or store quarter; `src` and `dst` are endpoint numbers: tiles 0 to
63, hop engines 64 to 159, store quarters 160 to 163. `node` names the node of a hop, `tag` is its hop tag,
and `slot` the query slot of the engine it goes to. -/
structure HopMsg where
  id : Nat
  walk : Nat
  src : Nat
  dst : Nat
  kind : HopKind
  node : Nat := 0
  tag : Nat := 0
  slot : Nat := 0
  /-- a lane found a double-bit error in it (R38) -/
  poisoned : Bool := false
  deriving DecidableEq, Repr, Inhabited

/-- A hop that a walker has outstanding (R280): pairs announced by its ACK, once that has come, and pairs received. -/
structure HopOut where
  tag : Nat
  expected : Option Nat := none
  got : Nat := 0
  deriving DecidableEq, Repr, Inhabited

/-- One walker of a query (R273, R276): candidates and best nodes as (distance, node), the filter's bit positions, the
hops outstanding. Walker 0's number is the query's. -/
structure Walk where
  id : Nat
  query : Nat
  walker : Nat := 0
  /-- the command's internal number, or the sequence entry of an in-loop retrieval -/
  who : Nat
  inLoop : Bool := false
  tenant : Nat := 0
  course : Fin 4 := 0
  index : Nat
  epoch : Nat := 0
  code : Code := 0
  ef : Nat := 0
  tile : Nat := 0
  /-- the core of its thread, tile × 64 + core, and the cores of the query's further walkers -/
  core : Nat := 0
  cores : List Nat := []
  started : Bool := false
  /-- it may start and waits for a thread; the entry point of a walker after the first -/
  waits : Bool := false
  point : Nat := 0
  /-- the upper layer being descended, 0 on the base layer -/
  layer : Nat := 0
  best : List (Nat × Nat) := []
  cand : List (Nat × Nat) := []
  seen : List Nat := []
  out : List HopOut := []
  hops : Nat := 0
  coldHops : Nat := 0
  unreadable : Nat := 0
  /-- entries that resolve still owes, and those that came back null -/
  owed : Nat := 0
  nulled : Nat := 0
  done : Bool := false
  /-- resolved entries: identifier, distance, cold region -/
  result : List (Nat × Nat × Bool) := []
  deriving DecidableEq, Repr, Inhabited

/-- A query slot of a hop engine (R278): the query that it is loaded with. -/
structure QuerySlot where
  walk : Nat
  /-- released with its step, SLOT_FREE being on its way to the engine -/
  released : Bool := false
  deriving DecidableEq, Repr, Inhabited

/-- A batch of reads of one cold page that a hop engine gathers (R295). -/
structure ColdBatch where
  index : Nat
  page : Nat
  since : Nat
  msgs : List HopMsg := []
  deriving DecidableEq, Repr, Inhabited

/-! ## Corpora and templates (09) -/

/-- A corpus record (R301, R302). -/
structure Record where
  bytes : List Byte := []
  /-- the CRC-64 of its text -/
  check : Nat := 0
  inFlash : Bool := false
  unreadable : Bool := false
  deriving DecidableEq, Repr, Inhabited

/-- A template (R312 to R314). -/
structure Template where
  reuse : Nat
  session : Nat
  tenant : Nat := 0
  image : List Byte := []
  deriving DecidableEq, Repr, Inhabited

/-! ## Embedding tables (10) -/

/-- The migration record of a row (R338): its old and its new shard, the drain count, the writes held by command, and
whether the stub is placed and the entry unlocked. -/
structure Migration where
  row : Nat
  old : Nat
  oldSlot : Nat := 0
  new : Nat
  newSlot : Nat := 0
  draining : Nat := 0
  held : List (Nat × List Byte) := []
  switched : Bool := false
  deriving DecidableEq, Repr, Inhabited

/-- An embedding table (R324 to R345). -/
structure Table where
  reuse : Nat
  session : Nat
  tenant : Nat
  dropping : Bool := false
  /-- its storage is freed once its open migrations have ended -/
  ending : Bool := false
  rows : Nat := 0
  width : Nat := 0
  pooling : Nat := 0
  courses : Nat := 15
  /-- written rows: FP16 elements as bytes -/
  data : Tbl Nat (List Byte) := []
  /-- rows whose home is not their initial slot: shard and slot within it (R327) -/
  homes : Tbl Nat (Nat × Nat) := []
  /-- row fetches by shard in this interval and in the last completed one (R336, R343) -/
  shardCounts : Tbl Nat Nat := []
  lastCounts : Tbl Nat Nat := []
  /-- migrations chosen and not yet open: row and target shard -/
  queue : List (Nat × Nat) := []
  migrations : List Migration := []
  poisoned : List Nat := []
  dropCmd : Option Nat := none
  deriving DecidableEq, Repr, Inhabited

/-! ## LPDDR6 channels and moves (11) -/

/-- The channel roles of R349. -/
inductive Role where
  | active | spare | evacuating | receiving | training | testing | retired
  deriving DecidableEq, Repr, Inhabited

/-- A channel (R349 to R361, R384). -/
structure Channel where
  role : Role := .active
  position : Option Nat := none
  rate : Nat := 3
  refresh : Nat := 0
  /-- corrected words of the last hour, by moment (R361) -/
  corrected : List (Nat × Nat) := []
  /-- the last calibration, and the last patrol scrub that ended (R356, R359) -/
  lastCal : Option Nat := none
  scrubAt : Option Nat := none
  /-- a retune failed, so that the channel needs a full retrain (R361) -/
  retuneFailed : Bool := false
  /-- limited to half its slots (R510) -/
  halved : Bool := false
  deriving DecidableEq, Repr, Inhabited

/-- An evacuation of a channel (R381): its receiver, what follows, the map switched, the position left, the bytes
moved, the command. -/
structure Evacuation where
  receiver : Fin 96
  /-- after the evacuation: 0 retrain, 1 activate spare, 2 retire, 3 SERVICE -/
  action : Nat
  switched : Bool := false
  drained : Bool := false
  bytes : Nat := 0
  /-- walks whose slots the old hop engine had loaded at the switch -/
  walks : List Nat := []
  cmd : Option Nat := none
  deriving DecidableEq, Repr, Inhabited

/-- The move states of R375. -/
inductive MoveState where
  | idle | queued | copying | draining
  deriving DecidableEq, Repr, Inhabited

/-- What a move carries (R366): an object of R371, a sequence, or the position of an evacuating channel. -/
inductive MoveObj where
  | model (slot : Nat) | corpus (slot : Nat) | region (slot : Nat) | seq (entry : Nat) | evacuation (channel : Fin 96)
  deriving DecidableEq, Repr, Inhabited

/-- A move of an object (R366 to R377). -/
structure Move where
  obj : MoveObj
  state : MoveState := .queued
  /-- target: true for flash -/
  toFlash : Bool := false
  device : Bool := false
  first : Nat := 0
  /-- the range's units, and those of them to move (R376) -/
  units : Nat := 0
  ordered : Nat := 1
  /-- the next unit to look at, and units found at the target already (R373) -/
  cursor : Nat := 0
  already : Nat := 0
  committed : Nat := 0
  abandoned : Nat := 0
  bytes : Nat := 0
  /-- the unit in flight, and its attempts -/
  unit : Option Nat := none
  attempts : Nat := 0
  /-- room reserved for the unit in flight: LPDDR6 bytes by course, flash blocks (R367) -/
  takenLp : List (Nat × Nat) := []
  takenFlash : Nat := 0
  /-- the moment before which the copy of its unit cannot end, within Hod's share of the flash tier (R408) -/
  ready : Nat := 0
  /-- old homes not yet released: LPDDR6 bytes by course, flash blocks, swap blocks (R367) -/
  heldLp : List (Nat × Nat) := []
  heldFlash : Nat := 0
  heldSwap : Nat := 0
  cmd : Option Nat := none
  deriving DecidableEq, Repr, Inhabited

/-! ## Flash tier and NVMe (12) -/

/-- What a logical block is (R396): mapped, with its contents, its band and its place in the band; or lost. An unmapped
block is not listed. -/
inductive BlockState where
  | mapped (bytes : List Byte) (band idx : Nat)
  | lost
  deriving DecidableEq, Repr, Inhabited

/-- A namespace (R415): size in blocks, owning tenant, kind, controllers attached, blocks by rising number, and the
blocks as the last journal flush left them (R397, R421). -/
structure Namespace where
  nsze : Nat := 0
  tenant : Nat := 0
  kind : Nat := 0
  attached : List (Fin 2) := []
  blocks : List (Nat × BlockState) := []
  journalled : List (Nat × BlockState) := []
  deriving DecidableEq, Repr, Inhabited

/-- The classes of flash operations (R408). -/
inductive FlashClass where
  | journal | retrieval | host | writes | background
  deriving DecidableEq, Repr, Inhabited

/-- What a flash operation does: it programs a staged block, or erases a die block of a band. -/
inductive FlashWork where
  | program (nsid lba : Nat) | erase (band : Nat)
  deriving DecidableEq, Repr, Inhabited

/-- A flash operation of a die (R408). -/
structure FlashOp where
  die : Nat
  cls : FlashClass
  work : FlashWork
  deriving DecidableEq, Repr, Inhabited

/-- A band (R394): the channels whose dies it leaves out, the blocks placed in it, open, closed, waiting for its erase,
or free; its erase count, its age, the last weekly read of it, a codeword of it that needed step 2 of R405. -/
structure Band where
  missing : List Nat := []
  next : Nat := 0
  closed : Bool := false
  erasing : Bool := false
  free : Bool := false
  erases : Nat := 0
  born : Nat := 0
  readAt : Nat := 0
  worn : Bool := false
  deriving DecidableEq, Repr, Inhabited

/-- A block in the staging buffer (R399): its namespace and number, and the place it is programmed to. -/
structure Staged where
  nsid : Nat
  lba : Nat
  band : Nat
  idx : Nat
  deriving DecidableEq, Repr, Inhabited

/-- A write that waits for staging room (R399): its controller, queue, command, and the blocks not yet past step 2. -/
structure WaitingWrite where
  ctrl : Fin 2
  sq : Nat
  cid : Nat
  nsid : Nat
  slba : Nat
  blocks : List (List Byte) := []
  /-- a block of it has passed step 2 (R417) -/
  begun : Bool := false
  deriving DecidableEq, Repr, Inhabited

/-- A block that a fold or garbage collection has copied: where it was and where its copy is. -/
structure FoldNote where
  nsid : Nat
  lba : Nat
  band : Nat
  idx : Nat
  newIdx : Nat
  deriving DecidableEq, Repr, Inhabited

/-- A fold or a garbage collection that runs (R401, R402). -/
structure Fold where
  gc : Bool := false
  srcs : List Nat
  dst : Nat
  notes : List FoldNote := []
  deriving DecidableEq, Repr, Inhabited

/-- The flash tier. -/
structure Flash where
  namespaces : Tbl Nat Namespace := []
  /-- the bands in use or once used; those numbered below the one-bit bands' count are one-bit bands -/
  bands : Tbl Nat Band := []
  opened : Nat := 0
  writeBand : Option Nat := none
  staging : List Staged := []
  waiting : List WaitingWrite := []
  /-- journal records not yet written, and the moment of the first (R397) -/
  journal : Nat := 0
  journalAt : Nat := 0
  folds : List Fold := []
  /-- dies that have failed, by channel × 16 + die, and those whose map scan is still to end (R406) -/
  failedDies : List Nat := []
  scans : List Nat := []
  /-- die blocks retired, by die (R394) -/
  retired : Tbl Nat Nat := []
  /-- the geometry found, and the division in force (R546): die rows, die blocks per die of the reserve, the one-bit
  region and QLC data, logical blocks of a QLC die block, logical capacity and swap area in blocks -/
  dieRows : Nat := 0
  reserve : Nat := 0
  oneBitPerDie : Nat := 0
  qlcPerDie : Nat := 0
  qlcLbas : Nat := 0
  logical : Nat := 0
  swap : Nat := 0
  /-- reads by die that reached step 3 of R405 or failed it: moment and page (R406) -/
  dieErrors : Tbl Nat (List (Nat × Nat)) := []
  unsafeShutdowns : Nat := 0
  /-- the last shutdown was incomplete (R421), and no shutdown record stands after the last journal record -/
  lastIncomplete : Bool := false
  shutdownOpen : Bool := false
  /-- bytes folded, relocated and written (R414) -/
  bytesFolded : Nat := 0
  bytesGc : Nat := 0
  bytesIn : Nat := 0
  /-- the last calibration of each channel (R392) -/
  calAt : Tbl Nat Nat := []
  /-- operations issued to their dies, one a die; by channel, the class whose turn it is and what is left of its weight
  (R408) -/
  issued : List FlashOp := []
  turns : Tbl Nat (FlashClass × Nat) := []
  /-- the moment from which Hod's share of the tier's bandwidth is free (R408) -/
  hodFree : Nat := 0
  /-- new writes wait since free QLC bands fell below GC_URGENT (R403) -/
  writesHeld : Bool := false
  /-- the moment before which the map scan cannot end (R406) -/
  scanAt : Nat := 0
  deriving DecidableEq, Repr, Inhabited

/-- An NVMe submission or completion queue: its size, the completion queue or vector it uses, head and tail, and for a
completion queue the entries that wait for room. -/
structure NvmeQueue where
  size : Nat := 0
  target : Nat := 0
  head : Nat := 0
  tail : Nat := 0
  held : List (Nat × Nat × NvmeStatus × List Byte) := []
  deriving DecidableEq, Repr, Inhabited

/-- An NVMe controller (R410 to R414). -/
structure Nvme where
  enabled : Bool := false
  sqs : Tbl Nat NvmeQueue := []
  cqs : Tbl Nat NvmeQueue := []
  features : Tbl Nat Nat := []
  /-- outstanding asynchronous event requests, by command identifier, and events not yet reported -/
  aers : List Nat := []
  events : List Nat := []
  /-- namespaces whose attributes changed, for the log page -/
  changed : List Nat := []
  /-- commands whose transfer the host has refused, by submission queue and identifier (R544) -/
  refused : List (Nat × Nat) := []
  deriving DecidableEq, Repr, Inhabited

/-! ## Scans (14) -/

/-- The scan states of R474. -/
inductive ScanState where
  | queued | running | suspended
  deriving DecidableEq, Repr, Inhabited

/-- A scan (R471 to R476). -/
structure Scan where
  session : Nat
  tenant : Nat
  state : ScanState := .queued
  unit : Option (Fin 4) := none
  width : Nat := 1
  reflect : Nat := 0
  space : Nat := 0
  poly : Nat := 0
  finalXor : Nat := 0
  expected : Nat := 0
  start : Nat := 0
  length : Nat := 0
  running : Nat := 0
  done : Nat := 0
  /-- its namespace was deleted while it was SUSPENDED (R495) -/
  orphan : Bool := false
  /-- the moment at which it took its context (R475) -/
  since : Nat := 0
  cmd : Nat := 0
  deriving DecidableEq, Repr, Inhabited

/-! ## The whole state -/

/-- The objects that sessions own (R77), each kind by its slot, and the reuse counters of every slot. -/
structure Objects where
  models : Tbl Nat Model := []
  modelReuse : Tbl Nat Nat := []
  /-- adapter versions with storage, by model slot, adapter ID and version, and the highest version of each ID -/
  adapters : Tbl (Nat × Nat × Nat) Adapter := []
  adapterTop : Tbl (Nat × Nat) Nat := []
  seqs : Tbl Nat Seq := []
  seqReuse : Tbl Nat Nat := []
  vocabs : Tbl Nat Vocab := []
  grammars : Tbl Nat Grammar := []
  grammarReuse : Tbl Nat Nat := []
  indices : Tbl Nat Index := []
  indexReuse : Tbl Nat Nat := []
  corpora : Tbl Nat (Tbl Nat Record) := []
  templates : Tbl Nat Template := []
  templateReuse : Tbl Nat Nat := []
  tables : Tbl Nat Table := []
  tableReuse : Tbl Nat Nat := []
  scans : Tbl Nat Scan := []
  deriving DecidableEq, Repr, Inhabited

/-- The engines: courses, arrays, tiles, walks, channels, moves (log 127, DESIGN CHOICE). -/
structure Engines where
  courses : Tbl (Fin 4) Course := []
  arrays : Tbl (Fin 16) ArrayRec := []
  tiles : Tbl (Fin 64) TileRec := []
  /-- jobs on threads and in the supervisors' dispatch queues, oldest first (R17) -/
  jobs : List ThreadJob := []
  walks : List Walk := []
  nextWalk : Nat := 0
  net : List HopMsg := []
  nextMsg : Nat := 0
  slots : Tbl (Nat × Nat) QuerySlot := []
  cold : List ColdBatch := []
  /-- moments of region moves that the Quoin ordered in the last second (R294) -/
  regionMoves : List Nat := []
  channels : Tbl (Fin 96) Channel := []
  /-- the list of 256 table rows and counts that each hop engine keeps (R336), and the end of the last interval -/
  topRows : Tbl Nat (List (Nat × Nat × Nat)) := []
  lastInterval : Nat := 0
  evacuations : Tbl (Fin 96) Evacuation := []
  moves : Tbl Nat Move := []
  nextMove : Nat := 0
  deriving DecidableEq, Repr, Inhabited

/-- The host interface of PF0 and its virtual functions on both ports. -/
structure HostIf where
  ports : Tbl (Fin 2) Port := []
  /-- the management-primary port (R489) -/
  primary : Fin 2 := 0
  funcs : Tbl (Fin 2 × Nat) Func := []
  pairs : Tbl (Fin 2 × Nat × Nat) Pair := []
  vecs : Tbl (Fin 2 × Nat × Nat) Vec := []
  conf : Tbl (Fin 2 × Nat) ConfSpace := []
  /-- functions whose BAR0 an FLR has reset since images were loaded; PF0's stands for all its virtual functions (R542) -/
  flrs : List (Fin 2 × Nat) := []
  deriving DecidableEq, Repr, Inhabited

/-- The state of the device, with its queue of waiting commands. -/
structure State where
  pending : List Instr := []
  /-- the model's own counter of free values drawn; no statement rests on its value (log 3, DESIGN CHOICE) -/
  fresh : Nat := 0
  out : List Out := []
  /-- management clock count (R25, R27) -/
  now : Nat := 0
  cmds : List Cmd := []
  nextCmd : Nat := 0
  host : HostIf := {}
  sessions : Tbl Nat Session := []
  nextSession : Nat := 1
  tenants : Tbl Nat Tenant := []
  sec : Security := {}
  dev : Device := {}
  islands : Tbl ClockId Island := []
  counters : Tbl (ClockId × Nat) Nat := []
  gov : Governor := {}
  pins : Pins := {}
  smb : Sideband := {}
  log : FaultLog := {}
  obj : Objects := {}
  eng : Engines := {}
  flash : Flash := {}
  nvme : Tbl (Fin 2) Nvme := []
  deriving DecidableEq, Repr

/-- The device right after reset: a cold reset of a new part on the reference board has begun, nothing is loaded,
every register holds its factory default, and the queue is empty (R511, R515, R542; log 5, DESIGN CHOICE). -/
def State.reset : State := {}

end Sys2Proof.Machine
end

