-- ==== Sys2Proof/Machine/Bytes.lean ====
section
/-! DEFINITION. Little-endian bytes (R7), and the operations on tables by key. -/

namespace Sys2Proof.Machine

/-! ## Bytes -/

/-- The number that bytes spell, least significant first (R7). -/
def leNat : List Byte → Nat
  | [] => 0
  | b :: bs => b.toNat + 256 * leNat bs

/-- A number as `n` bytes, least significant first (R7). -/
def leBytes : Nat → Nat → List Byte
  | 0, _ => []
  | n + 1, v => BitVec.ofNat 8 v :: leBytes n (v / 256)

/-- `n` bytes from offset `o`. -/
def slice (b : List Byte) (o n : Nat) : List Byte := (b.drop o).take n

/-- The little-endian field of `n` bytes at offset `o`. -/
def field (b : List Byte) (o n : Nat) : Nat := leNat (slice b o n)

/-- Bytes filled with zeros, or cut, to a length. -/
def padTo (n : Nat) (b : List Byte) : List Byte := (b ++ List.replicate (n - b.length) 0).take n

/-- Whether the `n` bytes at `o` are all 0, as reserved bytes must be (R8). -/
def zeroAt (b : List Byte) (o n : Nat) : Bool := (slice b o n).all (· == 0)

/-- Bit `i` of a number. -/
def bitOf (v i : Nat) : Bool := v / 2 ^ i % 2 == 1

/-- The bits [lo + n - 1 : lo] of a number. -/
def bitsOf (v lo n : Nat) : Nat := v / 2 ^ lo % 2 ^ n

/-- 1 for true, 0 for false. -/
def b2n (b : Bool) : Nat := if b then 1 else 0

/-- The bytes of an input buffer; none where the device could not use it whole. -/
def Input.bytes? : Input → Option (List Byte)
  | .data b => some b
  | _ => none

/-- Upward division. -/
def ceilDiv (a b : Nat) : Nat := (a + b - 1) / b

/-- Inserts an element before the first that it does not follow. -/
def ins {α : Type} (le : α → α → Bool) (x : α) : List α → List α
  | [] => [x]
  | y :: ys => if le x y then x :: y :: ys else y :: ins le x ys

/-- A list in order; equal elements keep their order. -/
def isort {α : Type} (l : List α) (le : α → α → Bool) : List α := l.foldr (ins le) []

/-- The sum of a function over a list. -/
def sumBy {α : Type} (f : α → Nat) (l : List α) : Nat := l.foldl (fun a x => a + f x) 0

/-! ## Tables by key -/

/-- The listed record of a key. -/
def find? {κ α : Type} [DecidableEq κ] : Tbl κ α → κ → Option α
  | [], _ => none
  | (k, v) :: t, i => if k = i then some v else find? t i

/-- The record of a key, its default where none is listed. -/
def look {κ α : Type} [DecidableEq κ] [Inhabited α] (t : Tbl κ α) (i : κ) : α := (find? t i).getD default

/-- The table with one record replaced, or listed last. -/
def put {κ α : Type} [DecidableEq κ] : Tbl κ α → κ → α → Tbl κ α
  | [], i, v => [(i, v)]
  | (k, w) :: t, i, v => if k = i then (i, v) :: t else (k, w) :: put t i v

/-- The table without a key. -/
def del {κ α : Type} [DecidableEq κ] (t : Tbl κ α) (i : κ) : Tbl κ α := t.filter (fun p => p.1 ≠ i)

/-- The table with one record changed, from its default where none is listed. -/
def upd {κ α : Type} [DecidableEq κ] [Inhabited α] (t : Tbl κ α) (i : κ) (f : α → α) : Tbl κ α :=
  put t i (f (look t i))

/-- The table with the record of a key changed, where it is listed. -/
def adj {κ α : Type} [DecidableEq κ] (t : Tbl κ α) (i : κ) (f : α → α) : Tbl κ α :=
  t.map (fun p => if p.1 = i then (p.1, f p.2) else p)

/-- Every listed record changed. -/
def mapTbl {κ α : Type} (t : Tbl κ α) (f : κ → α → α) : Tbl κ α := t.map (fun p => (p.1, f p.1 p.2))

/-- The keys from `start` on, `n` of them, that a table does not list; the least of them. -/
def firstFree {α : Type} (t : Tbl Nat α) : Nat → Nat → Option Nat
  | _, 0 => none
  | start, n + 1 => if (find? t start).isNone then some start else firstFree t (start + 1) n

/-- Repeated folding with the state, over a list. -/
def foldS {σ α : Type} (f : σ → α → σ) (l : List α) (s : σ) : σ := l.foldl f s

end Sys2Proof.Machine
end

