-- ==== Sys2Proof/Machine/Fp.lean ====
section
/-! DEFINITION. Floating-point arithmetic as the arrays, drains and selection units do it (R85, R89 to R95, R252):
values are exact dyadic numbers, rounded once to nearest even where a rule says so. -/

namespace Sys2Proof.Machine

/-- A value: not a number, an infinity, or the finite number (-1)^neg × m × 2^e. -/
inductive Val where
  | nan
  | inf (neg : Bool)
  | fin (neg : Bool) (m : Nat) (e : Int)
  deriving DecidableEq, Repr, Inhabited

/-- A binary format: mantissa field bits, exponent bias, total bits less the sign. -/
structure Fmt where
  man : Nat
  bias : Int
  bits : Nat

def fmtF32 : Fmt := ⟨23, 127, 31⟩
def fmtBf16 : Fmt := ⟨7, 127, 15⟩
def fmtF16 : Fmt := ⟨10, 15, 15⟩
def fmtE4M3 : Fmt := ⟨3, 7, 7⟩
def fmtE5M2 : Fmt := ⟨2, 15, 7⟩
def fmtE3M2 : Fmt := ⟨2, 3, 5⟩
def fmtE2M3 : Fmt := ⟨3, 1, 5⟩
def fmtE2M1 : Fmt := ⟨1, 1, 3⟩

/-- Exponent of the least subnormal bit of a format. -/
def Fmt.least (f : Fmt) : Int := 1 - f.bias - f.man

/-- The finite value of a code whose exponent and mantissa fields hold no special value; subnormals are honoured
(R85). -/
def Fmt.finite (f : Fmt) (code : Nat) : Val :=
  let neg := code / 2 ^ f.bits % 2 = 1
  let x := code / 2 ^ f.man % 2 ^ (f.bits - f.man)
  let m := code % 2 ^ f.man
  if x = 0 then .fin neg m f.least else .fin neg (m + 2 ^ f.man) (f.least + (x - 1 : Nat))

/-- The value of a code of a format with infinities and NaNs at the top exponent. -/
def Fmt.ieee (f : Fmt) (code : Nat) : Val :=
  let x := code / 2 ^ f.man % 2 ^ (f.bits - f.man)
  if x = 2 ^ (f.bits - f.man) - 1 then
    if code % 2 ^ f.man = 0 then .inf (code / 2 ^ f.bits % 2 = 1) else .nan
  else f.finite code

def f32Val (x : F32) : Val := fmtF32.ieee x.toNat
def f16Val (x : BitVec 16) : Val := fmtF16.ieee x.toNat

/-- m × 2^e as a multiple of 2^q, rounded to nearest even. -/
def roundShift (m : Nat) (e q : Int) : Nat :=
  if q ≤ e then m * 2 ^ (e - q).toNat
  else
    let k := (q - e).toNat
    let n := m / 2 ^ k
    let r := m % 2 ^ k
    if 2 * r > 2 ^ k ∨ (2 * r = 2 ^ k ∧ n % 2 = 1) then n + 1 else n

/-- The code, without sign, of m × 2^e rounded to nearest even in a format; it may lie above the largest code. -/
def Fmt.round (f : Fmt) (m : Nat) (e : Int) : Nat :=
  if m = 0 then 0
  else
    let q := max (e + (Nat.log2 m : Nat) - f.man) f.least
    (q - f.least).toNat * 2 ^ f.man + roundShift m e q

def nanF32 : F32 := 0x7FC00000

def infF32 (neg : Bool) : F32 := if neg then 0xFF800000 else 0x7F800000

/-- A value as FP32: overflow gives an infinity (R90). -/
def toF32 : Val → F32
  | .nan => nanF32
  | .inf n => infF32 n
  | .fin n m e =>
    let c := fmtF32.round m e
    if c ≥ 0x7F800000 then infF32 n else BitVec.ofNat 32 (c + if n then 2 ^ 31 else 0)

/-! ## Exact operations -/

/-- The finite value of a signed multiple of 2^e; zero is positive. -/
def ofInt (i : Int) (e : Int) : Val := .fin (i < 0) i.natAbs e

def signed (neg : Bool) (m : Nat) : Int := if neg then -(m : Int) else m

def vneg : Val → Val
  | .nan => .nan
  | .inf n => .inf (!n)
  | .fin n m e => .fin (!n) m e

def vmul : Val → Val → Val
  | .nan, _ => .nan
  | _, .nan => .nan
  | .inf a, .inf b => .inf (a != b)
  | .inf a, .fin b m _ => if m = 0 then .nan else .inf (a != b)
  | .fin a m _, .inf b => if m = 0 then .nan else .inf (a != b)
  | .fin a m e, .fin b n g => .fin (a != b) (m * n) (e + g)

def vadd : Val → Val → Val
  | .nan, _ => .nan
  | _, .nan => .nan
  | .inf a, .inf b => if a = b then .inf a else .nan
  | .inf a, .fin .. => .inf a
  | .fin .., .inf b => .inf b
  | .fin a m e, .fin b n g =>
    if m = 0 ∧ n = 0 then .fin (a && b) 0 0
    else
      let q := min e g
      ofInt (signed a m * 2 ^ (e - q).toNat + signed b n * 2 ^ (g - q).toNat) q

/-- A quotient close enough for one correct rounding to any format of at most 24 significant bits: 64 quotient bits
and a sticky bit. -/
def vdiv : Val → Val → Val
  | .nan, _ => .nan
  | _, .nan => .nan
  | .inf _, .inf _ => .nan
  | .inf a, .fin b _ _ => .inf (a != b)
  | .fin a _ _, .inf b => .fin (a != b) 0 0
  | .fin a m e, .fin b n g =>
    if n = 0 then (if m = 0 then .nan else .inf (a != b))
    else
      let k := 66 + Nat.log2 n
      let num := m * 2 ^ k
      .fin (a != b) (2 * (num / n) + if num % n = 0 then 0 else 1) (e - g - k - 1)

def fadd (a b : F32) : F32 := toF32 (vadd (f32Val a) (f32Val b))
def fmul (a b : F32) : F32 := toF32 (vmul (f32Val a) (f32Val b))
def fsub (a b : F32) : F32 := toF32 (vadd (f32Val a) (vneg (f32Val b)))
def fdiv (a b : F32) : F32 := toF32 (vdiv (f32Val a) (f32Val b))
def ofNatF32 (n : Nat) : F32 := toF32 (.fin false n 0)
def f16ToF32 (x : BitVec 16) : F32 := toF32 (f16Val x)

/-- Whether a value is less than another, as numbers; a NaN is less than nothing. -/
def vlt : Val → Val → Bool
  | .nan, _ => false
  | _, .nan => false
  | .inf a, .inf b => a && !b
  | .inf a, .fin .. => a
  | .fin .., .inf b => !b
  | .fin a m e, .fin b n g =>
    let q := min e g
    signed a m * 2 ^ (e - q).toNat < signed b n * 2 ^ (g - q).toNat

def flt (a b : F32) : Bool := vlt (f32Val a) (f32Val b)
def isNanF32 (a : F32) : Bool := f32Val a == .nan

/-! ## Operand formats (R85, R128) -/

/-- The value of an element code of an operand format: codes 0 to 9 of R128; 7, INT8, is its integer. -/
def elemVal (format code : Nat) : Val :=
  match format with
  | 0 | 5 => if code % 128 = 127 then .nan else fmtE4M3.finite code
  | 1 | 6 => fmtE5M2.ieee code
  | 2 => fmtE3M2.finite code
  | 3 => fmtE2M3.finite code
  | 4 => fmtE2M1.finite code
  | 7 => ofInt (BitVec.ofNat 8 code).toInt 0
  | 8 => fmtBf16.ieee code
  | 9 => fmtF16.ieee code
  | _ => .nan

/-- Whether a format carries an E8M0 block scale (R85). -/
def blockScaled (format : Nat) : Bool := format < 5

/-- The value of an E8M0 scale (R85); formats without one carry 1 (R83). -/
def scaleVal (format : Nat) (x : Byte) : Val :=
  if !blockScaled format then .fin false 1 0
  else if x = 0xFF then .nan else .fin false 1 ((x.toNat : Int) - 127)

/-- The exact sum of the products of two slices (R89). -/
def dotExact (fa fb : Nat) (a b : List Nat) : Val :=
  (List.zipWith (fun x y => vmul (elemVal fa x) (elemVal fb y)) a b).foldl vadd (.fin false 0 0)

/-- The pairing rules of R86: 0 the microscaled and FP8 formats, 1 INT8, 2 the 16-bit formats. -/
def pairFamily (format : Nat) : Nat := if format = 7 then 1 else if format = 8 ∨ format = 9 then 2 else 0

/-- One slice added into a floating-point accumulator with one rounding; a NaN stays for the rest of the pass
(R89, R90). -/
def accumulate (acc : F32) (a b : Slice) : F32 :=
  if isNanF32 acc then nanF32
  else
    let p := vmul (dotExact a.format b.format a.codes b.codes) (vmul (scaleVal a.format a.scale) (scaleVal b.format b.scale))
    toF32 (vadd (f32Val acc) p)

/-- The sum of the products of two INT8 slices (R91). -/
def dotInt (a b : List Nat) : Int :=
  (List.zipWith (fun x y => (BitVec.ofNat 8 x).toInt * (BitVec.ofNat 8 y).toInt) a b).foldl (· + ·) 0

/-- One slice into an accumulator: INT32 for INT8 operands, else FP32 (R89 to R91). -/
def accumulateSlice (acc : BitVec 32) (a b : Slice) : BitVec 32 :=
  if a.format = 7 then acc + BitVec.ofInt 32 (dotInt a.codes b.codes) else accumulate acc a b

/-- The drain's value (R93): one fused operation with one rounding. -/
def drainScale (acc : Val) (sRow sCol bias : F32) : F32 :=
  toF32 (vadd (vmul (vmul acc (f32Val sRow)) (f32Val sCol)) (f32Val bias))

/-- A code whose finite overflow clamps to the largest code. -/
def clampCode (f : Fmt) (largest : Nat) (neg : Bool) (m : Nat) (e : Int) : Nat × Bool :=
  let c := f.round m e
  (min c largest + (if neg then 2 ^ f.bits else 0), c > largest)

/-- One value converted to a format without a block scale (R94), with whether it was clamped. The code of a NaN that is
only kept is the model's: 0x7FC0 of BF16, 0x7E00 of FP16, 0x7F of FP8 E5M2 (log 161, DESIGN CHOICE); and INT8, which no
drain writes, takes the nearest integer (log 151, DESIGN CHOICE). -/
def convert (format : Nat) (v : F32) : Nat × Bool :=
  match format, f32Val v with
  | 10, _ => (v.toNat, false)
  | 8, .nan => (0x7FC0, false)
  | 8, .inf n => (0x7F80 + (if n then 0x8000 else 0), false)
  | 8, .fin n m e => (min (fmtBf16.round m e) 0x7F80 + (if n then 0x8000 else 0), false)
  | 9, .nan => (0x7E00, false)
  | 9, .inf n => (0x7C00 + (if n then 0x8000 else 0), false)
  | 9, .fin n m e => (min (fmtF16.round m e) 0x7C00 + (if n then 0x8000 else 0), false)
  | 5, .nan => (0x7F, false)
  | 5, .inf n => (0x7E + (if n then 0x80 else 0), true)
  | 5, .fin n m e => clampCode fmtE4M3 0x7E n m e
  | 6, .nan => (0x7F, false)
  | 6, .inf n => (0x7C + (if n then 0x80 else 0), false)
  | 6, .fin n m e => clampCode fmtE5M2 0x7B n m e
  | 7, .fin n m e =>
    let r := signed n (roundShift m e 0)
    ((BitVec.ofInt 8 (max (-128) (min 127 r))).toNat, r < -128 || 127 < r)
  | 7, .inf n => (if n then 0x80 else 0x7F, true)
  | 7, .nan => (0, false)
  | _, _ => (v.toNat, false)

/-- The element format of a microscaled output, its largest code and the exponent of its largest normal value
(R95). -/
def blockFmt : Nat → Fmt × Nat × Int
  | 0 => (fmtE4M3, 0x7E, 8)
  | 1 => (fmtE5M2, 0x7B, 15)
  | 2 => (fmtE3M2, 0x1F, 4)
  | 3 => (fmtE2M3, 0x1F, 2)
  | _ => (fmtE2M1, 0x7, 2)

/-- ⌊log₂⌋ of a finite nonzero magnitude; an infinity counts as above every finite value, so that X clamps to 127. -/
def expOf : Val → Int
  | .fin _ m e => e + (Nat.log2 m : Nat)
  | _ => 1000

/-- One row of 32 outputs as a microscaled block (R95): scale byte, element codes, and how many were clamped. The codes
of a block whose scale is NaN are not stated: the model writes 0 and counts no clamp (log 161, DESIGN CHOICE). -/
def blockOut (format : Nat) (vs : List F32) : Nat × List Nat × Nat :=
  let vals := vs.map f32Val
  if vals.any (· == .nan) then (0xFF, vs.map (fun _ => 0), 0)
  else
    let live := vals.filter (fun v => match v with | .fin _ m _ => m ≠ 0 | _ => true)
    match live with
    | [] => (0, vs.map (fun v => if v.getLsbD 31 then 2 ^ (blockFmt format).1.bits else 0), 0)
    | v :: rest =>
      let (f, largest, emax) := blockFmt format
      let top := rest.foldl (fun a w => max a (expOf w)) (expOf v)
      let x := max (-127) (min 127 (top - emax))
      let one := fun (w : Val) => match w with
        | .fin n m e => clampCode f largest n m (e - x)
        | .inf n => (largest + (if n then 2 ^ f.bits else 0), true)
        | .nan => (0, false)
      let cs := vals.map one
      ((x + 127).toNat, cs.map (·.1), (cs.filter (·.2)).length)

/-- T of R98: cycles of a pass in each cell, by K and the two formats. -/
def passTime (k fa fb : Nat) : Nat :=
  let ks := k / 32
  max (if pairFamily fa = 2 then 2 * ks else if fa = 4 ∧ fb = 4 then ceilDiv ks 2 else ks) 8

end Sys2Proof.Machine
end

