-- ==== Sys2Proof/Machine/Funcs.lean ====
section
/-! DEFINITION. The tile cores' FP32 functions (R122): each value lies within its bound of the exact one, by a free
number of units in the last place; sums over a row go in pairwise order. -/

namespace Sys2Proof.Machine

/-! ## Exact values -/

/-- A rational as a value, close enough for one correct rounding to FP32. -/
def ratVal (q : Rat) : Val := vdiv (ofInt q.num 0) (.fin false q.den 0)

/-- The finite value of an FP32 number; none for an infinity or a NaN. -/
def finite? (x : F32) : Option Rat :=
  match f32Val x with
  | .fin n m e => some ((signed n m : Rat) * (2 : Rat) ^ e)
  | _ => none

/-- A rational rounded to FP32. -/
def toF32Rat (q : Rat) : F32 := toF32 (ratVal q)

/-- π and ln 2 to 50 digits. -/
def piRat : Rat := 314159265358979323846264338327950288419716939937510 / 10 ^ 50
def ln2Rat : Rat := 69314718055994530941723212145817656807550013436026 / 10 ^ 50

/-- A power series from its term of number `n`, which begins as `t` and goes on by `next`; `k` terms. -/
def series (next : Nat → Rat → Rat) : Nat → Nat → Rat → Rat
  | 0, _, _ => 0
  | k + 1, n, t => t + series next k (n + 1) (next n t)

/-- e^x, for an x of moderate size. -/
def expRat (x : Rat) : Rat :=
  let k := (x / ln2Rat + 1 / 2).floor
  let r := x - k * ln2Rat
  series (fun n t => t * r / ((n : Rat) + 1)) 30 0 1 * (2 : Rat) ^ k

/-- ln x of a positive x. -/
def lnRat (x : Rat) : Rat :=
  let e : Int := (Nat.log2 x.num.natAbs : Int) - (Nat.log2 x.den : Int)
  let y := (x / (2 : Rat) ^ e - 1) / (x / (2 : Rat) ^ e + 1)
  2 * series (fun n t => t * y * y * (2 * (n : Rat) + 1) / (2 * (n : Rat) + 3)) 60 0 y + e * ln2Rat

/-- 1 ÷ √x of a positive x. -/
def rsqrtRat (x : Rat) : Rat :=
  (Nat.sqrt (x.den * x.num.natAbs * 2 ^ 400) : Rat) / (x.num.natAbs * 2 ^ 200 : Nat)

def tanhRat (x : Rat) : Rat :=
  if x < 1 / 4096 ∧ -1 / 4096 < x then x - x ^ 3 / 3 + 2 * x ^ 5 / 15
  else if 20 < x then 1 else if x < -20 then -1
  else (expRat (2 * x) - 1) / (expRat (2 * x) + 1)

def erfRat (x : Rat) : Rat :=
  if 5 < x then 1 else if x < -5 then -1
  else 2 * rsqrtRat piRat * series (fun n t => -t * x * x * (2 * (n : Rat) + 1) / (((n : Rat) + 1) * (2 * n + 3))) 130 0 x

/-- An angle brought near 0. -/
def reduceAngle (x : Rat) : Rat := x - (x / (2 * piRat) + 1 / 2).floor * (2 * piRat)

def sinRat (x : Rat) : Rat :=
  let r := reduceAngle x
  series (fun n t => -t * r * r / ((2 * (n : Rat) + 2) * (2 * n + 3))) 30 0 r

def cosRat (x : Rat) : Rat :=
  let r := reduceAngle x
  series (fun n t => -t * r * r / ((2 * (n : Rat) + 1) * (2 * n + 2))) 30 0 1

/-! ## Within a bound (R122; log 151, DESIGN CHOICE) -/

/-- The place of an FP32 number in their order. -/
def f32Order (x : F32) : Int := signed (x.getLsbD 31) (x.toNat % 2 ^ 31)

def f32At (i : Int) : F32 := BitVec.ofNat 32 (i.natAbs + if i < 0 then 2 ^ 31 else 0)

/-- The functions of the table of R122. -/
inductive Fn where
  | exp | reciprocal | rsqrt | tanh | erf | sin | cos
  deriving DecidableEq, Repr

/-- The error bound of a function, in units in the last place. -/
def Fn.bound : Fn → Nat
  | .exp | .tanh => 2
  | .reciprocal | .rsqrt => 1
  | .erf => 3
  | .sin | .cos => 4

def Fn.number : Fn → Nat
  | .exp => 0 | .reciprocal => 1 | .rsqrt => 2 | .tanh => 3 | .erf => 4 | .sin => 5 | .cos => 6

/-- A value within a function's bound of the exact one; infinities are neither left nor passed. -/
def near (f : Fn) (x : F32) (exact : Rat) : F32 :=
  let e := toF32Rat exact
  let d := max (-(f.bound : Int)) (min f.bound (Config.ulps f.number x))
  if 0x7F800000 ≤ e.toNat % 2 ^ 31 then e else f32At (max (-0x7F800000) (min 0x7F800000 (f32Order e + d)))

def expF32 (x : F32) : F32 :=
  match f32Val x with
  | .nan => nanF32
  | .inf n => if n then 0 else infF32 false
  | _ => match finite? x with
    | none => nanF32
    | some q => if 100 < q then infF32 false else if q < -150 then near .exp x 0 else near .exp x (expRat q)

def reciprocal (x : F32) : F32 :=
  match f32Val x with
  | .nan => nanF32
  | .inf n => if n then 0x80000000 else 0
  | .fin n m _ => if m = 0 then infF32 n else near .reciprocal x (1 / (finite? x).getD 1)

def rsqrt (x : F32) : F32 :=
  match f32Val x with
  | .nan => nanF32
  | .inf n => if n then nanF32 else 0
  | .fin n m _ => if m = 0 then infF32 n else if n then nanF32 else near .rsqrt x (rsqrtRat ((finite? x).getD 1))

def tanhF32 (x : F32) : F32 :=
  match f32Val x with
  | .nan => nanF32
  | .inf n => if n then 0xBF800000 else 0x3F800000
  | _ => near .tanh x (tanhRat ((finite? x).getD 0))

def erfF32 (x : F32) : F32 :=
  match f32Val x with
  | .nan => nanF32
  | .inf n => if n then 0xBF800000 else 0x3F800000
  | _ => near .erf x (erfRat ((finite? x).getD 0))

/-- sin and cos; for arguments above 2¹⁸ in magnitude no value is stated, and it is free. -/
def trig (f : Fn) (exact : Rat → Rat) (x : F32) : F32 :=
  match finite? x with
  | none => nanF32
  | some q => if q ≤ 262144 ∧ -262144 ≤ q then near f x (exact q) else Config.farTrig f.number x

def sinF32 (x : F32) : F32 := trig .sin sinRat x
def cosF32 (x : F32) : F32 := trig .cos cosRat x

/-! ## Rows -/

/-- Neighbours added two by two. -/
def addPairs : List F32 → List F32
  | a :: b :: rest => fadd a b :: addPairs rest
  | l => l

/-- The sum of a row in pairwise order, one rounding for each addition (R122). -/
def rowSumN : Nat → List F32 → F32
  | 0, l => l.headD 0
  | n + 1, l => match l with
    | [] => 0
    | [a] => a
    | l => rowSumN n (addPairs l)

def rowSum (l : List F32) : F32 := rowSumN (l.length + 1) l

/-- The mean of a row. -/
def rowMean (l : List F32) : F32 := fmul (rowSum l) (reciprocal (ofNatF32 l.length))

def zipF (f : F32 → F32 → F32) (a b : List F32) : List F32 := List.zipWith f a b

/-- The largest of a row; a NaN is never larger. -/
def rowMax (l : List F32) : F32 := l.foldl (fun a x => if flt a x then x else a) (infF32 true)

/-- Masked softmax (R123): a masked position is exactly 0, and a row that is masked throughout is zeros. -/
def softmax (row : List (F32 × Bool)) : List F32 :=
  let m := rowMax ((row.filter (·.2)).map (·.1))
  let es := row.map (fun x => if x.2 then expF32 (fsub x.1 m) else 0)
  if row.any (·.2) then let r := reciprocal (rowSum es); (es.zip row).map (fun e => if e.2.2 then fmul e.1 r else 0)
  else row.map (fun _ => 0)

/-- RMSNorm or LayerNorm (R122): mean for LayerNorm only, mean of squares, NORM_EPS, reciprocal square root, gain and
bias. -/
def normRow (layer : Bool) (eps : F32) (gain bias x : List F32) : List F32 :=
  let mean := rowMean x
  let d := if layer then x.map (fun v => fsub v mean) else x
  let r := rsqrt (fadd (rowMean (d.map (fun v => fmul v v))) eps)
  let y := zipF (fun v g => fmul (fmul v r) g) d gain
  if bias.isEmpty then y else zipF fadd y bias

def halfF32 : F32 := 0x3F000000
def oneF32 : F32 := 0x3F800000

/-- x ÷ (1 + e^(-x)). -/
def silu (x : F32) : F32 := fmul x (reciprocal (fadd oneF32 (expF32 (x ^^^ 0x80000000))))

/-- GELU in tanh form, with √(2 ÷ π) and 0.044715 in FP32. -/
def geluTanh (x : F32) : F32 :=
  let u := fmul 0x3F4C422A (fadd x (fmul 0x3D372713 (fmul (fmul x x) x)))
  fmul (fmul halfF32 x) (fadd oneF32 (tanhF32 u))

/-- GELU in erf form, with 1 ÷ √2 in FP32. -/
def geluErf (x : F32) : F32 := fmul (fmul halfF32 x) (fadd oneF32 (erfF32 (fmul x 0x3F3504F3)))

/-- The activation that ACT names (R122), of a gate and an up value; the plain ones have no gate. -/
def activation (act : Nat) (gate up : F32) : F32 :=
  match act with
  | 0 => geluTanh up
  | 1 => geluErf up
  | 2 => silu up
  | 3 => if flt up 0 then 0 else up
  | 4 => fmul (silu gate) up
  | _ => fmul (geluTanh gate) up

def gatedAct (act : Nat) : Bool := act == 4 || act == 5

/-! ## Rotary position (R120) -/

/-- BASE^(-2i ÷ DIMS), and the wavelength of the pair in positions. -/
def ropeRate (base : Rat) (dims i : Nat) : Rat := expRat (-(2 * i : Nat) / (dims : Rat) * lnRat base)

/-- The scale s of a pair. -/
def ropeScale (scaling : Nat) (factor : Rat) (orig : Nat) (rate : Rat) : Rat :=
  let w := 2 * piRat / rate
  let lo : Rat := (orig : Rat) / 32
  match scaling with
  | 0 => 1
  | 1 => 1 / factor
  | _ => if w < lo then 1 else if (orig : Rat) < w then 1 / factor
    else 1 + (w - lo) / ((orig : Rat) - lo) * (1 / factor - 1)

/-- The angle of a pair at a position, in FP32. -/
def ropeAngle (scaling : Nat) (base factor : Rat) (orig dims p i : Nat) : F32 :=
  let rate := ropeRate base dims i
  fmul (fmul (ofNatF32 p) (toF32Rat (ropeScale scaling factor orig rate))) (toF32Rat rate)

/-- One head vector turned: its first DIMS elements in pairs, adjacent or split in halves. -/
def ropeHead (split : Bool) (scaling : Nat) (base factor : Rat) (orig dims p : Nat) (v : List F32) : List F32 :=
  (List.range v.length).map (fun j =>
    if dims ≤ j then (v[j]?).getD 0
    else
      let i := if split then j % (dims / 2) else j / 2
      let first := if split then j < dims / 2 else j % 2 == 0
      let a := (v[if split then i else 2 * i]?).getD 0
      let b := (v[if split then i + dims / 2 else 2 * i + 1]?).getD 0
      let t := ropeAngle scaling base factor orig dims p i
      if first then fsub (fmul a (cosF32 t)) (fmul b (sinF32 t)) else fadd (fmul a (sinF32 t)) (fmul b (cosF32 t)))

end Sys2Proof.Machine
end

