-- ==== Sys2Proof/Machine/Selection.lean ====
section
/-! DEFINITION. The selection unit (R240 to R256): threshold-compact, argmax, top-k merge, and the choice of a token. -/

namespace Sys2Proof.Machine

/-! ## Sums (R243; log 24, DEDUCED) -/

/-- The tree sum of one beat of up to 128 elements. -/
def treeSum : Nat → List F32 → F32
  | 0, l => l.headD 0
  | n + 1, l => treeSum n (addPairs l)

/-- A beat's total: 128 places, those without a taking element holding +0. -/
def beatSum (l : List F32) : F32 := treeSum 7 (l ++ List.replicate (128 - l.length) 0)

/-- Beat totals added in index order. -/
def beatTotals : Nat → F32 → List F32 → F32
  | 0, acc, _ => acc
  | _, acc, [] => acc
  | n + 1, acc, l => beatTotals n (fadd acc (beatSum (l.take 128))) (l.drop 128)

def sumF32 (l : List F32) : F32 := beatTotals (l.length + 1) 0 l

/-! ## Operations (R241 to R248) -/

/-- An element of a row or list: index, value, and whether it is valid (R243). -/
structure Elem where
  index : Nat
  value : F32
  valid : Bool := true
  deriving DecidableEq, Repr

/-- The elements of a dense row, valid where the mask allows, below the vocabulary's TOKENS, and not NaN. -/
def rowElems (tokens : Nat) (mask : Nat → Bool) (row : List F32) : List Elem :=
  (row.zipIdx).map (fun p => { index := p.2, value := p.1
                               valid := p.2 < tokens && mask p.2 && !isNanF32 p.1 })

/-- NaN elements that MG_SEL_NAN counts: those the mask and TOKENS do not clear. -/
def countNans (tokens : Nat) (mask : Nat → Bool) (row : List F32) : Nat :=
  ((row.zipIdx).filter (fun p => p.2 < tokens && mask p.2 && isNanF32 p.1)).length

/-- Argmax (R245): the largest valid element, the lowest index among equals. -/
def argmax (es : List Elem) : Option Elem :=
  (es.filter (·.valid)).foldl (fun best e => match best with
    | none => some e
    | some b => if flt b.value e.value then some e else some b) none

def taken (theta : F32) (e : Elem) : Bool := e.valid && flt theta e.value

/-- S_sel and S_out (R244). -/
def sumSel (theta : F32) (es : List Elem) : F32 := sumF32 (es.map (fun e => if taken theta e then e.value else 0))
def sumOut (theta : F32) (es : List Elem) : F32 :=
  sumF32 (es.map (fun e => if e.valid && !taken theta e then e.value else 0))

/-- The pairs that a write-form pass writes. -/
def compact (theta : F32) (es : List Elem) : List Elem := es.filter (taken theta)

/-- An entry of a merge list: identifier and key bits. -/
structure MergeEntry where
  ident : Nat
  key : BitVec 32
  deriving DecidableEq, Repr

def nullIdent : Nat := 2 ^ 64 - 1

/-- Whether one key is better than another in a mode (R247). -/
def better (mode : Nat) (a b : BitVec 32) : Bool := if mode = 0 then a < b else flt b a

/-- The order of survivors: best key first, equal keys by ascending identifier (R246). -/
def mergeLe (mode : Nat) (a b : MergeEntry) : Bool :=
  better mode a.key b.key || (!better mode b.key a.key && a.ident ≤ b.ident)

/-- One entry of each identifier, the first in a list that is in order. -/
def dedupIdent (es : List MergeEntry) : List MergeEntry :=
  es.foldl (fun acc e => if acc.any (fun x => x.ident == e.ident) then acc else acc ++ [e]) []

/-- Top-k merge (R246): the valid entries, at most `k`. -/
def topkMerge (mode k : Nat) (es : List MergeEntry) : List MergeEntry :=
  let ok := es.filter (fun e => e.ident ≠ nullIdent && !(mode == 1 && isNanF32 e.key))
  (dedupIdent (isort ok (mergeLe mode))).take k

/-! ## SipHash-2-4 (R254) -/

structure Sip where
  v0 : Word64
  v1 : Word64
  v2 : Word64
  v3 : Word64
  deriving DecidableEq, Repr

def sipRound (s : Sip) : Sip :=
  let v0 := s.v0 + s.v1
  let v1 := s.v1.rotateLeft 13 ^^^ v0
  let v0 := v0.rotateLeft 32
  let v2 := s.v2 + s.v3
  let v3 := s.v3.rotateLeft 16 ^^^ v2
  let v0 := v0 + v3
  let v3 := v3.rotateLeft 21 ^^^ v0
  let v2 := v2 + v1
  let v1 := v1.rotateLeft 17 ^^^ v2
  let v2 := v2.rotateLeft 32
  ⟨v0, v1, v2, v3⟩

/-- SipHash-2-4 of a message shorter than 8 bytes, under a key of two 64-bit halves. -/
def sipHashShort (k0 k1 : Word64) (message : List Byte) : Word64 :=
  let m := BitVec.ofNat 64 (leNat message + message.length % 256 * 2 ^ 56)
  let s : Sip := ⟨k0 ^^^ 0x736f6d6570736575, k1 ^^^ 0x646f72616e646f6d, k0 ^^^ 0x6c7967656e657261,
    k1 ^^^ 0x7465646279746573⟩
  let s := sipRound (sipRound { s with v3 := s.v3 ^^^ m })
  let s := { s with v0 := s.v0 ^^^ m, v2 := s.v2 ^^^ 0xff }
  let s := sipRound (sipRound (sipRound (sipRound s)))
  s.v0 ^^^ s.v1 ^^^ s.v2 ^^^ s.v3

/-- The draw's u = H [63:40] ÷ 2^24 (R254). -/
def drawU (seed handle position : Nat) : F32 :=
  let h := sipHashShort (BitVec.ofNat 64 seed) (BitVec.ofNat 64 handle) (leBytes 4 position)
  toF32 (.fin false (h.toNat / 2 ^ 40) (-24))

/-! ## Choosing a token (R251 to R255) -/

/-- The weight of an element, from its logit less the largest, over the temperature: 1 at 0, which R252 states. -/
def weightExp (x : F32) : F32 := if x &&& 0x7FFFFFFF = 0 then 0x3F800000 else expF32 x

def twoF32 : F32 := 0x40000000
/-- 2^-20. -/
def thetaStart : F32 := 0x35800000

/-- Step 3 of R252: θ doubles until the candidates fit in 16,384; with the passes that overflowed. -/
def candidates : Nat → F32 → List Elem → F32 × Nat
  | 0, theta, _ => (theta, 0)
  | n + 1, theta, ws =>
    if (compact theta ws).length ≤ 16384 then (theta, 0)
    else let r := candidates n (fmul theta twoF32) ws; (r.1, r.2 + 1)

/-- Step 2 of R253, n times. -/
def bisect : Nat → F32 → F32 → F32 → List Elem → F32
  | 0, lo, _, _, _ => lo
  | n + 1, lo, hi, t, es =>
    let mid := fdiv (fadd lo hi) twoF32
    if flt (sumSel mid es) t then bisect n lo mid t es else bisect n mid hi t es

/-- Steps 3 and 4 of R254 (log 137, DEDUCED). -/
def scanDraw (r : F32) : F32 → List Elem → Option Nat
  | _, [] => none
  | run, e :: es =>
    let run := fadd run e.value
    if flt r run then some e.index else scanDraw r run es

/-- Cycles of a threshold-compact or argmax over input bytes that writes pairs (R256). -/
def passCycles (bytes pairs : Nat) : Nat := 64 + ceilDiv bytes 512 + ceilDiv pairs 32

/-- Cycles of a top-k merge of entries (R256). -/
def mergeCycles (entries k : Nat) : Nat := 64 + 2 * ceilDiv entries 16 + ceilDiv k 16

/-- What a selection gives: the token, and what the counters of R260 add. -/
structure Selected where
  token : Nat
  empty : Bool := false
  compactions : Nat := 0
  argmaxes : Nat := 1
  merges : Nat := 0
  busy : Nat := 0
  nans : Nat := 0
  overflows : Nat := 0
  deriving DecidableEq, Repr

/-- The weights of R252, invalid elements staying invalid, NaN weights invalid (R243). -/
def weights (m tau : F32) (es : List Elem) : List Elem :=
  es.map (fun e =>
    let w := weightExp (fdiv (fsub e.value m) tau)
    { e with value := w, valid := e.valid && !isNanF32 w })

/-- A sampled row (R252): `best` is the row's argmax. -/
def sample (es : List Elem) (best : Elem) (tau topP : F32) (topK seed handle position : Nat) : Selected :=
  let ws := weights best.value tau es
  let (theta, ovf) := candidates 32 thetaStart ws
  let list := compact theta ws
  let nans := (ovf + 1) * (List.zipWith (fun e w => e.valid && !w.valid) es ws).count true
  let first := ovf * passCycles (4 * es.length) 16384 + passCycles (4 * es.length) list.length
  if list.isEmpty then { token := best.index, compactions := ovf + 1, busy := first, nans, overflows := ovf }
  else
    let cut := 1 < topK && topK < list.length
    let kept := if cut then
        let ids := (topkMerge 1 topK (list.map (fun e => ⟨e.index, e.value⟩))).map (·.ident)
        list.filter (fun e => ids.contains e.index)
      else list
    let sc := if cut then sumSel 0 kept else sumSel theta ws
    let so := if cut then 0 else sumOut theta ws
    let t := fmul topP (fadd sc so)
    let nucleus := flt topP oneF32 && !flt sc t
    let lo := bisect 16 (if cut then 0 else theta) oneF32 t kept
    let final := if nucleus then compact lo kept else kept
    let sk := if nucleus then sumSel lo kept else sc
    let r := fmul (drawU seed handle position) sk
    let token := (scanDraw r 0 final).getD ((final.getLast?.map (·.index)).getD best.index)
    let sums := passCycles (8 * kept.length) 0
    let busy := first + (if cut then mergeCycles list.length topK + sums else 0)
      + (if nucleus then 16 * sums + passCycles (8 * kept.length) final.length else 0)
    { token, compactions := ovf + 1 + b2n cut + (if nucleus then 17 else 0), merges := b2n cut, busy, nans, overflows := ovf }

/-- How a row selects. -/
structure SelectParams where
  greedy : Bool
  tau : BitVec 16
  topP : BitVec 16
  topK : Nat
  seed : Nat
  handle : Nat
  eos : Nat
  tokens : Nat
  deriving DecidableEq, Repr

/-- The token of a row (R251, R252, R255): argmax when greedy, at temperature 0 or top-k 1; EOS when no element is
valid (log 115, DEDUCED). -/
def selectToken (p : SelectParams) (mask : Nat → Bool) (row : List F32) (position : Nat) : Selected :=
  let es := rowElems p.tokens mask row
  let x : Selected := match argmax es with
    | none => { token := p.eos, empty := true }
    | some best =>
      if p.greedy || p.tau &&& 0x7FFF = 0 || p.topK == 1 then { token := best.index }
      else sample es best (f16ToF32 p.tau) (f16ToF32 p.topP) p.topK p.seed p.handle position
  { x with busy := x.busy + passCycles (4 * row.length) 0, nans := x.nans + countNans p.tokens mask row }

end Sys2Proof.Machine
end

