-- ==== Sys2Proof/Machine/Ops.lean ====
section
/-! DEFINITION. The operations that the meanings share: posting a completion, interrupts, events, the fault log,
commands and their results, free values, clocks, handles and object states. -/

namespace Sys2Proof.Machine

/-! ## Free values, clocks, counters -/

/-- The state after one free value was drawn (log 3, DESIGN CHOICE). -/
def State.draw (s : State) : State := { s with fresh := s.fresh + 1 }

/-- Whether compatibility mode is in force (R2). -/
def compatMode (s : State) : Bool := s.dev.straps.compat || s.dev.cfg.sys.compatImage

/-- The clock identifier of an island (R26). -/
def clockId (cls course index : Nat) : ClockId := BitVec.ofNat 16 (cls * 4096 + course * 256 + index)

def arrayClk (a : Fin 16) : ClockId := clockId 0 (a.val / 4) (a.val % 4)
def tileClk (t : Fin 64) : ClockId := clockId 1 (t.val / 16) (t.val % 16)
def storeClk (c : Fin 4) : ClockId := clockId 2 c.val 0
def fabricClk (c : Fin 4) : ClockId := clockId 3 c.val 0
def channelClk (ch : Fin 96) : ClockId := clockId 4 (ch.val / 24) (ch.val % 24)
def portClk (p : Fin 2) : ClockId := clockId 8 15 p.val
def flashClk (f : Fin 16) : ClockId := clockId 9 15 f.val
def mgmtClk : ClockId := 0xFF00

/-- The cycle count of an island: it restarts at 0 when the island powers up, and what it counts between is its own
clock's (R27; log 8, DESIGN CHOICE). -/
def cyclesOf (s : State) (clk : ClockId) : Nat :=
  if clk = mgmtClk then s.now
  else if (look s.islands clk).startedAt = s.now then 0
  else Config.islandCycles clk (look s.islands clk).startedAt s.now

/-- Adds to a 64-bit counter. -/
def bump (clk : ClockId) (sel n : Nat) (s : State) : State :=
  { s with counters := upd s.counters (clk, sel) (fun v => (v + n) % 2 ^ 64) }

/-- Adds to a counter of the management clock. -/
def count (sel n : Nat) (s : State) : State := bump mgmtClk sel n s

/-! ## Interrupts and function events -/

/-- A ring pair, by port, function and number. -/
abbrev PairKey := Fin 2 × Nat × Nat

/-- Whether the BAR0 of a function holds factory defaults where nothing has been written: after an FLR of it or of its
PF0 (R542; log 175, DEDUCED). -/
def factoryBar (s : State) (port : Fin 2) (fn : Nat) : Bool :=
  s.host.flrs.contains (port, fn) || s.host.flrs.contains (port, 0)

/-- The function registers of a function; unwritten, as the image in force sets them (R10, R44). -/
def funcOf (s : State) (port : Fin 2) (fn : Nat) : Func :=
  (find? s.host.funcs (port, fn)).getD
    (if factoryBar s port fn then {} else { signal := BitVec.ofNat 4 s.dev.cfg.host.signal })

/-- The registers of a ring pair; unwritten, as the image in force sets them (R10, R45). -/
def pairOf (s : State) (k : PairKey) : Pair :=
  (find? s.host.pairs k).getD
    (if factoryBar s k.1 k.2.1 then {}
     else { count := BitVec.ofNat 16 s.dev.cfg.host.intCount, timeUs := BitVec.ofNat 16 s.dev.cfg.host.intTimeUs })

def confOf (s : State) (port : Fin 2) (fn : Nat) : ConfSpace := look s.host.conf (port, fn)

/-- Sends a message of a vector, or sets its pending bit while it or the function is masked (R542); nothing is sent while
MSI-X is not enabled (log 180, PRESUMED). -/
def raiseMsix (port : Fin 2) (fn vector : Nat) (s : State) : State :=
  if !(confOf s port fn).msixEnable then s
  else if (confOf s port fn).msixMask || (look s.host.vecs (port, fn, vector)).masked then
    { s with host := { s.host with vecs := upd s.host.vecs (port, fn, vector) (fun v => { v with pending := true }) } }
  else { s with out := s.out ++ [.msix port fn vector] }

/-- Sets bits of PF_EVENT; those unmasked in SIGNAL raise vector 0 (R44). -/
def raiseEvent (port : Fin 2) (fn : Nat) (bits : BitVec 4) (s : State) : State :=
  let f := funcOf s port fn
  let s := { s with host := { s.host with funcs := put s.host.funcs (port, fn) { f with event := f.event ||| bits } } }
  if f.signal &&& bits = 0 then s else raiseMsix port fn 0 s

def evRingError : BitVec 4 := 1
def evCqHold : BitVec 4 := 2
def evAdoptedAway : BitVec 4 := 4
def evFailover : BitVec 4 := 8

def setPair (k : PairKey) (p : Pair) (s : State) : State :=
  { s with host := { s.host with pairs := put s.host.pairs k p } }

/-- Stops a ring pair with an error code and raises RING_ERROR (R45, R47). -/
def ringError (k : PairKey) (code : BitVec 8) (s : State) : State :=
  let p := pairOf s k
  raiseEvent k.1 k.2.1 evRingError (setPair k { p with error := true, errorCode := code } s)

/-! ## Completions (R49, R52, R58) -/

def ringSize (log2 : BitVec 5) : Nat := 2 ^ log2.toNat

/-- Whether the completion ring has room for one entry (R49). -/
def hasRoom (p : Pair) : Bool := (p.cqTail.toNat + 1) % ringSize p.cqLog2 ≠ p.head.toNat

/-- The pair after one entry is written: the tail moves on and the phase inverts at the wrap (R49). -/
def advance (p : Pair) : Pair :=
  let t := (p.cqTail.toNat + 1) % ringSize p.cqLog2
  { p with cqTail := BitVec.ofNat 16 t, phase := if t = 0 then !p.phase else p.phase }

/-- Counts an entry toward the pair's message (R52); the entry of a failed check is signalled at once (R476). -/
def signalEntry (k : PairKey) (noint urgent : Bool) (s : State) : State :=
  let p := pairOf s k
  if urgent then raiseMsix k.1 k.2.1 p.vector.toNat s
  else if noint then s
  else if p.timeUs = 0 then raiseMsix k.1 k.2.1 p.vector.toNat (setPair k { p with unsignalled := 0 } s)
  else if p.unsignalled + 1 ≥ max 1 p.count.toNat then
    raiseMsix k.1 k.2.1 p.vector.toNat (setPair k { p with unsignalled := 0 } s)
  else
    setPair k { p with
      unsignalled := p.unsignalled + 1
      unsignalledAt := if p.unsignalled = 0 then s.now else p.unsignalledAt } s

/-- Writes one completion entry at the tail of a pair; a ring that is full then holds its pair (R49). -/
def writeEntry (k : PairKey) (c : Completion) (s : State) : State :=
  let p := pairOf s k
  let s := { s with out := s.out ++ [.completion k.1 k.2.1 k.2.2 p.cqTail.toNat p.sqHead p.phase c] }
  let s := signalEntry k c.noint c.urgent (setPair k (advance p) s)
  let p := pairOf s k
  if hasRoom p then s else raiseEvent k.1 k.2.1 evCqHold (setPair k { p with cqHold := true } s)

/-- A command whose final completion is written, or discarded, is outstanding no more (R74). -/
def dropCmd (id : Option Nat) (s : State) : State := { s with cmds := s.cmds.filter (fun c => some c.id != id) }

/-- A completion on a pair (R49, R50): discarded while the pair is disabled, kept in order while the ring is full or the
port's link is down (log 16, DEDUCED), written otherwise. -/
def putEntry (k : PairKey) (h : Held) (s : State) : State :=
  let p := pairOf s k
  if !p.enable then dropCmd h.cmd s
  else if p.held.isEmpty && (look s.host.ports k.1).link && hasRoom p then dropCmd h.cmd (writeEntry k h.entry s)
  else setPair k { p with held := p.held ++ [h] } s

/-- Posts a completion that ends no outstanding command. -/
def post (k : PairKey) (c : Completion) (s : State) : State := putEntry k { entry := c } s

/-! ## The fault log (R462, R463) -/

/-- Appends an entry; the log keeps the newest 65,536 (R463). An entry of class 5 to 9 asserts ALERT_N (R539; log 72,
DEDUCED). -/
def logFault (clk : ClockId) (cls action addr n : Nat) (s : State) : State :=
  let e : FaultEntry := { seq := s.log.next, time := s.now, clk, cls, action, addr, count := n }
  let all := s.log.entries ++ [e]
  { s with
    log := { s.log with entries := all.drop (all.length - 65536), next := (s.log.next + 1) % 2 ^ 32 }
    pins := { s.pins with alert := s.pins.alert || 5 ≤ cls } }

/-- Islands power up: their cycle counts and counters restart, their latches are absent (R27, R29, R115). -/
def powerUp (clks : List ClockId) (s : State) : State :=
  { s with
    islands := clks.foldl (fun t c => upd t c (fun i => { i with startedAt := s.now, latch := none })) s.islands
    counters := s.counters.filter (fun c => !clks.contains c.1.1) }

/-- An island leaves service for good (R481, R486, R493). -/
def retire (clk : ClockId) (s : State) : State :=
  count 0x0A22 1 { s with islands := upd s.islands clk (fun i => { i with
    retired := true, leaving := false, leaver := none }) }

/-- An island in the scope of SERVICE leaves service until SERVICE ends (R451). -/
def standAside (clk : ClockId) (s : State) : State :=
  { s with islands := upd s.islands clk (fun i => { i with away := true, leaving := false, leaver := none }) }

/-! ## Outstanding commands -/

def findCmd (s : State) (id : Nat) : Option Cmd := s.cmds.find? (·.id == id)

def setCmd (id : Nat) (f : Cmd → Cmd) (s : State) : State :=
  { s with cmds := s.cmds.map (fun c => if c.id == id then f c else c) }

/-- The `n`-byte parameter at an offset of the parameter block. -/
def Cmd.arg (c : Cmd) (o n : Nat) : Nat := field c.params o n

/-- KIND of the descriptor at an offset of the parameter block (R56). -/
def Cmd.bdKind (c : Cmd) (o : Nat) : Nat := field c.params (o + 12) 1

/-- Bytes of the buffer that it names: LENGTH counts bytes, or logical blocks for kind 2 (R56). -/
def Cmd.bdLen (c : Cmd) (o : Nat) : Nat := field c.params (o + 8) 4 * (if c.bdKind o = 2 then 4096 else 1)

/-- LENGTH of OUTPUT. -/
def Cmd.outLen (c : Cmd) : Nat := field c.hdr.output 8 4

def Cmd.sid (c : Cmd) : Nat := c.hdr.sid.toNat
def Cmd.tenant (c : Cmd) : Nat := c.hdr.tenant.toNat
def Cmd.handle (c : Cmd) : Nat := c.hdr.handle.toNat
def Cmd.imm (c : Cmd) : Nat := c.hdr.imm.toNat
/-- The islands that an accepted service token names, kept with its SERVICE_ENTER. -/
def Cmd.scope (c : Cmd) : List ClockId :=
  (List.range (c.template.length / 2)).map (fun i => BitVec.ofNat 16 (field c.template (2 * i) 2))
def Cmd.op (c : Cmd) : Nat := c.hdr.opcode.toNat
def Cmd.fence (c : Cmd) : Bool := c.hdr.flags.getLsbD 0
def Cmd.noint (c : Cmd) : Bool := c.hdr.flags.getLsbD 1
def Cmd.progress (c : Cmd) : Bool := c.hdr.flags.getLsbD 2

/-- The offset of OUTPUT as DETAIL names it (R57, R63). -/
def outputOffset (s : State) : Nat := if compatMode s then 32 else 40

/-- A header offset of the current layout, as DETAIL names it in the layout in force (R63). -/
def detailOffset (s : State) (o : Nat) : Nat :=
  if !compatMode s then o
  else if o = 32 then 48 else if o = 40 then 32 else if o = 16 then 12 else if o = 12 then 28
  else if o = 6 then 8 else if o = 4 then 10 else if o = 5 then 11 else if o = 8 then 4 else o

/-- Where a command's completions go (R73). -/
def Cmd.pairKey (c : Cmd) : PairKey := c.route.getD (c.port, c.fn, c.ring)

/-- A completion of a command. -/
def completionOf (s : State) (c : Cmd) (final : Bool) (r : Result) : Completion :=
  { commandId := c.hdr.commandId, status := r.status, ring := BitVec.ofNat 16 c.ring, final
    effect := r.effect, compat := compatMode s, adopted := c.route.isSome, noint := c.noint, urgent := r.urgent
    count := BitVec.ofNat 32 r.count, value := BitVec.ofNat 64 r.value, detail := BitVec.ofNat 32 r.detail
    tenant := c.hdr.tenant }

/-- LENGTH of the buffer that a descriptor names: OUTPUT below offset 64, a parameter above. -/
def Cmd.bufLen (c : Cmd) (offset : Nat) : Nat := if offset < 64 then c.outLen else c.bdLen (offset - 64)

/-- Writes bytes through a descriptor of a command, from byte `at_` of the buffer on: nothing past the buffer's
LENGTH, and a refused write ends the writing of that buffer (R544). -/
def dma (c : Cmd) (offset at_ : Nat) (bytes : List Byte) (s : State) : State :=
  let fits := c.bufLen offset - at_
  let room := match c.failed with
    | some (o, n) => if o = offset then min fits (n - at_) else fits
    | none => fits
  if bytes.take room = [] then s
  else { s with out := s.out ++ [.dma c.port c.id offset at_ (bytes.take room)] }

/-- The final completion that a refused write turns a result into, that of a cancelled command too (R544; log 173, DESIGN
CHOICE). -/
def afterFailure (c : Cmd) (r : Result) : Result :=
  match c.failed with
  | some (o, n) => { r with status := .outputWriteFailed, count := n, detail := o }
  | none => r

/-- Writes a result's bytes, each list through its descriptor. -/
def writeAll (c : Cmd) (ws : List (Nat × List Byte)) (s : State) : State :=
  foldS (fun s w => dma c w.1 0 w.2 s) ws s

/-- A command commits, and its final completion goes to its ring (R60, R74); a reset of its function discards it (R542). -/
def conclude (c : Cmd) (r : Result) (s : State) : State :=
  let s := setCmd c.id (fun x => { x with phase := .committed }) s
  if c.discard then dropCmd (some c.id) s
  else putEntry c.pairKey { entry := completionOf s c true (afterFailure c r), cmd := some c.id } s

/-- CANCELs whose targets have all completed complete with OK (R61, R75). -/
def releaseCancels (s : State) : State :=
  let ready := s.cmds.filter (fun c => c.op == 6 && c.phase == .running && c.begun
    && c.waits.all (fun w => (findCmd s w).isNone))
  foldS (fun s c => conclude c { status := .ok, effect := .full } s) ready s

/-- Ends a command: its bytes, its final completion, and the CANCELs that waited for it (R60, R74). -/
def finish (c : Cmd) (r : Result) (s : State) : State := releaseCancels (conclude c r (writeAll c r.writes s))

/-- Writes completions that wait on a pair, oldest first, while there is room (R49). -/
def drainN : Nat → PairKey → State → State
  | 0, _, s => s
  | n + 1, k, s =>
    let p := pairOf s k
    match p.held with
    | [] => s
    | h :: hs =>
      if hasRoom p then
        drainN n k (releaseCancels (dropCmd h.cmd (writeEntry k h.entry (setPair k { p with held := hs } s))))
      else s

/-- A pair whose ring has room goes on (R49), where its port's link is up. -/
def drain (k : PairKey) (s : State) : State :=
  let p := pairOf s k
  if (look s.host.ports k.1).link && hasRoom p then
    drainN (p.held.length + s.cmds.length) k (setPair k { p with cqHold := false } s)
  else s

/-- The completions that wait on a pair are discarded. -/
def discardHeld (k : PairKey) (s : State) : State :=
  let p := pairOf s k
  releaseCancels (foldS (fun s h => dropCmd h.cmd s) p.held (setPair k { p with held := [] } s))

/-- Ends a command that failed without side effect (R68). -/
def fail (c : Cmd) (st : Status) (detail : Nat) (s : State) : State :=
  finish c { status := st, effect := .none, detail } s

/-- INVALID_FIELD at an offset, with a VALUE. -/
def badField (c : Cmd) (offset value : Nat) (s : State) : State :=
  finish c { status := .invalidField, effect := .none, value, detail := detailOffset s offset } s

/-- STATE_CONFLICT of an object kind in a state (R76). -/
def conflict (c : Cmd) (kind st : Nat) (s : State) : State := fail c .stateConflict (kind + 256 * st) s

/-- CANCELLED without effect (R74). -/
def cancelled (c : Cmd) (s : State) : State := fail c .cancelled 0 s

/-- An object that a command held since its dispatch goes back to the state it had (log 182, DESIGN CHOICE): a model to READY
or COLD, an index, a table or a grammar to READY, a vocabulary slot to READY, or to EMPTY where it was LOADING (R197). -/
def letGo (c : Cmd) (s : State) : State :=
  let n := c.hdr.handle.toNat % 65536
  if !c.holds || c.begun then s
  else { s with obj := match c.op with
    | 0x0101 | 0x0503 => { s.obj with models := adj s.obj.models n (fun x => { x with
        state := if x.cold then .cold else .ready }) }
    | 0x0406 => { s.obj with indices := adj s.obj.indices n (fun x => { x with state := .ready }) }
    | 0x0604 => { s.obj with tables := adj s.obj.tables n (fun t => { t with dropping := false }) }
    | 0x0703 => { s.obj with grammars := adj s.obj.grammars n (fun g => { g with unloading := false }) }
    | 0x0700 => { s.obj with vocabs := s.obj.vocabs.filter (fun v => v.2.worker != some c.id) }
    | 0x0701 => { s.obj with vocabs := mapTbl s.obj.vocabs (fun _ v =>
        if v.worker = some c.id then { v with state := .ready, worker := none } else v) }
    | _ => s.obj }

/-- Runs the body of a command row on the running command of that number and opcode; a cancel latched before its
commit wins (R75). A row without such a command did not happen (log 2, DESIGN CHOICE). -/
def runCmd (id opcode : Nat) (body : Cmd → State → State) (s : State) : State :=
  match findCmd s id with
  | none => s
  | some c =>
    if c.op = opcode ∧ c.phase = .running ∧ c.result.isNone then
      if c.cancel then cancelled c (letGo c s) else body c s
    else s

/-- The result of a command that writes one record, PARTIAL where OUTPUT is too short for it (R134, R155). -/
def recordResult (s : State) (c : Cmd) (bytes : List Byte) (r : Result) : Result :=
  if c.outLen < bytes.length then { status := .partialDone, effect := .none, count := bytes.length }
  else { r with count := bytes.length, writes := [(outputOffset s, bytes)] }

def withRecord (c : Cmd) (bytes : List Byte) (r : Result) (s : State) : State := finish c (recordResult s c bytes r) s

/-- A failed check: INVALID_FIELD with a descriptor or field offset and a VALUE. -/
def badResult (s : State) (offset value : Nat) : Result :=
  { status := .invalidField, effect := .none, value, detail := detailOffset s offset }

/-- A check that a command fails: its result. -/
abbrev Refusal? := Option Result

def refuseWith (st : Status) (detail : Nat) : Refusal? := some { status := st, effect := .none, detail }

/-- STATE_CONFLICT of an object kind in a state (R76). -/
def inState (kind st : Nat) : Refusal? := refuseWith .stateConflict (kind + 256 * st)

/-- A command ends with the check it fails, or its effect happens. -/
def orRefuse (c : Cmd) (r : Refusal?) (effect : State → State) (s : State) : State :=
  match r with
  | some r => finish c r s
  | none => effect s

/-- A query completes with what it found at its dispatch, or finds now (R61). -/
def answerWith (c : Cmd) (now : State → Result) (s : State) : State := finish c (c.answer.getD (now s)) s

/-- A body that needs its input buffer: a poisoned host packet makes the command complete with UNCORRECTABLE (R461),
a lost block of a kind-2 range with DATA_LOST and that block (R418). -/
def withInput (c : Cmd) (i : Input) (body : List Byte → State → State) (s : State) : State :=
  match i with
  | .data b => body b s
  | .lost n => finish c { status := .dataLost, effect := .none, value := n } s
  | .poisoned => fail c .uncorrectable 0 s

/-! ## Handles (R63, R65, R133) -/

/-- A handle: slot in the low bits, reuse counter in [47:16] (log 14, DESIGN CHOICE). -/
def mkHandle (slot reuse : Nat) : Nat := slot + reuse % 2 ^ 32 * 65536

def handleSlot (h : Nat) : Nat := h % 65536
def handleReuse (h : Nat) : Nat := h / 65536

/-- The objects that HANDLE can name. -/
inductive Obj where
  | model (slot : Nat) | seq (entry : Nat) | index (slot : Nat) | table (slot : Nat) | grammar (slot : Nat)
  | template (slot : Nat) | scan (slot : Nat)
  deriving DecidableEq, Repr

def modelOf (s : State) (sid h : Nat) : Option (Nat × Model) := do
  let m ← find? s.obj.models (handleSlot h)
  if m.reuse = handleReuse h ∧ m.session = sid then some (handleSlot h, m) else none

def seqOf (s : State) (sid h : Nat) : Option (Nat × Seq) := do
  let q ← find? s.obj.seqs (handleSlot h)
  if q.reuse = handleReuse h ∧ q.session = sid then some (handleSlot h, q) else none

def indexOf (s : State) (sid h : Nat) : Option (Nat × Index) := do
  let x ← find? s.obj.indices (handleSlot h)
  if x.reuse = handleReuse h ∧ x.session = sid then some (handleSlot h, x) else none

def tableOf (s : State) (sid h : Nat) : Option (Nat × Table) := do
  let t ← find? s.obj.tables (handleSlot h)
  if t.reuse = handleReuse h ∧ t.session = sid then some (handleSlot h, t) else none

def grammarOf (s : State) (sid h : Nat) : Option (Nat × Grammar) := do
  let g ← find? s.obj.grammars (handleSlot h)
  if g.reuse = handleReuse h ∧ g.session = sid then some (handleSlot h, g) else none

def templateOf (s : State) (sid h : Nat) : Option (Nat × Template) := do
  let t ← find? s.obj.templates (handleSlot h)
  if t.reuse = handleReuse h ∧ t.session = sid then some (handleSlot h, t) else none

/-- A scan's handle is formed from its SCAN_START (R473), and is the scan's key. -/
def scanOf (s : State) (sid h : Nat) : Option (Nat × Scan) := do
  let t ← find? s.obj.scans h
  if t.session = sid then some (h, t) else none

/-- The object of a session that a handle names; kinds are searched in a fixed order (log 17, DESIGN CHOICE). -/
def objOf (s : State) (sid h : Nat) : Option Obj :=
  match modelOf s sid h with
  | some (n, _) => some (.model n)
  | none => match seqOf s sid h with
  | some (n, _) => some (.seq n)
  | none => match indexOf s sid h with
  | some (n, _) => some (.index n)
  | none => match tableOf s sid h with
  | some (n, _) => some (.table n)
  | none => match grammarOf s sid h with
  | some (n, _) => some (.grammar n)
  | none => match templateOf s sid h with
  | some (n, _) => some (.template n)
  | none => match scanOf s sid h with
  | some (n, _) => some (.scan n)
  | none => none

/-! ## State codes (R77, R135, R148, R197, R216, R272, R328, R375, R428, R436, R474) -/

def SessState.code : SessState → Nat
  | .challenged => 1 | .opened => 2 | .detached => 3 | .closing => 4

def ModelState.code : ModelState → Nat
  | .ready => 1 | .moving => 2 | .cold => 3 | .unloading => 4

def AdapterState.code : AdapterState → Nat
  | .current => 1 | .superseded => 2 | .retiring => 3

def SeqState.code : SeqState → Nat
  | .prefill => 1 | .decode => 2 | .blockedRetrieval => 3 | .blockedHost => 4 | .swapped => 5 | .finishing => 6
  | .done => 7

def VocabState.code : VocabState → Nat
  | .empty => 0 | .loading => 1 | .ready => 2 | .unloading => 3

def IndexState.code : IndexState → Nat
  | .ready => 1 | .repairing => 2 | .dropping => 3

def ScanState.code : ScanState → Nat
  | .queued => 1 | .running => 2 | .suspended => 3

def MoveState.code : MoveState → Nat
  | .idle => 0 | .queued => 1 | .copying => 2 | .draining => 3

def TenantState.code : TenantState → Nat
  | .unset => 0 | .active => 1 | .revoking => 2

def Lifecycle.code : Lifecycle → Nat
  | .factory => 0 | .unowned => 1 | .owned => 2 | .quarantine => 3

/-- PF_STATUS.LIFECYCLE and the state code of kind 0x0B (R428). -/
def lifecycleValue (s : State) : Nat := s.sec.lifecycle.code + if s.sec.service.isSome then 4 else 0

def conflictDevice (c : Cmd) (s : State) : State := conflict c 0x0B (lifecycleValue s) s

def Status.code : Status → Nat
  | .ok => 0x0000 | .partialDone => 0x0001 | .invalidOpcode => 0x0010 | .invalidField => 0x0011
  | .stateConflict => 0x0012 | .notAuthorized => 0x0013 | .busyRetry => 0x0020 | .quotaExceeded => 0x0021
  | .cancelled => 0x0030 | .alreadyComplete => 0x0031 | .dataLost => 0x0040 | .uncorrectable => 0x0041
  | .checkMismatch => 0x0042 | .outputWriteFailed => 0x0043 | .resourceRetired => 0x0050
  | .deadlineDeferred => 0x0060 | .windowFit => 0x0100 | .modelSlotsFull => 0x0101 | .adapterSlotsFull => 0x0102
  | .adapterMismatch => 0x0103 | .contextFull => 0x0104 | .homeFull => 0x0105 | .tableFull => 0x0200
  | .swapNoSpace => 0x0201 | .sequenceTooLarge => 0x0202 | .indexFull => 0x0300 | .indexSlotsFull => 0x0301
  | .pendingFull => 0x0302 | .hotStoreFull => 0x0303 | .epochLimit => 0x0304 | .templateSlotsFull => 0x0400
  | .corpusFull => 0x0401 | .nothingPacked => 0x0402 | .tableSlotsFull => 0x0500 | .moveNoRoom => 0x0600
  | .noSpare => 0x0601 | .trainingFailed => 0x0602 | .channelNotActive => 0x0603 | .storeFull => 0x0700
  | .grammarSlotsFull => 0x0701 | .grammarDead => 0x0702 | .flashReadOnly => 0x0800 | .imageRejected => 0x0900
  | .imageRollback => 0x0901 | .tokenRejected => 0x0902 | .attestUnavailable => 0x0903 | .proofLimit => 0x0904
  | .updateFailed => 0x0A00 | .lastInCourse => 0x0A01 | .islandInUse => 0x0A02 | .selfTestFailed => 0x0B00

def Effect.code : Effect → Nat
  | .none => 0 | .part => 1 | .full => 2

/-- The 32 bytes of a completion entry (R58). -/
def Completion.bytes (c : Completion) (sqHead : BitVec 16) (phase : Bool) : List Byte :=
  leBytes 4 c.commandId.toNat ++ leBytes 2 c.status.code ++ leBytes 2 c.ring.toNat ++ leBytes 2 sqHead.toNat
    ++ leBytes 1 (b2n phase + 2 * b2n c.final + 4 * c.effect.code + 16 * b2n c.compat + 32 * b2n c.adopted)
    ++ [0] ++ leBytes 4 c.count.toNat ++ leBytes 8 c.value.toNat ++ leBytes 4 c.detail.toNat
    ++ leBytes 2 c.tenant.toNat ++ [0, 0]

/-! ## Tenants -/

/-- The quotas in force for a tenant: its own, or the image's defaults (R435). -/
def quotasOf (s : State) (t : Nat) : Quotas := (look s.tenants t).quotas.getD s.dev.cfg.quota

def weightOf (s : State) (t : Nat) : Nat := (look s.tenants t).weight.getD s.dev.cfg.sched.defaultWeight

/-- The depth of a tenant's admission queue (R78). -/
def depthOf (s : State) (t : Nat) : Nat := (look s.tenants t).depth.getD s.dev.cfg.sched.defaultDepth

/-- The key of a tenant; tenant 0 outside OWNED has the claim key (R432; log 5, DESIGN CHOICE; log 133, DEDUCED). -/
def tenantKey (s : State) (t : Nat) : BitVec 256 :=
  if t = 0 ∧ s.sec.lifecycle ≠ .owned then Config.claimKey else (look s.tenants t).key

/-- Changes one tenant's record. -/
def setTenant (t : Nat) (f : Tenant → Tenant) (s : State) : State := { s with tenants := upd s.tenants t f }

/-- U_t of R173: the EU charged to a tenant in the last 10 ms. -/
def recentEu (s : State) (t : Nat) : Rat :=
  ((look s.tenants t).charges.filter (fun p => s.now - p.1 < 10000000)).foldl (fun a p => a + p.2) 0

/-- Charges engine units to a tenant (R171, R189). -/
def charge (t : Nat) (eu : Rat) (s : State) : State :=
  setTenant t (fun r => { r with
    charges := (r.charges.filter (fun p => s.now - p.1 < 10000000)) ++ [(s.now, eu)], eu := r.eu + eu }) s

/-! ## Moves of objects that leave -/

/-- The moves of an object end with it (R376, R488). -/
def dropMoves (gone : MoveObj → Bool) (s : State) : State :=
  { s with eng := { s.eng with moves := s.eng.moves.filter (fun m => !gone m.2.obj) } }

def movesOfModel (slot : Nat) : MoveObj → Bool
  | .model n => n == slot
  | _ => false

def movesOfIndex (slot : Nat) : MoveObj → Bool
  | .corpus n | .region n => n == slot
  | _ => false

def movesOfSeq (e : Nat) : MoveObj → Bool
  | .seq n => n == e
  | _ => false

/-! ## Sequences -/

def setSeq (e : Nat) (f : Seq → Seq) (s : State) : State :=
  { s with obj := { s.obj with seqs := adj s.obj.seqs e f } }

/-- A sequence enters a state; SEQ_QUERY reports the course's cycle count at entry (R155). -/
def enter (e : Nat) (st : SeqState) (s : State) : State :=
  setSeq e (fun q => { q with
    state := st, enteredAt := s.now, enteredCycles := cyclesOf s (fabricClk q.course), enteredCourse := q.course }) s

def courseOf (s : State) (c : Fin 4) : Course := look s.eng.courses c

def setCourse (c : Fin 4) (f : Course → Course) (s : State) : State :=
  { s with eng := { s.eng with courses := upd s.eng.courses c f } }

end Sys2Proof.Machine
end

