-- ==== Sys2Proof/Machine/Operands.lean ====
section
/-! DEFINITION. What commands bring: check values (R126, R471), model and adapter images (R125 to R128, R545), and the
figures computed from them (R98, R136, R141, R172). -/

namespace Sys2Proof.Machine

/-! ## Check values -/

/-- The low `w` bits of a number in reverse order. -/
def reverseBits : Nat → Nat → Nat
  | 0, _ => 0
  | w + 1, v => v % 2 * 2 ^ w + reverseBits w (v / 2)

/-- One bit through a reflected register. -/
def crcBit (poly : BitVec 64) (reg : BitVec 64) : BitVec 64 :=
  if reg.getLsbD 0 then (reg >>> 1) ^^^ poly else reg >>> 1

/-- One byte through a reflected register. -/
def crcByte (poly : BitVec 64) (reg : BitVec 64) (b : Byte) : BitVec 64 :=
  let r := reg ^^^ b.zeroExtend 64
  crcBit poly (crcBit poly (crcBit poly (crcBit poly (crcBit poly (crcBit poly (crcBit poly (crcBit poly r)))))))

/-- The running register over bytes, in reflected form; a unit whose input is not reflected reads each byte with its
bits reversed (R471). -/
def crcRun (width poly : Nat) (reflectIn : Bool) (reg : BitVec 64) (bytes : List Byte) : BitVec 64 :=
  let p := BitVec.ofNat 64 (reverseBits width poly)
  bytes.foldl (fun r b => crcByte p r (if reflectIn then b else BitVec.ofNat 8 (reverseBits 8 b.toNat))) reg

/-- CRC-32C (R126). -/
def crc32c (bytes : List Byte) : Nat := (crcRun 32 0x1EDC6F41 true 0xFFFFFFFF bytes ^^^ 0xFFFFFFFF).toNat

/-- CRC-64 (R126). -/
def crc64 (bytes : List Byte) : Nat :=
  (crcRun 64 0x42F0E1EBA9EA3693 true 0xFFFFFFFFFFFFFFFF bytes ^^^ 0xFFFFFFFFFFFFFFFF).toNat

/-! ## Checks in order -/

/-- A check: it holds, or the status and offset to report. -/
abbrev Check := Bool × Status × Nat

/-- The first check that fails. -/
def firstFail (l : List Check) : Option (Status × Nat) := (l.find? (fun c => !c.1)).map (·.2)

/-- A check that fails with INVALID_FIELD. -/
def need (ok : Bool) (offset : Nat) : Check := (ok, .invalidField, offset)

/-! ## Layer records (R128) -/

/-- A layer record, with its offset in the image. -/
structure LayerRec where
  at_ : Nat
  op : Nat
  fa : Nat
  fb : Nat
  fo : Nat
  block : Nat
  expert : Nat
  k : Nat
  n : Nat
  offset : Nat
  bytes : Nat
  scales : Nat
  keyScale : F32
  valueScale : F32
  role : Nat
  reservedOk : Bool
  deriving DecidableEq, Repr, Inhabited

def layerRecAt (img : List Byte) (o : Nat) : LayerRec :=
  let r := slice img o 64
  { at_ := o, op := field r 0 1, fa := field r 1 1, fb := field r 2 1, fo := field r 3 1, block := field r 4 2
    expert := field r 6 2, k := field r 8 4, n := field r 12 4, offset := field r 16 8, bytes := field r 24 8
    scales := field r 32 8, keyScale := BitVec.ofNat 32 (field r 40 4), valueScale := BitVec.ofNat 32 (field r 44 4)
    role := field r 48 1, reservedOk := r.length = 64 && zeroAt r 49 15 }

/-- The layer records of an image, in order. -/
def layerRecs (img : List Byte) : List LayerRec :=
  (List.range (field img 88 4)).map (fun i => layerRecAt img (field img 80 8 + 64 * i))

/-- Bytes of one slice of 32 elements of a format, block scale included (R84, R129). -/
def sliceBytes (format : Nat) : Nat :=
  match format with
  | 0 | 1 => 33 | 2 | 3 => 25 | 4 => 17 | 5 | 6 | 7 => 32 | _ => 64

/-- Bytes of one column tile of 32 columns (R129). -/
def columnTileBytes (k format : Nat) : Nat := 32 * (k / 32) * sliceBytes format

/-- The operation codes of R117. -/
def opDefined (op : Nat) : Bool := (1 ≤ op && op ≤ 5) || (0x10 ≤ op && op ≤ 0x1A)

/-- Whether ROLE fits the operation code (R545). -/
def roleFits (op role : Nat) : Bool :=
  if op = 1 then role ≤ 6 || (8 ≤ role && role ≤ 0x0A)
  else if op = 4 then role == 7
  else if op = 5 then role ≤ 6
  else role == 0xFF

/-! ## Model images (R124, R125) -/

def imgKind (img : List Byte) : Nat := field img 6 1
def imgShape (img : List Byte) (bit : Nat) : Bool := bitOf (field img 7 1) bit
def imgLayers (img : List Byte) : Nat := field img 24 2
def imgHidden (img : List Byte) : Nat := field img 26 2
def imgQHeads (img : List Byte) : Nat := field img 28 2
def imgKvHeads (img : List Byte) : Nat := field img 30 2
def imgHeadDim (img : List Byte) : Nat := field img 32 2
def imgExperts (img : List Byte) : Nat := field img 34 2
def imgVocab (img : List Byte) : Nat := field img 40 4
def imgContext (img : List Byte) : Nat := field img 44 4
def imgRouted (img : List Byte) : Nat := field img 48 1
def imgShared (img : List Byte) : Nat := field img 49 1
def imgFingerprint (img : List Byte) : Nat := field img 16 8

/-- Bytes of tensor data, which is what a load writes into its home (R130). -/
def weightBytes (img : List Byte) : Nat := field img 8 8 - field img 96 8

/-- Page size of R141. -/
def pageBytes (img : List Byte) : Nat :=
  16 * imgKvHeads img * imgHeadDim img * 2 * (if field img 54 1 = 1 then 2 else 1)

/-- Key-value bytes of one token in every block (R134). -/
def tokenBytes (img : List Byte) : Nat := imgLayers img * pageBytes img / 16

/-- The envelope of a model or adapter image, checked in step 1 of R130. -/
def envelopeChecks (img : List Byte) : List Check :=
  [need (field img 0 4 = 0x494D5646) 0, need (field img 4 2 = 3) 4,
   (decide (field img 92 4 = crc32c (img.take 92)), .checkMismatch, 92)]

/-- Fields that base and adapter images share, after offset 79 (R125). A record table that runs past the image's end is
a fault of LAYER_TABLE, whatever RECORDS holds (log 169, DESIGN CHOICE). -/
def tailChecks (img : List Byte) : List Check :=
  [need (128 ≤ field img 80 8 && field img 80 8 + 64 * field img 88 4 ≤ img.length) 80,
   need (1 ≤ field img 88 4 && field img 88 4 ≤ 65536) 88,
   need (field img 96 8 % 4096 = 0 && field img 96 8 ≤ img.length) 96,
   need (img.length ≥ 128 && zeroAt img 112 16) 112]

/-- The header fields of a base image, in order of offset (R124, R125). A decoder's POSITION is not 1, since code 0x11
is not for decoders (R117; log 170, DEDUCED). -/
def headerChecks (img : List Byte) : List Check :=
  let hidden := field img 26 2
  let q := field img 28 2
  let kv := imgKvHeads img
  let hd := imgHeadDim img
  let ex := imgExperts img
  let ffn := field img 36 4
  let dec := imgKind img = 2
  [need (imgKind img ≤ 2) 6, need (field img 7 1 < 64) 7, need (field img 8 8 = img.length) 8,
   need (1 ≤ imgLayers img && imgLayers img ≤ 256) 24,
   need (256 ≤ hidden && hidden ≤ 16384 && hidden % 32 = 0) 26,
   need (1 ≤ q && q ≤ 128) 28,
   need (1 ≤ kv && kv ≤ q && q % kv = 0 && q / kv ≤ 32) 30,
   need ([64, 96, 128, 192, 256].contains hd) 32,
   need (ex = 0 || (2 ≤ ex && ex ≤ 256)) 34,
   need (32 ≤ ffn && ffn ≤ 65536 && ffn % 32 = 0) 36,
   need (1 ≤ imgVocab img && imgVocab img ≤ 262144) 40,
   need (1 ≤ imgContext img && imgContext img ≤ (if dec then 131072 else 8192)) 44,
   need (if ex = 0 then imgRouted img = 0 else 1 ≤ imgRouted img && imgRouted img ≤ min 8 ex) 48,
   need (if ex = 0 then imgShared img = 0 else imgShared img ≤ 2) 49,
   need (field img 50 1 ≤ 1) 50, need (field img 51 1 ≤ 5) 51,
   need (field img 52 1 ≤ 2 && !(dec && field img 52 1 = 1)) 52, need (field img 53 1 ≤ 2) 53,
   need (field img 54 1 ≤ 1) 54, need (field img 55 1 ≤ 2) 55,
   need (field img 60 2 % 2 = 0 && field img 60 2 ≤ hd) 60,
   need (1 ≤ field img 62 2 && field img 62 2 ≤ 28) 62,
   need (!flt (BitVec.ofNat 32 (field img 68 4)) 0x3F800000 && !isNanF32 (BitVec.ofNat 32 (field img 68 4))) 68,
   need (zeroAt img 76 4) 76] ++ tailChecks img

/-- The formats of a record. FP32 and INT32 are output formats only (R85, R88, R128); of a record that runs on the
arrays, A and B pair under R86, and the output is one of R94: INT32 of INT8 operands only. A quantize record's output is
an array operand format (R117). -/
def formatChecks (r : LayerRec) : List Check :=
  let o := r.at_
  let arrays := r.op ≤ 5
  [need (r.fa ≤ 9) (o + 1), need (r.fb ≤ 9 && (!arrays || pairFamily r.fa = pairFamily r.fb)) (o + 2),
   need (r.fo ≤ (if r.op = 0x1A then 9 else 11) && (!arrays || ((r.fo ≠ 11 || r.fa = 7) && r.fo ≠ 7))) (o + 3)]

/-- K and N of a record that runs on the arrays (R87, R128). The window-slot fit of a linear is judged with K (R131). -/
def sizeChecks (r : LayerRec) (slotBytes : Nat) : List Check :=
  let o := r.at_
  if 5 < r.op then []
  else [need (r.k % 32 = 0 && 32 ≤ r.k && r.k ≤ 65536) (o + 8),
    (r.op = 2 || r.op = 3 || columnTileBytes r.k r.fb ≤ slotBytes, .windowFit, o + 8),
    need (1 ≤ r.n && r.n ≤ 262144) (o + 12)]

/-- One record of a base image (R117, R128, R545): a router's N is the expert count, padded to 32 (R117), a code head's
256 (R118); a learned position is added in encoders and cross-encoders only (R117). -/
def baseRecChecks (img : List Byte) (r : LayerRec) : List Check :=
  let o := r.at_
  need (opDefined r.op && r.op ≠ 5 && !(r.op == 0x11 && imgKind img == 2)) o :: formatChecks r ++
  [need (r.block < imgLayers img) (o + 4),
   need (r.expert = 0xFFFF || r.expert < imgExperts img + imgShared img) (o + 6)] ++
  sizeChecks r (field img 62 2 * 65536) ++
  [need (r.op ≠ 4 || r.n = 32 * ceilDiv (imgExperts img) 32) (o + 12),
   need (!(r.op == 1 && r.role == 9) || r.n = 256) (o + 12),
   need (field img 96 8 + r.offset + r.bytes ≤ img.length) (o + 16),
   need (r.scales = 0 || r.scales < img.length) (o + 32),
   need (roleFits r.op r.role) (o + 48), need r.reservedOk (o + 49)]

/-! ## The order of a stack (R118; log 153, DEDUCED) -/

/-- A place of a stack: operation code, ROLE, expert. -/
abbrev Place := Nat × Nat × Nat

def plain (op : Nat) : Place := (op, 0xFF, 0xFFFF)

/-- The feed-forward of a dense block or of one expert. -/
def ffnPlaces (img : List Byte) (expert : Nat) : List Place :=
  (if gatedAct (field img 51 1) then [(1, 4, expert)] else []) ++ [(1, 5, expert), (0x15, 0xFF, expert), (1, 6, expert)]

def ffnOf (img : List Byte) : List Place :=
  if imgExperts img = 0 then ffnPlaces img 0xFFFF
  else (4, 7, 0xFFFF) :: (List.range (imgExperts img + imgShared img)).flatMap (ffnPlaces img) ++ [plain 0x17]

def attentionPlaces (img : List Byte) : List Place :=
  [(1, 0, 0xFFFF), (1, 1, 0xFFFF), (1, 2, 0xFFFF)] ++ (if field img 52 1 = 0 then [plain 0x12] else [])
    ++ [plain 2, plain 0x14, plain 3, (1, 3, 0xFFFF)]

/-- One block: pre-norm or post-norm. -/
def blockPlaces (img : List Byte) : List Place :=
  if imgShape img 0 then
    plain 0x13 :: attentionPlaces img ++ plain 0x16 :: plain 0x13 :: ffnOf img ++ [plain 0x16]
  else attentionPlaces img ++ plain 0x16 :: plain 0x13 :: ffnOf img ++ [plain 0x16, plain 0x13]

/-- The head of each kind. -/
def headPlaces (img : List Byte) : List Place :=
  match imgKind img with
  | 0 => plain 0x18 :: if imgShape img 3 then [(1, 9, 0xFFFF), plain 0x19] else []
  | 1 => [plain 0x18, (1, 0x0A, 0xFFFF)]
  | _ => [plain 0x13, (1, 8, 0xFFFF)]

/-- The stack that a header describes, with the block of each place. -/
def stackPlaces (img : List Byte) : List (Place × Option Nat) :=
  (plain 0x10 :: if field img 52 1 = 1 then [plain 0x11] else []).map (·, none)
    ++ (List.range (imgLayers img)).flatMap (fun b => (blockPlaces img).map (·, some b))
    ++ (headPlaces img).map (·, none)

/-- Records against the stack, in order: an order within Q, K and V and within gate and up is not stated, and any is
taken; quantize records may stand anywhere, and a route record after its router. The first fault. -/
def stackFault (img : List Byte) : List LayerRec → List (Place × Option Nat) → List (Place × Option Nat) → Option Nat
  | [], [], [] => none
  | [], _, _ => some 88
  | r :: rs, open_, ps =>
    let o := r.at_
    if r.op = 0x1A then stackFault img rs open_ ps
    else
      let due := if open_.isEmpty then
          let group := fun (p : Place × Option Nat) (q : Place × Option Nat) => p.2 == q.2 && p.1.1 == 1 && q.1.1 == 1
            && p.1.2.2 == q.1.2.2 && ((p.1.2.1 ≤ 2 && q.1.2.1 ≤ 2) || (4 ≤ p.1.2.1 && p.1.2.1 ≤ 5 && 4 ≤ q.1.2.1 && q.1.2.1 ≤ 5))
          match ps with
          | [] => ([], [])
          | p :: rest => (p :: rest.takeWhile (group p), rest.dropWhile (group p))
        else (open_, ps)
      let fits := fun (p : Place × Option Nat) => p.1.1 == r.op && p.1.2.1 == r.role
      match due.1 with
      | [] => some o
      | first :: _ =>
        match due.1.find? fits with
        | some p =>
          if p.2.any (· != r.block) then some (o + 4)
          else if p.1.2.2 ≠ r.expert then some (o + 6)
          else stackFault img rs (due.1.filter (· != p)) due.2
        | none =>
          if r.op = 0x17 ∧ first.1.1 = 1 ∧ first.1.2.2 = 0 then stackFault img rs open_ ps
          else if first.1.1 = r.op then some (o + 48) else some o

/-- What is wrong with a base image before its data is written (steps 1 and 2 of R130). -/
def baseImageFault (img : List Byte) : Option (Status × Nat) :=
  match firstFail (envelopeChecks img) with
  | some f => some f
  | none => match firstFail (headerChecks img) with
    | some f => some f
    | none =>
      let recs := layerRecs img
      match recs.findSome? (fun r => firstFail (baseRecChecks img r)), stackFault img recs [] (stackPlaces img) with
      | some f, some o => if 128 ≤ o ∧ o < f.2 then some (.invalidField, o) else some f
      | some f, none => some f
      | none, some o => some (.invalidField, o)
      | none, none => none

/-- Whether IMAGE_CHECK matches (step 5 of R130). -/
def imageCheckOk (img : List Byte) : Bool := field img 104 8 = crc64 (img.drop 128)

/-- The per-row cost of R172, in EU. -/
def rowCost (img : List Byte) : Rat :=
  let ex := imgExperts img
  (layerRecs img).foldl (fun a r =>
    if r.op = 1 ∨ r.op = 4 then
      let c : Rat := (passTime r.k r.fa r.fb * ceilDiv r.n 32 : Nat) / 32
      let w : Rat := if r.expert < ex then (imgRouted img : Rat) / ex else 1
      a + c * w
    else a) 0

/-! ## Adapter images (R127, R147, R545) -/

def adRank (img : List Byte) : Nat := field img 24 2
def adTargets (img : List Byte) : Nat := field img 26 2

/-- r padded to whole slices (R145). -/
def adPadded (img : List Byte) : Nat := 32 * ceilDiv (adRank img) 32

def adapterHeaderChecks (img : List Byte) : List Check :=
  [need (imgKind img = 3) 6, need (field img 7 1 < 64) 7, need (field img 8 8 = img.length) 8,
   need (1 ≤ adRank img && adRank img ≤ 256) 24, need (adTargets img < 256) 26, need (zeroAt img 28 52) 28]
    ++ tailChecks img

/-- The base record that an adapter record adds to (R147). -/
def baseRecOf (base : List LayerRec) (r : LayerRec) : Option LayerRec :=
  base.find? (fun b => b.op == 1 && b.block == r.block && b.expert == r.expert && b.role == r.role)

def adapterRecChecks (base : List LayerRec) (img : List Byte) (r : LayerRec) : List Check :=
  let o := r.at_
  let b := baseRecOf base r
  let anyRole := base.any (fun x => x.op == 1 && x.block == r.block && x.role == r.role)
  let anyBlock := base.any (fun x => x.block == r.block)
  let shape := match b with
    | none => []
    | some w =>
      if r.op = 5 then
        [need (r.fb = 0) (o + 2), need (r.k = w.k) (o + 8), need (r.n = adPadded img) (o + 12)]
      else
        [need (w.fb = 7 || r.fb = w.fb) (o + 2), need (r.k = adPadded img) (o + 8), need (r.n = w.n) (o + 12)]
  need (r.op = 1 || r.op = 5) o :: formatChecks r ++
  [need anyBlock (o + 4),
   need (r.expert = 0xFFFF || bitOf (adTargets img) 7) (o + 6),
   need (!anyRole || b.isSome) (o + 6)] ++ shape ++
  [need (field img 96 8 + r.offset + r.bytes ≤ img.length) (o + 16),
   need (r.role ≤ 6 && bitOf (adTargets img) r.role && anyRole) (o + 48), need r.reservedOk (o + 49)]

/-- Whether every target tensor of the base model has its A record and its U record, each once (R545). -/
def adapterPairsOk (base recs : List LayerRec) (img : List Byte) : Bool :=
  (base.filter (fun b => b.op == 1 && b.role ≤ 6 && bitOf (adTargets img) b.role
      && (b.expert == 0xFFFF || bitOf (adTargets img) 7))).all (fun b =>
    [1, 5].all (fun op =>
      (recs.filter (fun r => r.op == op && r.block == b.block && r.expert == b.expert && r.role == b.role)).length
        == 1))

/-- Whether a target names a tensor whose base record has INT8 as its format of B (R147). -/
def adapterInt8 (base : List LayerRec) (img : List Byte) : Bool :=
  base.any (fun b => b.op == 1 && b.role ≤ 6 && bitOf (adTargets img) b.role
    && (b.expert == 0xFFFF || bitOf (adTargets img) 7) && b.fb == 7)

/-- What is wrong with an adapter image for a base model; the fingerprint is judged after the header. -/
def adapterFault (baseImg img : List Byte) : Option (Status × Nat) :=
  let base := layerRecs baseImg
  match firstFail (envelopeChecks img) with
  | some f => some f
  | none => match firstFail (adapterHeaderChecks img) with
    | some f => some f
    | none =>
      if imgFingerprint img ≠ imgFingerprint baseImg then some (.adapterMismatch, 16)
      else if adapterInt8 base img then some (.invalidField, 26)
      else match (layerRecs img).findSome? (fun r => firstFail (adapterRecChecks base img r)) with
        | some f => some f
        | none => if adapterPairsOk base (layerRecs img) img then none else some (.invalidField, 26)

end Sys2Proof.Machine
end

