-- ==== Sys2Proof/Machine/Homes.lean ====
section
/-! DEFINITION. Room in the tiers: positions, capacity, what is homed where, quotas and the page reserve (R177, R265,
R326, R347, R352, R353, R378; log 22, DESIGN CHOICE). -/

namespace Sys2Proof.Machine

/-! ## Positions and capacity (R347, R352, R353) -/

/-- The capacity used by every package, in GB: the smallest of supported densities (R352). -/
def density (s : State) : Nat :=
  (s.dev.board.density.filter (fun p => [16, 24, 32, 48, 64].contains p.2)).foldl (fun a p => min a p.2)
    (if s.dev.board.density.length ≥ 24 then 64 else 48)

/-- Data bytes of one position: a quarter of the package, 80% of it data (R346, R353). -/
def positionBytes (s : State) : Nat := density s * 200000000

/-- The positions that a channel serves, in ascending order (R347), without those of a course whose fabric island is in
the scope of SERVICE (R451, R484). -/
def positions (s : State) : List Nat :=
  (List.range 96).filter (fun p => s.eng.channels.any (fun c => c.2.position == some p)
    && !(look s.islands (fabricClk (Fin.ofNat 4 (p / 24)))).away)

def positionsIn (s : State) (c : Nat) : Nat := ((positions s).filter (fun p => p / 24 == c)).length

/-- The shards of an object created on a set of courses: the positions of those courses in ascending order (R264,
R326). -/
def shards (s : State) (mask : Nat) : List Nat := (positions s).filter (fun p => bitOf mask (p / 24))

/-- What a course holds of bytes spread evenly over the positions of a set of courses. -/
def spread (s : State) (mask c bytes : Nat) : Nat :=
  if bitOf mask c then ceilDiv (bytes * positionsIn s c) (max 1 (shards s mask).length) else 0

/-- What a course holds of an object homed on one course (0 to 3) or striped (4) (R132). -/
def homeShare (s : State) (home c bytes : Nat) : Nat :=
  if home < 4 then (if home = c then bytes else 0) else spread s 15 c bytes

/-! ## Sizes of objects -/

def idxField (x : Index) (o n : Nat) : Nat := field x.config o n
def idxMaxNodes (x : Index) : Nat := idxField x 0 8
def idxCourses (x : Index) : Nat := idxField x 8 1 % 16
def idxDegree (x : Index) : Nat := idxField x 9 1
def idxWalkers (x : Index) : Nat := idxField x 10 1
def idxRepairAuto (x : Index) : Nat := idxField x 11 1
def idxEfBuild (x : Index) : Nat := idxField x 12 2
def idxHotQuota (x : Index) : Nat := idxField x 14 2
def idxUpperRatio (x : Index) : Nat := idxField x 16 4
def idxColdHopLimit (x : Index) : Nat := idxField x 20 2
def idxBatchUs (x : Index) : Nat := idxField x 22 2
def idxHotRegions (x : Index) : Nat := idxField x 24 4
def idxRepairPct (x : Index) : Nat := idxField x 28 1

/-- Bytes of one region's adjacency slots and identity entries (R366). -/
def regionBytes : Nat := 9437184

/-- LPDDR6 bytes of an index's structures (R265, R294). -/
def indexBytes (x : Index) : Nat :=
  if x.extended then idxMaxNodes x * 48 + idxHotRegions x * regionBytes else idxMaxNodes x * 192

/-- Bytes of an index whose home is LPDDR6, as quota 4 counts them (R265, R372). -/
def indexHomed (x : Index) : Nat :=
  if x.extended then idxMaxNodes x * 48 + (x.regions.filter (fun r => r.2.hot)).length * regionBytes
  else idxMaxNodes x * 192

/-- Slot lines, base slots and spare slots of a table's shard (R326). -/
def tblLines (t : Table) : Nat := ceilDiv t.width 32
def tblBase (s : State) (t : Table) : Nat := ceilDiv (ceilDiv t.rows 8) (max 1 (shards s t.courses).length) * 8
def tblSpare (s : State) (t : Table) : Nat := ceilDiv (tblBase s t) (2 ^ s.dev.cfg.emb.spareShift)

/-- LPDDR6 bytes of one shard of a table, directory included (R327). -/
def shardBytes (s : State) (t : Table) : Nat :=
  tblBase s t * 8 + (tblBase s t + tblSpare s t) * tblLines t * 64

/-- Entries of a sequence's page table (R157). -/
def tableEntries (img : List Byte) : Nat := ceilDiv (imgContext img) 16 * imgLayers img

/-- Bytes of a sequence's pages (R141, R142). -/
def seqPageBytes (s : State) (q : Seq) : Nat :=
  let img := (look s.obj.models q.model).image
  q.spans * imgLayers img * pageBytes img

/-- Bytes a sequence keeps in its home: pages, page table, grammar context (R157, R378). -/
def seqBytes (s : State) (q : Seq) : Nat :=
  seqPageBytes s q + 4 * tableEntries (look s.obj.models q.model).image + if q.grammar.isSome then 520 else 0

def isDone (q : Seq) : Bool := q.state == .done

/-- What a listed sequence takes on its course: only the page-table storage once it is DONE (R158). -/
def seqHeld (s : State) (q : Seq) : Nat :=
  if isDone q then 4 * tableEntries (look s.obj.models q.model).image else seqBytes s q

def inLpddr6 (m : Model) : Bool := !m.cold

/-- LPDDR6 that a model takes: its home, or room reserved for a move (R367). -/
def takesLpddr6 (m : Model) : Bool := !m.cold || m.state == .moving

/-- Blocks of 4,096 bytes. -/
def blocksOf (bytes : Nat) : Nat := ceilDiv bytes 4096

/-- Bytes of a model with its adapters, one unit of R366. -/
def modelUnit (s : State) (slot : Nat) : Nat :=
  weightBytes (look s.obj.models slot).image
    + sumBy (fun a => if a.1.1 == slot then weightBytes a.2.image else 0) s.obj.adapters

/-- The capacity of one shard of an index in local numbers, the regions of a shard, and of the index (R264, R294). -/
def shardCapacity (s : State) (x : Index) : Nat := ceilDiv (idxMaxNodes x) (max 1 (shards s (idxCourses x)).length)
def shardRegions (s : State) (x : Index) : Nat := ceilDiv (shardCapacity s x) 65536
def regionCount (s : State) (x : Index) : Nat := (shards s (idxCourses x)).length * shardRegions s x

/-- Regions that take flash: every cold one, and those a move reserves or leaves (R294; a region not listed is cold). -/
def coldRegions (s : State) (x : Index) : Nat :=
  if x.extended then regionCount s x - (x.regions.filter (fun r => r.2.hot && !r.2.moving)).length else 0

/-- LPDDR6 bytes of a corpus, or its bytes in flash. -/
def corpusBytes (t : Tbl Nat Record) (flash : Bool) : Nat :=
  sumBy (fun r => if r.2.inFlash == flash then r.2.bytes.length else 0) t

/-- Blocks of the object area: COLD models, cold regions, corpus records in flash, and old homes not released
(R395). -/
def objectBlocks (s : State) : Nat :=
  sumBy (fun m => if m.2.cold || m.2.state == .moving then blocksOf (modelUnit s m.1) else 0) s.obj.models
  + sumBy (fun x => coldRegions s x.2 * 2304) s.obj.indices
  + sumBy (fun k => sumBy (fun r => if r.2.inFlash then blocksOf r.2.bytes.length else 0) k.2) s.obj.corpora
  + sumBy (fun m => m.2.heldFlash + m.2.takenFlash) s.eng.moves

/-- Logical blocks in use: namespaces, the swap area and the object area. -/
def logicalUsed (s : State) : Nat :=
  sumBy (fun n => n.2.nsze) s.flash.namespaces + s.flash.swap + objectBlocks s

/-- QLC die blocks left after retirements (R394, R403): a die that failed has none, and a die loses the blocks retired
beyond its reserve. -/
def qlcLeft (s : State) : Nat :=
  sumBy (fun d => if s.flash.failedDies.contains d ∨ s.flash.dieRows ≤ d % 16 then 0
    else s.flash.qlcPerDie - (look s.flash.retired d - s.flash.reserve)) (List.range 256)

/-- The tier is read-only: what is left holds less than 1.02 × the logical capacity in use (R403). -/
def flashReadOnly (s : State) : Bool := qlcLeft s * s.flash.qlcLbas * 100 < 102 * logicalUsed s

/-- LPDDR6 bytes of the translation map (R396). -/
def mapBytes (s : State) : Nat :=
  64 * (sumBy (fun n => ceilDiv n.2.nsze 12) s.flash.namespaces + ceilDiv s.flash.swap 12
    + ceilDiv (objectBlocks s) 12)

/-- The course in which a move of a sequence reserves pages. -/
def reservesOn (q : Seq) (c : Nat) : Bool :=
  match q.swap with
  | .restoring t | .relocating t => t.val == c
  | _ => false

/-- Pages that the generation step in flight on a course allocated (R143). -/
def stepPages (s : State) (c : Nat) : Nat :=
  match (look s.eng.courses (Fin.ofNat 4 c)).generation.step with
  | none => 0
  | some st => sumBy (fun r =>
      let img := (look s.obj.models r.model).image
      r.spans * imgLayers img * pageBytes img) st.rows

/-- Page numbers in use in a course's pool: of resident sequences and of the step in flight (R142, R143). -/
def pageNumbers (s : State) (c : Fin 4) : List Nat :=
  s.obj.seqs.flatMap (fun q => if q.2.course = c ∧ !q.2.inFlash then q.2.table else [])
    ++ (((look s.eng.courses c).generation.step.map (·.rows)).getD []).flatMap (·.pages)

/-- The lowest `n` page numbers not in use (log 159, DESIGN CHOICE). -/
def freePages (used : List Nat) (n : Nat) : List Nat :=
  ((List.range (used.length + n)).filter (fun p => !used.contains p)).take n

/-- LPDDR6 bytes in use on a course. -/
def usedBytes (s : State) (c : Nat) : Nat :=
  sumBy (fun m => if takesLpddr6 m.2 then homeShare s m.2.home c (weightBytes m.2.image) else 0) s.obj.models
  + sumBy (fun a => let m := look s.obj.models a.1.1
      if takesLpddr6 m then homeShare s m.home c (weightBytes a.2.image) else 0) s.obj.adapters
  + spread s 15 c (mapBytes s) + stepPages s c
  + sumBy (fun m => sumBy (fun h => if h.1 == c then h.2 else 0) (m.2.heldLp ++ m.2.takenLp)) s.eng.moves
  + sumBy (fun q => if reservesOn q.2 c then seqBytes s q.2 else 0) s.obj.seqs
  + sumBy (fun q => if q.2.course.val == c && !q.2.inFlash then seqHeld s q.2 else 0) s.obj.seqs
  + sumBy (fun x => spread s (idxCourses x.2) c (indexBytes x.2)) s.obj.indices
  + sumBy (fun k => spread s (idxCourses (look s.obj.indices k.1)) c (corpusBytes k.2 false)) s.obj.corpora
  + sumBy (fun t => if bitOf t.2.courses c then positionsIn s c * shardBytes s t.2 else 0) s.obj.tables

/-- Free LPDDR6 of a course. -/
def freeBytes (s : State) (c : Nat) : Nat := positionsIn s c * positionBytes s - usedBytes s c

/-- RES of R177: the pages of one position span in every block, of the largest decoder in READY. -/
def reserveBytes (s : State) : Nat :=
  s.obj.models.foldl (fun a m =>
    if m.2.state = .ready ∧ imgKind m.2.image = 2 then max a (imgLayers m.2.image * pageBytes m.2.image) else a) 0

/-- The page pool of a course: free LPDDR6 above the reserve (R177). -/
def pagePool (s : State) (c : Nat) : Nat := freeBytes s c - reserveBytes s

/-- Whether an object spread over courses leaves each its reserve. -/
def spreadFits (s : State) (mask bytes : Nat) : Bool :=
  (List.range 4).all (fun c => spread s mask c bytes = 0 || spread s mask c bytes + reserveBytes s ≤ freeBytes s c)

/-! ## Quota 4 and quota 5 (R435); key-value pages count toward neither (R177) -/

def tenantLpddr6 (s : State) (t : Nat) : Nat :=
  sumBy (fun m => if m.2.tenant == t && inLpddr6 m.2 then weightBytes m.2.image else 0) s.obj.models
  + sumBy (fun a => if a.2.tenant == t && inLpddr6 (look s.obj.models a.1.1) then weightBytes a.2.image else 0)
      s.obj.adapters
  + sumBy (fun x => if x.2.tenant == t then indexHomed x.2 else 0) s.obj.indices
  + sumBy (fun k => if (look s.obj.indices k.1).tenant == t then corpusBytes k.2 false else 0) s.obj.corpora
  + sumBy (fun x => if x.2.tenant == t then (shards s x.2.courses).length * shardBytes s x.2 else 0) s.obj.tables

/-- Bytes of an index's regions that are homed in flash. -/
def coldBytes (s : State) (x : Index) : Nat :=
  if x.extended then (regionCount s x - (x.regions.filter (fun r => r.2.hot)).length) * regionBytes else 0

def tenantFlash (s : State) (t : Nat) : Nat :=
  sumBy (fun m => if m.2.tenant == t && m.2.cold then weightBytes m.2.image else 0) s.obj.models
  + sumBy (fun a => if a.2.tenant == t && (look s.obj.models a.1.1).cold then weightBytes a.2.image else 0)
      s.obj.adapters
  + sumBy (fun x => if x.2.tenant == t then coldBytes s x.2 else 0) s.obj.indices
  + sumBy (fun k => if (look s.obj.indices k.1).tenant == t then corpusBytes k.2 true else 0) s.obj.corpora
  + sumBy (fun n => if n.2.tenant == t then n.2.nsze * 4096 else 0) s.flash.namespaces

/-! ## The hot-graph store (R15, R268) -/

/-- HOT_QUOTA bytes taken in a quarter. -/
def storeUsed (s : State) (q : Fin 4) : Nat :=
  sumBy (fun x => if x.2.quarter == q then idxHotQuota x.2 * 65536 else 0) s.obj.indices

/-- Free bytes of a 12 MiB quarter. -/
def storeFree (s : State) (q : Fin 4) : Nat :=
  let i := look s.islands (storeClk q)
  if i.retired || i.away then 0 else 12582912 - storeUsed s q

/-! ## Flash room (R378, R394, R395) -/

/-- Blocks of a sequence in the swap area (R378). -/
def swapBlocks (s : State) (q : Seq) : Nat := ceilDiv (seqBytes s q) 4096

/-- A sequence that holds swap blocks: it is there, or an eviction has reserved them. -/
def holdsSwap (q : Seq) : Bool :=
  q.inFlash || match q.swap with
    | .evicting _ => true
    | _ => false

def swapUsed (s : State) : Nat :=
  sumBy (fun q => if holdsSwap q.2 then swapBlocks s q.2 else 0) s.obj.seqs
    + sumBy (fun m => m.2.heldSwap) s.eng.moves

/-- Whether the swap area can take a sequence (R378, R403). -/
def swapFits (s : State) (q : Seq) : Bool := !flashReadOnly s && swapUsed s + swapBlocks s q ≤ s.flash.swap

/-- Logical blocks that no namespace, swap area or object holds (R395). -/
def flashFree (s : State) : Nat :=
  s.flash.logical - logicalUsed s

/-- Whether LPDDR6 holds the map lines of more blocks (R396). -/
def mapFits (s : State) (blocks : Nat) : Bool := spreadFits s 15 (64 * ceilDiv blocks 12)

/-- Whether the object area can take bytes more (R395, R396). -/
def flashFits (s : State) (bytes : Nat) : Bool := blocksOf bytes ≤ flashFree s && mapFits s (blocksOf bytes)

/-- The clock of a channel in MHz by its rate (R26, R352). -/
def channelMHz (s : State) (ch : Fin 96) : Nat := ([800, 889, 1067, 1200][(look s.eng.channels ch).rate]?).getD 1200

/-- Allocated 64 KiB chunks of the position that a channel serves (log 37, DESIGN CHOICE). -/
def usedChunks (s : State) (ch : Fin 96) : Nat :=
  match (look s.eng.channels ch).position with
  | some p => min (positionBytes s / 65536) (Config.chunksAt p (usedBytes s (p / 24)))
  | none => 0

/-- Counts bytes that host software and Hod have written to flash (R414). -/
def countIn (bytes : Nat) (s : State) : State := { s with flash := { s.flash with bytesIn := s.flash.bytesIn + bytes } }

/-! ## Flash channels and Hod's share of them (R389, R408) -/

/-- The flash rate code of a channel (R389). -/
def flashRate (s : State) (f : Fin 16) : Nat :=
  min s.dev.cfg.flash.maxRate (((s.dev.board.flashRates.find? (fun r => r.1 == f)).map (·.2)).getD 6 - 1)

/-- Transfers of a rate code per µs. -/
def flashTransfers (code : Nat) : Nat := ([800, 1200, 1600, 2400, 3200, 3600][code]?).getD 3600

/-- Bytes per ms that all Hod units together may move in the flash tier: MOVE_PCT of its data bandwidth. -/
def hodRate (s : State) : Nat :=
  sumBy (fun f => flashTransfers (flashRate s f) * 1000 * 16384 / 18432) (List.finRange 16) * s.dev.cfg.mem.movePct / 100

/-- The moment at which a Hod transfer of some bytes to or from flash can have ended, after those before it. -/
def hodDone (s : State) (bytes : Nat) : Nat :=
  max s.now s.flash.hodFree + ceilDiv (bytes * 1000000) (max 1 (hodRate s))

/-- Whether an operation holds a die, so that a read of it waits: a retrieval read suspends a program or an erase where the
dies support that (R408). -/
def dieHeld (s : State) (die : Nat) : Bool := s.flash.issued.any (fun o => o.die == die) && !s.dev.board.flashSuspend

end Sys2Proof.Machine
end

