-- ==== Sys2Proof/Machine/Flags.lean ====
section
/-! DEFINITION. What the device may do now: the combination table of R453 and R454, and which islands work (R464,
R486). -/

namespace Sys2Proof.Machine

/-! ## Islands in service -/

def islandUp (s : State) (clk : ClockId) : Bool := let i := look s.islands clk; !i.retired && !i.away

/-- An island whose clocks stand still: paused by a throttle order, or while it relocks (R106, R107, R507). -/
def stopped (s : State) (clk : ClockId) : Bool := let i := look s.islands clk; i.paused || s.now < i.relockEnd

/-- An island that works now. -/
def islandRuns (s : State) (clk : ClockId) : Bool := islandUp s clk && !stopped s clk

def arrayUp (s : State) (a : Fin 16) : Bool := islandUp s (arrayClk a)
def tileUp (s : State) (t : Fin 64) : Bool := islandUp s (tileClk t)

/-- An island that takes new work: in service, and no retirement waits for its next step boundary (R481). -/
def takesWork (s : State) (clk : ClockId) : Bool := islandUp s clk && !(look s.islands clk).leaving

def arraysUp (s : State) (c : Fin 4) : List (Fin 16) :=
  (List.finRange 16).filter (fun a => a.val / 4 == c.val && takesWork s (arrayClk a))

def tilesUp (s : State) (c : Fin 4) : List (Fin 64) :=
  (List.finRange 64).filter (fun t => t.val / 16 == c.val && takesWork s (tileClk t))

/-- Whether a course can run sequences: not lost, with a working array and a working tile (R19, R486). -/
def courseRuns (s : State) (c : Fin 4) : Bool :=
  !(courseOf s c).lost && islandUp s (fabricClk c) && !(arraysUp s c).isEmpty && !(tilesUp s c).isEmpty

/-! ## Paths between courses (R31) -/

def fabricUp (s : State) (c : Fin 4) : Bool := !(courseOf s c).lost && islandUp s (fabricClk c)

/-- Whether Mortar carries traffic between two courses: always within one and between neighbours; between diagonal courses,
0 and 3 or 1 and 2 (R30), through either of the other two whose fabric is available (R31). -/
def pathUp (s : State) (a b : Fin 4) : Bool :=
  a == b || a.val + b.val ≠ 3 || (List.finRange 4).any (fun m => m != a && m != b && fabricUp s m)

/-- Whether a course reaches every course of a mask. -/
def reachesMask (s : State) (c : Fin 4) (mask : Nat) : Bool :=
  (List.finRange 4).all (fun d => !bitOf mask d.val || pathUp s c d)

/-- The courses on which a model's home lies, as a mask (R132). -/
def homeMask (m : Model) : Nat := if m.home < 4 then 2 ^ m.home else 15

/-- The courses on which an index lies, its upper quarter's among them (R268). -/
def indexMask (x : Index) : Nat := idxCourses x ||| 2 ^ x.quarter.val

/-! ## What each state allows (R453, R454) -/

/-- Whether a command runs, waits until P0 returns, or is barred with reason 6. -/
inductive Gate where
  | run | held | barred
  deriving DecidableEq, Repr

/-- The opcodes of Mf, Mu and Mq. -/
def mfOps : List Nat := [0x0F00, 0x0F04, 0x0F05, 0x0F0D, 0x0F0C]
def muOps : List Nat := [0x0F00, 0x0F01, 0x0F04, 0x0F05, 0x0F0D]
def mqOps : List Nat := muOps ++ [0x0F0B, 0x0F06, 0x0F0C]

/-- SERVICE over the whole device (R450). -/
def wholeService (s : State) : Bool :=
  match s.sec.service with
  | some v => v.scope.isEmpty
  | none => false

def runIf (b : Bool) : Gate := if b then .run else .barred

/-- The cell of R454 for an opcode and a tenant; D, the reads of R452, is held in P3. -/
def gate (s : State) (op tenant : Nat) : Gate :=
  let group := op / 256
  let d : Gate := if s.sec.service.isSome ∧ op = 0x0F0B then (if s.dev.asleep || s.dev.drowsy then .held else .run) else .barred
  match s.sec.lifecycle with
  | .factory =>
    if group = 0 then runIf (tenant = 0)
    else if mfOps.contains op then .run
    else if op = 0x0F03 ∧ s.sec.service.isNone then .run
    else d
  | .unowned => if group = 0 then runIf (tenant = 0) else runIf (muOps.contains op || op = 0x0F03)
  | .owned =>
    if group = 0 ∨ group = 0x0F then .run
    else if wholeService s then .barred
    else if s.dev.asleep || s.dev.drowsy then .held else .run
  | .quarantine =>
    if group = 0 then runIf (tenant = 0)
    else if mqOps.contains op ∨ op = 0x0F03 then .run
    else d

/-- Whether NVMe is allowed on PF1 (N of R453). -/
def nvmeAllowed (s : State) : Bool := s.sec.lifecycle == .owned && !wholeService s

/-! ## Power states (R501) -/

def governorStepped (s : State) : Bool :=
  s.gov.ladder.arraySteps ≠ 0 || s.gov.ladder.tileSteps ≠ 0 || s.gov.ladder.duty ≠ 0

/-- STATE of MG_PWR_STATUS (R501, R519; log 79, DEDUCED). -/
def powerCode (s : State) : Nat :=
  if s.dev.asleep then 3 else if s.dev.gated then 2 else if governorStepped s then 1 else 0

/-- The device is in service: P0 to P3. -/
def inService (s : State) : Bool := s.dev.stage == .service

/-- The device is in P0, P1 or P2, and no entry to P3 is under way. -/
def awake (s : State) : Bool := s.dev.stage == .service && !s.dev.asleep && !s.dev.drowsy

end Sys2Proof.Machine
end

