-- ==== Sys2Proof/Machine/Models.lean ====
section
/-! DEFINITION. Models and adapters: load, query, unload, versions (R124 to R135, R145 to R150). -/

namespace Sys2Proof.Machine

/-! ## Bindings (R135) -/

/-- Whether an outstanding command names a model in order to run it or to read its weights. -/
def bindsModel (h : Nat) (c : Cmd) : Bool :=
  match c.op with
  | 0x0200 => c.arg 0 8 == h
  | 0x0300 => c.arg 24 8 == h
  | 0x0301 => c.handle == h
  | 0x0303 => c.arg 8 8 == h || c.arg 16 8 == h
  | _ => false

/-- The models that an in-loop retrieval runs: the encoder and cross-encoder of the sequence's profile (R185). -/
def loopBinds (s : State) (h : Nat) (q : Seq) : Bool :=
  q.retrieving && (let p := look (look s.tenants q.tenant).retrievalProfiles q.profile
    field p 8 8 == h || field p 16 8 == h)

/-- The bindings of a model by sequences and by the commands of a kind. -/
def bindingsBy (s : State) (slot : Nat) (counts : Cmd → Bool) : Nat :=
  let m := look s.obj.models slot
  let h := mkHandle slot m.reuse
  (s.obj.seqs.filter (fun e => e.2.model == slot || loopBinds s h e.2)).length
    + (s.cmds.filter (fun c => counts c && c.sid == m.session && bindsModel h c)).length

/-- The bindings of a model. -/
def modelBindings (s : State) (slot : Nat) : Nat := bindingsBy s slot (fun _ => true)

/-- The bindings that a command which changes the model finds: those of commands admitted before it (R61, R151). -/
def bindingsBefore (s : State) (slot id : Nat) : Nat := bindingsBy s slot (fun c => c.id < id)

/-- Sequences bound to an adapter version, or about to be by an accepted SEQ_REBIND: its reference count (R148). -/
def adapterRefs (s : State) (slot id ver : Nat) : Nat :=
  (s.obj.seqs.filter (fun e => e.2.model == slot && (e.2.adapter == some (id, ver)
    || (e.2.adapter.any (fun a => a.1 == id) && e.2.rebind == some ver)))).length

/-- The CURRENT version of an adapter ID on a model. -/
def currentVersion (s : State) (slot id : Nat) : Option Nat :=
  (s.obj.adapters.find? (fun a => a.1.1 == slot && a.1.2.1 == id && a.2.state == .current)).map (·.1.2.2)

/-- The result of naming an adapter version: the version, or the status with its detail word; `idOff` and `verOff` are
the offsets of the two fields (R148). -/
inductive VersionPick where
  | found (ver : Nat) | badField (offset : Nat) | conflict
  deriving DecidableEq, Repr

def pickVersion (s : State) (slot id ver idOff verOff : Nat) : VersionPick :=
  if look s.obj.adapterTop (slot, id) = 0 then .badField idOff
  else if ver = 0 then
    match currentVersion s slot id with
    | some v => .found v
    | none => .conflict
  else match find? s.obj.adapters (slot, id, ver) with
    | none => .badField verOff
    | some a => if a.state = .retiring then .conflict else .found ver

/-- Storage of versions that are SUPERSEDED or RETIRING and bound by no sequence is freed (R148). -/
def reapAdapters (s : State) : State :=
  { s with obj := { s.obj with adapters := s.obj.adapters.filter (fun a =>
      a.2.state == .current || adapterRefs s a.1.1 a.1.2.1 a.1.2.2 != 0) } }

/-! ## Loading a model (R130 to R132) -/

/-- The home that IMMEDIATE names: the course with most free LPDDR6 for 0x8, the lowest of equals (R132; log 20, DESIGN
CHOICE). -/
def homeOf (s : State) (imm : Nat) : Nat :=
  if imm = 0 then 4
  else if imm = 8 then
    (List.range 4).foldl (fun best c => if freeBytes s best < freeBytes s c then c else best) 0
  else imm - 4

/-- Whether a load of `bytes` at a home leaves every course that it takes from its reserve, and every course the part by
which it raises RES (R124, R177). -/
def homeFits (s : State) (home bytes reserve : Nat) : Bool :=
  (List.range 4).all (fun c => (homeShare s home c bytes = 0 && reserve ≤ reserveBytes s)
    || homeShare s home c bytes + reserve ≤ freeBytes s c)

/-- The reserve with one more decoder in READY (R177). -/
def reserveWith (s : State) (img : List Byte) : Nat :=
  if imgKind img = 2 then max (reserveBytes s) (imgLayers img * pageBytes img) else reserveBytes s

/-- The model is in the table, READY (step 5 of R130). -/
def addModel (slot : Nat) (m : Model) (s : State) : State :=
  { s with obj := { s.obj with
    models := put s.obj.models slot m, modelReuse := put s.obj.modelReuse slot m.reuse
    adapterTop := s.obj.adapterTop.filter (fun a => a.1.1 != slot) } }

def loadModel (img : List Byte) (c : Cmd) (s : State) : State :=
  match baseImageFault img with
  | some (st, o) => finish c { status := st, effect := .none, value := o, detail := 64 } s
  | none =>
    let home := homeOf s c.imm
    match firstFree s.obj.models 0 64 with
    | none => fail c .modelSlotsFull 0 s
    | some slot =>
      if tenantLpddr6 s c.tenant + weightBytes img > (quotasOf s c.tenant).lpddr6 then fail c .quotaExceeded 4 s
      else if !homeFits s home (weightBytes img) (reserveWith s img) then fail c .homeFull 0 s
      else if !imageCheckOk img then
        finish c { status := .checkMismatch, effect := .none, value := 104, detail := 64 } s
      else
        let reuse := (look s.obj.modelReuse slot + 1) % 2 ^ 32
        finish c { value := mkHandle slot reuse }
          (addModel slot { reuse, session := c.sid, tenant := c.tenant, home, image := img } s)

/-! ## Unloading (R135) -/

/-- The model's slot and its adapters' storage are free. -/
def removeModel (slot : Nat) (s : State) : State :=
  let s := dropMoves (movesOfModel slot) s
  { s with obj := { s.obj with
    models := del s.obj.models slot
    adapters := s.obj.adapters.filter (fun a => a.1.1 != slot)
    adapterTop := s.obj.adapterTop.filter (fun a => a.1.1 != slot) } }

/-- MODEL_UNLOAD: the model is READY without bindings, or COLD. -/
def unloadModelRefusal (s : State) (c : Cmd) : Refusal? :=
  match modelOf s c.sid c.handle with
  | none => some (badResult s 32 0)
  | some (slot, m) =>
    match m.state with
    | .ready => if bindingsBefore s slot c.id ≠ 0 then inState 3 1 else none
    | .cold => none
    | st => inState 3 st.code

/-- MODEL_UNLOAD: UNLOADING from its dispatch, gone once its homes are freed. -/
def unloadModel (c : Cmd) (s : State) : State :=
  orRefuse c (if c.holds then none else unloadModelRefusal s c)
    (fun s => finish c {} (removeModel (handleSlot c.handle) s)) s

/-! ## Adapters (R147, R148) -/

/-- A new version becomes CURRENT, and the one it replaces SUPERSEDED (R148); bound sequences that rebind on replace will
take it at their next step boundary (R149). -/
def addAdapter (slot id ver tenant : Nat) (img : List Byte) (s : State) : State :=
  reapAdapters { s with obj := { s.obj with
    seqs := mapTbl s.obj.seqs (fun _ q => if q.model = slot ∧ q.rebindOnReplace ∧ q.adapter.any (fun a => a.1 == id) then
      { q with replaced := true } else q)
    adapters := s.obj.adapters.map (fun a =>
        if a.1.1 == slot && a.1.2.1 == id && a.2.state == .current then (a.1, { a.2 with state := .superseded }) else a)
      ++ [((slot, id, ver), { state := .current, tenant, image := img })]
    adapterTop := put s.obj.adapterTop (slot, id) ver } }

/-- ADAPTER_LOAD: the model is READY (R147). -/
def loadAdapterRefusal (s : State) (c : Cmd) : Refusal? :=
  match modelOf s c.sid c.handle with
  | none => some (badResult s 32 0)
  | some (_, m) => if m.state ≠ .ready then inState 3 m.state.code else none

/-- See log 101, DEDUCED. -/
def loadAdapter (img : List Byte) (c : Cmd) (s : State) : State :=
  match modelOf s c.sid c.handle with
  | none => badField c 32 0 s
  | some (slot, m) =>
    let id := c.arg 0 4
    match loadAdapterRefusal s c with
    | some r => finish c r s
    | none => match adapterFault m.image img with
    | some (.adapterMismatch, _) => fail c .adapterMismatch 0 s
    | some (st, o) => finish c { status := st, effect := .none, value := o, detail := 72 } s
    | none =>
      let mine := (s.obj.adapters.filter (fun a => a.2.tenant == c.tenant)).length
      if mine ≥ (quotasOf s c.tenant).adapters then fail c .quotaExceeded 3 s
      else if s.obj.adapters.length ≥ 4096 then fail c .adapterSlotsFull 0 s
      else if tenantLpddr6 s c.tenant + weightBytes img > (quotasOf s c.tenant).lpddr6 then fail c .quotaExceeded 4 s
      else if !homeFits s m.home (weightBytes img) (reserveBytes s) then fail c .homeFull 0 s
      else if !imageCheckOk img then
        finish c { status := .checkMismatch, effect := .none, value := 104, detail := 72 } s
      else
        let ver := look s.obj.adapterTop (slot, id) + 1
        finish c { value := ver } (addAdapter slot id ver c.tenant img s)

/-- A version that a command names, or the check it fails (R148). -/
def VersionPick.refusal (s : State) : VersionPick → Refusal?
  | .badField o => some (badResult s o 0)
  | .conflict => inState 4 3
  | .found _ => none

/-- ADAPTER_RETIRE: the version that it names. -/
def retireAdapterPick (s : State) (c : Cmd) : VersionPick :=
  match modelOf s c.sid c.handle with
  | none => .badField 32
  | some (slot, _) => pickVersion s slot (c.arg 0 4) (c.arg 4 4) 64 68

def retireAdapter (c : Cmd) (s : State) : State :=
  let slot := handleSlot c.handle
  let id := c.arg 0 4
  match retireAdapterPick s c with
  | .found ver => finish c {} (reapAdapters { s with obj := { s.obj with
      adapters := adj s.obj.adapters (slot, id, ver) (fun a => { a with state := .retiring }) } })
  | p => orRefuse c (p.refusal s) (fun s => s) s

/-! ## MODEL_QUERY (R134) -/

/-- The adapter versions of a model with storage, by ID and then by version. -/
def adaptersOf (s : State) (slot : Nat) : List ((Nat × Nat × Nat) × Adapter) :=
  isort (s.obj.adapters.filter (fun a => a.1.1 == slot))
    (fun a b => a.1.2.1 < b.1.2.1 || (a.1.2.1 == b.1.2.1 && a.1.2.2 ≤ b.1.2.2))

def modelRecord (s : State) (slot : Nat) (m : Model) : List Byte :=
  let ads := adaptersOf s slot
  leBytes 8 (mkHandle slot m.reuse) ++ leBytes 1 (imgKind m.image) ++ leBytes 1 m.state.code ++ leBytes 1 m.home
    ++ leBytes 1 (field m.image 62 2) ++ leBytes 4 (modelBindings s slot) ++ leBytes 8 (weightBytes m.image)
    ++ leBytes 4 (tokenBytes m.image) ++ leBytes 2 ads.length ++ leBytes 2 0 ++ leBytes 8 (imgFingerprint m.image)
    ++ (ads.map (fun a => leBytes 4 a.1.2.1 ++ leBytes 4 a.1.2.2 ++ leBytes 1 a.2.state.code ++ leBytes 3 0
      ++ leBytes 4 (adapterRefs s slot a.1.2.1 a.1.2.2))).flatten

/-- What a MODEL_QUERY finds. -/
def modelAnswer (c : Cmd) (s : State) : Result :=
  match modelOf s c.sid c.handle with
  | none => badResult s 32 0
  | some (slot, m) => recordResult s c (modelRecord s slot m) {}

def queryModel (c : Cmd) (s : State) : State := answerWith c (modelAnswer c) s

/-! ## Meanings -/

/-- MODEL_LOAD (R130 to R132). -/
def execModelLoad (cmd : Nat) (image : Input) (s : State) : Host.Outcome State Fault Refusal :=
  .next (runCmd cmd 0x0100 (fun c => withInput c image (fun b => loadModel b c)) s)

/-- MODEL_UNLOAD (R135). -/
def execModelUnload (cmd : Nat) (s : State) : Host.Outcome State Fault Refusal :=
  .next (runCmd cmd 0x0101 unloadModel s)

/-- ADAPTER_LOAD (R147, R148). -/
def execAdapterLoad (cmd : Nat) (image : Input) (s : State) : Host.Outcome State Fault Refusal :=
  .next (runCmd cmd 0x0102 (fun c => withInput c image (fun b => loadAdapter b c)) s)

/-- ADAPTER_RETIRE (R148). -/
def execAdapterRetire (cmd : Nat) (s : State) : Host.Outcome State Fault Refusal :=
  .next (runCmd cmd 0x0103 retireAdapter s)

/-- MODEL_QUERY (R134). -/
def execModelQuery (cmd : Nat) (s : State) : Host.Outcome State Fault Refusal :=
  .next (runCmd cmd 0x0104 queryModel s)

end Sys2Proof.Machine
end

