-- ==== Sys2Proof/Machine/Cancel.lean ====
section
/-! DEFINITION. The end of a generation and the cancel rule (R64, R75, R158, R169, R373, R381). -/

namespace Sys2Proof.Machine

/-! ## Ending a run -/

/-- The completion of a SEQ_GENERATE (R64): COUNT the bytes written, VALUE the tokens committed, the stop reason and
the stop-string index, DETAIL the sequence state with the bits of R255. -/
def runResult (r : Run) (st : Status) (eff : Effect) (reason idx stateCode : Nat) (empty : Bool) : Result :=
  { status := st, effect := eff, count := r.bytes
    value := r.tokens % 2 ^ 32 + reason * 2 ^ 32 + idx * 2 ^ 40
    detail := stateCode + 256 * b2n empty + 512 * b2n r.fallback }

/-- EFFECT of a run that ends short: 01 once something of it has committed (R59, R75). -/
def runEffect (r : Run) : Effect := if r.work || r.tokens ≠ 0 || r.bytes ≠ 0 then .part else .none

/-- A sequence's mask job leaves its tile, and its buffer is free (R223). -/
def dropMask (e : Nat) (s : State) : State :=
  { s with eng := { s.eng with tiles := mapTbl s.eng.tiles (fun _ t => { t with masks := t.masks.filter (· != e) }) } }

/-- The sequence passes through FINISHING to DONE: pages freed, bindings kept (R158). -/
def seqDone (e reason idx : Nat) (s : State) : State :=
  enter e .done (setSeq e (fun q => { q with
    run := none, spans := 0, table := [], pages := [], stopReason := reason, stopIndex := idx, runnable := false, heldStop := none
    retrieving := false, cancelling := false, adopting := false, inFlash := false, swap := .none, tail := []
    maskReady := false }) (dropMask e s))

/-- Ends the run of a sequence with its final completion; the sequence is then DONE. -/
def endRun (e : Nat) (st : Status) (eff : Effect) (reason idx : Nat) (empty : Bool) (s : State) : State :=
  match find? s.obj.seqs e with
  | none => s
  | some q =>
    let s' := seqDone e reason idx s
    match q.run with
    | none => s'
    | some r => match findCmd s r.cmd with
      | none => s'
      | some c => finish c (runResult r st eff reason idx 7 empty) s'

/-- Ends the run as cancelled (R75): stop reason 5, the held tail discarded (R230), EFFECT 01 when earlier steps
committed something. A run whose carry flush has not ended has not begun (R548), and the sequence keeps its state. -/
def cancelRun (e : Nat) (s : State) : State :=
  match find? s.obj.seqs e with
  | none => s
  | some q => match q.run with
    | none => s
    | some r =>
      if r.flushing then
        match findCmd s r.cmd with
        | none => s
        | some c => cancelled c (setSeq e (fun q => { q with run := none, cancelling := false }) s)
      else endRun e .cancelled (runEffect r) 5 0 false s

/-! ## Cancelling a command (R75) -/

/-- The sequence whose run a command is. -/
def runSeq (s : State) (id : Nat) : Option Nat :=
  (s.obj.seqs.find? (fun q => match q.2.run with | some r => r.cmd == id | none => false)).map (·.1)

/-- A move without a unit in flight and without work to do. -/
def idleMove (m : Move) : Move := { m with state := .idle, unit := none, cmd := none, takenLp := [], takenFlash := 0 }

/-- The marks of a move that stops: a model in MOVING returns to its state, a region is no longer moving. -/
def unmark (m : Move) (s : State) : State :=
  match m.obj, m.unit with
  | .model slot, _ =>
    let ms := adj s.obj.models slot (fun x => { x with state := if x.cold then .cold else .ready })
    { s with obj := { s.obj with models := ms } }
  | .region slot, some u =>
    let xs := adj s.obj.indices slot (fun x => { x with
      regions := upd x.regions u (fun r => { r with moving := false }) })
    { s with obj := { s.obj with indices := xs } }
  | _, _ => s

/-- A TIER_MOVE stops at once: the unit in flight stays at its old home, committed units stand (R373). -/
def cancelMove (c : Cmd) (s : State) : State :=
  match s.eng.moves.find? (fun m => m.2.cmd == some c.id) with
  | none => cancelled c s
  | some (k, m) =>
    let s := { s with eng := { s.eng with
      moves := put s.eng.moves k (idleMove m) } }
    let s := unmark m s
    let eff : Effect := if m.committed = 0 then .none else .part
    finish c { status := .cancelled, effect := eff, value := m.committed } s

/-- A CHANNEL_RETRAIN, or the ISLAND_RETIRE of a channel, before its map switch: the command ends, and the device
finishes the evacuation by itself (R381, R382). -/
def cancelEvacuation (c : Cmd) (s : State) : State :=
  let es := s.eng.evacuations.map (fun e => if e.2.cmd == some c.id then (e.1, { e.2 with cmd := none }) else e)
  finish c { status := .cancelled, effect := .part } { s with eng := { s.eng with evacuations := es } }

/-- An ISLAND_RETIRE whose island has not left: the island stays in service (R481). -/
def cancelRetire (c : Cmd) (s : State) : State :=
  let eff : Effect := if c.moved then .part else .none
  finish c { status := .cancelled, effect := eff } { s with islands := mapTbl s.islands (fun _ i =>
    if i.leaver = some c.id then { i with leaving := false, leaver := none } else i) }

/-- The islands in the scope of SERVICE, or on their way there for a SERVICE_ENTER, are in service again (R452). -/
def returnIslands (s : State) : State :=
  let entering := fun (i : Island) => i.leaver.bind (findCmd s) |>.any (fun k => k.op == 0x0F0C)
  { s with islands := mapTbl s.islands (fun _ i =>
      if entering i then { i with away := false, leaving := false, leaver := none } else { i with away := false }) }

/-- Whether a command has passed its final commit, so that a cancel leaves it (R75, R292, R381). -/
def pastCommit (s : State) (c : Cmd) : Bool :=
  c.phase == .committed || (c.op == 0x0403 && c.result.isSome) || (c.op == 0x0F0D && c.begun) ||
  (c.op == 0x0F08 || c.op == 0x0F07) && s.eng.evacuations.any (fun e => e.2.cmd == some c.id && e.2.switched)

/-- Latches a cancel of a command (R74, R75, R169; a firmware update whose port has lost its link runs on, R495): a
queued command ends at once; a generation at its lane's commit point, or at once where the lane has no step; a move as
R373 and R381 say; any other at its own commit (log 60, DEDUCED; log 105, DEDUCED). -/
def cancelCmd (c : Cmd) (s : State) : State :=
  match c.phase with
  | .queued => cancelled c s
  | .committed => s
  | .running =>
    let s' := setCmd c.id (fun x => { x with cancel := true }) s
    match c.op with
    | 0x0202 =>
      match runSeq s c.id with
      | none => s'
      | some e =>
        let q := find? s.obj.seqs e
        let idle := match q with
          | some q => (courseOf s q.course).generation.step.isNone
          | none => true
        if idle then cancelRun e s' else setSeq e (fun q => { q with cancelling := true }) s'
    | 0x0503 => if (s.eng.moves.any (fun m => m.2.cmd == some c.id)) then cancelMove c s' else s'
    | 0x0800 => cancelled c { s' with obj := { s'.obj with scans := s'.obj.scans.filter (fun x => x.2.cmd != c.id) } }
    | 0x0F09 => if c.begun then cancelled c { s' with dev := { s'.dev with drowsy := false } } else s'
    | 0x0F0C => if c.begun then finish c { status := .cancelled, effect := .part } (returnIslands s') else s'
    | 0x0F06 =>
      if !(look s.host.ports c.port).link then cancelled c s'
      else cancelled c { s' with sec := { s'.sec with
        update := s'.sec.update.filter (fun u => u.cmd != c.id) } }
    | 0x0F07 | 0x0F08 =>
      if (s.eng.evacuations.any (fun e => e.2.cmd == some c.id)) then cancelEvacuation c s'
      else if s.islands.any (fun i => i.2.leaver == some c.id) then cancelRetire c s'
      else s'
    | _ => s'

/-- Cancels every command of a list that is still outstanding. -/
def cancelAll (ids : List Nat) (s : State) : State :=
  foldS (fun s id => match findCmd s id with
    | none => s
    | some c => if c.cancel || pastCommit s c then s else cancelCmd c s) ids s

/-! ## CANCEL (R64, R75) -/

/-- Whether a CANCEL may still act on a command. -/
def cancellable (s : State) (c : Cmd) : Bool := c.op != 6 && !c.cancel && !pastCommit s c

/-- Acts on the targets: the CANCEL completes after the last of them, or with ALREADY_COMPLETE when there is none. -/
def cancelTargets (c : Cmd) (ids : List Nat) (s : State) : State :=
  if ids.isEmpty then fail c .alreadyComplete 0 s
  else cancelAll ids (setCmd c.id (fun x => { x with waits := ids, begun := true }) s)

/-- Scope 0: the one command named, of the same function, port and session. -/
def cancelOne (c : Cmd) (s : State) : State :=
  cancelTargets c ((s.cmds.filter (fun t => t.port == c.port && t.fn == c.fn && t.ring == c.arg 4 2
    && t.hdr.commandId.toNat == c.arg 0 4 && t.sid == c.sid && t.id != c.id && cancellable s t)).map (·.id)) s

/-- Scope 1: every outstanding command of the session that names HANDLE, on any function of the port. -/
def cancelNamed (c : Cmd) (s : State) : State :=
  if (objOf s c.sid c.handle).isNone then badField c 32 0 s
  else cancelTargets c ((s.cmds.filter (fun t => t.port == c.port && t.sid == c.sid && t.handle == c.handle
    && t.id != c.id && cancellable s t)).map (·.id)) s

/-- CANCEL with scope 0 (R64, R75). -/
def execCancelCommand (cmd : Nat) (s : State) : Host.Outcome State Fault Refusal :=
  .next (runCmd cmd 6 (fun c s => if c.begun || c.arg 6 1 ≠ 0 then s else cancelOne c s) s)

/-- CANCEL with scope 1 (R64, R75). -/
def execCancelObject (cmd : Nat) (s : State) : Host.Outcome State Fault Refusal :=
  .next (runCmd cmd 6 (fun c s => if c.begun || c.arg 6 1 ≠ 1 then s else cancelNamed c s) s)

end Sys2Proof.Machine
end

