-- ==== Sys2Proof/Machine/Registers.lean ====
section
/-! DEFINITION. BAR0 of PF0 and of its virtual functions: register reads and writes (R39 to R46, R542, R543), ring
pairs and doorbells (R47 to R52). -/

namespace Sys2Proof.Machine

/-! ## Layout (R39, R42, R44) -/

/-- A function number that exists: PF0 is 0, virtual functions are 1 to 255 (R39). -/
def fnOk (fn : Nat) : Bool := fn < 256

def vendorId : Nat := 0x1F4C
def deviceId (fn : Nat) : Nat := if fn = 0 then 0x6424 else if fn = 256 then 0x6426 else 0x6425
def classCode (fn : Nat) : Nat := if fn = 256 then 0x010802 else 0x120000

def ringPairs (fn : Nat) : Nat := if fn = 0 then 64 else 16
def vectors (fn : Nat) : Nat := if fn = 0 then 128 else if fn = 256 then 129 else 17
def doorbellBase (fn : Nat) : Nat := if fn = 0 then 0x10000 else 0x4000
def tableBase (fn : Nat) : Nat := if fn = 0 then 0x20000 else 0x8000
def pendingBase (fn : Nat) : Nat := if fn = 0 then 0x30000 else 0xC000

/-- A register's value with the half or the whole that an access writes replaced (R43). -/
def merge (old : Word64) (upper wide : Bool) (value : Word64) : Word64 :=
  if wide then value
  else if upper then (value.truncate 32 ++ (old.truncate 32 : BitVec 32) : BitVec 64)
  else ((old >>> 32).truncate 32 ++ (value.truncate 32 : BitVec 32) : BitVec 64)

/-! ## Reads -/

/-- Whether a ring pair keeps final completions of its own commands, refused ones included. -/
def holdsOwn (p : Pair) : Bool := p.held.any (fun h => h.entry.final && !h.entry.adopted)

/-- Whether no fetched command of a function is outstanding (R543): the final completion of each is written (R74). -/
def fnQuiet (s : State) (port : Fin 2) (fn : Nat) : Bool :=
  !s.cmds.any (fun c => c.port == port && c.fn == fn)
    && !s.host.pairs.any (fun p => p.1.1 == port && p.1.2.1 == fn && holdsOwn p.2)

/-- Whether no command of a ring pair is outstanding (R50). -/
def pairQuiet (s : State) (k : PairKey) : Bool :=
  !s.cmds.any (fun c => c.port == k.1 && c.fn == k.2.1 && c.ring == k.2.2)

/-- The function registers (R44). FATAL reads 0: no rule sets it (log 131, DEDUCED). -/
def readFunc (s : State) (port : Fin 2) (fn off : Nat) : Nat :=
  let f := funcOf s port fn
  match off with
  | 0x00 => deviceId fn + 0x10 * 2 ^ 16 + (if fn = 0 then 0 else 2 ^ 24)
  | 0x08 => ringPairs fn + vectors fn * 2 ^ 8 + 16 * 2 ^ 16 + (if compatMode s then 1 else 2) * 2 ^ 24
      + b2n (compatMode s) * 2 ^ 32 + b2n (s.host.primary = port) * 2 ^ 33
  | 0x10 => b2n f.enable + 2 * b2n f.quiesce
  | 0x18 => b2n s.dev.ready + 2 * b2n (f.quiesce && fnQuiet s port fn) + lifecycleValue s * 2 ^ 8
  | 0x20 => f.event.toNat
  | 0x28 => f.signal.toNat
  | _ => 0

/-- The registers of a ring pair (R45). -/
def readPair (p : Pair) (off : Nat) : Nat :=
  match off with
  | 0x00 => p.sqBase.toNat
  | 0x08 => p.cqBase.toNat
  | 0x10 => p.sqLog2.toNat + p.cqLog2.toNat * 2 ^ 8 + p.vector.toNat * 2 ^ 16 + b2n p.enable * 2 ^ 31
  | 0x18 => p.sqHead.toNat + p.cqTail.toNat * 2 ^ 16 + b2n p.error * 2 ^ 32 + b2n p.cqHold * 2 ^ 33
      + b2n p.idle * 2 ^ 34 + p.errorCode.toNat * 2 ^ 40
  | 0x20 => p.count.toNat + p.timeUs.toNat * 2 ^ 16
  | _ => 0

/-- The MSI-X pending bits of 64 vectors from `base` on (R42). -/
def pendingBits (s : State) (port : Fin 2) (fn base : Nat) : Nat :=
  (List.range 64).foldl (fun a i =>
    if (look s.host.vecs (port, fn, base + i)).pending then a + 2 ^ i else a) 0

/-- A 64-bit read of BAR0 at an aligned offset; doorbells are write-only and read 0 (R42, R43, R46). -/
def readReg (s : State) (port : Fin 2) (fn off : Nat) : Nat :=
  if off < 0x100 then readFunc s port fn off
  else if 0x1000 ≤ off ∧ off < 0x1000 + 0x40 * ringPairs fn then
    readPair (pairOf s (port, fn, (off - 0x1000) / 0x40)) ((off - 0x1000) % 0x40)
  else if tableBase fn ≤ off ∧ off < tableBase fn + 16 * vectors fn then
    let v := look s.host.vecs (port, fn, (off - tableBase fn) / 16)
    if (off - tableBase fn) % 16 = 0 then v.addr.toNat else v.data.toNat + b2n v.masked * 2 ^ 32
  else if pendingBase fn ≤ off ∧ off < pendingBase fn + (vectors fn + 63) / 64 * 8 then
    pendingBits s port fn ((off - pendingBase fn) * 8)
  else 0

/-- PF1 as a function number of its port (R410). -/
def pf1 : Nat := 256

/-- CAP of PF1: MQES, CQR, TO, DSTRD, MPSMIN and MPSMAX, CSS (R411; the fields' places: log 192, PRESUMED). -/
def nvmeCap : Nat := 0xFFFF + 2 ^ 16 + 60 * 2 ^ 24 + 2 ^ 37

/-- VS of PF1 (R411). -/
def nvmeVs : Nat := 0x00020000

/-- A 64-bit read of PF1's BAR0: capabilities, version, MSI-X table and pending bits (R410, R411). -/
def readPf1 (s : State) (port : Fin 2) (off : Nat) : Nat :=
  if off = 0 then nvmeCap
  else if off = 8 then nvmeVs
  else if 0x4000 ≤ off ∧ off < 0x4810 then
    let v := look s.host.vecs (port, pf1, (off - 0x4000) / 16)
    if off % 16 = 0 then v.addr.toNat else v.data.toNat + b2n v.masked * 2 ^ 32
  else if 0x6000 ≤ off ∧ off < 0x6018 then pendingBits s port pf1 ((off - 0x6000) * 8)
  else 0

/-- A 64-bit read of a function's BAR0. -/
def readWord (s : State) (port : Fin 2) (fn off : Nat) : Nat :=
  if fn = pf1 then readPf1 s port off else readReg s port fn off

/-- A read of BAR0: 32-bit, or 64-bit at an aligned offset (R43). -/
def readBar (s : State) (port : Fin 2) (fn off : Nat) (wide : Bool) : Nat :=
  if wide then (if off % 8 = 0 then readWord s port fn off else 0)
  else if off % 4 = 0 then readWord s port fn (off / 8 * 8) / 2 ^ (8 * (off % 8)) % 2 ^ 32 else 0

/-! ## Configuration space (R39, R41, R42, R410; places of the registers: log 180, PRESUMED) -/

/-- Bytes of BAR0, a 64-bit non-prefetchable BAR; no other BAR exists (R42, R410). -/
def barBytes (fn : Nat) : Nat := if fn = 0 then 262144 else if fn = pf1 then 32768 else 65536

/-- A 32-bit read of configuration space: the header, and the model's places for the fields of the capabilities. -/
def readConf (s : State) (port : Fin 2) (fn off : Nat) : Nat :=
  let f := confOf s port fn
  match off with
  | 0x00 => vendorId + deviceId fn * 2 ^ 16
  | 0x04 => f.command.toNat
  | 0x08 => classCode fn * 2 ^ 8
  | 0x10 => f.bar0.toNat % 2 ^ 32 + 4
  | 0x14 => f.bar0.toNat / 2 ^ 32
  | 0x2C => s.dev.cfg.host.subsystem % 2 ^ 32
  | 0x40 => b2n f.msixMask * 2 ^ 30 + b2n f.msixEnable * 2 ^ 31 + (vectors fn - 1) * 2 ^ 16
  | 0x104 => f.aerUncorrectable.toNat
  | 0x110 => f.aerCorrectable.toNat
  | 0x148 => b2n f.vfEnable
  | 0x150 => f.numVfs
  | _ => 0

def setConf (port : Fin 2) (fn : Nat) (f : ConfSpace) (s : State) : State :=
  { s with host := { s.host with conf := put s.host.conf (port, fn) f } }

/-- Whether a function is there: PF0, PF1, and the virtual functions that PF0's VF Enable and NumVFs bring up (R39,
R41). -/
def fnPresent (s : State) (port : Fin 2) (fn : Nat) : Bool :=
  fn = 0 || fn = pf1 || (fnOk fn && (confOf s port 0).vfEnable && fn ≤ (confOf s port 0).numVfs)

/-! ## Writes -/

def setFunc (port : Fin 2) (fn : Nat) (f : Func) (s : State) : State :=
  { s with host := { s.host with funcs := put s.host.funcs (port, fn) f } }

/-- PF_CTRL (R44, R543). -/
def writeCtrl (port : Fin 2) (fn : Nat) (enable quiesce : Bool) (s : State) : State :=
  setFunc port fn { funcOf s port fn with enable, quiesce } s

/-- PF_EVENT: a bit written 1 clears (R44). -/
def clearEvents (port : Fin 2) (fn : Nat) (bits : BitVec 4) (s : State) : State :=
  let f := funcOf s port fn
  setFunc port fn { f with event := f.event &&& ~~~bits } s

/-- PF_EVENT_MASK: a set bit that becomes unmasked raises vector 0 (R44; log 18, DEDUCED). -/
def writeSignal (port : Fin 2) (fn : Nat) (bits : BitVec 4) (s : State) : State :=
  let f := funcOf s port fn
  let s := setFunc port fn { f with signal := bits } s
  if bits &&& ~~~f.signal &&& f.event = 0 then s else raiseMsix port fn 0 s

/-- Whether PF_RING_CFG fields lie in the ranges of R45. -/
def cfgOk (fn sq cq vec : Nat) : Bool :=
  4 ≤ sq && sq ≤ 16 && 4 ≤ cq && cq ≤ 16 && 1 ≤ vec && vec < vectors fn

/-- An accepted write of ENABLE = 1 (R51): errors cleared, both indices 0, the first completion at slot 0 with phase
1. IDLE reads 0 from then on (log 19, DEDUCED). -/
def enabledPair (p : Pair) (sq cq vec : Nat) : Pair :=
  { p with
    sqLog2 := BitVec.ofNat 5 sq, cqLog2 := BitVec.ofNat 5 cq, vector := BitVec.ofNat 12 vec
    enable := true, error := false, errorCode := 0, cqHold := false, sqHead := 0, cqTail := 0, tail := 0, head := 0
    phase := true, held := [], unsignalled := 0, idle := false }

/-- A write of ENABLE = 1: discarded while ENABLE is 1, while IDLE is 0, or with a field out of range (R43, R45,
R50). -/
def enableRing (k : PairKey) (sq cq vec : Nat) (s : State) : State :=
  let p := pairOf s k
  if !p.enable && p.idle && cfgOk k.2.1 sq cq vec then setPair k (enabledPair p sq cq vec) s else s

/-- Cancels the outstanding commands of a ring pair; their completions are discarded (R50, R75, R542). -/
def cancelPair (k : PairKey) (s : State) : State :=
  let mine := fun (c : Cmd) => c.port == k.1 && c.fn == k.2.1 && c.ring == k.2.2
  let ids := (s.cmds.filter mine).map (·.id)
  cancelAll ids { s with cmds := s.cmds.map (fun c => if mine c then { c with discard := true } else c) }

/-- A write of ENABLE = 0 (R50): fetching stops, the pair's commands are cancelled, their completions discarded. CQ_HOLD
is clear from then on (log 176, DESIGN CHOICE). -/
def disableRing (k : PairKey) (s : State) : State :=
  if (pairOf s k).enable then
    let s := setPair k { pairOf s k with enable := false, cqHold := false, unsignalled := 0 } s
    cancelPair k (discardHeld k s)
  else s

/-- PF_RING_CFG (R45): while ENABLE is 1 only ENABLE = 0 acts, whatever the size fields of that write (log 176, DESIGN
CHOICE); while it is 0 the fields are kept, or the pair enabled. -/
def writeCfg (k : PairKey) (v : Word64) (s : State) : State :=
  let p := pairOf s k
  let sq := (v.toNat) % 32
  let cq := v.toNat / 2 ^ 8 % 32
  let vec := v.toNat / 2 ^ 16 % 4096
  if v.getLsbD 31 then enableRing k sq cq vec s
  else if p.enable then disableRing k s
  else if cfgOk k.2.1 sq cq vec then
    setPair k { p with sqLog2 := BitVec.ofNat 5 sq, cqLog2 := BitVec.ofNat 5 cq, vector := BitVec.ofNat 12 vec } s
  else s

/-- A submission tail doorbell (R47): discarded on a disabled or stopped pair; a tail not below the ring size stops
the pair; otherwise slots up to the tail become fetchable. -/
def sqTail (k : PairKey) (t : BitVec 16) (s : State) : State :=
  let p := pairOf s k
  if !p.enable || p.error then s
  else if t.toNat ≥ ringSize p.sqLog2 then ringError k 0x01 s
  else setPair k { p with tail := t } s

/-- A head that the ring does not accept (R45): not below the ring size, or past CQ_TAIL. -/
def headFault (p : Pair) (h : BitVec 16) : Option (BitVec 8) :=
  let n := ringSize p.cqLog2
  if h.toNat ≥ n then some 0x02
  else if (h.toNat + n - p.head.toNat) % n > (p.cqTail.toNat + n - p.head.toNat) % n then some 0x03
  else none

/-- A completion head doorbell (R47, R49): discarded on a disabled pair; a bad head stops a running pair and is
discarded on a stopped one; otherwise slots are freed and waiting completions written. -/
def cqHead (k : PairKey) (h : BitVec 16) (s : State) : State :=
  let p := pairOf s k
  if !p.enable then s
  else match headFault p h with
    | some code => if p.error then s else ringError k code s
    | none => drain k (setPair k { p with head := h } s)

/-- A write of one MSI-X table entry; a pending message is sent when its mask clears (R542). -/
def writeVec (port : Fin 2) (fn v : Nat) (e : Vec) (s : State) : State :=
  let send := e.pending && !e.masked && !(confOf s port fn).msixMask && (confOf s port fn).msixEnable
  let s := { s with host := { s.host with
    vecs := put s.host.vecs (port, fn, v) { e with pending := e.pending && !send } } }
  if send then { s with out := s.out ++ [.msix port fn v] } else s

/-- PF_INT_MOD: completions that wait for a message and now fill COUNT, or have no timer, are signalled (R52). -/
def writeMod (k : PairKey) (count timeUs : BitVec 16) (s : State) : State :=
  let p := { pairOf s k with count, timeUs }
  if p.enable && p.unsignalled ≠ 0 && (timeUs = 0 || max 1 count.toNat ≤ p.unsignalled) then
    raiseMsix k.1 k.2.1 p.vector.toNat (setPair k { p with unsignalled := 0 } s)
  else setPair k p s

/-- One register of a ring pair (R45). -/
def writePair (k : PairKey) (o : Nat) (upper wide : Bool) (value : Word64) (s : State) : State :=
  let p := pairOf s k
  let v := merge (BitVec.ofNat 64 (readPair p o)) upper wide value
  match o with
  | 0x00 => if p.enable then s else setPair k { p with sqBase := v &&& ~~~0xFFF#64 } s
  | 0x08 => if p.enable then s else setPair k { p with cqBase := v &&& ~~~0xFFF#64 } s
  | 0x10 => writeCfg k v s
  | 0x20 => writeMod k (v.truncate 16) ((v >>> 16).truncate 16) s
  | _ => s

/-- One function register (R44). -/
def writeFunc (port : Fin 2) (fn o : Nat) (upper wide : Bool) (value : Word64) (s : State) : State :=
  let v := merge (BitVec.ofNat 64 (readFunc s port fn o)) upper wide value
  match o with
  | 0x10 => writeCtrl port fn (v.getLsbD 0) (v.getLsbD 1) s
  | 0x20 => if upper && !wide then s else clearEvents port fn (value.truncate 4) s
  | 0x28 => writeSignal port fn (v.truncate 4) s
  | _ => s

/-- The MSI-X entry after an access (R42, R542). -/
def mergeVec (e : Vec) (o : Nat) (wide : Bool) (value : Word64) : Vec :=
  match o with
  | 0 => { e with addr := merge e.addr false wide value }
  | 4 => { e with addr := merge e.addr true false value }
  | 8 => { e with data := value.truncate 32, masked := if wide then value.getLsbD 32 else e.masked }
  | _ => { e with masked := value.getLsbD 0 }

/-- A write to BAR0 (R42, R43): 32-bit, or 64-bit and aligned; 32-bit only to a doorbell; discarded outside the
regions (log 99, DEDUCED). -/
def writeReg (port : Fin 2) (fn off : Nat) (wide : Bool) (value : Word64) (s : State) : State :=
  if !fnOk fn || !fnPresent s port fn || off % 4 ≠ 0 || (wide && off % 8 ≠ 0) then s
  else
    let upper := off % 8 = 4
    if off < 0x100 then writeFunc port fn (off / 8 * 8) upper wide value s
    else if 0x1000 ≤ off ∧ off < 0x1000 + 0x40 * ringPairs fn then
      writePair (port, fn, (off - 0x1000) / 0x40) ((off - 0x1000) % 0x40 / 8 * 8) upper wide value s
    else if doorbellBase fn ≤ off ∧ off < doorbellBase fn + 8 * ringPairs fn then
      if wide then s
      else if upper then cqHead (port, fn, (off - doorbellBase fn) / 8) (value.truncate 16) s
      else sqTail (port, fn, (off - doorbellBase fn) / 8) (value.truncate 16) s
    else if tableBase fn ≤ off ∧ off < tableBase fn + 16 * vectors fn then
      let v := (off - tableBase fn) / 16
      writeVec port fn v (mergeVec (look s.host.vecs (port, fn, v)) ((off - tableBase fn) % 16) wide value) s
    else s

/-- PF1's MSI-X table of 129 vectors in BAR0 (R410). -/
def writePf1 (port : Fin 2) (off : Nat) (wide : Bool) (value : Word64) (s : State) : State :=
  if 0x4000 ≤ off ∧ off < 0x4810 ∧ off % 4 = 0 ∧ !(wide && off % 8 ≠ 0) then
    let v := (off - 0x4000) / 16
    writeVec port pf1 v (mergeVec (look s.host.vecs (port, pf1, v)) ((off - 0x4000) % 16) wide value) s
  else s

/-! ## Resets of BAR0 (R542) -/

/-- The BAR0 of a function in its reset state. -/
def resetBar (port : Fin 2) (fn : Nat) (s : State) : State :=
  { s with host := { s.host with
    flrs := if s.host.flrs.contains (port, fn) then s.host.flrs else s.host.flrs ++ [(port, fn)]
    funcs := del s.host.funcs (port, fn)
    pairs := s.host.pairs.filter (fun p => !(p.1.1 = port && p.1.2.1 = fn))
    vecs := s.host.vecs.filter (fun p => !(p.1.1 = port && p.1.2.1 = fn)) } }

/-- Configuration space after an FLR, or after a reset of its port: the AER status stays over the first (log 180,
PRESUMED). -/
def resetConf (sticky : Bool) (port : Fin 2) (fn : Nat) (s : State) : State :=
  let f := confOf s port fn
  setConf port fn (if sticky then
    { aerUncorrectable := f.aerUncorrectable, aerCorrectable := f.aerCorrectable } else {}) s

/-- An FLR's effect on one function: its ring pairs disabled as under R50, its BAR0 in its reset state (log 132,
DEDUCED). -/
def flrFn (port : Fin 2) (fn : Nat) (s : State) : State :=
  resetConf true port fn (resetBar port fn
    (foldS (fun s n => disableRing (port, fn, n) s) (List.range (ringPairs fn)) s))

/-- The functions of a port that are not in their reset state. -/
def usedFns (s : State) (p : Fin 2) : List Nat :=
  ((s.host.funcs.filter (fun f => f.1.1 == p)).map (·.1.2)
    ++ (s.host.pairs.filter (fun f => f.1.1 == p)).map (·.1.2.1)
    ++ (s.host.conf.filter (fun f => f.1.1 == p)).map (·.1.2)
    ++ (s.host.vecs.filter (fun f => f.1.1 == p)).map (·.1.2.1)).eraseDups.filter fnOk

/-- Virtual functions that a change of VF Enable takes away are reset (log 180, PRESUMED). -/
def setVfs (port : Fin 2) (f : ConfSpace) (s : State) : State :=
  let s := setConf port 0 f s
  foldS (fun s fn => if fn ≠ 0 ∧ !fnPresent s port fn then flrFn port fn s else s) (usedFns s port) s

/-- Messages that wait are sent once MSI-X is enabled and the function unmasked. -/
def sendPending (port : Fin 2) (fn : Nat) (s : State) : State :=
  if (confOf s port fn).msixEnable && !(confOf s port fn).msixMask then
    foldS (fun s v => if v.1.1 = port ∧ v.1.2.1 = fn ∧ v.2.pending ∧ !v.2.masked then
      writeVec port fn v.1.2.2 v.2 s else s) s.host.vecs s
  else s

/-- A 32-bit write of configuration space. -/
def writeConf (port : Fin 2) (fn off : Nat) (v : Word64) (s : State) : State :=
  let f := confOf s port fn
  let mask : Word64 := ~~~BitVec.ofNat 64 (barBytes fn - 1)
  match off with
  | 0x04 => setConf port fn { f with command := v.truncate 16 } s
  | 0x10 => setConf port fn { f with bar0 := merge f.bar0 false false v &&& mask } s
  | 0x14 => setConf port fn { f with bar0 := merge f.bar0 true false v &&& mask } s
  | 0x40 => sendPending port fn (setConf port fn { f with msixEnable := v.getLsbD 31, msixMask := v.getLsbD 30 } s)
  | 0x104 => setConf port fn { f with aerUncorrectable := f.aerUncorrectable &&& ~~~(v.truncate 32) } s
  | 0x110 => setConf port fn { f with aerCorrectable := f.aerCorrectable &&& ~~~(v.truncate 32) } s
  | 0x148 => if fn = 0 then setVfs port { f with vfEnable := v.getLsbD 0 } s else s
  | 0x150 => if fn = 0 ∧ !f.vfEnable ∧ v.toNat % 65536 ≤ 255 then setConf port 0 { f with numVfs := v.toNat % 65536 } s
    else s
  | _ => s

/-! ## Whether the device may fetch (R44, R47, R49, R543) -/

/-- A ring pair from which the device fetches now. -/
def mayFetch (s : State) (k : PairKey) : Bool :=
  let p := pairOf s k
  let f := funcOf s k.1 k.2.1
  let pt := look s.host.ports k.1
  s.dev.stage == .service && s.dev.ready && !s.dev.stopFetch && pt.link && !pt.retired
    && f.enable && !f.quiesce && p.enable && !p.error && !p.cqHold

/-! ## Meanings -/

/-- A write reaches the device over the port's link (log 55, DEDUCED). -/
def reached (s : State) (port : Fin 2) : Bool := (look s.host.ports port).link

/-- REGISTER_WRITE (R43); function 256 is PF1 of the port (R410), and 512 above a function its configuration space
(R41; log 180, PRESUMED). -/
def execRegisterWrite (port : Fin 2) (fn offset : Nat) (wide : Bool) (value : Word64) (s : State) :
    Host.Outcome State Fault Refusal :=
  .next (if !reached s port then s
    else if 512 ≤ fn then
      if fnPresent s port (fn - 512) && !wide then writeConf port (fn - 512) offset value s else s
    else if fn = pf1 then writePf1 port offset wide value s else writeReg port fn offset wide value s)

/-- FUNCTION_ENABLE: a write of PF_CTRL.ENABLE (R44, R543). -/
def execFunctionEnable (port : Fin 2) (fn : Nat) (value : Bool) (s : State) : Host.Outcome State Fault Refusal :=
  .next (if reached s port && fnOk fn && fnPresent s port fn then writeCtrl port fn value (funcOf s port fn).quiesce s else s)

/-- QUIESCE: a write of PF_CTRL.QUIESCE (R44, R543). -/
def execQuiesce (port : Fin 2) (fn : Nat) (value : Bool) (s : State) : Host.Outcome State Fault Refusal :=
  .next (if reached s port && fnOk fn && fnPresent s port fn then writeCtrl port fn (funcOf s port fn).enable value s else s)

/-- PF_EVENT_CLEAR (R44). -/
def execPfEventClear (port : Fin 2) (fn : Nat) (bits : BitVec 4) (s : State) : Host.Outcome State Fault Refusal :=
  .next (if reached s port && fnOk fn && fnPresent s port fn then clearEvents port fn bits s else s)

/-- A ring pair that exists (R42). -/
def pairOk (fn ring : Nat) : Bool := fnOk fn && ring < ringPairs fn

/-- RING_ENABLE: a write of PF_RING_CFG with ENABLE = 1 (R45, R50, R51). -/
def execRingEnable (port : Fin 2) (fn ring sqLog2 cqLog2 vector : Nat) (s : State) :
    Host.Outcome State Fault Refusal :=
  .next (if reached s port && pairOk fn ring && fnPresent s port fn then enableRing (port, fn, ring) sqLog2 cqLog2 vector s else s)

/-- RING_DISABLE: a write of ENABLE = 0 (R50). -/
def execRingDisable (port : Fin 2) (fn ring : Nat) (s : State) : Host.Outcome State Fault Refusal :=
  .next (if reached s port && pairOk fn ring && fnPresent s port fn then disableRing (port, fn, ring) s else s)

/-- RING_IDLE: no command of a disabled pair remains (R50). -/
def execRingIdle (port : Fin 2) (fn ring : Nat) (s : State) : Host.Outcome State Fault Refusal :=
  let k : PairKey := (port, fn, ring)
  let p := pairOf s k
  .next (if pairOk fn ring && !p.enable && pairQuiet s k then setPair k { p with idle := true } s else s)

/-- PF_SQ_TAIL (R46, R47). -/
def execPfSqTail (port : Fin 2) (fn ring : Nat) (tail : BitVec 16) (s : State) : Host.Outcome State Fault Refusal :=
  .next (if reached s port && pairOk fn ring && fnPresent s port fn then sqTail (port, fn, ring) tail s else s)

/-- PF_CQ_HEAD (R46, R47, R49). -/
def execPfCqHead (port : Fin 2) (fn ring : Nat) (head : BitVec 16) (s : State) : Host.Outcome State Fault Refusal :=
  .next (if reached s port && pairOk fn ring && fnPresent s port fn then cqHead (port, fn, ring) head s else s)

/-- INTERRUPT_COALESCE_TIMER: TIME_US have passed since the first unsignalled completion (R52); the port island
clock runs at 1 GHz (R499). -/
def execInterruptCoalesceTimer (port : Fin 2) (fn ring : Nat) (s : State) : Host.Outcome State Fault Refusal :=
  let k : PairKey := (port, fn, ring)
  let p := pairOf s k
  .next (if p.enable && p.unsignalled ≠ 0 && p.timeUs ≠ 0 && p.unsignalledAt + p.timeUs.toNat * 1000 ≤ s.now then
    raiseMsix port fn p.vector.toNat (setPair k { p with unsignalled := 0 } s) else s)

end Sys2Proof.Machine
end

