-- ==== Sys2Proof/Machine/Sessions.lean ====
section
/-! DEFINITION. Sessions: challenge, proof and tag, adoption, closing (R71 to R73, R438, R439, R488), the port links
(R72, R489, R490), STATE_QUERY and NOP (R64). -/

namespace Sys2Proof.Machine

def setSession (sid : Nat) (f : Session → Session) (s : State) : State := { s with sessions := adj s.sessions sid f }

def dropSession (sid : Nat) (s : State) : State := { s with sessions := del s.sessions sid }

def sessionCode (s : State) (sid : Nat) : Nat :=
  match find? s.sessions sid with
  | some x => x.state.code
  | none => 0

/-! ## Proofs (R438, R439) -/

/-- 10 s of the management clock (R71; log 141, DEDUCED). -/
def nonceLife : Nat := 10000000000

def proofMessage (nonce : BitVec 256) (sid tenant port : Nat) : List Byte :=
  leBytes 32 nonce.toNat ++ leBytes 4 sid ++ leBytes 2 tenant ++ leBytes 1 port

/-- The response that R438 asks for. -/
def proofOf (key : BitVec 256) (nonce : BitVec 256) (sid tenant port : Nat) (label : String) : BitVec 256 :=
  Config.kmac256 key (proofMessage nonce sid tenant port) label

/-- The tag of a session (R438). -/
def tagOf (key nonce response : BitVec 256) : BitVec 128 :=
  Config.kmac128 key (leBytes 32 nonce.toNat ++ leBytes 32 response.toNat) "KCP tag"

def sixtySeconds : Nat := 60000000000

/-- Invalid proofs of a tenant in the last 60 s. -/
def recentBad (s : State) (t : Nat) : List Nat := (look s.tenants t).badProofs.filter (fun m => s.now - m < sixtySeconds)

/-- The limit of R439 is reached. -/
def proofLimited (s : State) (t : Nat) : Bool := 16 ≤ (recentBad s t).length

def recordBadProof (t : Nat) (s : State) : State :=
  count 0x0920 1 (setTenant t (fun r => { r with badProofs := recentBad s t ++ [s.now] }) s)

/-- Whether a tenant may be challenged: ACTIVE, or tenant 0 outside OWNED (R432, R436). -/
def tenantUsable (s : State) (t : Nat) : Bool :=
  (look s.tenants t).state == .active || (t == 0 && s.sec.lifecycle != .owned)

/-! ## SESSION_CHALLENGE (R71, R72) -/

def sessionsOf (s : State) (t : Nat) : Nat := (s.sessions.filter (fun x => x.2.tenant == t)).length

/-- The new session in CHALLENGED, its nonce drawn (log 15, DESIGN CHOICE). -/
def openChallenge (c : Cmd) (s : State) : State :=
  { s with
    sessions := put s.sessions s.nextSession
      { tenant := c.tenant, port := c.port, state := .challenged, nonce := Config.nonce s.fresh, nonceAt := s.now
        fns := [c.fn] }
    nextSession := s.nextSession % (2 ^ 32 - 1) + 1, fresh := s.fresh + 1 }

/-- See log 94, DEDUCED. -/
def challenge (c : Cmd) (s : State) : State :=
  if !tenantUsable s c.tenant then fail c .notAuthorized 1 s
  else if proofLimited s c.tenant then fail c .proofLimit 0 (count 0x0921 1 s)
  else if (quotasOf s c.tenant).sessions ≤ sessionsOf s c.tenant ∨ 64 ≤ sessionsOf s c.tenant
      ∨ 8192 ≤ s.sessions.length then
    fail c .quotaExceeded 1 s
  else
    finish c { count := 32, value := s.nextSession
               writes := [(outputOffset s, leBytes 32 (Config.nonce s.fresh).toNat)] } (openChallenge c s)

/-- The challenge of an adoption: a session of the tenant, OPEN or DETACHED on the other port (R72). During a revocation the
tenant's state is judged first (R436, R457). -/
def adoptChallenge (c : Cmd) (s : State) : State :=
  if !tenantUsable s c.tenant then fail c .notAuthorized 1 s
  else match find? s.sessions c.sid with
  | none => conflict c 1 0 s
  | some x =>
    if x.tenant ≠ c.tenant then conflict c 1 0 s
    else if x.port = c.port ∨ (x.state ≠ .opened ∧ x.state ≠ .detached) then conflict c 1 x.state.code s
    else if proofLimited s c.tenant then fail c .proofLimit 0 (count 0x0921 1 s)
    else
      finish c { count := 32, value := c.sid
                 writes := [(outputOffset s, leBytes 32 (Config.nonce s.fresh).toNat)] }
        (setSession c.sid (fun y => { y with adoption := some (Config.nonce s.fresh, c.port, s.now) }) s.draw)

/-! ## SESSION_OPEN and SESSION_ADOPT -/

def paramNonce (c : Cmd) : BitVec 256 := BitVec.ofNat 256 (c.arg 0 32)
def paramResponse (c : Cmd) : BitVec 256 := BitVec.ofNat 256 (c.arg 32 32)

/-- Whether the proof of a command is valid for a nonce given at a moment (R71, R438). -/
def proofValid (s : State) (c : Cmd) (nonce : BitVec 256) (at_ : Nat) (label : String) : Bool :=
  paramNonce c == nonce && s.now - at_ ≤ nonceLife
    && paramResponse c == proofOf (tenantKey s c.tenant) nonce c.sid c.tenant c.port.val label

/-- See log 95, DEDUCED. -/
def openSession (c : Cmd) (s : State) : State :=
  match find? s.sessions c.sid with
  | none => conflict c 1 0 s
  | some x =>
    if x.tenant ≠ c.tenant then conflict c 1 0 s
    else if x.state ≠ .challenged then conflict c 1 x.state.code s
    else if proofValid s c x.nonce x.nonceAt "KCP open" then
      let tag := tagOf (tenantKey s c.tenant) x.nonce (paramResponse c)
      finish c { count := 16, writes := [(outputOffset s, leBytes 16 tag.toNat)] }
        (setSession c.sid (fun y => { y with state := .opened, port := c.port, tag, fns := [c.fn] }) s)
    else fail c .notAuthorized 2 (recordBadProof c.tenant (dropSession c.sid s))

/-- Outstanding commands of a session that its adoption takes from the old port (R73). -/
def adoptedCmds (s : State) (c : Cmd) (old : Fin 2) : List Cmd :=
  s.cmds.filter (fun t => t.sid == c.sid && t.id != c.id && t.port == old)

/-- The state code of the sequence that a command names. -/
def seqCodeOf (s : State) (c : Cmd) : Nat := ((seqOf s c.sid c.handle).map (fun q => q.2.state.code)).getD 0

/-- A SEQ_GENERATE of the old port completes with PARTIAL, stop reason 6; its sequence blocks at the next step
boundary, at once where its lane has no step (R73, R158; log 116, DEDUCED). One that has not begun its run completes so
too, with counts of 0. -/
def adoptRun (c : Cmd) (s : State) : State :=
  match runSeq s c.id with
  | none => finish c (runResult { cmd := c.id } .partialDone .none 6 0 (seqCodeOf s c) false) s
  | some e => match find? s.obj.seqs e with
    | none => s
    | some q => match q.run with
      | none => s
      | some r =>
        let block := q.state == .prefill || q.state == .decode || q.state == .blockedRetrieval
        let idle := (courseOf s q.course).generation.step.isNone && q.state != .blockedRetrieval
        let s := setSeq e (fun q => { q with run := none, runnable := false, cancelling := false
                                             adopting := block && !idle }) s
        let s := if block && idle then enter e .blockedHost s else s
        let st := ((find? s.obj.seqs e).map (fun q => q.state.code)).getD 4
        finish c (runResult r .partialDone (runEffect r) 6 0 st false) s

/-- Completions of some commands that wait on their pairs go to another pair, marked ADOPTED (R73). -/
def moveHeld (ids : List Nat) (k : PairKey) (s : State) : State :=
  let mine := fun (h : Held) => h.cmd.any ids.contains
  let moved := s.host.pairs.flatMap (fun p => p.2.held.filter mine)
  let s := { s with host := { s.host with
    pairs := mapTbl s.host.pairs (fun _ p => { p with held := p.held.filter (fun h => !mine h) }) } }
  foldS (fun s h => putEntry k { h with entry := { h.entry with adopted := true } } s) moved s

/-- The actions 2 to 5 of R73, after the new tag stands. -/
def adoptActions (c : Cmd) (old : Session) (s : State) : State :=
  let s := foldS (fun s fn => raiseEvent old.port fn evAdoptedAway s) old.fns s
  let ids := (adoptedCmds s c old.port).map (·.id)
  let s := { s with cmds := s.cmds.map (fun t =>
    if ids.contains t.id then { t with route := some (c.port, c.fn, c.ring) } else t) }
  let s := moveHeld ids (c.port, c.fn, c.ring) s
  foldS (fun s id => match findCmd s id with
    | none => s
    | some t => if t.phase = .committed then s else if t.op = 0x0202 then adoptRun t s
      else if t.cancel then s else cancelCmd t s) ids s

/-- SESSION_ADOPT; an invalid proof leaves the adoption nonce as it is (log 178, DESIGN CHOICE). During a revocation
the tenant's state is judged first (R457). -/
def adoptSession (c : Cmd) (s : State) : State :=
  if !tenantUsable s c.tenant then fail c .notAuthorized 1 s
  else match find? s.sessions c.sid with
  | none => conflict c 1 0 s
  | some x =>
    if x.tenant ≠ c.tenant then conflict c 1 0 s
    else if x.state ≠ .opened ∧ x.state ≠ .detached then conflict c 1 x.state.code s
    else
      let good := match x.adoption with
        | none => false
        | some (n, p, m) => p == c.port && proofValid s c n m "KCP adopt"
      if good then
        let tag := tagOf (tenantKey s c.tenant) (paramNonce c) (paramResponse c)
        let s := setSession c.sid (fun y => { y with
          state := .opened, port := c.port, tag, adoption := none, fns := [c.fn] }) s
        let s := adoptActions c x s
        finish c { count := 16, writes := [(outputOffset s, leBytes 16 tag.toNat)] } s
      else fail c .notAuthorized 2 (recordBadProof c.tenant s)

/-! ## Closing (R72, R488) -/

/-- A session passes to CLOSING: its outstanding commands but one are cancelled. -/
def beginClose (sid : Nat) (keep : Option Nat) (s : State) : State :=
  let s := setSession sid (fun x => { x with state := .closing }) s
  cancelAll ((s.cmds.filter (fun t => t.sid == sid && some t.id != keep && t.op != 3)).map (·.id)) s

def closeSession (c : Cmd) (s : State) : State :=
  match find? s.sessions c.sid with
  | none => fail c .notAuthorized 1 s
  | some _ => setCmd c.id (fun x => { x with begun := true }) (beginClose c.sid (some c.id) s)

/-- The generation slot of the template that a command names. -/
def templateSlot (s : State) (c : Cmd) (h : Nat) : Option Nat :=
  (templateOf s c.sid h).map (fun t => field t.2.image 6 1)

/-- The vocabulary slots that a dispatched command binds (R196); retrieval slots are 8 to 11. The slot of a RERANK is known
from the set that it brings to its step (log 184, DEDUCED). -/
def vocabUses (s : State) (c : Cmd) : List Nat :=
  c.vocabs ++
  match c.op with
  | 0x0200 => [c.arg 16 1]
  | 0x0704 => [c.arg 17 1 + (if c.arg 16 1 = 1 then 8 else 0)]
  | 0x0705 => [c.arg 16 1]
  | 0x0300 => if c.arg 16 1 = 0 then [c.arg 17 1 + 8] else []
  | 0x0302 => (templateSlot s c (c.arg 16 8)).toList
  | 0x0303 => (c.arg 49 1 + 8) :: (if c.arg 59 1 = 0 then (templateSlot s c (c.arg 24 8)).toList else [])
  | _ => []

/-- A vocabulary slot that a sequence or a dispatched command binds (R196, R488). -/
def vocabBound (s : State) (slot : Nat) : Bool :=
  s.obj.seqs.any (fun q => slot < 8 && q.2.vocab == slot)
  || s.cmds.any (fun c => c.phase != .queued && (vocabUses s c).contains slot)

/-- The slot is EMPTY (R197). -/
def clearVocab (slot : Nat) (s : State) : State := { s with obj := { s.obj with vocabs := del s.obj.vocabs slot } }

/-- A slot whose loader's session has closed: unloaded, or kept for the bindings it still has (R488). -/
def releaseVocab (slot : Nat) (s : State) : State :=
  if vocabBound s slot then
    { s with obj := { s.obj with vocabs := adj s.obj.vocabs slot (fun v => { v with refusing := true }) } }
  else clearVocab slot s

/-- Slots kept for their bindings pass on when the last of these has ended (R488). -/
def reapVocabs (s : State) : State :=
  foldS (fun s v => if v.2.refusing && !vocabBound s v.1 then clearVocab v.1 s else s) s.obj.vocabs s

/-- An index with its corpus leaves the device (R272). -/
def removeIndex (slot : Nat) (s : State) : State :=
  let s := dropMoves (movesOfIndex slot) s
  { s with obj := { s.obj with indices := del s.obj.indices slot, corpora := del s.obj.corpora slot } }

/-- The release of everything a session created, in the order of R488. -/
def releaseObjects (sid : Nat) (s : State) : State :=
  let s := foldS (fun s q => if q.2.session = sid then dropMoves (movesOfSeq q.1) s else s) s.obj.seqs s
  let s := { s with obj := { s.obj with
    seqs := s.obj.seqs.filter (fun q => q.2.session != sid)
    scans := s.obj.scans.filter (fun x => x.2.session != sid)
    templates := s.obj.templates.filter (fun x => x.2.session != sid)
    tables := s.obj.tables.filter (fun x => x.2.session != sid)
    grammars := s.obj.grammars.filter (fun x => x.2.session != sid) } }
  let s := foldS (fun s m => if m.2.session = sid then removeModel m.1 s else s) s.obj.models s
  let s := foldS (fun s x => if x.2.session = sid then removeIndex x.1 s else s) s.obj.indices s
  let s := foldS (fun s v => if v.2.session = sid ∧ v.2.state ≠ .empty then releaseVocab v.1 s else s) s.obj.vocabs s
  reapVocabs (reapAdapters s)

/-- Whether a Hod unit of a session's object is in flight (R488). -/
def sessionMoving (s : State) (sid : Nat) : Bool :=
  s.eng.moves.any (fun m => m.2.unit.isSome && match m.2.obj with
    | .model n => (look s.obj.models n).session == sid
    | .corpus n | .region n => (look s.obj.indices n).session == sid
    | .seq n => match find? s.obj.seqs n with | some q => q.session == sid | none => false
    | .evacuation _ => false)
  || s.obj.tables.any (fun t => t.2.session == sid && !t.2.migrations.isEmpty)

/-- The tables of a closing session are DROPPING once its last command is done (R325). -/
def dropTables (sid : Nat) (s : State) : State :=
  { s with obj := { s.obj with tables := mapTbl s.obj.tables (fun _ t =>
      if t.session = sid then { t with dropping := true, queue := [] } else t) } }

/-- Whether the last command of a closing session is done, but its SESSION_CLOSE. -/
def sessionDrained (s : State) (sid : Nat) : Bool :=
  !s.cmds.any (fun t => t.sid == sid && t.phase != .committed && !(t.op == 3 && t.begun))

/-- CLOSING to CLOSED: objects released, SESSION_CLOSE completed (R72, R488; log 146, DEDUCED). -/
def finishClose (sid : Nat) (s : State) : State :=
  let closers := s.cmds.filter (fun t => t.sid == sid && t.op == 3 && t.begun && t.phase == .running)
  let s := dropSession sid (releaseObjects sid s)
  foldS (fun s c => finish c {} s) closers s

/-! ## Object states (R64, R77) -/

def objState (s : State) : Obj → Option (Nat × Nat)
  | .model n => some (3, (look s.obj.models n).state.code)
  | .seq n => (find? s.obj.seqs n).map (fun q => (2, q.state.code))
  | .index n => some (5, (look s.obj.indices n).state.code)
  | .table n => some (6, if (look s.obj.tables n).dropping then 2 else 1)
  | .grammar n => some (8, if (look s.obj.grammars n).unloading then 2 else 1)
  | .scan n => some (9, (look s.obj.scans n).state.code)
  | .template _ => none

def queryState (c : Cmd) (s : State) : State :=
  match (objOf s c.sid c.handle).bind (objState s) with
  | some (k, st) => finish c { effect := .full, value := k + 256 * st } s
  | none => badField c 32 0 s

/-! ## Links (R72, R489, R490) -/

def setPort (p : Fin 2) (f : Port → Port) (s : State) : State :=
  { s with host := { s.host with ports := upd s.host.ports p f } }

/-- The port's link leaves L0: a fault of class 8, its OPEN sessions are DETACHED and their hold timers start (R72,
R462). -/
def linkDown (p : Fin 2) (s : State) : State :=
  let s := logFault (portClk p) 8 0 0 1 (setPort p (fun x => { x with link := false, downSince := s.now }) s)
  { s with sessions := mapTbl s.sessions (fun _ x =>
      if x.port = p ∧ x.state = .opened then { x with state := .detached, holdAt := s.now } else x) }

/-- The owning port's hold time in management clock cycles (R71). -/
def holdTime (s : State) : Nat := s.dev.cfg.sys.holdS * 1000000000

/-- The ring pairs of a port that keep completions. -/
def heldPairs (s : State) (p : Fin 2) : List PairKey :=
  (s.host.pairs.filter (fun x => x.1.1 == p && !x.2.held.isEmpty)).map (·.1)

/-- The link is back in L0: sessions still within their hold time are OPEN again, their tags unchanged (R72). -/
def linkUp (p : Fin 2) (s : State) : State :=
  let s := setPort p (fun x => { x with link := true }) s
  let s := { s with sessions := mapTbl s.sessions (fun _ x =>
      if x.port = p ∧ x.state = .detached ∧ s.now - x.holdAt < holdTime s then { x with state := .opened } else x) }
  foldS (fun s k => drain k s) (heldPairs s p) s

def otherPort (p : Fin 2) : Fin 2 := 1 - p

/-- The other port becomes management-primary (R489, R490). -/
def failover (s : State) : State :=
  let p := otherPort s.host.primary
  count 0x0A24 1 (raiseEvent p 0 evFailover { s with host := { s.host with primary := p } })

/-! ## Meanings -/

/-- NOP (R64). -/
def execNop (cmd : Nat) (s : State) : Host.Outcome State Fault Refusal :=
  .next (runCmd cmd 0x0000 (fun c => finish c {}) s)

/-- SESSION_CHALLENGE with SESSION_ID 0 (R71, R72). -/
def execSessionChallenge (cmd : Nat) (s : State) : Host.Outcome State Fault Refusal :=
  .next (runCmd cmd 0x0001 (fun c s => if c.sid = 0 then challenge c s else s) s)

/-- SESSION_CHALLENGE naming a session (R72). -/
def execAdoptionChallenge (cmd : Nat) (s : State) : Host.Outcome State Fault Refusal :=
  .next (runCmd cmd 0x0001 (fun c s => if c.sid = 0 then s else adoptChallenge c s) s)

/-- SESSION_OPEN (R72, R438). -/
def execSessionOpen (cmd : Nat) (s : State) : Host.Outcome State Fault Refusal :=
  .next (runCmd cmd 0x0002 openSession s)

/-- SESSION_CLOSE (R72); its completion comes with SESSION_CLOSE_FINISH. -/
def execSessionClose (cmd : Nat) (s : State) : Host.Outcome State Fault Refusal :=
  .next (runCmd cmd 0x0003 (fun c s => if c.begun then s else closeSession c s) s)

/-- The last command of a closing session is done (R72, R488). -/
def execSessionCloseFinish (sid : Nat) (s : State) : Host.Outcome State Fault Refusal :=
  .next (match find? s.sessions sid with
    | none => s
    | some x =>
      if x.state ≠ .closing ∨ !sessionDrained s sid then s
      else if sessionMoving s sid then dropTables sid s
      else finishClose sid s)

/-- SESSION_ADOPT (R72, R73). -/
def execSessionAdopt (cmd : Nat) (s : State) : Host.Outcome State Fault Refusal :=
  .next (runCmd cmd 0x0004 adoptSession s)

/-- STATE_QUERY (R64). -/
def execStateQuery (cmd : Nat) (s : State) : Host.Outcome State Fault Refusal :=
  .next (runCmd cmd 0x0005 queryState s)

/-- A nonce expires after 10 s (R71, R72). -/
def execNonceExpiry (sid : Nat) (s : State) : Host.Outcome State Fault Refusal :=
  .next (match find? s.sessions sid with
    | none => s
    | some x => if x.state = .challenged ∧ nonceLife < s.now - x.nonceAt then dropSession sid s else s)

/-- A port's link leaves L0 (R72). -/
def execPortLinkDown (port : Fin 2) (s : State) : Host.Outcome State Fault Refusal :=
  .next (if (look s.host.ports port).link then linkDown port s else s)

/-- A port's link enters L0; link training starts no earlier than 10 ms (R72, R514, R515). -/
def execPortLinkUp (port : Fin 2) (s : State) : Host.Outcome State Fault Refusal :=
  let p := look s.host.ports port
  .next (if !p.link ∧ !p.retired ∧ islandUp s (portClk port) ∧ !p.perst ∧ 10000000 ≤ s.now ∧ (s.dev.stage = .startup ∨ s.dev.stage = .service) then
    linkUp port s else s)

/-- A DETACHED session's hold time expires: it closes as under SESSION_CLOSE (R72). -/
def execSessionHoldExpiry (sid : Nat) (s : State) : Host.Outcome State Fault Refusal :=
  .next (match find? s.sessions sid with
    | none => s
    | some x => if x.state = .detached ∧ holdTime s ≤ s.now - x.holdAt then beginClose sid none s else s)

/-- The primary port's link has been out of L0 for 1 s and the other port's link is in L0 (R489, R490). -/
def execMgmtFailover (s : State) : Host.Outcome State Fault Refusal :=
  let p := look s.host.ports s.host.primary
  let o := look s.host.ports (otherPort s.host.primary)
  .next (if s.dev.stage = .service ∧ !p.link ∧ 1000000000 ≤ s.now - p.downSince ∧ o.link ∧ !o.retired then
    failover s else s)

end Sys2Proof.Machine
end

