-- ==== Sys2Proof/Machine/Fields.lean ====
section
/-! DEFINITION. The opcode table (R64) and the field limits that check 5 of R62 judges for each opcode. -/

namespace Sys2Proof.Machine

/-- What HANDLE names (R64). -/
inductive HandleUse where
  | zero | model | seq | index | table | grammar | scan | object | zeroOrSeq | move | free
  deriving DecidableEq, Repr

/-- One row of the opcode tables: parameter slots, HANDLE, fields as offset and size, descriptors among them, those
the device writes through, whether IMMEDIATE is used, and the Either port column. -/
structure OpInfo where
  slots : Nat := 0
  handle : HandleUse := .zero
  fields : List (Nat × Nat) := []
  bds : List Nat := []
  outBds : List Nat := []
  imm : Bool := false
  either : Bool := false
  deriving DecidableEq, Repr

def opInfo (op : Nat) : Option OpInfo :=
  match op with
  | 0x0000 => some {}
  | 0x0001 => some {}
  | 0x0002 => some { slots := 1, fields := [(0, 64)] }
  | 0x0003 => some {}
  | 0x0004 => some { slots := 1, fields := [(0, 64)] }
  | 0x0005 => some { handle := .object }
  | 0x0006 => some { slots := 1, handle := .free, fields := [(0, 7)] }
  | 0x0100 => some { slots := 1, fields := [(0, 16)], bds := [0], imm := true }
  | 0x0101 => some { handle := .model }
  | 0x0102 => some { slots := 1, handle := .model, fields := [(0, 4), (8, 16)], bds := [8] }
  | 0x0103 => some { slots := 1, handle := .model, fields := [(0, 8)] }
  | 0x0104 => some { handle := .model }
  | 0x0200 => some { slots := 2, fields := [(0, 38), (40, 32)], bds := [56] }
  | 0x0201 => some { slots := 1, handle := .seq, fields := [(0, 17)], bds := [0] }
  | 0x0202 => some { slots := 1, handle := .seq, fields := [(0, 2), (4, 4)] }
  | 0x0203 => some { slots := 1, handle := .seq, fields := [(0, 4)] }
  | 0x0204 => some { handle := .seq }
  | 0x0205 => some { handle := .seq }
  | 0x0206 => some { handle := .seq }
  | 0x0300 => some { slots := 1, handle := .index, fields := [(0, 22), (24, 8)], bds := [0] }
  | 0x0301 => some { slots := 1, handle := .model, fields := [(0, 22)], bds := [0] }
  | 0x0302 => some { slots := 1, fields := [(0, 28)], bds := [0] }
  | 0x0303 => some { slots := 2, handle := .zeroOrSeq, fields := [(0, 58), (59, 21)], bds := [32, 64], outBds := [64] }
  | 0x0304 => some { slots := 1, fields := [(0, 16)], bds := [0], imm := true }
  | 0x0305 => some { slots := 2, fields := [(0, 4), (64, 64)] }
  | 0x0400 => some { slots := 1, fields := [(0, 17)], bds := [0] }
  | 0x0401 => some { slots := 1, handle := .index, fields := [(0, 16)], bds := [0] }
  | 0x0402 => some { handle := .index }
  | 0x0403 => some { slots := 1, handle := .index, fields := [(0, 16)], bds := [0] }
  | 0x0404 => some { slots := 1, handle := .index, fields := [(0, 1)] }
  | 0x0405 => some { handle := .index }
  | 0x0406 => some { handle := .index }
  | 0x0500 => some { slots := 1, handle := .index, fields := [(0, 16)], bds := [0], imm := true }
  | 0x0501 => some { slots := 1, handle := .index, fields := [(0, 16)], bds := [0] }
  | 0x0502 => some { slots := 1, handle := .index, fields := [(0, 16)], bds := [0] }
  | 0x0503 => some { slots := 1, handle := .move, fields := [(0, 2), (8, 16)] }
  | 0x0504 => some { handle := .move }
  | 0x0600 => some { slots := 1, fields := [(0, 7)], imm := true }
  | 0x0601 => some { slots := 1, handle := .table, fields := [(0, 16)], bds := [0] }
  | 0x0602 => some { slots := 1, handle := .table, fields := [(0, 50)], bds := [0, 16, 32] }
  | 0x0603 => some { handle := .table }
  | 0x0604 => some { handle := .table }
  | 0x0700 => some { slots := 1, fields := [(0, 17)], bds := [0] }
  | 0x0701 => some { slots := 1, fields := [(0, 2)] }
  | 0x0702 => some { slots := 1, fields := [(0, 16)], bds := [0] }
  | 0x0703 => some { handle := .grammar }
  | 0x0704 => some { slots := 1, fields := [(0, 18)], bds := [0] }
  | 0x0705 => some { slots := 1, fields := [(0, 17)], bds := [0] }
  | 0x0800 => some { slots := 1, fields := [(0, 35), (40, 16)] }
  | 0x0801 => some { handle := .scan }
  | 0x0802 => some { handle := .scan, imm := true }
  | 0x0803 => some { handle := .scan }
  | 0x0F00 => some { either := true }
  | 0x0F01 => some { imm := true, either := true }
  | 0x0F02 => some { slots := 1, fields := [(0, 6), (8, 32)], bds := [8, 24], imm := true }
  | 0x0F03 => some { slots := 1, fields := [(0, 32)], either := true }
  | 0x0F04 => some { slots := 1, fields := [(0, 17)], bds := [0] }
  | 0x0F05 => some { slots := 1, fields := [(0, 1)] }
  | 0x0F06 => some { slots := 1, fields := [(0, 17)], bds := [0] }
  | 0x0F07 => some { slots := 1, fields := [(0, 2)], imm := true }
  | 0x0F08 => some { slots := 1, fields := [(0, 2)] }
  | 0x0F09 => some { slots := 1, fields := [(0, 2)], imm := true }
  | 0x0F0A => some { slots := 1, fields := [(0, 2), (8, 8)], either := true }
  | 0x0F0B => some { slots := 1, fields := [(0, 8)] }
  | 0x0F0C => some { slots := 1, fields := [(0, 16)], bds := [0] }
  | 0x0F0D => some { slots := 1, fields := [(0, 1)], imm := true }
  | _ => none

/-- A revocation ignores every parameter field but the tenant (R434). -/
def OpInfo.looseReserved (_ : OpInfo) (c : Cmd) : Bool := c.op == 0x0F02 && c.imm == 1

/-- An offset that fails unless a condition holds. -/
def bad (ok : Bool) (offset : Nat) : List Nat := if ok then [] else [offset]

/-- Whether HANDLE names what the opcode needs, of the command's session (R63, R133). -/
def handleOk (s : State) (c : Cmd) (u : HandleUse) : Bool :=
  match u with
  | .zero => c.handle == 0
  | .model => (modelOf s c.sid c.handle).isSome
  | .seq => (seqOf s c.sid c.handle).isSome
  | .index => (indexOf s c.sid c.handle).isSome
  | .table => (tableOf s c.sid c.handle).isSome
  | .grammar => (grammarOf s c.sid c.handle).isSome
  | .scan => (scanOf s c.sid c.handle).isSome
  | .object => match (objOf s c.sid c.handle).bind (objState s) with | some _ => true | none => false
  | .zeroOrSeq => c.handle == 0 || (seqOf s c.sid c.handle).isSome
  | .move => (modelOf s c.sid c.handle).isSome || (indexOf s c.sid c.handle).isSome
      || (c.op == 0x0504 && (seqOf s c.sid c.handle).isSome)
  | .free => true

/-- CANCEL's fields (R64). -/
def cancelFaults (s : State) (c : Cmd) : List Nat :=
  match c.arg 6 1 with
  | 0 => bad (c.handle = 0) 32
  | 1 => bad (c.handle ≠ 0 && (objOf s c.sid c.handle).isSome) 32 ++ bad (c.arg 0 4 = 0) 64 ++ bad (c.arg 4 2 = 0) 68
  | _ => [70]

/-- TENANT_SET's fields (R433, R434; log 134, DEDUCED). -/
def tenantSetFaults (s : State) (c : Cmd) : List Nat :=
  if c.imm = 1 then bad (c.arg 0 2 < 1024) 64 ++ bad (c.arg 0 2 ≠ 0) 56
  else if c.imm ≠ 0 then [56]
  else
    bad (c.arg 0 2 < 1024) 64 ++ bad (c.arg 2 2 ≠ 0) 66 ++ bad (16 ≤ c.arg 4 2 && c.arg 4 2 ≤ 4096) 68
    ++ bad (c.bdLen 8 = 40 || (c.bdLen 8 = 0 && (look s.tenants (c.arg 0 2)).state != .unset)) 80
    ++ bad (c.bdLen 24 = 0 || c.bdLen 24 = 64) 88

/-- TIER_MOVE's fields (R371). -/
def tierMoveFaults (s : State) (c : Cmd) : List Nat :=
  let kind := c.arg 0 1
  let first := c.arg 8 8
  let units := c.arg 16 8
  let target := bad (c.arg 1 1 ≤ 1) 65
  if kind = 0 then
    bad (modelOf s c.sid c.handle).isSome 32 ++ target ++ bad (first = 0) 72 ++ bad (units = 0) 80
  else match indexOf s c.sid c.handle with
    | none => [32]
    | some (_, x) =>
      let perShard := ceilDiv (idxMaxNodes x) (max 1 (shards s (idxCourses x)).length)
      let regions := ceilDiv perShard 65536
      if kind = 1 then target ++ bad (1 ≤ units && first + units ≤ 2 ^ 64) 80
      else if kind = 2 && x.extended then
        target ++ bad (first / 65536 < (shards s (idxCourses x)).length && first % 65536 < regions) 72
          ++ bad (1 ≤ units && first % 65536 + units ≤ regions) 80
      else [64]

/-- The island that a clock identifier names (R23, R26). -/
def islandClock (n : Nat) : Bool :=
  let cls := n / 4096
  let course := n / 256 % 16
  let i := n % 256
  match cls with
  | 0 => course < 4 && i < 4
  | 1 => course < 4 && i < 16
  | 2 => course < 4 && i = 0
  | 3 => course < 4 && i = 0
  | 4 => course < 4 && i < 24
  | 8 => course = 15 && i < 2
  | 9 => course = 15 && i < 16
  | _ => false

/-- A HANDLE of 0, an IMMEDIATE of 0, where the opcode uses neither (R53, R64). -/
def unusedFaults (s : State) (c : Cmd) : List Nat :=
  match opInfo c.op with
  | none => []
  | some i => bad (handleOk s c i.handle) 32 ++ bad (i.imm || c.imm = 0) 56

/-! ## Fields that name objects, and their limits -/

/-- A model of the command's session, of a kind (R133). -/
def isModel (s : State) (c : Cmd) (h kind : Nat) : Bool :=
  match modelOf s c.sid h with
  | some (_, m) => imgKind m.image == kind
  | none => false

/-- An encoder with a code head (R133, R310). -/
def isEncoder (s : State) (c : Cmd) (h : Nat) : Bool :=
  match modelOf s c.sid h with
  | some (_, m) => imgKind m.image == 0 && imgShape m.image 3
  | none => false

def between (lo x hi : Nat) : Bool := lo ≤ x && x ≤ hi

/-- A field that names a feature profile of the tenant, or none (R310, R311). -/
def featureOk (s : State) (c : Cmd) (x : Nat) : Bool :=
  x == 0xFFFFFFFF || (x < 16 && (find? (look s.tenants c.tenant).featureProfiles x).isSome)

/-- SEQ_CREATE's fields (R65, R183, R195, R250); the profile number is judged when a trigger is named (log 26, DEDUCED).
-/
def seqCreateFaults (s : State) (c : Cmd) : List Nat :=
  let tau := c.arg 32 2
  bad (isModel s c (c.arg 0 8) 2) 64 ++ bad (c.arg 16 1 ≤ 7) 80 ++ bad (c.arg 17 1 < 4) 81 ++ bad (c.arg 18 2 ≤ 16) 82
  ++ bad (c.arg 24 8 = 0 || (grammarOf s c.sid (c.arg 24 8)).isSome) 88
  ++ bad (tau < 0x7C00 || tau = 0x8000) 96 ++ bad (between 1 (c.arg 34 2) 0x3C00) 98 ++ bad (c.arg 36 2 ≤ 1024) 100
  ++ bad (c.arg 40 4 = 0xFFFFFFFF || c.arg 44 4 < 16) 108

/-- RETRIEVE's fields (R283; log 106, DEDUCED). -/
def retrieveFaults (s : State) (c : Cmd) : List Nat :=
  let kind := c.arg 16 1
  bad (kind ≠ 2 || c.bdLen 0 = 32) 72 ++ bad (kind ≠ 1 || c.bdLen 0 % 4 = 0) 72 ++ bad (kind ≤ 2) 80
  ++ bad (kind ≠ 0 || c.arg 17 1 ≤ 3) 81 ++ bad (between 1 (c.arg 18 2) 4096) 82 ++ bad (between 1 (c.arg 20 2) 1024) 84
  ++ bad (if kind = 2 then c.arg 24 8 = 0 else isEncoder s c (c.arg 24 8)) 88

/-- RETRIEVE_RERANK_PACK's fields (R310; log 109, DEDUCED). -/
def rrpFaults (s : State) (c : Cmd) : List Nat :=
  bad ((c.arg 59 1 = 1) = (c.handle ≠ 0) || c.arg 59 1 > 1) 32
  ++ bad (indexOf s c.sid (c.arg 0 8)).isSome 64 ++ bad (isEncoder s c (c.arg 8 8)) 72
  ++ bad (isModel s c (c.arg 16 8) 1) 80 ++ bad (templateOf s c.sid (c.arg 24 8)).isSome 88
  ++ bad (c.arg 48 1 ≠ 1 || c.bdLen 32 % 4 = 0) 104 ++ bad (c.arg 48 1 ≤ 1) 112
  ++ bad (c.arg 49 1 ≤ 3) 113 ++ bad (between 1 (c.arg 50 2) 4096) 114 ++ bad (between 1 (c.arg 52 2) 1024) 116
  ++ bad (between 1 (c.arg 54 2) 65535) 118 ++ bad (c.arg 56 2 ≤ 1024) 120 ++ bad (c.arg 59 1 ≤ 1) 123
  ++ bad (featureOk s c (c.arg 60 4)) 124

/-- PROFILE_SET's fields (R311): the ranges of the profile, unless it clears its slot. -/
def profileFaults (c : Cmd) : List Nat :=
  bad (c.arg 0 4 % 2 ^ 31 < 16) 64 ++
  (let b := slice c.params 64 64
   if leNat b = 0 then []
   else if c.arg 0 4 < 2 ^ 31 then
     bad (field b 49 1 ≤ 3) 177 ++ bad (between 1 (field b 50 2) 4096) 178 ++ bad (between 1 (field b 52 2) 1024) 180
     ++ bad (between 1 (field b 54 2) 65535) 182 ++ bad (field b 56 2 ≤ 1024) 184 ++ bad (field b 58 1 = 0) 186
     ++ bad (field b 60 4 < 16 || field b 60 4 = 0xFFFFFFFF) 188
   else
     bad (between 1 (field b 40 2) 3650) 168 ++ bad (1 ≤ field b 42 1) 170 ++ bad (field b 43 1 = 0) 171
     ++ bad (zeroAt b 48 16) 176)

/-- A descriptor of whole records of a size, at most 1,048,576 of them (R289, R292, R302). -/
def recordsOk (c : Cmd) (o size : Nat) : Bool := c.bdLen o % size = 0 && c.bdLen o / size ≤ 1048576

/-- Bytes of one ROWS_WRITE record (R329). -/
def rowRecord (width : Nat) : Nat := ceilDiv (8 + 2 * width) 8 * 8

/-- A descriptor of whole ROWS_WRITE records. -/
def rowsOk (s : State) (c : Cmd) : Bool :=
  match tableOf s c.sid c.handle with
  | some (_, t) => recordsOk c 0 (rowRecord t.width)
  | none => true

/-- LOOKUP's fields (R324, R331). -/
def lookupFaults (s : State) (c : Cmd) : List Nat :=
  let width := match tableOf s c.sid c.handle with
    | some (_, t) => t.width
    | none => 1
  let bags := if c.bdLen 32 = 0 then 1 else c.bdLen 32 / 4
  bad (c.bdLen 0 % 4 = 0 && between 4 (c.bdLen 0) 4194304) 72 ++ bad (c.bdLen 16 = 0 || c.bdLen 16 = c.bdLen 0) 88
  ++ bad (c.bdLen 32 % 4 = 0 && bags ≤ 1048576 && bags * width ≤ 2097152) 104
  ++ bad (c.arg 48 1 ≤ 2 || c.arg 48 1 = 0xFF) 112 ++ bad (c.arg 49 1 ≤ 1) 113

/-- Bytes of an SRAM region that a scan can read (R15, R472). -/
def sramBytes (region : Nat) : Nat :=
  if region < 0x40 then 2097152 else if region < 0x50 then 4194304 else if region < 0x54 then 12582912
  else if region < 0x58 then 6291456 else if region = 0x58 then 16777216 else 0

/-- Whether a tenant may scan a range of a space: the range lies in one position, namespace or region (R472). -/
def scanRangeOk (s : State) (tenant space start length : Nat) : Bool :=
  match space with
  | 0 => tenant == 0 && (positions s).contains (start / 2 ^ 40 % 256)
      && start % 2 ^ 40 + length ≤ positionBytes s
  | 1 => match find? s.flash.namespaces (start / 2 ^ 48) with
    | none => false
    | some n => (n.tenant == tenant || n.tenant == 0) && start % 2 ^ 48 + length ≤ n.nsze * 4096
  | 2 => tenant == 0 && start % 2 ^ 32 + length ≤ sramBytes (start / 2 ^ 32 % 256)
  | _ => false

/-- SCAN_START's fields (R471, R472). -/
def scanFaults (s : State) (c : Cmd) : List Nat :=
  let w := c.arg 32 1
  let start := c.arg 40 8
  let length := c.arg 48 8
  bad (c.arg 0 8 < 2 ^ w) 64 ++ bad (c.arg 8 8 < 2 ^ w) 72 ++ bad (c.arg 16 8 < 2 ^ w) 80 ++ bad (c.arg 24 8 < 2 ^ w) 88
  ++ bad (between 1 w 64) 96 ++ bad (c.arg 33 1 < 4) 97 ++ bad (scanRangeOk s c.tenant (c.arg 34 1) start length) 98
  ++ bad (start < 2 ^ (if c.arg 34 1 = 0 then 48 else if c.arg 34 1 = 2 then 40 else 64)) 104
  ++ bad (between 1 length (2 ^ 48)) 112

/-- SCAN_RESUME's running value fits the scan's width (R474). -/
def resumeFaults (s : State) (c : Cmd) : List Nat :=
  match scanOf s c.sid c.handle with
  | some (_, x) => bad (c.imm < 2 ^ x.width) 56
  | none => []

/-- ISLAND_RETIRE's IMMEDIATE: of a course, bit 0; of a flash channel, a die and the bit that names it (R481, R482,
R484). -/
def retireImmOk (clk imm : Nat) : Bool :=
  if clk / 4096 = 3 then imm ≤ 1 else if clk / 4096 = 9 then imm = 0 || between 16 imm 31 else imm = 0

/-! ## TELEMETRY_READ's selectors -/

/-- The selectors of the tables for an island class: R115, R187, R188, R238, R260, R298, R322, R341, R342, R384, R422.
-/
def islandSelector (cls sel : Nat) : Bool :=
  match cls with
  | 0 => sel ≤ 0x000B
  | 1 => between 0x0400 sel 0x0409 || between 0x0510 sel 0x0514 || between 0x0700 sel 0x0708 || between 0x0900 sel 0x0908
  | 2 => between 0x0300 sel 0x0302 || sel = 0x0308
  | 3 => between 0x0100 sel 0x0103 || between 0x0200 sel 0x020E
  | 4 => between 0x0300 sel 0x0309 || between 0x0502 sel 0x0508 || between 0x0600 sel 0x060F
  | 9 => between 0x0800 sel 0x080D
  | _ => false

/-- The selectors of the tables for the management clock: R340, R385, R423, R455, R493, R519. -/
def rootSelector (sel : Nat) : Bool :=
  [0x0500, 0x0501, 0x0A30, 0x0A31, 0x0B00, 0x0B01, 0x0B30].contains sel || between 0x0610 sel 0x0613
    || between 0x0810 sel 0x0812 || between 0x0920 sel 0x0925 || between 0x0930 sel 0x0936
    || between 0x0A00 sel 0x0A25 || between 0x0B20 sel 0x0B24

/-- Whether a selector is listed for a clock identifier; its high bits name a tenant (R189) or an island (R493, R519)
where its table says so, and are 0 otherwise. -/
def selectorOk (clk sel : Nat) : Bool :=
  let low := sel % 65536
  let high := sel / 65536
  if clk ≠ 0xFF00 then islandSelector (clk / 4096) sel
  else if between 0x0300 low 0x0304 then high < 1024
  else if between 0x0A40 low 0x0A43 || low = 0x0B10 then islandClock high || high = 0xFF00
  else high = 0 && rootSelector low

/-- TELEMETRY_READ's fields: an identifier that names no clock, a selector that no table lists for it (log 52, DEDUCED).
-/
def telemetryFaults (c : Cmd) : List Nat :=
  let clk := c.arg 0 2
  bad (islandClock clk || clk = 0xFF00) 64 ++ bad (selectorOk clk (c.arg 8 8)) 72

/-- The opcode table's ends: group 0x08, ISLAND_RETIRE and FAULT_LOG_READ (R463, R471, R474, R481). -/
def lateFaults (s : State) (c : Cmd) : List Nat :=
  match c.op with
  | 0x0800 => scanFaults s c
  | 0x0802 => resumeFaults s c
  | 0x0F0A => telemetryFaults c
  | 0x0F0B => bad (between 1 (c.arg 4 4) 65536) 68
  | _ => []

/-- The field limits of each opcode, as offsets of the current layout that fail. -/
def opFaults (s : State) (c : Cmd) : List Nat :=
  unusedFaults s c ++
  match c.op with
  | 0x0006 => cancelFaults s c
  | 0x0100 => bad (c.imm = 0 || (4 ≤ c.imm && c.imm ≤ 8)) 56
  | 0x0102 => bad (c.arg 0 4 ≠ 0xFFFFFFFF) 64
  | 0x0200 => seqCreateFaults s c
  | 0x0201 => bad (c.arg 16 1 ≤ 1) 80 ++ bad (c.arg 16 1 ≠ 1 || c.bdLen 0 % 4 = 0) 72
  | 0x0300 => retrieveFaults s c
  | 0x0301 => bad (isModel s c c.handle 1) 32 ++ bad (featureOk s c (c.arg 16 4)) 80 ++ bad (between 1 (c.arg 20 2) 1024) 84
  | 0x0302 => bad (templateOf s c.sid (c.arg 16 8)).isSome 80 ++ bad (between 1 (c.arg 24 2) 65535) 88
      ++ bad (c.arg 26 2 ≤ 1024) 90
  | 0x0303 => rrpFaults s c
  | 0x0304 => bad (c.imm = 0 || (templateOf s c.sid c.imm).isSome) 56
  | 0x0305 => profileFaults c
  | 0x0400 => bad (c.arg 16 1 ≤ 1) 80 ++ bad (c.bdLen 0 = 64) 72
  | 0x0401 => bad (recordsOk c 0 48) 72
  | 0x0403 => bad (recordsOk c 0 8) 72
  | 0x0404 => bad (c.arg 0 1 ≤ 1) 64
  | 0x0500 => bad (c.imm ≤ 1) 56
  | 0x0501 => bad (c.bdLen 0 % 8 = 0) 72
  | 0x0502 => bad (c.bdLen 0 % 8 = 0) 72
  | 0x0600 => bad (c.imm < 16) 56 ++ bad (between 1 (c.arg 4 2) 1024) 68 ++ bad (between 1 (c.arg 6 1) 2) 70
  | 0x0601 => bad (rowsOk s c) 72
  | 0x0602 => lookupFaults s c
  | 0x0701 => bad (c.arg 0 1 ≤ 1) 64 ++ bad (c.arg 1 1 < (if c.arg 0 1 = 0 then 8 else 4)) 65
  | 0x0704 => bad (c.arg 16 1 ≤ 1) 80 ++ bad (c.arg 17 1 < (if c.arg 16 1 = 0 then 8 else 4)) 81
      ++ bad (c.bdLen 0 ≤ 16777216) 72
  | 0x0705 => bad (c.arg 16 1 ≤ 7) 80 ++ bad (c.bdLen 0 % 4 = 0) 72
  | 0x0503 => tierMoveFaults s c
  | 0x0F02 => tenantSetFaults s c
  | 0x0F04 => bad (c.arg 16 1 ≤ 1 && (s.dev.factory || (c.arg 16 1 = 1) ≠ s.dev.usedB)) 80
  | 0x0F05 => bad (c.arg 0 1 ≤ 1) 64
  | 0x0F06 => bad (c.arg 16 1 ≤ 7) 80
  | 0x0F07 => bad (islandClock (c.arg 0 2)) 64 ++ bad (retireImmOk (c.arg 0 2) c.imm) 56
  | 0x0F08 => bad (c.arg 0 1 ≤ 95) 64 ++ bad (c.arg 1 1 ≤ 1) 65
  | 0x0F09 => bad (c.imm ≤ 2) 56 ++ bad (300 ≤ c.arg 0 2 && c.arg 0 2 ≤ 620) 64
  | 0x0F0D => bad (c.arg 0 1 ≤ 2) 64 ++ bad (c.imm < (if c.arg 0 1 = 2 then 65536 else 1)) 56
  | _ => lateFaults s c

end Sys2Proof.Machine
end

