-- ==== Sys2Proof/Machine/Tokens.lean ====
section
/-! DEFINITION. Text and tokens: UTF-8 streams (R209 to R212), vocabulary images (R199, R200), splitting into pieces
(R202, R203), byte-level BPE (R204), retrieval lookup (R206 to R208), detokenizing and stop strings (R228 to R232). -/

namespace Sys2Proof.Machine

/-! ## UTF-8 (R209) -/

/-- What stands at the head of a byte stream: a character with its code point, an invalid maximal subpart, or the start
of a character whose rest has not arrived; each with its bytes. -/
inductive Head where
  | char (n cp : Nat) | bad (n : Nat) | short (n : Nat)
  deriving DecidableEq, Repr

def isCont (b : Nat) : Bool := 0x80 ≤ b && b < 0xC0

/-- The continuation bytes that a leading byte needs, and the range of the first of them; none for a byte that starts no
character. -/
def leadInfo (b : Nat) : Option (Nat × Nat × Nat) :=
  if 0xC2 ≤ b ∧ b ≤ 0xDF then some (1, 0x80, 0xBF)
  else if b = 0xE0 then some (2, 0xA0, 0xBF)
  else if b = 0xED then some (2, 0x80, 0x9F)
  else if 0xE1 ≤ b ∧ b ≤ 0xEF then some (2, 0x80, 0xBF)
  else if b = 0xF0 then some (3, 0x90, 0xBF)
  else if 0xF1 ≤ b ∧ b ≤ 0xF3 then some (3, 0x80, 0xBF)
  else if b = 0xF4 then some (3, 0x80, 0x8F)
  else none

/-- The head of a stream after a leading byte: `n` continuation bytes are still needed, `got` are read. -/
def readCont : Nat → Nat → Nat → Nat → Nat → List Nat → Head
  | 0, got, cp, _, _, _ => .char (got + 1) cp
  | _ + 1, got, _, _, _, [] => .short (got + 1)
  | n + 1, got, cp, lo, hi, b :: bs =>
    if lo ≤ b ∧ b ≤ hi then readCont n (got + 1) (cp * 64 + b % 64) 0x80 0xBF bs else .bad (got + 1)

def headOf (bytes : List Byte) : Option Head :=
  match bytes.map (·.toNat) with
  | [] => none
  | b :: bs =>
    if b < 0x80 then some (.char 1 b)
    else match leadInfo b with
    | none => some (.bad 1)
    | some (n, lo, hi) => some (readCont n 0 (b % 2 ^ (6 - n)) lo hi (bs.take 3))

/-- A unit of a text: a character with its code point, or an invalid subpart (which keeps its bytes). -/
structure Glyph where
  bytes : List Byte
  cp : Nat := 0
  invalid : Bool := false
  deriving DecidableEq, Repr

/-- The units of a stream, and an incomplete character that ends it. -/
def glyphs : Nat → List Byte → List Glyph × List Byte
  | 0, _ => ([], [])
  | fuel + 1, bytes =>
    match headOf bytes with
    | none => ([], [])
    | some (.short _) => ([], bytes)
    | some (.char n cp) =>
      let r := glyphs fuel (bytes.drop n)
      ({ bytes := bytes.take n, cp } :: r.1, r.2)
    | some (.bad n) =>
      let r := glyphs fuel (bytes.drop n)
      ({ bytes := bytes.take n, invalid := true } :: r.1, r.2)

def decodeUtf8 (bytes : List Byte) : List Glyph × List Byte := glyphs (bytes.length + 1) bytes

/-- Whether bytes are valid UTF-8. -/
def validUtf8 (bytes : List Byte) : Bool :=
  let r := decodeUtf8 bytes
  r.2.isEmpty && r.1.all (fun g => !g.invalid)

def fffd : List Byte := [0xEF, 0xBF, 0xBD]

/-- An incomplete character at the end of a stream is one invalid subpart (R209). -/
def finalGlyphs (bytes : List Byte) : List Glyph :=
  let r := decodeUtf8 bytes
  if r.2.isEmpty then r.1 else r.1 ++ [{ bytes := r.2, invalid := true }]

/-! ## Vocabulary images (R199, R200) -/

def vocClass (v : List Byte) : Nat := field v 6 1
def vocFold (v : List Byte) : Bool := bitOf (field v 7 1) 0
def vocByteTable (v : List Byte) : Bool := bitOf (field v 7 1) 1
def vocFingerprint (v : List Byte) : Nat := field v 16 8
def vocTokens (v : List Byte) : Nat := field v 24 4
def vocMerges (v : List Byte) : Nat := field v 28 4
def vocSlots (v : List Byte) : Nat := 2 ^ field v 32 1
def vocRule (v : List Byte) : Nat := field v 33 1
def vocPolicy (v : List Byte) : Nat := field v 34 1
def vocProbe (v : List Byte) : Nat := field v 35 1
def vocPiece (v : List Byte) : Nat := field v 36 1
def vocEos (v : List Byte) : Nat := field v 40 4
def vocBos (v : List Byte) : Nat := field v 44 4
def vocUnk (v : List Byte) : Nat := field v 48 4
def vocStrings (v : List Byte) : Nat := field v 52 4

/-- The value of a token field that names none. -/
def noToken : Nat := 0xFFFFFFFF

/-- Rounded up to a multiple of 64. -/
def align64 (n : Nat) : Nat := ceilDiv n 64 * 64

/-- The sizes of the sections, in image order: byte table, token table, string pool, merge table, rank table, hash
table (R200). -/
def vocSizes (v : List Byte) : List Nat :=
  let bytes := if vocByteTable v then 1024 else 0
  if vocClass v = 0 then
    [bytes, 8 * vocTokens v, vocStrings v, 8 * vocSlots v, align64 (4 * vocMerges v), 0]
  else [bytes, 0, vocStrings v, 0, 0, 8 * vocSlots v]

/-- The footprint of an image (R200), and the footprint with every section aligned. -/
def vocFootprint (v : List Byte) : Nat := (vocSizes v).foldl (· + ·) 0
def vocAligned (v : List Byte) : Nat := sumBy align64 (vocSizes v)

/-- Where section `i` starts in the image. -/
def vocSection (v : List Byte) (i : Nat) : Nat := 64 + sumBy align64 ((vocSizes v).take i)

def byteToken (v : List Byte) (b : Byte) : Nat := field v (vocSection v 0 + 4 * b.toNat) 4

/-- A token-table entry: the string, and the special flag. -/
def tokenEntry (v : List Byte) (t : Nat) : Nat := field v (vocSection v 1 + 8 * t) 8
def tokenSpecial (v : List Byte) (t : Nat) : Bool := bitOf (tokenEntry v t) 32
def tokenString (v : List Byte) (t : Nat) : List Byte :=
  slice v (vocSection v 2 + bitsOf (tokenEntry v t) 0 24) (bitsOf (tokenEntry v t) 24 8)

/-! ## Pieces (R202, R203) -/

/-- The five classes of rule 1. -/
inductive PieceClass where
  | s | w | l | n | p
  deriving DecidableEq, Repr

/-- ASCII white space, U+0085 aside. -/
def asciiWhite (cp : Nat) : Bool := cp = 0x20 || (9 ≤ cp && cp ≤ 13)

def asciiLetter (cp : Nat) : Bool := (0x41 ≤ cp && cp ≤ 0x5A) || (0x61 ≤ cp && cp ≤ 0x7A)

/-- The class of a character (R202). U+FFFD is class P (R211). -/
def classOf (cp : Nat) : PieceClass :=
  if cp = 0x20 then .s
  else if cp < 0x80 then
    if asciiWhite cp then .w else if asciiLetter cp then .l
    else if 0x30 ≤ cp ∧ cp ≤ 0x39 then .n else .p
  else if cp = 0xFFFD then .p
  else match charClass cp with
    | .letter => .l | .digit => .n | .white => .w | .other => .p

def isWhite (c : PieceClass) : Bool := c == .s || c == .w

/-- A piece: its glyphs. -/
abbrev Piece := List Glyph

/-- Length of the longest start of a class, at most `limit`. -/
def runLen (ok : PieceClass → Bool) : Nat → List PieceClass → Nat
  | 0, _ => 0
  | _, [] => 0
  | n + 1, c :: cs => if ok c then 1 + runLen ok n cs else 0

/-- Length in characters of the piece that rule 1 takes at the head of a nonempty list of classes (R202). -/
def rule1Len (cs : List PieceClass) : Nat :=
  let skip := if cs.head? = some .s then 1 else 0
  let rest := cs.drop skip
  let letters := runLen (· == .l) cs.length rest
  let digits := runLen (· == .n) 3 cs
  let others := runLen (· == .p) cs.length rest
  let whites := runLen isWhite cs.length cs
  if letters > 0 then skip + letters
  else if digits > 0 then digits
  else if others > 0 then skip + others
  else
    let next := (cs.drop whites).head?
    if (cs.drop (whites - 1)).head? = some .s ∧ (next = some .l ∨ next = some .p) then whites - 1 else whites

/-- Rule 2: white space, then the characters that follow it. -/
def rule2Len (cs : List PieceClass) : Nat :=
  let w := runLen isWhite cs.length cs
  w + runLen (fun c => !isWhite c) cs.length (cs.drop w)

def pieceLen (rule : Nat) (cs : List PieceClass) : Nat :=
  if rule = 0 then cs.length else if rule = 2 then rule2Len cs else rule1Len cs

/-- Splits valid glyphs into pieces. -/
def splitPieces : Nat → Nat → List Glyph → List Piece
  | 0, _, _ => []
  | _, _, [] => []
  | fuel + 1, rule, gs =>
    let n := max 1 (pieceLen rule (gs.map (fun g => classOf g.cp)))
    gs.take n :: splitPieces fuel rule (gs.drop n)

def pieceBytes (p : Piece) : List Byte := (p.map (·.bytes)).flatten

/-- Glyphs that fit in a number of bytes, from the head. -/
def fitGlyphs : Nat → List Glyph → Nat
  | _, [] => 0
  | room, g :: gs => if g.bytes.length ≤ room then 1 + fitGlyphs (room - g.bytes.length) gs else 0

/-- A piece of more than 1,024 bytes is split at the last character boundary at or before 1,024 (R203). -/
def cutPiece : Nat → Piece → List Piece
  | 0, _ => []
  | fuel + 1, p =>
    if (pieceBytes p).length ≤ 1024 then [p]
    else
      let n := max 1 (fitGlyphs 1024 p)
      p.take n :: cutPiece fuel (p.drop n)

/-- Maximal runs of glyphs between those that stand alone, each with whether it stands alone. -/
def runsOf (alone : Glyph → Bool) : List Glyph → List (Bool × List Glyph)
  | [] => []
  | g :: gs =>
    if alone g then (true, [g]) :: runsOf alone gs
    else match runsOf alone gs with
      | (false, r) :: rest => (false, g :: r) :: rest
      | rest => (false, [g]) :: rest

/-- The pieces of a text. Under policy 0 every invalid byte is a piece of its own; under policy 1 an invalid subpart is
U+FFFD (R211). -/
def piecesOf (v : List Byte) (rule : Nat) (gs : List Glyph) : List Piece :=
  if vocPolicy v = 0 then
    (runsOf (·.invalid) gs).flatMap (fun r =>
      if r.1 then r.2.flatMap (fun g => g.bytes.map (fun b => [{ bytes := [b], invalid := true }]))
      else (splitPieces (r.2.length + 1) rule r.2).flatMap (fun p => cutPiece (p.length + 1) p))
  else
    let gs := gs.map (fun g => if g.invalid then { bytes := fffd, cp := 0xFFFD } else g)
    (splitPieces (gs.length + 1) rule gs).flatMap (fun p => cutPiece (p.length + 1) p)

/-- The segments of a text's pieces: the first from byte `at_` on, with the pieces `acc` already in it, ends at the first
piece boundary at or after byte `next`, a multiple of 65,536 (R193). -/
def segmentsFrom (at_ next : Nat) (acc : List Piece) : List Piece → List (List Piece)
  | [] => [acc]
  | p :: ps =>
    let a := at_ + (pieceBytes p).length
    if next ≤ a then (acc ++ [p]) :: segmentsFrom a ((a / 65536 + 1) * 65536) [] ps
    else segmentsFrom a next (acc ++ [p]) ps

/-! ## Byte-level BPE (R204) -/

/-- Linear probing from a slot: the first slot that answers. -/
def probe {α : Type} (slots : Nat) (test : Nat → Option (Option α)) : Nat → Nat → Option α
  | 0, _ => none
  | n + 1, i => match test (i % slots) with
    | some r => r
    | none => probe slots test n (i + 1)

/-- The rank of a pair in the merge table. -/
def pairRank (v : List Byte) (l r : Nat) : Option Nat :=
  let at_ := fun i => field v (vocSection v 3 + 8 * i) 8
  probe (vocSlots v) (fun i =>
    let e := at_ i
    if e = 2 ^ 64 - 1 then some none
    else if bitsOf e 0 18 = l ∧ bitsOf e 18 18 = r then some (some (bitsOf e 36 18))
    else none) (vocProbe v) (crc32c (leBytes 4 l ++ leBytes 4 r))

/-- The lowest rank among adjacent pairs, with its pair. -/
def bestPair (v : List Byte) : List Nat → Option (Nat × Nat × Nat)
  | a :: b :: ts =>
    match pairRank v a b, bestPair v (b :: ts) with
    | some k, some (j, x) => if k ≤ j then some (k, a, b) else some (j, x)
    | some k, none => some (k, a, b)
    | none, o => o
  | _ => none

/-- Every non-overlapping occurrence of a pair, from left to right, replaced. -/
def replacePair (a b t : Nat) : Nat → List Nat → List Nat
  | 0, ts => ts
  | n + 1, x :: y :: ts => if x = a ∧ y = b then t :: replacePair a b t n ts else x :: replacePair a b t n (y :: ts)
  | _, ts => ts

def bpeMerge (v : List Byte) : Nat → List Nat → List Nat
  | 0, ts => ts
  | n + 1, ts => match bestPair v ts with
    | none => ts
    | some (k, a, b) => bpeMerge v n (replacePair a b (field v (vocSection v 4 + 4 * k) 4) ts.length ts)

def bpePiece (v : List Byte) (p : List Byte) : List Nat := bpeMerge v p.length (p.map (byteToken v))

/-! ## Retrieval lookup (R206, R207) -/

def foldByte (b : Byte) : Byte := if 0x41 ≤ b.toNat ∧ b.toNat ≤ 0x5A then b + 0x20 else b

/-- The token of a candidate string with its continuation flag. -/
def lookupString (v : List Byte) (flag : Nat) (s : List Byte) : Option Nat :=
  let h := crc64 (BitVec.ofNat 8 flag :: s)
  probe (vocSlots v) (fun i =>
    let e := field v (vocSection v 5 + 8 * i) 8
    let len := bitsOf e 20 7
    if len = 0 then some none
    else if bitsOf e 45 19 = bitsOf h 45 19 ∧ len = s.length ∧ bitsOf e 27 1 = flag
        ∧ slice v (vocSection v 2 + bitsOf e 0 20) len = s then some (some (bitsOf e 28 17))
    else none) (vocProbe v) h

/-- The longest candidate of at most `n` characters that hits, with its characters. -/
def longestHit (v : List Byte) (flag : Nat) (p : Piece) : Nat → Option (Nat × Nat)
  | 0 => none
  | n + 1 =>
    let s := pieceBytes (p.take (n + 1))
    let here := if s.length ≤ vocPiece v then (lookupString v flag s).map (fun t => (t, n + 1)) else none
    here.orElse (fun _ => longestHit v flag p n)

/-- The tokens of a piece, or none where some position has no hit. -/
def lookupPiece (v : List Byte) : Nat → Nat → Piece → Option (List Nat)
  | 0, _, _ => some []
  | _, _, [] => some []
  | fuel + 1, flag, p =>
    match longestHit v flag p (min p.length (vocPiece v)) with
    | none => none
    | some (t, n) => (lookupPiece v fuel 1 (p.drop n)).map (t :: ·)

def retrievalPiece (v : List Byte) (p : Piece) : List Nat :=
  let p := if vocFold v then p.map (fun g => { g with bytes := g.bytes.map foldByte }) else p
  (lookupPiece v (p.length + 1) 0 p).getD [vocUnk v]

/-- The tokens of one piece. -/
def pieceTokens (v : List Byte) (p : Piece) : List Nat :=
  if p.all (·.invalid) ∧ vocPolicy v = 0 then (pieceBytes p).map (byteToken v)
  else if vocClass v = 0 then bpePiece v (pieceBytes p) else retrievalPiece v p

/-- The tokens of a text, one job per segment (R193). -/
def tokensOf (v : List Byte) (ps : List Piece) : List Nat :=
  (segmentsFrom 0 65536 [] ps).flatMap (fun job => job.flatMap (pieceTokens v))

/-! ## Whole texts (R205, R208, R210 to R212) -/

/-- The outcome of tokenizing: tokens with the carry that stays and the invalid subparts met, or a reject at a byte. -/
inductive Tokenized where
  | ok (tokens : List Nat) (carry : List Byte) (invalid : Nat)
  | reject (at_ : Nat)
  deriving DecidableEq, Repr

/-- Offset of the first invalid byte. -/
def firstInvalid : Nat → List Glyph → Option Nat
  | _, [] => none
  | o, g :: gs => if g.invalid then some o else firstInvalid (o + g.bytes.length) gs

def countInvalid (gs : List Glyph) : Nat := (gs.filter (·.invalid)).length

/-- A final tokenization (R210): a standalone operation. -/
def tokenizeFinal (v : List Byte) (rule : Nat) (text : List Byte) : Tokenized :=
  let gs := finalGlyphs text
  match (if vocPolicy v = 2 then firstInvalid 0 gs else none) with
  | some o => .reject o
  | none => .ok (tokensOf v (piecesOf v rule gs)) [] (countInvalid gs)

/-- A text append (R210): every piece but the last; the last piece and an incomplete character stay. The carry keeps
the bytes as they came. -/
def tokenizeOpen (v : List Byte) (rule : Nat) (text : List Byte) : Tokenized :=
  let r := decodeUtf8 text
  match (if vocPolicy v = 2 then firstInvalid 0 r.1 else none) with
  | some o => .reject o
  | none =>
    let ps := piecesOf v rule r.1
    let taken := (ps.take (ps.length - 1)).map List.length
    let whole := taken.foldl (· + ·) 0
    let kept := if vocPolicy v = 0 then
        (r.1.flatMap (fun g => if g.invalid then g.bytes.map (fun b => ({ bytes := [b], invalid := true } : Glyph))
          else [g])).drop whole
      else r.1.drop whole
    .ok (tokensOf v (ps.take (ps.length - 1))) (pieceBytes kept ++ r.2)
      (countInvalid r.1 - countInvalid (if vocPolicy v = 0 then [] else kept))

/-- A flush of the carry (R210, R212): the tokens, invalid subparts met, and bytes dropped under policy 2. -/
def flushCarry (v : List Byte) (rule : Nat) (carry : List Byte) : List Nat × Nat × Nat :=
  let r := decodeUtf8 carry
  let gs := if vocPolicy v = 2 then r.1 else finalGlyphs carry
  (tokensOf v (piecesOf v rule gs), countInvalid gs, if vocPolicy v = 2 then r.2.length else 0)

/-- An encoder's framing (R208). -/
def frame (v : List Byte) (ts : List Nat) : List Nat :=
  (if vocBos v = noToken then [] else [vocBos v]) ++ ts ++ (if vocEos v = noToken then [] else [vocEos v])

/-! ## Text out (R228 to R232) -/

/-- The bytes that a token adds to the output stream (R228). -/
def textOf (v : List Byte) (trigger : Option Nat) (t : Nat) : List Byte :=
  if tokenSpecial v t || t == vocEos v || t == vocBos v || trigger == some t then [] else tokenString v t

/-- The complete characters of a stream, invalid subparts as EF BF BD, and the incomplete character at its end. -/
def cleanText (bytes : List Byte) : List (List Byte) × List Byte :=
  let r := decodeUtf8 bytes
  (r.1.map (fun g => if g.invalid then fffd else g.bytes), r.2)

/-- The text of a token list, final (R228, R236). -/
def detokenize (v : List Byte) (trigger : Option Nat) (ts : List Nat) : List Byte :=
  let r := cleanText (ts.flatMap (textOf v trigger))
  r.1.flatten ++ if r.2.isEmpty then [] else fffd

/-- The stop string that a stream ends in: its index and length; the one that starts earliest, the lower index among
equals (R232). -/
def stopAt (stops : List (List Byte)) (acc : List Byte) : Option (Nat × Nat) :=
  (stops.zipIdx).foldl (fun best p =>
    if p.1.isSuffixOf acc then
      match best with
      | some (_, n) => if n < p.1.length then some (p.2, p.1.length) else best
      | none => some (p.2, p.1.length)
    else best) none

/-- What the stream check finds over new characters: a stop string with the text before it, or the whole text. -/
def scanStops (stops : List (List Byte)) : List Byte → List (List Byte) → List Byte × Option Nat
  | acc, [] => (acc, none)
  | acc, c :: cs => match stopAt stops (acc ++ c) with
    | some (i, n) => ((acc ++ c).take ((acc ++ c).length - n), some i)
    | none => scanStops stops (acc ++ c) cs

/-- Length of the longest suffix of whole characters that is a proper start of a stop string (R229). -/
def heldLen (stops : List (List Byte)) : List (List Byte) → Nat
  | [] => 0
  | c :: cs =>
    let t := (c :: cs).flatten
    if stops.any (fun s => t.length < s.length && t.isPrefixOf s) then t.length else heldLen stops cs

/-- One token's bytes through the output stream: the text that can be delivered, the held tail, and the stop string
completed (R229, R232). -/
def streamOut (stops : List (List Byte)) (tail bytes : List Byte) : List Byte × List Byte × Option Nat :=
  let r := cleanText (tail ++ bytes)
  match scanStops stops [] r.1 with
  | (text, some i) => (text, [], some i)
  | (text, none) =>
    let h := heldLen stops r.1
    (text.take (text.length - h), text.drop (text.length - h) ++ r.2, none)

/-- The held tail as a generation's end delivers it (R230). -/
def tailText (tail : List Byte) : List Byte :=
  let r := cleanText tail
  r.1.flatten ++ if r.2.isEmpty then [] else fffd

/-! ## Vocabulary image checks (R199 to R201) -/

/-- Steps 1 to 3 of R201. -/
def vocHeaderFault (v : List Byte) : Option (Status × Nat) :=
  let gen := vocClass v = 0
  let t := vocTokens v
  let tokenOk := fun (o : Nat) (absent : Bool) => let x := field v o 4; x < t || (absent && x == noToken)
  firstFail [
    need (v.length ≥ 64) 8, need (field v 0 4 = 0x4F565646) 0, need (field v 4 2 = 2) 4,
    (field v 56 4 = crc32c (slice v 0 56), .checkMismatch, 56),
    need (vocClass v ≤ 1) 6,
    need (field v 7 1 < 4 && (!gen || (vocByteTable v && !vocFold v))) 7,
    need (if gen then 257 ≤ t && t ≤ 262144 else 1 ≤ t && t ≤ 131072) 24,
    need (if gen then vocMerges v ≤ t - 256 else vocMerges v = 0) 28,
    need (10 ≤ field v 32 1 && field v 32 1 ≤ 19
      && (if gen then 2 * vocMerges v else 2 * t) ≤ 2 ^ min 19 (field v 32 1)) 32,
    need (vocRule v ≤ 2) 33,
    need (vocPolicy v ≤ 2 && (vocPolicy v ≠ 0 || vocByteTable v)) 34,
    need (1 ≤ vocProbe v && vocProbe v ≤ 64) 35,
    need (if gen then vocPiece v = 0 else 1 ≤ vocPiece v && vocPiece v ≤ 64) 36,
    need (zeroAt v 37 3) 37,
    need (tokenOk 40 (!gen)) 40, need (tokenOk 44 true) 44, need (tokenOk 48 gen) 48,
    need (vocStrings v % 64 = 0) 52, need (zeroAt v 60 4) 60,
    need (field v 8 8 = 64 + vocAligned v + 8 && v.length = field v 8 8) 8]

/-- The image's own check value (R201). -/
def trailerOk (v : List Byte) : Bool :=
  field v (v.length - 8) 8 = crc64 (slice v 64 (v.length - 72))

/-- The first entry of a section that fails, as its image offset. -/
def firstEntry (base size n : Nat) (ok : Nat → Bool) : Option Nat :=
  ((List.range n).find? (fun i => !ok (base + size * i))).map (fun i => base + size * i)

/-- Step 7 of R201: every section entry. -/
def vocEntryFault (v : List Byte) : Option Nat :=
  let t := vocTokens v
  let bytes := if vocByteTable v then firstEntry (vocSection v 0) 4 256 (fun o => field v o 4 < t) else none
  bytes.orElse fun _ =>
  if vocClass v = 0 then
    (firstEntry (vocSection v 1) 8 t (fun o => let e := field v o 8
      e < 2 ^ 33 && bitsOf e 0 24 + bitsOf e 24 8 ≤ vocStrings v)).orElse fun _ =>
    (firstEntry (vocSection v 3) 8 (vocSlots v) (fun o => let e := field v o 8
      e = 2 ^ 64 - 1 || (e < 2 ^ 54 && bitsOf e 0 18 < t && bitsOf e 18 18 < t && bitsOf e 36 18 < vocMerges v))).orElse
    fun _ => firstEntry (vocSection v 4) 4 (vocMerges v) (fun o => field v o 4 < t)
  else
    firstEntry (vocSection v 5) 8 (vocSlots v) (fun o => let e := field v o 8
      bitsOf e 20 7 = 0 || (bitsOf e 20 7 ≤ 64 && bitsOf e 0 20 + bitsOf e 20 7 ≤ vocStrings v && bitsOf e 28 17 < t))

end Sys2Proof.Machine
end

