-- ==== Sys2Proof/Machine/Grammars.lean ====
section
/-! DEFINITION. Grammar images (R213 to R216), the advance (R218 to R220) and the masks (R221, R224, R227). -/

namespace Sys2Proof.Machine

/-! ## The image (R213, R214) -/

def gramKind (g : List Byte) : Nat := field g 6 1
def gramFingerprint (g : List Byte) : Nat := field g 16 8
def gramTokens (g : List Byte) : Nat := field g 24 4
def gramStates (g : List Byte) : Nat := field g 28 4
def gramTransitions (g : List Byte) : Nat := field g 32 4
def gramClasses (g : List Byte) : Nat := field g 36 2
def gramSymbols (g : List Byte) : Nat := field g 38 2
def gramDepth (g : List Byte) : Nat := field g 40 2
def gramStart (g : List Byte) : Nat := field g 42 2
def gramSparse (g : List Byte) : Nat := field g 44 4
def gramDense (g : List Byte) : Nat := field g 48 4

/-- Bytes of one dense bitmap. -/
def bitmapBytes (g : List Byte) : Nat := align64 (ceilDiv (gramTokens g) 8)

/-- The sizes of the sections, in order (R214). -/
def gramSizes (g : List Byte) : List Nat :=
  [2 * gramTokens g, 8 * gramClasses g, gramDense g * bitmapBytes g, 4 * gramSparse g, 8 * gramStates g,
   8 * gramTransitions g]

def gramFootprint (g : List Byte) : Nat := (gramSizes g).foldl (· + ·) 0
def gramAligned (g : List Byte) : Nat := sumBy align64 (gramSizes g)
def gramSection (g : List Byte) (i : Nat) : Nat := 64 + sumBy align64 ((gramSizes g).take i)

/-- A class-map entry. -/
def classMap (g : List Byte) (v : Nat) : Nat := field g (gramSection g 0 + 2 * v) 2

/-- The directory entry of a class, 1 to CLASSES. -/
def classEntry (g : List Byte) (c : Nat) : Nat := field g (gramSection g 1 + 8 * (c - 1)) 8
def classDense (g : List Byte) (c : Nat) : Bool := bitOf (classEntry g c) 0
def classOffset (g : List Byte) (c : Nat) : Nat := bitsOf (classEntry g c) 8 24
def classCount (g : List Byte) (c : Nat) : Nat := bitsOf (classEntry g c) 32 18

/-- The tokens of a sparse class. -/
def sparseTokens (g : List Byte) (c : Nat) : List Nat :=
  (List.range (classCount g c)).map (fun i => field g (gramSection g 3 + classOffset g c + 4 * i) 4)

/-- Whether a class holds a token. -/
def inClass (g : List Byte) (c v : Nat) : Bool :=
  if classDense g c then
    bitOf (field g (gramSection g 2 + classOffset g c + v / 8) 1) (v % 8)
  else (sparseTokens g c).contains v

/-- A state-table entry. -/
def stateEntry (g : List Byte) (q : Nat) : Nat := field g (gramSection g 4 + 8 * q) 8
def stateAccepts (g : List Byte) (q : Nat) : Bool := bitOf (stateEntry g q) 33
def stateTerminal (g : List Byte) (q : Nat) : Bool := bitOf (stateEntry g q) 34

/-- A transition as its 8 bytes. -/
structure Transition where
  cls : Nat
  action : Nat
  cond : Bool
  symbol : Nat
  next : Nat
  push : Nat
  deriving DecidableEq, Repr

def transitionAt (g : List Byte) (i : Nat) : Transition :=
  let e := field g (gramSection g 5 + 8 * i) 8
  { cls := bitsOf e 0 13, action := bitsOf e 13 2, cond := bitOf e 15, symbol := bitsOf e 16 16
    next := bitsOf e 32 16, push := bitsOf e 48 16 }

def transitionsOf (g : List Byte) (q : Nat) : List Transition :=
  (List.range (bitsOf (stateEntry g q) 20 13)).map (fun i => transitionAt g (bitsOf (stateEntry g q) 0 20 + i))

/-! ## Applying (R218 to R221) -/

/-- Whether a transition applies at a top symbol and depth: a push below MAX_DEPTH, a pop above depth 0, a condition on
the top symbol. -/
def applies (g : List Byte) (ctx : Context) (t : Transition) : Bool :=
  (!t.cond || ctx.stack.head? == some t.symbol)
    && (t.action ≠ 1 || ctx.stack.length < gramDepth g) && (t.action ≠ 2 || ctx.stack.length > 0)

/-- The context after a transition. -/
def applyTransition (ctx : Context) (t : Transition) : Context :=
  { state := t.next
    stack := if t.action = 1 then t.push :: ctx.stack else if t.action = 2 then ctx.stack.drop 1 else ctx.stack }

/-- The grammar advance (R219): the one transition that applies and holds the token; unchanged where there is none (log
138, DEDUCED; log 138, DEDUCED). -/
def advanceGrammar (g : List Byte) (ctx : Context) (v : Nat) : Context :=
  match (transitionsOf g ctx.state).find? (fun t => applies g ctx t && inClass g t.cls v) with
  | some t => applyTransition ctx t
  | none => ctx

/-- Whether the context accepts: in a pushdown machine only at depth 0 (R220). -/
def accepts (g : List Byte) (ctx : Context) : Bool := stateAccepts g ctx.state && (gramKind g = 0 || ctx.stack.isEmpty)

/-- Whether the classes of the transitions hold a token (R221). -/
def classesHold (g : List Byte) (ctx : Context) (v : Nat) : Bool :=
  (transitionsOf g ctx.state).any (fun t => applies g ctx t && inClass g t.cls v)

/-- Whether a mask would hold no token except possibly the trigger (R227). -/
def maskDead (g : List Byte) (ctx : Context) (eos : Nat) (trigger : Option Nat) : Bool :=
  !accepts g ctx && (List.range (gramTokens g)).all (fun v => v == eos || trigger == some v || !classesHold g ctx v)
    && !classesHold g ctx eos

/-- The mask bit of a token (R221, R227). -/
def maskBit (g : List Byte) (ctx : Context) (eos : Nat) (trigger : Option Nat) (v : Nat) : Bool :=
  if maskDead g ctx eos trigger then v == eos
  else classesHold g ctx v || (accepts g ctx && v == eos) || trigger == some v

/-- Tile cycles of one mask (R224). -/
def maskCycles (g : List Byte) (ctx : Context) : Nat :=
  let ts := transitionsOf g ctx.state
  let cs := ((ts.filter (applies g ctx)).map (·.cls)).dedup
  let d := (cs.filter (classDense g)).length
  let s := sumBy (classCount g) (cs.filter (fun c => !classDense g c))
  200 + ts.length + ceilDiv (gramTokens g) 512 * (1 + d) + ceilDiv s 8

/-! ## Checks at load (R213 to R216) -/

def gramHeaderFault (g : List Byte) : Option (Status × Nat) :=
  let push := gramKind g = 1
  firstFail [
    need (g.length ≥ 64) 8, need (field g 0 4 = 0x52475646) 0, need (field g 4 2 = 1) 4,
    (field g 52 4 = crc32c (slice g 0 52), .checkMismatch, 52),
    need (gramKind g ≤ 1) 6, need (zeroAt g 7 1) 7,
    need (257 ≤ gramTokens g && gramTokens g ≤ 262144) 24,
    need (1 ≤ gramStates g && gramStates g ≤ 65536) 28,
    need (1 ≤ gramTransitions g && gramTransitions g ≤ 1048576) 32,
    need (1 ≤ gramClasses g && gramClasses g ≤ 4096) 36,
    need (if push then 1 ≤ gramSymbols g && gramSymbols g ≤ 4096 else gramSymbols g = 0) 38,
    need (if push then 1 ≤ gramDepth g && gramDepth g ≤ 256 else gramDepth g = 0) 40,
    need (gramStart g < gramStates g) 42, need (zeroAt g 56 8) 56,
    need (field g 8 8 = 64 + gramAligned g + 8 && g.length = field g 8 8) 8]

/-- Class-directory entries: inside their section, aligned, counts only for sparse classes (R214). -/
def classEntryOk (g : List Byte) (o : Nat) : Bool :=
  let e := field g o 8
  bitsOf e 1 7 = 0 && bitsOf e 50 14 = 0 &&
    if bitOf e 0 then bitsOf e 8 24 % 64 = 0 && bitsOf e 8 24 + bitmapBytes g ≤ gramDense g * bitmapBytes g
        && bitsOf e 32 18 = 0
    else bitsOf e 8 24 % 4 = 0 && bitsOf e 8 24 + 4 * bitsOf e 32 18 ≤ 4 * gramSparse g

/-- The class that R214 requires in the class map. -/
def lowestClass (g : List Byte) (v : Nat) : Nat :=
  (((List.range (gramClasses g)).map (· + 1)).find? (fun c => inClass g c v)).getD 0

/-- Whether two transitions of a state can apply at one top symbol and depth (R216): their conditions agree, and no
push without room stands beside a pop without depth. -/
def canMeet (g : List Byte) (a b : Transition) : Bool :=
  (!a.cond || !b.cond || a.symbol == b.symbol) &&
    (List.range (gramDepth g + 1)).any (fun d =>
      (!(a.cond || b.cond) || d > 0) && (a.action ≠ 1 || d < gramDepth g) && (b.action ≠ 1 || d < gramDepth g)
        && (a.action ≠ 2 || d > 0) && (b.action ≠ 2 || d > 0))

def shareToken (g : List Byte) (a b : Nat) : Bool :=
  a == b || (List.range (gramTokens g)).any (fun v => inClass g a v && inClass g b v)

/-- Whether transition `i` of a list conflicts with an earlier one. -/
def clashes (g : List Byte) (ts : List Transition) (i : Nat) : Bool :=
  match ts[i]? with
  | none => false
  | some t => (ts.take i).any (fun u => canMeet g u t && shareToken g u.cls t.cls)

def transitionOk (g : List Byte) (o : Nat) : Bool :=
  let t := transitionAt g ((o - gramSection g 5) / 8)
  1 ≤ t.cls && t.cls ≤ gramClasses g && t.action ≤ 2 && t.next < gramStates g
    && (gramKind g = 1 || (t.action = 0 && !t.cond))
    && (t.action ≠ 1 || t.push < gramSymbols g) && (!t.cond || t.symbol < gramSymbols g)

def stateOk (g : List Byte) (o : Nat) : Bool :=
  let q := (o - gramSection g 4) / 8
  let n := bitsOf (stateEntry g q) 20 13
  bitsOf (stateEntry g q) 35 29 = 0 && n ≤ 4096 && bitsOf (stateEntry g q) 0 20 + n ≤ gramTransitions g
    && (gramKind g = 1 || stateTerminal g q || n > 0) && (!stateTerminal g q || stateAccepts g q)

/-- The first clash of two transitions of one state, as the offset of the later (R216). -/
def clashFault (g : List Byte) : Option Nat :=
  ((List.range (gramStates g)).findSome? (fun q =>
    ((List.range (transitionsOf g q).length).find? (clashes g (transitionsOf g q))).map
      (fun i => gramSection g 5 + 8 * (bitsOf (stateEntry g q) 0 20 + i))))

/-- SPARSE_IDS and DENSE against the class directory (R213; log 183, DEDUCED). -/
def directoryCounts (g : List Byte) : Option Nat :=
  let cs := (List.range (gramClasses g)).map (· + 1)
  if sumBy (classCount g) (cs.filter (fun c => !classDense g c)) ≠ gramSparse g then some 44
  else if (cs.filter (classDense g)).length ≠ gramDense g then some 48 else none

/-- The earlier of two faults. -/
def earlier (a b : Option Nat) : Option Nat :=
  match a, b with
  | some x, some y => some (min x y)
  | some x, none => some x
  | none, o => o

/-- Entries of the sections, after the check value; the first in the image decides (R201, R216). -/
def gramEntryFault (g : List Byte) : Option Nat :=
  (directoryCounts g).orElse fun _ =>
  (firstEntry (gramSection g 0) 2 (gramTokens g) (fun o =>
    field g o 2 == lowestClass g ((o - gramSection g 0) / 2))).orElse fun _ =>
  (firstEntry (gramSection g 1) 8 (gramClasses g) (classEntryOk g)).orElse fun _ =>
  (firstEntry (gramSection g 3) 4 (gramSparse g) (fun o => field g o 4 < gramTokens g)).orElse fun _ =>
  (firstEntry (gramSection g 4) 8 (gramStates g) (stateOk g)).orElse fun _ =>
  earlier (firstEntry (gramSection g 5) 8 (gramTransitions g) (transitionOk g)) (clashFault g)

end Sys2Proof.Machine
end

