-- ==== Sys2Proof/Machine/Jobs.lean ====
section
/-! DEFINITION. Hardware threads and the supervisors' dispatch queues (R17, R192, R275). -/

namespace Sys2Proof.Machine

def coreNumber (t core : Fin 64) : Nat := t.val * 64 + core.val

def setJobs (f : List ThreadJob → List ThreadJob) (s : State) : State :=
  { s with eng := { s.eng with jobs := f s.eng.jobs } }

/-- Whether a job still runs or waits: its command has no result yet, or its walker has not ended. -/
def jobLive (s : State) (j : ThreadJob) : Bool :=
  match j.owner with
  | .command id => (findCmd s id).any (fun k => k.result.isNone)
  | .walker w => s.eng.walks.any (fun x => x.id == w && !x.done)

/-- The lowest free thread of a core. -/
def freeThread (js : List ThreadJob) (core : Nat) : Option (Fin 4) :=
  (List.finRange 4).find? (fun t => !js.any (fun j => j.core == core && j.thread == some t))

/-- Jobs that wait take free threads of their cores, oldest first. -/
def placeJobs : List ThreadJob → List ThreadJob → List ThreadJob
  | done, [] => done
  | done, j :: js =>
    if j.thread.isSome then placeJobs (done ++ [j]) js
    else placeJobs (done ++ [{ j with thread := freeThread (done ++ js) j.core }]) js

/-- Jobs that have ended give up their threads to those that wait. -/
def runJobs (s : State) : State := setJobs (fun js => placeJobs [] (js.filter (jobLive s))) s

/-- A job is bound for a core: it takes a free thread, or waits (R17, R192; what counts as a job: log 165, DESIGN
CHOICE). -/
def startJob (owner : JobOwner) (c : Fin 4) (lane : Lane) (core : Nat) (s : State) : State :=
  runJobs (if s.eng.jobs.any (fun j => j.owner == owner) then s
    else setJobs (fun js => js ++ [{ owner, course := c, lane, core }]) s)

def onThread (s : State) (owner : JobOwner) : Bool := s.eng.jobs.any (fun j => j.owner == owner && j.thread.isSome)

/-- A command's job runs once it holds a thread, while its tile works, and gives it up when it has its result. -/
def withThread (id : Nat) (c : Fin 4) (lane : Lane) (row : Row) (body : State → State) (s : State) : State :=
  let s := startJob (.command id) c lane (coreNumber row.tile row.core) s
  if onThread s (.command id) && !stopped s (tileClk row.tile) then runJobs (body s) else s

/-- The threads of a lane's step are released (R159). -/
def endJobs (c : Fin 4) (lane : Lane) (s : State) : State :=
  runJobs (setJobs (fun js => js.filter (fun j => !(j.course == c && j.lane == lane))) s)

/-- Threads of a core that jobs hold or wait for. -/
def coreJobs (s : State) (core : Nat) : Nat := (s.eng.jobs.filter (fun j => j.core == core && jobLive s j)).length

end Sys2Proof.Machine
end

