-- ==== Sys2Proof/Machine/Transfers.lean ====
section
/-! DEFINITION. Ordering and carrying moves of Hod (R366 to R370, R374, R375, R378 to R380): what a unit is, its room,
its start and its commit. -/

namespace Sys2Proof.Machine

/-! ## Moves of an object -/

def sameObject (a b : MoveObj) : Bool := a == b

/-- Whether a move is outstanding (R375). -/
def moveRuns (m : Move) : Bool := m.state != .idle

/-- Orders a move; it takes the place of an earlier, finished move of the object as its latest (R376). -/
def orderMove (m : Move) (s : State) : State :=
  { s with eng := { s.eng with
    moves := s.eng.moves.filter (fun x => !(x.2.obj == m.obj && !moveRuns x.2)) ++ [(s.eng.nextMove, m)]
    nextMove := s.eng.nextMove + 1 } }

def setMove (k : Nat) (f : Move → Move) (s : State) : State :=
  { s with eng := { s.eng with moves := adj s.eng.moves k f } }

/-- The outstanding move of an object. -/
def moveOf (s : State) (o : MoveObj) : Option (Nat × Move) := s.eng.moves.find? (fun m => m.2.obj == o && moveRuns m.2)

/-- The latest move of an object (R376). -/
def latestMove (s : State) (o : MoveObj) : Option Move :=
  ((s.eng.moves.filter (fun m => m.2.obj == o)).getLast?).map (·.2)

/-! ## Units (R366) -/

def corpusOf (s : State) (slot : Nat) : Tbl Nat Record := look s.obj.corpora slot

/-- The records of a corpus inside a move's range, by rising identifier. -/
def recordsIn (s : State) (slot first units : Nat) : List (Nat × Record) :=
  isort ((corpusOf s slot).filter (fun r => first ≤ r.1 && r.1 < first + units)) (fun a b => a.1 ≤ b.1)

def regionAt (x : Index) (r : Nat) : Region := look x.regions r

/-- Units of a move that are not yet at the target, from its cursor on. -/
def unitsLeft (s : State) (m : Move) : List Nat :=
  match m.obj with
  | .model _ | .seq _ => if m.cursor = 0 then [0] else []
  | .corpus slot =>
    ((recordsIn s slot m.first m.units).filter (fun r => m.cursor ≤ r.1 && r.2.inFlash != m.toFlash)).map (·.1)
  | .region slot =>
    let x := look s.obj.indices slot
    ((List.range m.units).map (m.first + ·)).filter (fun r => m.cursor ≤ r && (regionAt x r).hot == m.toFlash)
  | .evacuation _ => (List.range m.units).filter (m.cursor ≤ ·)

/-- Bytes of a unit. -/
def unitBytes (s : State) (o : MoveObj) (u : Nat) : Nat :=
  match o with
  | .model slot => modelUnit s slot
  | .corpus slot => (look (corpusOf s slot) u).bytes.length
  | .region _ => regionBytes
  | .seq e => match find? s.obj.seqs e with
    | some q => seqBytes s q
    | none => 0
  | .evacuation _ => 65536

/-- Regions of an index in LPDDR6, those that a move brings there among them. -/
def hotCount (x : Index) : Nat := (x.regions.filter (fun r => r.2.hot || r.2.moving)).length

/-- Whether the destination has room for a unit (R367). A sequence's or a model's room is taken when its move is
ordered. -/
def unitFits (s : State) (m : Move) (u : Nat) : Bool :=
  match m.obj with
  | .seq _ | .evacuation _ => true
  | .model _ => !m.toFlash || !flashReadOnly s
  | .corpus slot =>
    if m.toFlash then flashFits s (unitBytes s m.obj u) && !flashReadOnly s
    else spreadFits s (idxCourses (look s.obj.indices slot)) (unitBytes s m.obj u)
  | .region slot =>
    let x := look s.obj.indices slot
    if m.toFlash then flashFits s regionBytes && !flashReadOnly s else hotCount x < idxHotRegions x

/-! ## Order of starts (R370) -/

/-- The kinds in the order of R370; the migrations of embedding rows are not moves of this table. -/
def moveRank (m : Move) : Nat :=
  match m.obj with
  | .evacuation _ => 0
  | .seq _ => 1
  | .region _ => if m.device then 3 else 4
  | _ => 4

/-- Whether a unit of an object is in flight. -/
def unitMoving (s : State) (o : MoveObj) (u : Nat) : Bool := s.eng.moves.any (fun m => m.2.obj == o && m.2.unit == some u)

/-- Whether a unit is in another move of its object: one in flight, or one that the device has ordered (R374). -/
def unitBusy (s : State) (k : Nat) (m : Move) (u : Nat) : Bool :=
  s.eng.moves.any (fun x => x.1 != k && x.2.obj == m.obj
    && (x.2.unit == some u || (x.2.device && !m.device && x.2.state == .queued && x.2.first == u)))

/-- Whether a move could start its next unit now; those bound for flash wait while new writes do (R403). -/
def startable (s : State) (k : Nat) (m : Move) : Bool :=
  (m.state == .queued || m.state == .copying) && m.unit.isNone && !(m.toFlash && s.flash.writesHeld) &&
    match (unitsLeft s m).head? with
    | some u => unitFits s m u && !unitBusy s k m u
    | none => false

/-- Whether another move goes first: one of an earlier kind, or of the same kind ordered before. -/
def goesFirst (k : Nat) (m : Move) (x : Nat × Move) : Bool :=
  moveRank x.2 < moveRank m || (moveRank x.2 == moveRank m && x.1 < k)

/-- Units in flight; Hod keeps at most 256. -/
def unitsInFlight (s : State) : Nat := (s.eng.moves.filter (fun m => m.2.unit.isSome)).length

/-- Whether Hod may start the next unit of a move now. -/
def mayStart (s : State) (k : Nat) (m : Move) : Bool :=
  startable s k m && unitsInFlight s < 256 && !s.eng.moves.any (fun x => goesFirst k m x && startable s x.1 x.2)

/-! ## Sequences to and from flash (R178 to R182, R379) -/

/-- Orders the eviction of a sequence, its swap blocks reserved. -/
def evict (e : Nat) (cmd : Option Nat) (s : State) : State :=
  setSeq e (fun q => { q with swap := .evicting cmd })
    (orderMove { obj := .seq e, toFlash := true, device := cmd.isNone, units := 1, cmd } s)

/-- Orders the move of a sequence into the pages of a course, which are reserved. -/
def bring (e : Nat) (swap : Swap) (s : State) : State :=
  setSeq e (fun q => { q with swap }) (orderMove { obj := .seq e, toFlash := false, device := true, units := 1 } s)

/-- Whether a course's page pool holds a whole sequence (R181). -/
def seqFits (s : State) (q : Seq) (c : Fin 4) : Bool := courseRuns s c && takesWork s (fabricClk c) && seqBytes s q ≤ pagePool s c.val

end Sys2Proof.Machine
end

