-- ==== Sys2Proof/Machine/Sequences.lean ====
section
/-! DEFINITION. Sequences and the commands of group 0x02 (R65, R155 to R158, R182, R183, R205, R210 to R212, R217, R218,
R222, R223, R229, R230, R548). -/

namespace Sys2Proof.Machine

/-! ## What a sequence runs on -/

def seqImage (s : State) (q : Seq) : List Byte := (look s.obj.models q.model).image
def seqVocab (s : State) (q : Seq) : List Byte := (look s.obj.vocabs q.vocab).image
def seqContext (s : State) (q : Seq) : Nat := imgContext (seqImage s q)
def seqGrammar (s : State) (q : Seq) : Option (List Byte) := q.grammar.map (fun g => (look s.obj.grammars g).image)
def seqHandle (e : Nat) (q : Seq) : Nat := mkHandle e q.reuse

/-- The pre-tokenization rule in force (R202). -/
def ruleOf (s : State) (v : List Byte) : Nat := if compatMode s then 2 else vocRule v

/-- The in-loop retrievals a sequence has started: a generation starts at most 255 (R186). -/
def retrievalsStarted (q : Seq) : Nat := q.retrievals + q.retrievalFails + b2n q.retrieving

/-- The trigger token while it still acts as one (R186). -/
def trigger? (q : Seq) : Option Nat := if retrievalsStarted q < 255 then q.trigger else none

/-! ## Mask jobs (R222, R223) -/

/-- The tile whose selection unit serves a tile's rows: the next tile of the course whose unit is not retired (R464). -/
def unitTile (s : State) (t : Fin 64) : Fin 64 :=
  let ring := (List.range 16).map (fun i => Fin.ofNat 64 (t.val / 16 * 16 + (t.val + i) % 16))
  (ring.find? (fun x => !(look s.eng.tiles x).selRetired && tileUp s x)).getD t

/-- Grammar-held sequences by mask tile. -/
def maskLoad (s : State) (t : Fin 64) : Nat :=
  (s.obj.seqs.filter (fun q => q.2.grammar.isSome && q.2.maskTile == t.val)).length

/-- The mask tile of a new or restored sequence: the tile of the course with the fewest, the lower number on a tie. -/
def maskTileFor (s : State) (c : Fin 4) : Nat :=
  let ts := (tilesUp s c).filter (fun t => !(look s.eng.tiles t).selRetired)
  match ts with
  | [] => c.val * 16
  | t :: ts => (ts.foldl (fun b x => if maskLoad s x < maskLoad s b then x else b) t).val

/-- A sequence's mask job joins its tile's jobs, unless its mask is ready or asked for. -/
def askMask (e : Nat) (s : State) : State :=
  match find? s.obj.seqs e with
  | none => s
  | some q =>
    if q.grammar.isNone || q.maskReady || s.eng.tiles.any (fun t => t.2.masks.contains e) then s
    else { s with eng := { s.eng with
      tiles := upd s.eng.tiles (Fin.ofNat 64 q.maskTile) (fun t => { t with masks := t.masks ++ [e] }) } }

/-! ## Input (R205, R144) -/

/-- BOS, where it still has to be placed before the tokens (log 102, DEDUCED). -/
def bosFor (s : State) (q : Seq) (ts : List Nat) : List Nat :=
  let v := seqVocab s q
  if q.started || ts.isEmpty || vocBos v = noToken then [] else [vocBos v]

/-- Whether tokens would take the sequence past CONTEXT (R144). -/
def overflows (s : State) (q : Seq) (ts : List Nat) : Bool :=
  seqContext s q < q.tokens.length + q.input.length + (bosFor s q ts).length + ts.length

/-- Tokens become pending input, BOS first (R158, R205). -/
def addInput (e : Nat) (ts : List Nat) (s : State) : State :=
  match find? s.obj.seqs e with
  | none => s
  | some q => setSeq e (fun x => { x with
      input := x.input ++ bosFor s q ts ++ ts, started := x.started || !ts.isEmpty }) s

/-- The tile whose counters take a job that no rule places: the lowest working tile of the course (log 20, DESIGN
CHOICE). -/
def jobTile (s : State) (c : Fin 4) : Fin 64 := ((tilesUp s c).head?).getD (Fin.ofNat 64 (c.val * 16))

/-- Adds a job's counts (R238). -/
def countTokens (t : Fin 64) (bytes tokens invalid dropped : Nat) (s : State) : State :=
  bump (tileClk t) 0x0703 dropped (bump (tileClk t) 0x0702 invalid (bump (tileClk t) 0x0701 tokens
    (bump (tileClk t) 0x0700 bytes s)))

/-- The carry is tokenized as final (R210, R212; log 108, DEDUCED). -/
def flush (e : Nat) (s : State) : State :=
  match find? s.obj.seqs e with
  | none => s
  | some q =>
    let v := seqVocab s q
    let r := flushCarry v (ruleOf s v) q.carry
    let s := countTokens (jobTile s q.course) q.carry.length r.1.length r.2.1 r.2.2 s
    addInput e r.1 (setSeq e (fun x => { x with carry := [] }) s)

/-! ## Text out of a run (R158, R229, R544) -/

/-- Whether a write of the command's OUTPUT was refused. -/
def outputBroken (s : State) (c : Cmd) : Bool :=
  match c.failed with
  | some (o, _) => o == outputOffset s
  | none => false

/-- Writes the committed text that OUTPUT still takes (log 104, DEDUCED). -/
def deliver (e : Nat) (s : State) : State :=
  match find? s.obj.seqs e with
  | none => s
  | some q => match q.run with
    | none => s
    | some r => match findCmd s r.cmd with
      | none => s
      | some c =>
        let t := q.undelivered.take (c.outLen - r.bytes)
        let s := dma c (outputOffset s) r.bytes t s
        setSeq e (fun x => { x with
          undelivered := x.undelivered.drop t.length
          run := some { r with bytes := r.bytes + t.length, text := r.text ++ t } }) s

/-- Whether text is left that OUTPUT cannot take. -/
def textLeft (s : State) (e : Nat) : Bool :=
  match find? s.obj.seqs e with
  | none => false
  | some q => !q.undelivered.isEmpty || match q.run.bind (fun r => findCmd s r.cmd) with
    | some c => outputBroken s c
    | none => false

/-- The run ends with PARTIAL, stop reason 6, and the sequence blocks (R158). Text that a refused write kept from the
host is held again (R544). -/
def blockRun (e : Nat) (s : State) : State :=
  match find? s.obj.seqs e with
  | none => s
  | some q => match q.run with
    | none => enter e .blockedHost s
    | some r => match findCmd s r.cmd with
      | none => enter e .blockedHost (setSeq e (fun x => { x with run := none, runnable := false }) s)
      | some c =>
        let again := match c.failed with
          | some (o, n) => if o = outputOffset s then r.text.drop n else []
          | none => []
        let s := enter e .blockedHost (setSeq e (fun x => { x with
          run := none, runnable := false, undelivered := again ++ x.undelivered, cancelling := false
          maskReady := false }) (dropMask e s))
        finish c (runResult r .partialDone (runEffect r) 6 0 4 false) s

/-- A generation ends for a reason (R158, R230): its held tail joins the text, and when OUTPUT cannot take it all the
stop is held. -/
def stopRun (e reason idx : Nat) (st : Status) (empty : Bool) (s : State) : State :=
  let s := setSeq e (fun q => { q with undelivered := q.undelivered ++ tailText q.tail, tail := [] }) s
  let s := deliver e s
  if textLeft s e then
    blockRun e (setSeq e (fun q => { q with heldStop := some (reason, idx, st, empty) }) s)
  else endRun e st .full reason idx empty s

/-- A SEQ_GENERATE takes effect on a sequence whose pages are resident (R158): undelivered text first, then a held stop,
prefill or decode. -/
def startRun (e : Nat) (s : State) : State :=
  match find? s.obj.seqs e with
  | none => s
  | some q => match q.run.bind (fun r => findCmd s r.cmd) with
    | none => s
    | some c =>
      let s := deliver e s
      if textLeft s e then blockRun e s
      else match q.heldStop with
        | some (reason, idx, st, empty) => endRun e st .full reason idx empty s
        | none =>
          if !q.input.isEmpty then
            askMask e (enter e .prefill (setSeq e (fun x => { x with runnable := true, runnableAt := s.now }) s))
          else if !q.tokens.isEmpty then
            askMask e (enter e .decode (setSeq e (fun x => { x with
              runnable := true, runnableAt := s.now, span := [] }) s))
          else conflict c 2 4 (setSeq e (fun x => { x with run := none, runnable := false }) s)

/-- A SEQ_GENERATE that waited for a move of its resident sequence takes effect once the move has ended (R158, R191). -/
def resumeRun (e : Nat) (s : State) : State :=
  match find? s.obj.seqs e with
  | none => s
  | some q =>
    if q.state = .blockedHost ∧ q.swap = .none ∧ q.run.any (fun r => !r.flushing) then startRun e s else s

/-! ## SEQ_CREATE (R65, R156 to R158, R183, R198, R217) -/

/-- No course can run a sequence (R486). -/
def stranded (s : State) : Bool := !(List.finRange 4).any (courseRuns s)

def sliceUsed (s : State) (c : Nat) : Nat := (s.obj.seqs.filter (fun q => q.1 / 4096 == c)).length

/-- Whether the Quoin may place a new sequence of a model on a course (R19), one that reaches the model's home (R31). -/
def placeable (s : State) (m : Model) (c : Fin 4) : Bool :=
  courseRuns s c && takesWork s (fabricClk c) && sliceUsed s c.val < 4096 && reachesMask s c (homeMask m)

/-- The stop strings as the descriptor holds them, or the index of the first that fails (R233). -/
def stopStrings : Nat → Nat → List Byte → Except Nat (List (List Byte))
  | 0, _, _ => .ok []
  | n + 1, i, b =>
    let len := field b 0 1
    let t := slice b 1 len
    if b.isEmpty || len = 0 || 64 < len || t.length < len || !validUtf8 t then .error i
    else match stopStrings n (i + 1) (b.drop (1 + len)) with
      | .ok ss => .ok (t :: ss)
      | .error j => .error j

/-- The binding of an adapter at SEQ_CREATE (R148). -/
inductive Bound where
  | ok (adapter : Option (Nat × Nat)) | badAt (offset : Nat) | retiring
  deriving DecidableEq, Repr

def bindAdapter (s : State) (slot id ver : Nat) : Bound :=
  if id = 0xFFFFFFFF then .ok none
  else match pickVersion s slot id ver 72 76 with
    | .found v => .ok (some (id, v))
    | .badField o => .badAt o
    | .conflict => .retiring

/-- The sequence that SEQ_CREATE's parameter block describes. -/
def newSeq (s : State) (c : Cmd) (course : Fin 4) (reuse slot : Nat) (adapter : Option (Nat × Nat))
    (stops : List (List Byte)) : Seq :=
  let g := if c.arg 24 8 = 0 then none else some (handleSlot (c.arg 24 8))
  { reuse, session := c.sid, tenant := c.tenant, course, model := slot, adapter
    rebindOnReplace := bitOf (c.arg 17 1) 0, greedy := bitOf (c.arg 17 1) 1, vocab := c.arg 16 1, stops
    maxNew := c.arg 20 4, grammar := g
    ctx := match g with
      | some n => { state := gramStart (look s.obj.grammars n).image }
      | none => {}
    temperature := BitVec.ofNat 16 (c.arg 32 2), topP := BitVec.ofNat 16 (c.arg 34 2), topK := c.arg 36 2
    trigger := if c.arg 40 4 = 0xFFFFFFFF then none else some (c.arg 40 4)
    profile := c.arg 44 4, seed := c.arg 48 8, maskReady := g.isNone
    maskTile := if g.isSome then maskTileFor s course else 0
    enteredAt := s.now, enteredCycles := cyclesOf s (fabricClk course), enteredCourse := course }

/-- What SEQ_CREATE checks at its dispatch, in order: status, DETAIL, or none (R148, R156, R183, R198, R216, R217). -/
def createFault (s : State) (c : Cmd) : Option (Status × Nat) :=
  let bad := fun (o : Nat) => some (Status.invalidField, detailOffset s o)
  if (quotasOf s c.tenant).sequences ≤ (s.obj.seqs.filter (·.2.tenant == c.tenant)).length then
    some (.quotaExceeded, 2)
  else if 16384 ≤ s.obj.seqs.length then some (.tableFull, 0)
  else match modelOf s c.sid (c.arg 0 8) with
  | none => bad 64
  | some (slot, m) =>
    let v := look s.obj.vocabs (c.arg 16 1)
    if m.state ≠ .ready then some (.stateConflict, 3 + 256 * m.state.code)
    else match bindAdapter s slot (c.arg 8 4) (c.arg 12 4) with
    | .badAt o => bad o
    | .retiring => some (.stateConflict, 4 + 256 * 3)
    | .ok _ =>
    if v.state ≠ .ready ∨ v.refusing then some (.stateConflict, 7 + 256 * v.state.code)
    else if imgVocab m.image < vocTokens v.image then bad 80
    else match (if c.arg 24 8 = 0 then some none else (grammarOf s c.sid (c.arg 24 8)).map some) with
    | none => bad 88
    | some g =>
      if g.any (fun x => x.2.unloading) then some (.stateConflict, 8 + 256 * 2) else
      let clash := match g with
        | some (_, x) => gramFingerprint x.image != vocFingerprint v.image || gramTokens x.image != vocTokens v.image
        | none => false
      if clash then bad 88
      else if c.arg 40 4 ≠ 0xFFFFFFFF ∧ vocTokens v.image ≤ c.arg 40 4 then bad 104
      else if c.arg 40 4 ≠ 0xFFFFFFFF
          ∧ (find? (look s.tenants c.tenant).retrievalProfiles (c.arg 44 4)).isNone then bad 108
      else none

/-- The new sequence is in the table (R156 to R158). -/
def placeSeq (c : Cmd) (course : Fin 4) (slot : Nat) (m : Model) (stops : List (List Byte)) (s : State) : State :=
  let img := m.image
  if pagePool s course.val < ceilDiv (imgContext img) 16 * imgLayers img * pageBytes img then
    fail c .sequenceTooLarge 0 s
  else if pagePool s course.val < 4 * tableEntries img + (if c.arg 24 8 = 0 then 0 else 520) then fail c .homeFull 0 s
  else match bindAdapter s slot (c.arg 8 4) (c.arg 12 4) with
  | .badAt o => badField c o 0 s
  | .retiring => conflict c 4 3 s
  | .ok ad => match firstFree s.obj.seqs (course.val * 4096) 4096 with
    | none => fail c .tableFull 0 s
    | some e =>
      let reuse := (look s.obj.seqReuse e + 1) % 2 ^ 32
      let q := newSeq s c course reuse slot ad stops
      finish c { value := mkHandle e reuse }
        { s with obj := { s.obj with seqs := put s.obj.seqs e q, seqReuse := put s.obj.seqReuse e reuse } }

/-- SEQ_CREATE; `course` is the Quoin's placement among the courses it may use (R19, log 1, DESIGN CHOICE). Where those
all have full slices and only courses without arrays or tiles have free entries, it completes with RESOURCE_RETIRED
(log 172, DESIGN CHOICE). -/
def createSeq (course : Fin 4) (stops : List Byte) (c : Cmd) (s : State) : State :=
  match createFault s c with
  | some (st, d) => fail c st d s
  | none => match modelOf s c.sid (c.arg 0 8), stopStrings (c.arg 18 2) 0 stops with
    | none, _ => badField c 64 0 s
    | some _, .error i => badField c 120 i s
    | some (slot, m), .ok ss =>
      if !(List.finRange 4).any (placeable s m) then fail c .resourceRetired 0 s
      else if placeable s m course then placeSeq c course slot m ss s else s

def execSeqCreate (cmd : Nat) (course : Fin 4) (stops : Input) (s : State) : Host.Outcome State Fault Refusal :=
  .next (runCmd cmd 0x0200 (fun c => withInput c stops (fun b => createSeq course b c)) s)

/-! ## SEQ_APPEND (R158, R210, R211) -/

/-- The generation lane's step that holds a command's tokenize job. -/
def appendRow (s : State) (c : Cmd) (q : Seq) : Option Row :=
  (courseOf s q.course).generation.step.bind (fun st => st.rows.find? (fun r => r.kind == some (.append c.id)))

/-- The tokens of a token input. -/
def tokenList : List Byte → List Nat
  | a :: b :: c :: d :: rest => leNat [a, b, c, d] :: tokenList rest
  | _ => []

/-- The result of a text append. -/
def appendText (s : State) (e : Nat) (q : Seq) (text : List Byte) : Result × Nat × Nat :=
  let v := seqVocab s q
  match tokenizeOpen v (ruleOf s v) (q.carry ++ text) with
  | .reject o =>
    let inCarry := o < q.carry.length
    ({ status := .invalidField, effect := .none, value := o - q.carry.length
       detail := detailOffset s 64 + (if inCarry then 65536 else 0) }, 0, 1)
  | .ok ts carry bad =>
    if overflows s q ts then ({ status := .contextFull, effect := .none }, ts.length, bad)
    else ({ act := .append e ts carry }, ts.length, bad)

/-- The result of a token append; tokens lie below TOKENS (log 27, DEDUCED). -/
def appendTokens (s : State) (e : Nat) (q : Seq) (ts : List Nat) : Result :=
  match ts.findIdx? (fun t => vocTokens (seqVocab s q) ≤ t) with
  | some i => { status := .invalidField, effect := .none, value := i, detail := detailOffset s 64 }
  | none => if overflows s q ts then { status := .contextFull, effect := .none } else { act := .append e ts [] }

/-- The state of a sequence allows input (R158). -/
def takesInput (q : Seq) : Bool := q.state == .blockedHost || q.state == .swapped

/-- Whether a command on a sequence that needs arrays may take effect on it now (R158, R486). -/
def inputRefusal (s : State) (c : Cmd) : Refusal? :=
  match seqOf s c.sid c.handle with
  | none => some (badResult s 32 0)
  | some (_, q) =>
    if stranded s then refuseWith .resourceRetired 0
    else if !takesInput q then inState 2 q.state.code else none

/-- The tokenize job of a SEQ_APPEND in its step; or the append is refused at its dispatch. -/
def appendJob (input : Input) (c : Cmd) (s : State) : State :=
  match seqOf s c.sid c.handle with
  | none => badField c 32 0 s
  | some (e, q) =>
    match inputRefusal s c with
    | some r => finish c r s
    | none => match appendRow s c q with
    | none => s
    | some row => withThread c.id q.course .generation row (withInput c input (fun b s =>
        if c.arg 16 1 = 0 then
          let r := appendText s e q b
          setCmd c.id (fun x => { x with result := some r.1 }) (countTokens row.tile b.length r.2.1 r.2.2 0 s)
        else setCmd c.id (fun x => { x with result := some (appendTokens s e q (tokenList b)) }) s)) s

def execSeqAppend (cmd : Nat) (input : Input) (s : State) : Host.Outcome State Fault Refusal :=
  .next (runCmd cmd 0x0201 (appendJob input) s)

/-! ## SEQ_GENERATE and the carry flush (R158, R210, R548) -/

/-- The dispatch of a SEQ_GENERATE takes effect: at once, or at the restore of a sequence in flash or on its way
there (R158, R191). -/
def takeEffect (e : Nat) (s : State) : State :=
  match find? s.obj.seqs e with
  | none => s
  | some q =>
    let s := setSeq e (fun x => { x with run := x.run.map (fun r => { r with flushing := false }) }) s
    if q.state = .swapped ∨ q.swap ≠ .none then
      setSeq e (fun x => { x with runnable := true, runnableAt := s.now }) s
    else startRun e s

/-- Nothing is committed to a sequence, or pending (R158). -/
def nothingYet (q : Seq) : Bool :=
  q.state == .blockedHost && q.heldStop.isNone && q.input.isEmpty && q.tokens.isEmpty && q.carry.isEmpty

/-- SEQ_GENERATE in its sequence's state (R158). -/
def generateRefusal (s : State) (c : Cmd) : Refusal? :=
  (inputRefusal s c).orElse fun _ =>
    match seqOf s c.sid c.handle with
    | some (_, q) => if nothingYet q then inState 2 q.state.code else none
    | none => none

/-- SEQ_GENERATE at its dispatch (log 128, DEDUCED). -/
def generate (c : Cmd) (s : State) : State :=
  match seqOf s c.sid c.handle with
  | none => badField c 32 0 s
  | some (e, q) =>
    if q.run.any (fun r => r.cmd == c.id) then s
    else match generateRefusal s c with
    | some r => finish c r s
    | none =>
      let maxNew := if c.arg 4 4 = 0 then q.maxNew else c.arg 4 4
      let run : Run := { cmd := c.id, interval := c.arg 0 2, maxNew, flushing := !q.carry.isEmpty }
      let s := setSeq e (fun x => { x with run := some run, stopReason := 0 }) s
      if q.carry.isEmpty then takeEffect e s else s

def execSeqGenerate (cmd : Nat) (s : State) : Host.Outcome State Fault Refusal :=
  .next (runCmd cmd 0x0202 generate s)

/-- A token append that waits for a flush (R210). -/
def flushWaits (s : State) (e : Nat) : Bool :=
  s.cmds.any (fun c => c.op == 0x0201 && c.phase == .running && c.arg 16 1 == 1 && c.result.isNone && !c.cancel
    && match seqOf s c.sid c.handle with
      | some (n, q) => n == e && takesInput q
      | none => false)

/-- The token appends that waited for a flush become runnable (R166, R210). -/
def runnableNow (s : State) (e : Nat) (t : State) : State :=
  foldS (fun t c => if c.op = 0x0201 ∧ c.phase = .running ∧ (seqOf s c.sid c.handle).any (fun q => q.1 == e) then
      setCmd c.id (fun x => { x with runnableAt := s.now }) t else t) s.cmds t

/-- The carry flush ends, and the SEQ_GENERATE or token append that asked for it takes effect (R548). -/
def execCarryFlushDone (entry : Nat) (s : State) : Host.Outcome State Fault Refusal :=
  .next (match find? s.obj.seqs entry with
    | none => s
    | some q =>
      if q.carry.isEmpty then s
      else match q.run with
        | some r => if r.flushing then takeEffect entry (flush entry s) else s
        | none => if flushWaits s entry then runnableNow s entry (flush entry s) else s)

/-! ## SEQ_REBIND, SEQ_SWAP_OUT, SEQ_RELEASE, SEQ_QUERY -/

/-- The version that a SEQ_REBIND names of its sequence's adapter. -/
def rebindPick (s : State) (c : Cmd) (q : Seq) : VersionPick :=
  match q.adapter with
  | none => .badField 64
  | some (id, _) => pickVersion s q.model id (c.arg 0 4) 64 64

/-- SEQ_REBIND: the sequence is not FINISHING or DONE, the version not RETIRING (R148). -/
def rebindRefusal (s : State) (c : Cmd) : Refusal? :=
  match seqOf s c.sid c.handle with
  | none => some (badResult s 32 0)
  | some (_, q) =>
    if q.state = .finishing ∨ q.state = .done then inState 2 q.state.code else (rebindPick s c q).refusal s

/-- SEQ_REBIND (R148, R149); allowed until the sequence is FINISHING (log 28, DEDUCED). -/
def rebind (c : Cmd) (s : State) : State :=
  match seqOf s c.sid c.handle with
  | none => badField c 32 0 s
  | some (e, q) => match rebindRefusal s c, rebindPick s c q with
    | some r, _ => finish c r s
    | none, .found v => finish c {} (setSeq e (fun x => { x with rebind := some v, replaced := false }) s)
    | none, _ => s

def execSeqRebind (cmd : Nat) (s : State) : Host.Outcome State Fault Refusal :=
  .next (runCmd cmd 0x0203 rebind s)

def relocates (q : Seq) : Bool :=
  match q.swap with
  | .relocating _ => true
  | _ => false

/-- SEQ_SWAP_OUT: the sequence is BLOCKED_HOST (R182). -/
def swapOutRefusal (s : State) (c : Cmd) : Refusal? :=
  match seqOf s c.sid c.handle with
  | none => some (badResult s 32 0)
  | some (_, q) => if q.state ≠ .blockedHost then inState 2 q.state.code else none

/-- SEQ_SWAP_OUT (R182): it completes when the move commits. An eviction that already runs is the command's move; a
relocation ends first (log 171, DESIGN CHOICE). -/
def swapOut (c : Cmd) (s : State) : State :=
  match seqOf s c.sid c.handle with
  | none => badField c 32 0 s
  | some (e, q) =>
    if c.begun then s
    else match swapOutRefusal s c with
    | some r => finish c r s
    | none => match moveOf s (.seq e) with
    | some (k, _) => if relocates q then s
      else setCmd c.id (fun x => { x with begun := true }) (setMove k (fun m => { m with cmd := some c.id }) s)
    | none =>
      if flashReadOnly s then fail c .flashReadOnly 0 s
      else if swapFits s q then setCmd c.id (fun x => { x with begun := true }) (evict e (some c.id) s)
      else fail c .swapNoSpace 0 s

def execSeqSwapOut (cmd : Nat) (s : State) : Host.Outcome State Fault Refusal :=
  .next (runCmd cmd 0x0204 swapOut s)

/-- The entry of a sequence is FREE, its bindings ended (R156, R158). -/
def freeSeq (e : Nat) (s : State) : State :=
  reapVocabs (reapAdapters (dropMask e (dropMoves (movesOfSeq e) { s with obj := { s.obj with seqs := del s.obj.seqs e } })))

/-- SEQ_RELEASE; a sequence that no course can run is released in any state without a run (R486, log 29, DEDUCED). -/
def releaseRefusal (s : State) (c : Cmd) : Refusal? :=
  match seqOf s c.sid c.handle with
  | none => some (badResult s 32 0)
  | some (_, q) =>
    if q.state = .blockedHost ∨ q.state = .swapped ∨ q.state = .done ∨ (stranded s ∧ q.run.isNone) then none
    else inState 2 q.state.code

def release? (c : Cmd) (s : State) : State :=
  orRefuse c (releaseRefusal s c) (fun s => finish c {} (freeSeq (handleSlot c.handle) s)) s

def execSeqRelease (cmd : Nat) (s : State) : Host.Outcome State Fault Refusal :=
  .next (runCmd cmd 0x0205 release? s)

/-- The sequence record of R155. -/
def seqRecord (s : State) (e : Nat) (q : Seq) : List Byte :=
  let m := look s.obj.models q.model
  leBytes 8 (seqHandle e q) ++ leBytes 1 q.state.code ++ leBytes 1 q.course.val ++ leBytes 2 q.tenant
    ++ leBytes 4 q.tokens.length ++ leBytes 4 q.generated ++ leBytes 4 q.input.length
    ++ leBytes 4 ((q.adapter.map (·.1)).getD 0xFFFFFFFF) ++ leBytes 4 ((q.adapter.map (·.2)).getD 0)
    ++ leBytes 8 (mkHandle q.model m.reuse) ++ leBytes 4 (q.spans * imgLayers m.image) ++ leBytes 1 q.stopReason
    ++ leBytes 1 (b2n q.runnable + 2 * b2n q.heldStop.isSome + 4 * b2n q.inFlash) ++ leBytes 2 (min q.maskDeferrals 65535)
    ++ leBytes 8 q.enteredCycles ++ leBytes 2 (fabricClk q.enteredCourse).toNat ++ leBytes 1 (min q.retrievals 255)
    ++ leBytes 1 (min q.retrievalFails 255) ++ leBytes 4 0

/-- What a SEQ_QUERY finds. -/
def seqAnswer (c : Cmd) (s : State) : Result :=
  match seqOf s c.sid c.handle with
  | none => badResult s 32 0
  | some (e, q) => recordResult s c (seqRecord s e q) { value := q.state.code }

def querySeq (c : Cmd) (s : State) : State := answerWith c (seqAnswer c) s

def execSeqQuery (cmd : Nat) (s : State) : Host.Outcome State Fault Refusal :=
  .next (runCmd cmd 0x0206 querySeq s)

end Sys2Proof.Machine
end

