-- ==== Sys2Proof/Machine/Vocabularies.lean ====
section
/-! DEFINITION. Vocabulary slots and grammars (R195 to R201, R213 to R217), TOKENIZE and DETOKENIZE (R235, R236), and
how a retrieval-lane command keeps its result until its lane commits (R159, R304). -/

namespace Sys2Proof.Machine

/-! ## The vocabulary and grammar store (R201) -/

/-- Extents of 64 KiB of an image. -/
def extents (bytes : Nat) : Nat := ceilDiv bytes 65536

def partOf (l : List Nat) (q : Nat) : Nat := (l[q]?).getD 0

/-- Extents in use of a quarter's 96. -/
def extentsUsed (s : State) (q : Nat) : Nat :=
  sumBy (fun v => partOf v.2.extents q) s.obj.vocabs + sumBy (fun g => partOf g.2.extents q) s.obj.grammars

/-- Free extents of the quarters in service. -/
def extentsFree (s : State) (q : Nat) : Nat :=
  if islandUp s (storeClk (Fin.ofNat 4 q)) then 96 - extentsUsed s q else 0

/-- Extents for an image, quarter by quarter in ascending order; the spec says anywhere (log 36, DESIGN CHOICE). -/
def takeExtents (s : State) (n : Nat) : Option (List Nat) :=
  let r := (List.range 4).foldl (fun (a : List Nat × Nat) q =>
    let m := min a.2 (extentsFree s q)
    (a.1 ++ [m], a.2 - m)) ([], n)
  if r.2 = 0 then some r.1 else none

/-- An image's fault, reported as in R131: DETAIL names the descriptor, VALUE the image offset. -/
def imageFault (c : Cmd) (st : Status) (offset : Nat) (s : State) : State :=
  finish c { status := st, effect := .none, value := offset, detail := detailOffset s 64 } s

/-! ## VOCAB_LOAD and VOCAB_UNLOAD (R195 to R197, R201) -/

/-- The number of a slot among those of both classes. -/
def slotNumber (cls slot : Nat) : Nat := if cls = 0 then slot else 8 + slot

/-- Steps 1 to 5 of R201: the slot is LOADING and its image is copied (R197; log 103, DEDUCED). -/
def takeVocab (v : List Byte) (c : Cmd) (s : State) : State :=
  match vocHeaderFault v with
  | some (st, o) => imageFault c st o s
  | none =>
    let slot := c.arg 16 1
    let n := slotNumber (vocClass v) slot
    let old := look s.obj.vocabs n
    if (if vocClass v = 0 then 8 else 4) ≤ slot then badField c 80 0 s
    else if old.state ≠ .empty then conflict c 7 old.state.code s
    else match takeExtents s (extents (vocFootprint v)) with
    | none => fail c .storeFull 0 s
    | some ex => setCmd c.id (fun x => { x with holds := true }) { s with obj := { s.obj with
        vocabs := put s.obj.vocabs n { state := .loading, tenant := c.tenant, session := c.sid, image := v
                                       extents := ex, worker := some c.id } } }

/-- Steps 6 to 8 of R201: a fault frees the extents, and without one the slot is READY (R197). -/
def checkVocab (c : Cmd) (s : State) : State :=
  match s.obj.vocabs.find? (fun x => x.2.state == .loading && x.2.worker == some c.id) with
  | none => s
  | some (n, x) =>
    if !trailerOk x.image then imageFault c .checkMismatch (x.image.length - 8) (clearVocab n s)
    else match vocEntryFault x.image with
    | some o => imageFault c .invalidField o (clearVocab n s)
    | none => finish c { value := vocFootprint x.image }
        { s with obj := { s.obj with vocabs := put s.obj.vocabs n { x with state := .ready, worker := none } } }

/-- VOCAB_LOAD (R201): its first row reads the image, its second ends the load (log 182, DESIGN CHOICE). -/
def loadVocab (image : Input) (c : Cmd) (s : State) : State :=
  if c.holds then checkVocab c s else withInput c image (fun b => takeVocab b c) s

def execVocabLoad (cmd : Nat) (image : Input) (s : State) : Host.Outcome State Fault Refusal :=
  .next (runCmd cmd 0x0700 (loadVocab image) s)

/-- The slot that a VOCAB_UNLOAD names. -/
def unloadSlot (c : Cmd) : Nat := slotNumber (c.arg 0 1) (c.arg 1 1)

/-- Authority before state, then bindings (R196, R197). -/
def unloadVocabRefusal (s : State) (c : Cmd) : Refusal? :=
  let n := unloadSlot c
  let v := look s.obj.vocabs n
  if v.state = .empty then inState 7 0
  else if c.tenant ≠ v.tenant ∧ c.tenant ≠ 0 then refuseWith .notAuthorized 3
  else if v.state ≠ .ready ∨ vocabBound s n then inState 7 v.state.code else none

/-- VOCAB_UNLOAD: UNLOADING from its dispatch, EMPTY once its extents are freed. -/
def unloadVocab (c : Cmd) (s : State) : State :=
  if (look s.obj.vocabs (unloadSlot c)).worker = some c.id then finish c {} (clearVocab (unloadSlot c) s)
  else orRefuse c (unloadVocabRefusal s c) (fun s => finish c {} (clearVocab (unloadSlot c) s)) s

def execVocabUnload (cmd : Nat) (s : State) : Host.Outcome State Fault Refusal :=
  .next (runCmd cmd 0x0701 unloadVocab s)

/-! ## GRAMMAR_LOAD and GRAMMAR_UNLOAD (R215, R216) -/

def loadGrammar (g : List Byte) (c : Cmd) (s : State) : State :=
  match gramHeaderFault g with
  | some (st, o) => imageFault c st o s
  | none => match firstFree s.obj.grammars 0 256 with
    | none => fail c .grammarSlotsFull 0 s
    | some slot =>
      match takeExtents s (extents (gramFootprint g)) with
      | none => fail c .storeFull 0 s
      | some ex =>
      if !trailerOk g then imageFault c .checkMismatch (g.length - 8) s
      else match gramEntryFault g with
      | some o => imageFault c .invalidField o s
      | none =>
        let reuse := (look s.obj.grammarReuse slot + 1) % 2 ^ 32
        finish c { value := mkHandle slot reuse }
          { s with obj := { s.obj with
            grammars := put s.obj.grammars slot { reuse, session := c.sid, tenant := c.tenant, image := g, extents := ex }
            grammarReuse := put s.obj.grammarReuse slot reuse } }

def execGrammarLoad (cmd : Nat) (image : Input) (s : State) : Host.Outcome State Fault Refusal :=
  .next (runCmd cmd 0x0702 (fun c => withInput c image (fun b => loadGrammar b c)) s)

/-- GRAMMAR_UNLOAD: the grammar is READY and no sequence binds it (R216). -/
def unloadGrammarRefusal (s : State) (c : Cmd) : Refusal? :=
  match grammarOf s c.sid c.handle with
  | none => some (badResult s 32 0)
  | some (slot, g) =>
    if g.unloading then inState 8 2
    else if s.obj.seqs.any (fun q => q.2.grammar == some slot) then inState 8 1 else none

def removeGrammar (slot : Nat) (s : State) : State :=
  { s with obj := { s.obj with grammars := del s.obj.grammars slot } }

/-- GRAMMAR_UNLOAD: UNLOADING from its dispatch, gone once its extents are freed. -/
def unloadGrammar (c : Cmd) (s : State) : State :=
  orRefuse c (if c.holds then none else unloadGrammarRefusal s c)
    (fun s => finish c {} (removeGrammar (handleSlot c.handle) s)) s

def execGrammarUnload (cmd : Nat) (s : State) : Host.Outcome State Fault Refusal :=
  .next (runCmd cmd 0x0703 unloadGrammar s)

/-! ## Results that wait for the retrieval lane's commit point -/

/-- The row of a command in the retrieval lane's step in flight. -/
def laneRow (s : State) (c : Cmd) : Option Row :=
  c.course.bind (fun k => (courseOf s k).retrieval.step.bind (fun st =>
    st.rows.find? (fun r => r.kind.isNone && r.who == c.id)))

/-- A job of the step in flight ends with its result, which the lane's commit point posts (R159, R160). -/
def hold (c : Cmd) (r : Result) (s : State) : State := setCmd c.id (fun x => { x with result := some r }) s

/-- A record for OUTPUT: nothing is written where it does not fit (R236, R286). -/
def outResult (s : State) (c : Cmd) (bytes : List Byte) (r : Result) : Result :=
  if c.outLen < bytes.length then { r with status := .partialDone, effect := .none, count := bytes.length }
  else { r with count := bytes.length, writes := (outputOffset s, bytes) :: r.writes }

/-- A vocabulary slot in use: READY and readable, and not kept by R488 for the bindings it has (R198, R461). -/
def vocabRefusal (v : Vocab) : Refusal? :=
  if v.bad then refuseWith .uncorrectable 0
  else if v.state = .ready ∧ !v.refusing then none
  else inState 7 v.state.code

/-- A retrieval-lane command: it fails at its dispatch, or its job runs in its step, on its thread. -/
def laneUse (c : Cmd) (refusal : State → Refusal?) (body : Row → State → State) (s : State) : State :=
  match laneRow s c with
  | none => match refusal s with
    | some r => finish c r s
    | none => s
  | some row => match row.fate with
    | some st => hold c { status := st, effect := .none } s
    | none => withThread c.id (c.course.getD 0) .retrieval row (body row) s

/-- What a job does with the input it reads in its step. -/
def laneInput (c : Cmd) (i : Input) (body : List Byte → State → State) (s : State) : State :=
  match i with
  | .data b => body b s
  | .lost n => hold c { status := .dataLost, effect := .none, value := n } s
  | .poisoned => hold c { status := .uncorrectable, effect := .none } s

/-- A retrieval-lane job that reads its input and has no check at its dispatch. -/
def laneJob (c : Cmd) (i : Input) (body : Row → List Byte → State → State) (s : State) : State :=
  laneUse c (fun _ => none) (fun row => laneInput c i (body row)) s

/-! ## TOKENIZE and DETOKENIZE -/

def tokenBytesOf (ts : List Nat) : List Byte := ts.flatMap (leBytes 4)

def tokenizeText (c : Cmd) (v : List Byte) (row : Row) (text : List Byte) (s : State) : State :=
  match tokenizeFinal v (ruleOf s v) text with
  | .reject o => hold c (badResult s 64 o) (countTokens row.tile text.length 0 1 0 s)
  | .ok ts _ bad => hold c (outResult s c (tokenBytesOf ts) { value := ts.length })
      (countTokens row.tile text.length ts.length bad 0 s)

/-- The slot that a TOKENIZE or DETOKENIZE names. -/
def textSlot (c : Cmd) : Nat := if c.op = 0x0704 then slotNumber (c.arg 16 1) (c.arg 17 1) else c.arg 16 1

/-- TOKENIZE and DETOKENIZE check their slot at dispatch (R198). -/
def textRefusal (s : State) (c : Cmd) : Refusal? := vocabRefusal (look s.obj.vocabs (textSlot c))

/-- The job of a TOKENIZE or DETOKENIZE. -/
def textJob (c : Cmd) (i : Input) (body : List Byte → Row → List Byte → State → State) (s : State) : State :=
  laneUse c (fun s => textRefusal s c) (fun row s =>
    laneInput c i (body (look s.obj.vocabs (textSlot c)).image row) s) s

def execTokenize (cmd : Nat) (text : Input) (s : State) : Host.Outcome State Fault Refusal :=
  .next (runCmd cmd 0x0704 (fun c => textJob c text (tokenizeText c)) s)

def detokenizeTokens (c : Cmd) (v : List Byte) (row : Row) (b : List Byte) (s : State) : State :=
  let ts := tokenList b
  match ts.findIdx? (fun t => vocTokens v ≤ t) with
  | some i => hold c (badResult s 64 i) s
  | none =>
    let text := detokenize v none ts
    hold c (outResult s c text { value := ts.length }) (bump (tileClk row.tile) 0x0704 text.length s)

def execDetokenize (cmd : Nat) (tokens : Input) (s : State) : Host.Outcome State Fault Refusal :=
  .next (runCmd cmd 0x0705 (fun c => textJob c tokens (detokenizeTokens c)) s)

end Sys2Proof.Machine
end

