-- ==== Sys2Proof/Machine/Hop.lean ====
section
/-! DEFINITION. Walks and the hop protocol (R264 to R269, R273 to R280, R294 to R296): walkers on tiles, hop engines
beside the channels and the store quarters, and the messages between them. -/

namespace Sys2Proof.Machine

/-! ## Nodes, regions, endpoints (R263, R264, R279) -/

/-- The Hamming distance of two codes (R263). -/
def hamming (a b : Code) : Nat := ((List.range 256).filter (fun i => (a ^^^ b).getLsbD i)).length

def nodeShard (n : Nat) : Nat := n / 2 ^ 33
def nodeLocal (n : Nat) : Nat := n % 2 ^ 33

/-- Region number of a node: shard × 65,536 + region within the shard (R294). -/
def nodeRegion (n : Nat) : Nat := nodeShard n * 65536 + nodeLocal n / 65536

/-- A node of a cold region (R294). -/
def coldNode (x : Index) (n : Nat) : Bool := x.extended && !(regionAt x (nodeRegion n)).hot

/-- The 16 KiB page of 128 adjacency slots that holds a node's slot (R295). -/
def coldPage (n : Nat) : Nat := nodeShard n * 2 ^ 26 + nodeLocal n / 128

def nodeOf (x : Index) (n : Nat) : Node := look x.nodes n

def indexAt (s : State) (slot : Nat) : Index := look s.obj.indices slot

def setIndex (slot : Nat) (f : Index → Index) (s : State) : State :=
  { s with obj := { s.obj with indices := adj s.obj.indices slot f } }

/-- The channel that serves a position. -/
def channelAt (s : State) (p : Nat) : Option Nat :=
  (s.eng.channels.find? (fun c => c.2.position == some p)).map (·.1.val)

/-- The channel of a shard of an index. -/
def shardChannel (s : State) (x : Index) (sh : Nat) : Nat :=
  (((shards s (idxCourses x))[sh]?).bind (channelAt s)).getD 0

/-- The home engine of a node on the base layer, and the store hop engine of an index. -/
def homeEngine (s : State) (x : Index) (n : Nat) : Nat := 64 + shardChannel s x (nodeShard n)
def storeEngine (x : Index) : Nat := 160 + x.quarter.val

/-- The island of an endpoint. -/
def endpointClk (e : Nat) : ClockId :=
  if e < 64 then tileClk (Fin.ofNat 64 e) else if e < 160 then channelClk (Fin.ofNat 96 (e - 64))
  else storeClk (Fin.ofNat 4 (e - 160))

/-- Whether two hop engines stand in one package (R280). -/
def samePackage (a b : Nat) : Bool := (a - 64) / 4 == (b - 64) / 4

/-- The engines that a query of an index loads: those of its shards, and its store engine (R278). -/
def enginesOf (s : State) (x : Index) : List Nat :=
  (List.range (shards s (idxCourses x)).length).map (fun i => 64 + shardChannel s x i) ++ [storeEngine x]

/-! ## Messages (R34, R279) -/

/-- The query slot of an engine that a walk's query holds. -/
def slotOf (s : State) (engine walk : Nat) : Nat :=
  let query := ((s.eng.walks.find? (·.id == walk)).map (·.query)).getD walk
  ((s.eng.slots.find? (fun q => q.1.1 == engine && q.2.walk == query && !q.2.released)).map (·.1.2)).getD 0

def send (walk src dst : Nat) (kind : HopKind) (node tag : Nat) (s : State) : State :=
  { s with eng := { s.eng with
    net := s.eng.net ++ [{ id := s.eng.nextMsg, walk, src, dst, kind, node, tag, slot := slotOf s dst walk }]
    nextMsg := s.eng.nextMsg + 1 } }

/-- The hop tag of a walker's hop: its thread as tile × 256 + core × 4 + thread, and its hop count (R279). -/
def hopTag (s : State) (w : Walk) (hop : Nat) : Nat :=
  let thread := ((s.eng.jobs.find? (fun j => j.owner == .walker w.id)).bind (·.thread)).getD 0
  w.core * 4 + thread.val + hop % 65536 * 65536

/-- A message that may arrive now: none sent before it from its source to its destination is still under way (R34),
and the island it reaches is in service (log 142, DEDUCED) and does not
pause (R300, R507). The path of a message is not kept (log 9, DESIGN CHOICE). -/
def arrives (s : State) (m : HopMsg) : Bool :=
  !s.eng.net.any (fun x => x.src == m.src && x.dst == m.dst && x.id < m.id) && islandRuns s (endpointClk m.dst)

def walkOf (s : State) (id : Nat) : Option Walk := s.eng.walks.find? (·.id == id)

def setWalk (id : Nat) (f : Walk → Walk) (s : State) : State :=
  { s with eng := { s.eng with walks := s.eng.walks.map (fun w => if w.id == id then f w else w) } }

/-- Flits of 64 bytes of a message (R30, R279). -/
def HopKind.flits : HopKind → Nat
  | .fwd ns | .resolve ns => ceilDiv (8 + 5 * ns.length) 64
  | _ => 1

/-- What a poisoned message says: nothing that it carried is used, as though its line were unreadable (R38, R460; log 186,
DESIGN CHOICE). -/
def HopMsg.safe (m : HopMsg) : HopMsg :=
  if !m.poisoned then m
  else match m.kind with
    | .ack _ _ => { m with kind := .ack 0 true }
    | .pair n _ cold _ => { m with kind := .pair n 0xFFFF cold true }
    | .entry _ d cold => { m with kind := .entry nullIdent d cold }
    | _ => m

/-- A delivered packet that is poisoned is counted at the endpoint that receives it (R38, R493). -/
def countPoison (m : HopMsg) (s : State) : State :=
  if m.poisoned then bump (endpointClk m.dst) 0x0A42 m.kind.flits s else s

/-- The course of an endpoint. -/
def endpointCourse (e : Nat) : Fin 4 := Fin.ofNat 4 ((endpointClk e).toNat / 256 % 16)

/-- A query that can walk no further: its request ends with a status at its lane's commit point. -/
def stopQuery (st : Status) (w : Walk) (s : State) : State :=
  let mine := fun (r : Row) => r.who == w.who && r.kind == (if w.inLoop then some .inLoop else none)
  setCourse w.course (fun k => { k with retrieval := { k.retrieval with step := k.retrieval.step.map (fun t =>
      { t with rows := t.rows.map (fun r => if mine r then { r with fate := some st } else r) }) } })
    { s with eng := { s.eng with walks := s.eng.walks.map (fun x =>
        if x.query == w.query then { x with started := true, waits := false, done := true, result := [] } else x) } }

/-- One message of a kind arrives: it leaves the network and acts on its walk; a message whose walk is gone is
dropped, and a request whose message finds no path between diagonal courses completes with RESOURCE_RETIRED (R31). -/
def receive (id : Nat) (isKind : HopKind → Bool) (act : HopMsg → Walk → State → State) (s : State) : State :=
  match s.eng.net.find? (fun m => m.id == id && isKind m.kind) with
  | none => s
  | some m =>
    if !arrives s m then s
    else
      let s := countPoison m { s with eng := { s.eng with net := s.eng.net.filter (·.id != id) } }
      match walkOf s m.walk with
      | none => s
      | some w =>
        if pathUp s (endpointCourse m.src) (endpointCourse m.dst) then runJobs (act m.safe w s)
        else runJobs (stopQuery .resourceRetired w s)

/-! ## The walker (R273, R274, R296) -/

/-- Order of (distance, node): equal distances by ascending node number (R273). -/
def nearer (a b : Nat × Nat) : Bool := a.1 < b.1 || (a.1 == b.1 && a.2 < b.2)

/-- A pair into a list that is in order. -/
def place (p : Nat × Nat) (l : List (Nat × Nat)) : List (Nat × Nat) := ins (fun a b => !nearer b a) p l

def filterBitsOf (n : Nat) : List Nat :=
  let b := Config.filterBits (BitVec.ofNat 64 (crc64 (leBytes 5 n)))
  [b.1 % 524288, b.2 % 524288]

/-- Whether the filter reports a node as seen; and the filter with the node set (R274). -/
def seenNode (seen : List Nat) (n : Nat) : Bool := (filterBitsOf n).all (seen.contains ·)
def markNode (seen : List Nat) (n : Nat) : List Nat := seen ++ (filterBitsOf n).filter (fun b => !seen.contains b)

/-- The candidate queue of the present layer: ef on the base layer, 4 × WALKERS in layer 1. -/
def queueSize (x : Index) (w : Walk) : Nat := if w.layer = 0 then w.ef else 4 * idxWalkers x

/-- Whether a pair lies beyond every entry of a full best list. -/
def beyond (ef : Nat) (best : List (Nat × Nat)) (p : Nat × Nat) : Bool :=
  ef ≤ best.length && match best.getLast? with
    | some f => nearer f p
    | none => false

/-- A returned pair enters the lists of a search, unless it was seen or is too far. -/
def takePair (ef : Nat) (p : Nat × Nat) (w : Walk) : Walk :=
  if seenNode w.seen p.2 then w
  else
    let w := { w with seen := markNode w.seen p.2 }
    let near := w.best.length < ef || match w.best.getLast? with
      | some f => nearer p f
      | none => true
    if near then { w with cand := place p w.cand, best := (place p w.best).take ef } else w

/-- The engine that a hop of the walk's layer goes to. -/
def hopEngine (s : State) (x : Index) (w : Walk) (n : Nat) : Nat :=
  if w.layer = 0 then homeEngine s x n else storeEngine x

/-- The walk sends the hop of a candidate. -/
def sendHop (x : Index) (w : Walk) (n : Nat) (s : State) : State :=
  let cold := w.layer == 0 && coldNode x n
  setWalk w.id (fun w => { w with
      hops := w.hops + 1, coldHops := w.coldHops + b2n cold, out := w.out ++ [{ tag := hopTag s w (w.hops + 1) }]
      cand := w.cand.filter (·.2 != n) })
    (send w.id w.tile (hopEngine s x w n) .req n (hopTag s w (w.hops + 1)) s)

/-- A walker keeps up to 4 hops outstanding, each on its nearest candidate not yet sent (R273); a cold candidate past
the limit is not expanded (R296). -/
def sendHops : Nat → Nat → State → State
  | 0, _, s => s
  | n + 1, id, s => match walkOf s id with
    | none => s
    | some w =>
      let x := indexAt s w.index
      match w.cand.head? with
      | none => s
      | some c =>
        if 4 ≤ w.out.length ∨ beyond (queueSize x w) w.best c then s
        else if w.layer = 0 ∧ coldNode x c.2 ∧ idxColdHopLimit x ≤ w.coldHops then
          sendHops n id (setWalk id (fun w => { w with cand := w.cand.drop 1 }) s)
        else sendHops n id (sendHop x w c.2 s)

/-- A search of the present layer begins at a node. -/
def startSearch (id n : Nat) (s : State) : State :=
  match walkOf s id with
  | none => s
  | some w =>
    let p := (hamming w.code (nodeOf (indexAt s w.index) n).code, n)
    sendHops 5 id (setWalk id (fun w => { w with
      cand := [p], best := [p], seen := markNode [] n, out := [] }) s)

/-- Engines in first-met order. -/
def firstMet (l : List Nat) : List Nat := l.foldl (fun acc e => if acc.contains e then acc else acc ++ [e]) []

/-- Resolve: the nodes of best go to their home engines, one message to each (R276, R279). -/
def startResolve (w : Walk) (s : State) : State :=
  let x := indexAt s w.index
  let home := fun n => homeEngine s x n
  let nodes := w.best.map (·.2)
  let s := foldS (fun s e => send w.id w.tile e (.resolve (nodes.filter (fun n => home n == e))) 0 0 s)
    (firstMet (nodes.map home)) s
  setWalk w.id (fun w => { w with owed := w.best.length, done := w.best.isEmpty, cand := [] }) s

/-- A walker begins once its job holds a thread of its core (R17, R275). -/
def beginWalk (id : Nat) (begin_ : State → State) (s : State) : State :=
  match walkOf s id with
  | none => s
  | some w =>
    let s := startJob (.walker id) w.course .retrieval w.core s
    if onThread s (.walker id) then begin_ s else setWalk id (fun w => { w with waits := true }) s

/-- A new walker of a query, on one entry point of the base layer. -/
def addWalker (q : Walk) (k n : Nat) (s : State) : State :=
  let id := s.eng.nextWalk
  let core := (q.cores[k - 1]?).getD q.core
  beginWalk id (startSearch id n) { s with eng := { s.eng with
    walks := s.eng.walks ++ [{ q with
      id, walker := k, layer := 0, hops := 0, coldHops := 0, unreadable := 0, started := true, core, tile := core / 64
      point := n }]
    nextWalk := id + 1 } }

/-- The base layer: walker 0 takes the first entry point, and a walker each the others. -/
def startBase (w : Walk) (points : List Nat) (s : State) : State :=
  match points with
  | [] => startResolve { w with best := [] } (setWalk w.id (fun w => { w with layer := 0, best := [] }) s)
  | n :: rest =>
    let s := startSearch w.id n (setWalk w.id (fun w => { w with layer := 0 }) s)
    foldS (fun s p => addWalker w (p.2 + 1) p.1 s) rest.zipIdx s

/-- Walker 0 starts: at the entry point, in the top layer; without upper layers, on the base layer (log 31, DEDUCED). -/
def startWalk (id : Nat) (s : State) : State :=
  match walkOf s id with
  | none => s
  | some w =>
    let x := indexAt s w.index
    let s := setWalk id (fun w => { w with started := true, layer := x.upperLayers }) s
    match x.entry with
    | none => startBase w [] s
    | some n => if x.upperLayers = 0 then startBase w [n] s else startSearch id n s

/-- A greedy step of layers 2 and above: to the nearest neighbour while one is nearer, else down a layer. -/
def greedyStep (w : Walk) (s : State) : State :=
  match w.best.head?, w.cand.head? with
  | some b, some c =>
    if nearer c b then startSearch w.id c.2 s
    else startSearch w.id b.2 (setWalk w.id (fun w => { w with layer := w.layer - 1 }) s)
  | some b, none => startSearch w.id b.2 (setWalk w.id (fun w => { w with layer := w.layer - 1 }) s)
  | none, _ => s

/-- The outstanding hops have returned and none could be sent: the layer ends. -/
def endLayer (w : Walk) (s : State) : State :=
  if 2 ≤ w.layer then greedyStep w s
  else if w.layer = 1 then startBase w ((w.best.take (idxWalkers (indexAt s w.index))).map (·.2)) s
  else startResolve w s

/-- A hop is complete with its ACK and as many pairs as that announced (R280). -/
def hopComplete (h : HopOut) : Bool :=
  match h.expected with
  | some n => n ≤ h.got
  | none => false

/-- The walker goes on after a message: complete hops are struck off, further hops sent, and the layer ends when
nothing is outstanding. On a greedy layer nothing is sent until the one hop has returned. -/
def goOn (id : Nat) (s : State) : State :=
  let s := setWalk id (fun w => { w with out := w.out.filter (fun h => !hopComplete h) }) s
  match walkOf s id with
  | none => s
  | some w =>
    let s := if 2 ≤ w.layer then s else sendHops (w.cand.length + 4) id s
    match walkOf s id with
    | none => s
    | some w => if w.out.isEmpty && w.owed = 0 && !w.done then endLayer w s else s

def updOut (tag : Nat) (f : HopOut → HopOut) (w : Walk) : Walk :=
  { w with out := w.out.map (fun h => if h.tag == tag then f h else h) }

/-- HOP_ACK at the walker. -/
def onAck (m : HopMsg) (w : Walk) (s : State) : State :=
  match m.kind with
  | .ack n bad => goOn w.id (setWalk w.id (fun w => updOut m.tag (fun h => { h with expected := some n })
      { w with unreadable := w.unreadable + b2n bad }) s)
  | _ => s

/-- PAIR at the walker: an unreadable one is discarded and counted; on a greedy layer the pairs wait for the hop's
end. -/
def onPair (m : HopMsg) (w : Walk) (s : State) : State :=
  match m.kind with
  | .pair n d _ bad =>
    let ef := queueSize (indexAt s w.index) w
    goOn w.id (setWalk w.id (fun w =>
      let w := updOut m.tag (fun h => { h with got := h.got + 1 }) w
      if bad then { w with unreadable := w.unreadable + 1 }
      else if 2 ≤ w.layer then { w with cand := place (d, n) w.cand }
      else takePair ef (d, n) w) s)
  | _ => s

/-- ENTRY at the walker: a null entry is dropped (R276). -/
def onEntry (m : HopMsg) (w : Walk) (s : State) : State :=
  match m.kind with
  | .entry ident d cold => setWalk w.id (fun w => { w with
      owed := w.owed - 1, done := w.owed ≤ 1
      nulled := w.nulled + b2n (ident = nullIdent)
      result := if ident = nullIdent then w.result else w.result ++ [(ident, d, cold)] }) s
  | _ => s

/-! ## Hop engines (R276 to R280) -/

/-- The PAIR of a node at its code engine, or at the store engine, whose upper entries hold codes of their own (R268); a
poisoned HOP_FWD gives unreadable ones. -/
def sendPair (m : HopMsg) (w : Walk) (x : Index) (engine n : Nat) (s : State) : State :=
  let v := nodeOf x n
  let lost := if 160 ≤ engine then v.badUpper else v.badCode
  let bad := lost || m.poisoned
  let s := bump (endpointClk engine) 0x0301 1 s
  let s := if lost && engine < 160 then bump (endpointClk engine) 0x0307 1 s else s
  send w.id engine w.tile (.pair n (if bad then 0xFFFF else hamming w.code v.code) (coldNode x n) bad) n m.tag s

/-- The neighbours of a hop: those of the package at once, the others by HOP_FWD to their code engines (R280). -/
def spreadNeighbours (m : HopMsg) (w : Walk) (x : Index) (nbs : List Nat) (s : State) : State :=
  let near := nbs.filter (fun n => samePackage (homeEngine s x n) m.dst)
  let far := nbs.filter (fun n => !samePackage (homeEngine s x n) m.dst)
  let s := foldS (fun s n => sendPair m w x (homeEngine s x n) n s) near s
  foldS (fun s e => send w.id m.dst e (.fwd (far.filter (fun n => homeEngine s x n == e))) m.node m.tag s)
    (firstMet (far.map (homeEngine s x))) s

/-- A hop served at its home engine. -/
def serveHop (m : HopMsg) (w : Walk) (lost : Bool) (s : State) : State :=
  let x := indexAt s w.index
  let v := nodeOf x m.node
  let clk := endpointClk m.dst
  let s := bump clk 0x0300 1 s
  let bad := lost || (if 160 ≤ m.dst then v.badUpper else v.badSlot)
  let nbs := if bad then [] else if 160 ≤ m.dst then (v.upper[w.layer - 1]?).getD [] else v.neighbours
  let s := send w.id m.dst w.tile (.ack nbs.length bad) m.node m.tag s
  let s := if bad && m.dst < 160 then bump clk 0x0307 1 s else s
  if 160 ≤ m.dst then foldS (fun s n => sendPair m w x m.dst n s) nbs s else spreadNeighbours m w x nbs s

/-- A node resolved at its home engine: null unless it is LIVE and visible at the bound epoch (R276, R277, R300). -/
def serveResolve (m : HopMsg) (w : Walk) (lost : Bool) (s : State) : State :=
  let x := indexAt s w.index
  let v := nodeOf x m.node
  let clk := endpointClk m.dst
  let bad := lost || v.badIdent
  let null := bad || v.state ≠ .live || w.epoch < v.epoch
  let s := bump clk 0x0305 1 s
  let s := if null then bump clk 0x0306 1 s else s
  let s := if bad then bump clk 0x0307 1 s else s
  send w.id m.dst w.tile (.entry (if null then nullIdent else v.ident) (hamming w.code v.code) (coldNode x m.node))
    m.node 0 s

/-- Serves a hop or a resolve. -/
def serve (lost : Bool) (m : HopMsg) (w : Walk) (s : State) : State :=
  match m.kind with
  | .req => serveHop m w lost s
  | .resolve _ => serveResolve m w lost s
  | _ => s

/-- A request for a cold node joins the batch of its page (R295). -/
def joinBatch (m : HopMsg) (index : Nat) (s : State) : State :=
  let page := coldPage m.node
  if s.eng.cold.any (fun b => b.index == index && b.page == page) then
    { s with eng := { s.eng with cold := s.eng.cold.map (fun b =>
        if b.index == index && b.page == page then { b with msgs := b.msgs ++ [m] } else b) } }
  else { s with eng := { s.eng with cold := s.eng.cold ++ [{ index, page, since := s.now, msgs := [m] }] } }

/-- A hop counts toward its region (R294). -/
def countRegion (w : Walk) (n : Nat) (s : State) : State :=
  setIndex w.index (fun x => if x.extended then
    { x with regions := upd x.regions (nodeRegion n) (fun r => { r with
        hops := r.hops.filter (fun t => s.now - t < 10000000000) ++ [s.now] }) } else x) s

/-- A request for one node at its home engine. -/
def onNode (m : HopMsg) (w : Walk) (s : State) : State :=
  if m.poisoned then serve true m w s
  else if m.dst < 160 ∧ coldNode (indexAt s w.index) m.node then joinBatch m w.index s else serve false m w s

/-- HOP_REQ and RESOLVE at the home engine. -/
def onRequest (m : HopMsg) (w : Walk) (s : State) : State :=
  match m.kind with
  | .resolve ns => foldS (fun s n => onNode { m with node := n, kind := .resolve [n] } w s) ns s
  | _ => onNode m w (if m.dst < 160 then countRegion w m.node s else s)

/-- HOP_FWD at a code engine. -/
def onFwd (m : HopMsg) (w : Walk) (s : State) : State :=
  match m.kind with
  | .fwd ns => foldS (fun s n => sendPair m w (indexAt s w.index) m.dst n s) ns s
  | _ => s

/-- Whether the encoder chain of a course's retrieval step has ended, so that stage 3 may start (R304). -/
def encodersDone (s : State) (c : Fin 4) : Bool :=
  !s.eng.arrays.any (fun a => a.1.val / 4 == c.val && !a.2.retrieval.isEmpty)

/-- SLOT_LOAD at an engine; with the last of them walker 0 starts. A request whose SLOT_LOAD was poisoned ends with
UNCORRECTABLE (R460; log 186, DESIGN CHOICE). -/
def onLoad (m : HopMsg) (w : Walk) (s : State) : State :=
  let s := bump (endpointClk m.dst) 0x0302 1 s
  if m.poisoned then stopQuery .uncorrectable w s
  else if w.done then s
  else if s.eng.net.any (fun x => x.walk == w.id && x.kind == .load) then s else beginWalk w.id (startWalk w.id) s

/-- Walkers that waited and hold a thread now begin. -/
def startWaiting (s : State) : State :=
  foldS (fun s w => if w.waits ∧ onThread s (.walker w.id) then
      (if w.walker = 0 then startWalk w.id else startSearch w.id w.point)
        (setWalk w.id (fun w => { w with waits := false }) s)
    else s) s.eng.walks s

/-- A batch's wait is over, or its page is read: every request of it is served from the one page (R295). -/
def servePage (b : ColdBatch) (lost : Bool) (s : State) : State :=
  let s := { s with eng := { s.eng with cold := s.eng.cold.filter (fun x => !(x.index == b.index && x.page == b.page)) } }
  let clk := (b.msgs.head?.map (fun m => endpointClk m.dst)).getD 0
  let s := bump clk 0x0304 1 (bump clk 0x0303 b.msgs.length s)
  foldS (fun s m => match walkOf s m.walk with
    | none => s
    | some w => serve lost m w s) b.msgs s

/-! ## Queries of a step (R278, R284) -/

/-- Query slots of an engine: 64, or 256 of a store engine (R15, R278). -/
def slotTotal (engine : Nat) : Nat := if 160 ≤ engine then 256 else 64

/-- Those kept for index maintenance: 8, or 32. -/
def maintenanceSlots (engine : Nat) : Nat := if 160 ≤ engine then 32 else 8

/-- Query slots of an engine for retrieval, the lowest-numbered. -/
def slotLimit (engine : Nat) : Nat := slotTotal engine - maintenanceSlots engine

def slotsUsed (s : State) (engine : Nat) : Nat :=
  (s.eng.slots.filter (fun q => q.1.1 == engine && !q.2.released)).length

/-- Whether every engine of an index has a free slot. -/
def slotsFree (s : State) (x : Index) : Bool := (enginesOf s x).all (fun e => slotsUsed s e < slotLimit e)

/-- The free slot of an engine with the lowest number. -/
def freeSlot (s : State) (engine : Nat) : Nat :=
  ((List.range (slotLimit engine)).find? (fun n => (find? s.eng.slots (engine, n)).all (·.released))).getD 0

/-- A query takes its slots, binds the current epoch, and walker 0 sends SLOT_LOAD to each engine (R278, R284). -/
def startQuery (w : Walk) (s : State) : State :=
  let x := indexAt s w.index
  let id := s.eng.nextWalk
  let s := { s with eng := { s.eng with
    walks := s.eng.walks ++ [{ w with id, query := id, epoch := x.epoch }], nextWalk := id + 1 } }
  foldS (fun s e => send id w.tile e .load 0 0
    { s with eng := { s.eng with slots := put s.eng.slots (e, freeSlot s e) { walk := id } } }) (enginesOf s x) s

/-- The walks of a request. -/
def walksOf (s : State) (inLoop : Bool) (who : Nat) : List Walk :=
  s.eng.walks.filter (fun w => w.who == who && w.inLoop == inLoop)

/-- A request's walk stage has ended. -/
def walked (s : State) (inLoop : Bool) (who : Nat) : Bool := (walksOf s inLoop who).all (fun w => w.done)

/-- The endpoint number of a course's supervisor, which sends SLOT_FREE. -/
def supervisorEnd (c : Fin 4) : Nat := 164 + c.val

/-- The walks of a course end with its step: their messages and batches go, their slots are released (R36, R278), and
SLOT_FREE goes to each engine that holds one of them (R279). -/
def endWalks (c : Fin 4) (s : State) : State :=
  let gone := (s.eng.walks.filter (fun w => w.course == c)).map (·.id)
  let held := s.eng.slots.filter (fun q => gone.contains q.2.walk)
  let s := { s with eng := { s.eng with
    walks := s.eng.walks.filter (fun w => w.course != c)
    slots := mapTbl s.eng.slots (fun _ q => if gone.contains q.walk then { q with released := true } else q)
    net := s.eng.net.filter (fun m => !gone.contains m.walk)
    cold := (s.eng.cold.map (fun b => { b with msgs := b.msgs.filter (fun m => !gone.contains m.walk) })).filter
      (fun b => !b.msgs.isEmpty) } }
  foldS (fun s q => send q.2.walk (supervisorEnd c) q.1.1 .free 0 0 s) held s

/-- SLOT_FREE at an engine: it empties the slot, unless another query has been loaded into it. -/
def freeSlots (id : Nat) (s : State) : State :=
  match s.eng.net.find? (fun m => m.id == id && m.kind == .free) with
  | none => s
  | some m =>
    if !arrives s m then s
    else countPoison m { s with eng := { s.eng with
      net := s.eng.net.filter (·.id != id)
      slots := s.eng.slots.filter (fun q => !(q.1.1 == m.dst && q.2.walk == m.walk)) } }

/-! ## Meanings -/

def isLoad (k : HopKind) : Bool := k == .load
def isReq (k : HopKind) : Bool := k == .req
def isResolve : HopKind → Bool | .resolve _ => true | _ => false
def isAck : HopKind → Bool | .ack _ _ => true | _ => false
def isFwd : HopKind → Bool | .fwd _ => true | _ => false
def isPair : HopKind → Bool | .pair _ _ _ _ => true | _ => false
def isEntry : HopKind → Bool | .entry _ _ _ => true | _ => false

/-- SLOT_FREE (R278, R279). -/
def execSlotFree (msg : Nat) (s : State) : Host.Outcome State Fault Refusal := .next (freeSlots msg s)

/-- COLD_BATCH_EXPIRY (R295): BATCH_US have passed since the batch's first request, and its page is read, from a die that is
idle or suspends what it does for it (R408). -/
def execColdBatchExpiry (slot page : Nat) (lost : Bool) (s : State) : Host.Outcome State Fault Refusal :=
  .next (match s.eng.cold.find? (fun b => b.index == slot && b.page == page) with
    | none => s
    | some b => if b.since + idxBatchUs (indexAt s slot) * 1000 ≤ s.now ∧ !dieHeld s (Config.pageDie slot page)
          ∧ b.msgs.all (fun m => islandRuns s (endpointClk m.dst)) then servePage b lost s else s)

end Sys2Proof.Machine
end

