-- ==== Sys2Proof/Machine/Index.lean ====
section
/-! DEFINITION. Indices and their maintenance (R264 to R272, R288 to R294, R297): creation, inserts, epochs, deletes,
repair, query and drop; the placement of regions. -/

namespace Sys2Proof.Machine

/-! ## INDEX_CREATE (R270, R271) -/

/-- The configuration record's fields, by offset (R270). -/
def configFault (mode : Nat) (b : List Byte) : Option Nat :=
  let x : Index := { reuse := 0, session := 0, tenant := 0, config := b, extended := mode == 1 }
  let ext := mode == 1
  (([(0, decide (1 ≤ idxMaxNodes x)), (8, decide (between 1 (field b 8 1) 15)), (9, between 8 (idxDegree x) 32),
     (10, between 1 (idxWalkers x) 16), (11, decide (idxRepairAuto x ≤ 50)), (12, between 32 (idxEfBuild x) 4096),
     (14, between 1 (idxHotQuota x) 192),
     (16, between 64 (idxUpperRatio x) 65536 && decide (2 ^ Nat.log2 (idxUpperRatio x) = idxUpperRatio x)),
     (20, if ext then between 1 (idxColdHopLimit x) 4096 else idxColdHopLimit x == 0),
     (22, if ext then between 20 (idxBatchUs x) 2000 else idxBatchUs x == 0),
     (28, between 1 (idxRepairPct x) 25), (29, zeroAt b 29 35)] : List (Nat × Bool)).find? (fun c => !c.2)).map (·.1)

/-- HOT_REGIONS lies within the index's region count, which depends on the shards. -/
def hotRegionsOk (s : State) (x : Index) : Bool :=
  if x.extended then idxHotRegions x ≤ regionCount s x else idxHotRegions x == 0

/-- Nodes that indices of a mode, or of both, are sized for. -/
def nodesReserved (s : State) (residentOnly : Bool) : Nat :=
  sumBy (fun x => if residentOnly && x.2.extended then 0 else idxMaxNodes x.2) s.obj.indices

/-- The upper quarter of a new index: among its courses, the one with the most free space, the lowest of equals
(R268; log 20, DESIGN CHOICE). -/
def upperQuarter (s : State) (mask : Nat) : Fin 4 :=
  let cs := (List.finRange 4).filter (fun c => bitOf mask c.val)
  match cs with
  | [] => 0
  | c :: cs => cs.foldl (fun b x => if storeFree s b < storeFree s x then x else b) c

/-- The first limit of R271 that a new index exceeds. -/
def createLimit (s : State) (c : Cmd) (x : Index) : Option (Status × Nat) :=
  let q := quotasOf s c.tenant
  if 64 ≤ s.obj.indices.length then some (.indexSlotsFull, 0)
  else if !x.extended ∧ 4500000000 < nodesReserved s true + idxMaxNodes x then some (.indexFull, 0)
  else if 16000000000 < nodesReserved s false + idxMaxNodes x then some (.indexFull, 0)
  else if q.lpddr6 < tenantLpddr6 s c.tenant + indexHomed x then some (.quotaExceeded, 4)
  else if q.flash < tenantFlash s c.tenant + coldBytes s x then some (.quotaExceeded, 5)
  else if (shards s (idxCourses x)).isEmpty ∨ !spreadFits s (idxCourses x) (indexBytes x) then some (.homeFull, 0)
  else if x.extended ∧ !flashFits s (coldBytes s x) then some (.homeFull, 0)
  else if storeFree s x.quarter < idxHotQuota x * 65536 then some (.hotStoreFull, 0)
  else none

/-- See log 86, DEDUCED. -/
def createIndex (b : List Byte) (c : Cmd) (s : State) : State :=
  let bad := fun (o : Nat) => finish c { status := .invalidField, effect := .none, value := o, detail := 64 } s
  match configFault (c.arg 16 1) b with
  | some o => bad o
  | none => match firstFree s.obj.indices 0 64 with
    | none => fail c .indexSlotsFull 0 s
    | some slot =>
      let reuse := (look s.obj.indexReuse slot + 1) % 2 ^ 32
      let x : Index := { reuse, session := c.sid, tenant := c.tenant, extended := c.arg 16 1 == 1, config := b
                         quarter := upperQuarter s (field b 8 1), epoch := 1 }
      if !hotRegionsOk s x then bad 24
      else match createLimit s c x with
      | some (st, d) => fail c st d s
      | none => finish c { value := mkHandle slot reuse }
          { s with obj := { s.obj with
            indices := put s.obj.indices slot x, indexReuse := put s.obj.indexReuse slot reuse } }

/-- INDEX_CREATE (R270, R271). -/
def execIndexCreate (cmd : Nat) (config : Input) (s : State) : Host.Outcome State Fault Refusal :=
  .next (runCmd cmd 0x0400 (fun c => withInput c config (fun b => createIndex b c)) s)

/-! ## A search by the device itself (R273, R290) -/

/-- A search in progress. -/
structure Search where
  best : List (Nat × Nat)
  cand : List (Nat × Nat)
  seen : List Nat
  out : List Nat := []
  expanded : List Nat := []

/-- Candidates are sent while fewer than 4 hops are outstanding. -/
def fillOut (ef : Nat) : Nat → Search → Search
  | 0, v => v
  | n + 1, v => match v.cand with
    | [] => v
    | c :: cs => if 4 ≤ v.out.length || beyond ef v.best c then v
      else fillOut ef n { v with cand := cs, out := v.out ++ [c.2] }

/-- A returned pair. -/
def searchPair (ef : Nat) (v : Search) (p : Nat × Nat) : Search :=
  let w := takePair ef p { id := 0, query := 0, who := 0, index := 0, best := v.best, cand := v.cand, seen := v.seen }
  { v with best := w.best, cand := w.cand, seen := w.seen }

/-- The loop of the walk, hops taken in the order they were sent. -/
def searchLoop (x : Index) (code : Code) (nbs : Nat → List Nat) (ef : Nat) : Nat → Search → Search
  | 0, v => v
  | n + 1, v =>
    let v := fillOut ef 4 v
    match v.out with
    | [] => v
    | c :: rest =>
      let v := (nbs c).foldl (fun v m => searchPair ef v (hamming code (nodeOf x m).code, m))
        { v with out := rest, expanded := v.expanded ++ [c] }
      searchLoop x code nbs ef n v

def search (x : Index) (code : Code) (nbs : Nat → List Nat) (ef start : Nat) : Search :=
  let p := (hamming code (nodeOf x start).code, start)
  searchLoop x code nbs ef (x.nodes.length + 1) { best := [p], cand := [p], seen := markNode [] start }

/-- The neighbours in a layer whose entries can be read; none where the node's own entry cannot (R280). -/
def upperOf (x : Index) (layer n : Nat) : List Nat :=
  if (nodeOf x n).badUpper then []
  else (((nodeOf x n).upper[layer - 1]?).getD []).filter (fun m => !(nodeOf x m).badUpper)

/-- The same on the base layer. -/
def readable (x : Index) (n : Nat) : List Nat :=
  if (nodeOf x n).badSlot then [] else (nodeOf x n).neighbours.filter (fun m => !(nodeOf x m).badCode)

/-- The greedy descent through one layer: where it ends, with the hops it made after those before it. -/
def greedy (x : Index) (code : Code) (layer : Nat) : Nat → Nat × List (Nat × Nat) → Nat × List (Nat × Nat)
  | 0, e => e
  | n + 1, (e, hops) =>
    let here := (hamming code (nodeOf x e).code, e)
    let hops := hops ++ [(layer, e)]
    match isort ((upperOf x layer e).map (fun m => (hamming code (nodeOf x m).code, m))) (fun a b => !nearer b a) with
    | [] => (e, hops)
    | b :: _ => if nearer b here then greedy x code layer n (b.2, hops) else (e, hops)

/-- The descent to layer 2. -/
def descend (x : Index) (code : Code) : Nat → Nat × List (Nat × Nat) → Nat × List (Nat × Nat)
  | 0, e => e
  | l + 1, e => if l = 0 then e else descend x code l (greedy x code (l + 1) (x.nodes.length + 1) e)

/-- The entry points of the base layer, and the upper hops that led to them, by layer and node. -/
def entryPoints (x : Index) (code : Code) : List Nat × List (Nat × Nat) :=
  match x.entry with
  | none => ([], [])
  | some e =>
    if x.upperLayers = 0 then ([e], [])
    else
      let d := descend x code x.upperLayers (e, [])
      let v := search x code (upperOf x 1) (4 * idxWalkers x) d.1
      ((v.best.take (idxWalkers x)).map (·.2), d.2 ++ v.expanded.map (fun n => (1, n)))

/-! ## Adjacency (R266) -/

/-- An unsigned LEB128 number of up to five bytes. -/
def leb : Nat → Nat → List Byte
  | 0, _ => []
  | k + 1, n => if n < 128 then [BitVec.ofNat 8 n] else BitVec.ofNat 8 (128 + n % 128) :: leb k (n / 128)

/-- The members of one group: the first absolute, the others as differences. -/
def groupMembers : Nat → List Nat → List Byte
  | _, [] => []
  | prev, n :: ns => leb 5 (n - prev) ++ groupMembers n ns

/-- The groups of an adjacency slot that holds a list, by shard. -/
def slotGroups (ns : List Nat) : List (Nat × List Nat) :=
  (firstMet (ns.map nodeShard)).map (fun sh =>
    (sh, isort ((ns.filter (fun n => nodeShard n == sh)).map nodeLocal) (fun a b => a ≤ b)))

/-- The bytes of an adjacency slot up to its last group. -/
def nodeImage (ns : List Nat) : List Byte :=
  leBytes 1 ns.length ++ leBytes 1 (slotGroups ns).length
    ++ (slotGroups ns).flatMap (fun g => leBytes 1 g.1 ++ leBytes 1 g.2.length ++ groupMembers 0 g.2)

def slotBytes (ns : List Nat) : Nat := (nodeImage ns).length

/-- The nearest of a list that fit in DEGREE and 128 bytes: the farthest are dropped. -/
def trimTo (degree : Nat) : Nat → List Nat → List Nat
  | 0, ns => ns
  | f + 1, ns => if degree < ns.length ∨ 128 < slotBytes ns then trimTo degree f ns.dropLast else ns

/-- The neighbours a node keeps of a list, nearest first. -/
def trim (x : Index) (code : Code) (ns : List Nat) : List Nat :=
  let ranked := (isort ((firstMet ns).map (fun m => (hamming code (nodeOf x m).code, m)))
    (fun a b => !nearer b a)).map (·.2)
  trimTo (idxDegree x) ranked.length ranked

def setNode (n : Nat) (f : Node → Node) (x : Index) : Index := { x with nodes := upd x.nodes n f }

/-! ## Upper entries (R268, R269; log 31, DEDUCED) -/

def upperCount (x : Index) : Nat := sumBy (fun n => n.2.upper.length) x.nodes

/-- The layers that an identifier enters. -/
def layersOf (x : Index) (ident : Nat) : Nat :=
  let h := crc64 (leBytes 8 ident)
  if h % idxUpperRatio x ≠ 0 then 0
  else 1 + (((List.range 7).map (fun i => bitsOf h (59 - 5 * i) 5 == 0)).takeWhile id).length

/-- The 16 nearest of a list. -/
def nearest16 (x : Index) (code : Code) (ns : List Nat) : List Nat :=
  ((isort (ns.map (fun m => (hamming code (nodeOf x m).code, m))) (fun a b => !nearer b a)).map (·.2)).take 16

/-- The nodes of a layer. -/
def inLayer (x : Index) (layer : Nat) : List Nat :=
  (x.nodes.filter (fun n => layer ≤ n.2.upper.length)).map (·.1)

/-- A node enters the next layer, unless HOT_QUOTA is full. -/
def promote (n : Nat) (x : Index) (layer : Nat) : Index :=
  if idxHotQuota x * 512 ≤ upperCount x ∨ (nodeOf x n).upper.length + 1 < layer then
    { x with unpromoted := x.unpromoted + 1 }
  else
    let nbs := nearest16 x (nodeOf x n).code (inLayer x layer)
    let x := setNode n (fun v => { v with upper := v.upper ++ [nbs] }) x
    let x := nbs.foldl (fun x m => setNode m (fun v => { v with
      upper := v.upper.set (layer - 1) (nearest16 x v.code (((v.upper[layer - 1]?).getD []) ++ [n])) }) x) x
    if x.upperLayers < layer then { x with upperLayers := layer, entry := some n } else x

/-! ## INDEX_INSERT (R289, R290) -/

def countState (x : Index) (st : NodeState) : Nat := (x.nodes.filter (fun n => n.2.state == st)).length

/-- Nodes of a shard, those not FREE. -/
def shardNodes (x : Index) (sh : Nat) : Nat := (x.nodes.filter (fun n => nodeShard n.1 == sh)).length

/-- The LIVE and PENDING nodes of an identifier. -/
def nodesOf (x : Index) (ident : Nat) : List Nat :=
  (x.nodes.filter (fun n => n.2.ident == ident && (n.2.state == .live || n.2.state == .pending))).map (·.1)

/-- The shard of a new node: of its nearest LIVE neighbour, or the one with the fewest nodes. -/
def shardFor (s : State) (x : Index) (live : List Nat) : Option Nat :=
  let cap := shardCapacity s x
  let fewest := ((List.range (shards s (idxCourses x)).length).filter (fun sh => shardNodes x sh < cap)).foldl
    (fun b sh => match b with
      | none => some sh
      | some t => if shardNodes x sh < shardNodes x t then some sh else some t) none
  match live.head? with
  | some n => if shardNodes x (nodeShard n) < cap then some (nodeShard n) else fewest
  | none => fewest

/-- The lowest FREE local number of a shard. -/
def freeNode (x : Index) (sh : Nat) : Nat :=
  ((List.range (x.nodes.length + 1)).find? (fun i => (find? x.nodes (sh * 2 ^ 33 + i)).isNone)).getD 0
    + sh * 2 ^ 33

/-- A cold request of an insert's search: a page read of its own (R298; log 87, DEDUCED). -/
def countCold (x : Index) (clk : ClockId) (n : Nat) (s : State) : State :=
  if coldNode x n then bump clk 0x0303 1 (bump clk 0x0304 1 s) else s

/-- A base-layer hop of an insert's search in the counters of the hop engines. -/
def countHop (x : Index) (s : State) (n : Nat) : State :=
  let v := nodeOf x n
  let clk := endpointClk (homeEngine s x n)
  let s := countCold x clk n (bump clk 0x0300 1 (bump clk 0x0307 (b2n v.badSlot) s))
  foldS (fun s m =>
    let c := endpointClk (homeEngine s x m)
    bump c 0x0301 1 (bump c 0x0307 (b2n (nodeOf x m).badCode) s)) (if v.badSlot then [] else v.neighbours) s

/-- A resolve of an insert's search in the counters. -/
def countResolve (x : Index) (s : State) (n : Nat) : State :=
  let v := nodeOf x n
  let clk := endpointClk (homeEngine s x n)
  countCold x clk n (bump clk 0x0305 1 (bump clk 0x0306 (b2n (v.badIdent || v.state ≠ .live))
    (bump clk 0x0307 (b2n v.badIdent) s)))

/-- Adds what the hop engines did for one insert to their counters: a slot of each is loaded, the upper hops and those of the
searches are served, the lists resolved (R288, R298). -/
def countSearches (s : State) (x : Index) (upper : List (Nat × Nat)) (vs : List Search) : State :=
  let s := foldS (fun s e => bump (endpointClk e) 0x0302 1 s) (enginesOf s x) s
  let clk := endpointClk (storeEngine x)
  let s := foldS (fun s h => bump clk 0x0300 1
    (bump clk 0x0301 (((nodeOf x h.2).upper[h.1 - 1]?).getD []).length s)) upper s
  foldS (fun s v => foldS (countResolve x) (v.best.map (·.2)) (foldS (countHop x) v.expanded s)) vs s

/-- How one record ended. -/
inductive Linked where
  | linked | rejected | full
  deriving DecidableEq, Repr

/-- Steps 2 to 7 of R290 for a record that is not rejected (log 87, DEDUCED). -/
def linkNode (s : State) (slot ident : Nat) (code : Code) (replaced : List Nat) : State × Linked :=
  let x := indexAt s slot
  let points := entryPoints x code
  let vs := points.1.map (search x code (readable x) (idxEfBuild x))
  let found := (isort (vs.flatMap (·.best)) (fun a b => !nearer b a)).map (·.2)
  let ok := found.filter (fun n => (nodeOf x n).state == .live || (nodeOf x n).state == .pending)
  let live := ok.filter (fun n => (nodeOf x n).state == .live)
  let s := countSearches s x points.2 vs
  match shardFor s x live with
  | none => (s, .full)
  | some sh =>
    let n := freeNode x sh
    let nbs := trim x code ok
    let x := { x with nodes := x.nodes ++ [(n, { code, ident, epoch := x.epoch + 1, neighbours := nbs })]
                      replaced := x.replaced ++ replaced, entry := x.entry.orElse (fun _ => some n) }
    let x := nbs.foldl (fun x m => setNode m (fun v => { v with neighbours := trim x v.code (v.neighbours ++ [n]) }) x) x
    let x := ((List.range (layersOf x ident)).map (· + 1)).foldl (promote n) x
    (setIndex slot (fun _ => x) s, .linked)

/-- One 48-byte record. -/
def insertRecord (slot : Nat) (r : List Byte) (s : State) : State × Linked :=
  let x := indexAt s slot
  let ident := field r 0 8
  let old := nodesOf x ident
  let replace := bitOf (field r 8 8) 0
  if ident = nullIdent ∨ x.badIdents.contains ident ∨ (!old.isEmpty ∧ !replace) then (s, .rejected)
  else linkNode s slot ident (BitVec.ofNat 256 (field r 16 32)) old

/-- Counts of a batch: linked, rejected, first rejected record, and whether one was rejected for capacity. -/
structure Batch where
  done : Nat := 0
  rejected : Nat := 0
  first : Option Nat := none
  full : Bool := false

def insertAll (slot : Nat) : Nat → List (List Byte) → State × Batch → State × Batch
  | _, [], a => a
  | i, r :: rs, (s, b) =>
    let p := insertRecord slot r s
    let b := match p.2 with
      | .linked => { b with done := b.done + 1 }
      | l => { b with rejected := b.rejected + 1, first := b.first.orElse (fun _ => some i), full := b.full || l == .full }
    insertAll slot (i + 1) rs (p.1, b)

/-- Records of a fixed size. -/
def chunksOf (n : Nat) (b : List Byte) : List (List Byte) :=
  (List.range (b.length / n)).map (fun i => slice b (n * i) n)

def insertNodes (b : List Byte) (c : Cmd) (s : State) : State :=
  match indexOf s c.sid c.handle with
  | none => badField c 32 0 s
  | some (slot, x) =>
    let rs := chunksOf 48 b
    if x.extended && flashReadOnly s then fail c .flashReadOnly 0 s
    else if 16777216 < countState x .pending + rs.length then fail c .pendingFull 0 s
    else
      let p := insertAll slot 0 rs (s, {})
      let s := p.1
      let r := p.2
      finish c { status := if r.rejected = 0 then .ok else if r.full then .indexFull else .partialDone
                 effect := if r.rejected = 0 then .full else if r.done = 0 then .none else .part
                 value := r.done + r.rejected * 2 ^ 32, detail := r.first.getD 0 } s

/-- INDEX_INSERT (R289, R290). -/
def execIndexInsert (cmd : Nat) (records : Input) (s : State) : Host.Outcome State Fault Refusal :=
  .next (runCmd cmd 0x0401 (fun c => withInput c records (fun b => insertNodes b c)) s)

/-! ## INDEX_COMMIT (R291) -/

/-- The epoch rises, PENDING nodes are LIVE, and the nodes they replace TOMBSTONED. -/
def nextEpoch (x : Index) : Index :=
  { x with
    epoch := x.epoch + 1, replaced := []
    nodes := mapTbl x.nodes (fun n v =>
      if x.replaced.contains n && (v.state == .live || v.state == .pending) then
        { v with state := .tombstoned, deadEpoch := some (x.epoch + 1) }
      else if v.state == .pending then { v with state := .live } else v) }

def commitIndex (c : Cmd) (s : State) : State :=
  match indexOf s c.sid c.handle with
  | none => badField c 32 0 s
  | some (slot, x) =>
    if x.epoch = 0xFFFFFFFF then fail c .epochLimit 0 s
    else finish c { value := x.epoch + 1 } (setIndex slot nextEpoch s)

/-- INDEX_COMMIT (R291). -/
def execIndexCommit (cmd : Nat) (s : State) : Host.Outcome State Fault Refusal :=
  .next (runCmd cmd 0x0402 commitIndex s)

/-! ## INDEX_DELETE (R292) -/

/-- Courses whose retrieval step in flight has walks on an index. -/
def coursesUsing (s : State) (slot : Nat) : List Nat :=
  (List.range 4).filter (fun c => s.eng.walks.any (fun w => w.index == slot && w.course.val == c))

/-- The nodes of an identifier are TOMBSTONED. -/
def tombstone (ident : Nat) (x : Index) : Index :=
  { x with nodes := mapTbl x.nodes (fun _ v =>
      if v.ident == ident && (v.state == .live || v.state == .pending) then
        { v with state := .tombstoned, deadEpoch := some x.epoch } else v) }

/-- Identifiers in order: those found, and those not (log 88, DEDUCED). -/
def deleteAll (x : Index) : List Nat → Index × Nat × Nat
  | [] => (x, 0, 0)
  | i :: is =>
    let found := !(nodesOf x i).isEmpty && !x.badIdents.contains i
    let r := deleteAll (if found then tombstone i x else x) is
    (r.1, r.2.1 + b2n found, r.2.2 + b2n (!found))

def idents (b : List Byte) : List Nat := (chunksOf 8 b).map leNat

def deleteNodes (b : List Byte) (c : Cmd) (s : State) : State :=
  match indexOf s c.sid c.handle with
  | none => badField c 32 0 s
  | some (slot, x) =>
    let (x', n, miss) := deleteAll x (idents b)
    let r : Result := { status := if miss = 0 then .ok else .partialDone
                        effect := if miss = 0 then .full else if n = 0 then .none else .part
                        value := n + miss * 2 ^ 32 }
    let wait := coursesUsing s slot
    if wait.isEmpty then finish c r (setIndex slot (fun _ => x') s)
    else setCmd c.id (fun k => { k with result := some r, begun := true })
      (setIndex slot (fun _ => { x' with deletes := put x'.deletes c.id wait }) s)

/-- INDEX_DELETE (R292). -/
def execIndexDelete (cmd : Nat) (identifiers : Input) (s : State) : Host.Outcome State Fault Refusal :=
  .next (runCmd cmd 0x0403 (fun c => withInput c identifiers (fun b => deleteNodes b c)) s)

/-- What a retrieval-lane commit of a course ends: waiting INDEX_DELETEs, and the drain of detached nodes (R292,
R293). -/
def drainIndices (c : Fin 4) (s : State) : State :=
  let drop := fun (l : List Nat) => l.filter (· != c.val)
  let s := { s with obj := { s.obj with indices := mapTbl s.obj.indices (fun _ x => { x with
    deletes := mapTbl x.deletes (fun _ l => drop l)
    nodes := mapTbl x.nodes (fun _ v => { v with draining := drop v.draining }) }) } }
  let ready := s.obj.indices.flatMap (fun x => (x.2.deletes.filter (fun d => d.2.isEmpty)).map (·.1))
  let s := { s with obj := { s.obj with indices := mapTbl s.obj.indices (fun _ x => { x with
    deletes := x.deletes.filter (fun d => !d.2.isEmpty) }) } }
  foldS (fun s id => match findCmd s id with
    | none => s
    | some k => match k.result with
      | none => s
      | some r => finish k r s) ready s

/-! ## Repair (R293) -/

/-- A pass starts over the nodes that are TOMBSTONED now. -/
def startRepair (x : Index) : Index :=
  { x with
    state := .repairing
    repair := { covered := (x.nodes.filter (fun n => n.2.state == .tombstoned)).map (·.1), running := true } }

/-- INDEX_REPAIR start: the index is READY (R272). -/
def repairRefusal (s : State) (c : Cmd) : Refusal? :=
  match indexOf s c.sid c.handle with
  | none => some (badResult s 32 0)
  | some (_, x) => if x.state ≠ .ready then inState 5 x.state.code else none

/-- Any other command of an index: it is not DROPPING (R272). -/
def droppingRefusal (s : State) (c : Cmd) : Refusal? :=
  match indexOf s c.sid c.handle with
  | none => some (badResult s 32 0)
  | some (_, x) => if x.state = .dropping then inState 5 3 else none

def repairStart (c : Cmd) (s : State) : State :=
  match indexOf s c.sid c.handle with
  | none => badField c 32 0 s
  | some (slot, x) => orRefuse c (repairRefusal s c)
      (fun s => finish c { value := countState x .tombstoned } (setIndex slot startRepair s)) s

/-- Progress in thousandths: a running pass's is unstated (log 32, DESIGN CHOICE). -/
def repairProgress (s : State) (x : Index) : Nat :=
  if x.repair.running then Config.freeNat s.fresh % 1001 else x.repair.progress

/-- What an INDEX_REPAIR with action 1 finds. -/
def repairAnswer (c : Cmd) (s : State) : Result :=
  match indexOf s c.sid c.handle with
  | none => badResult s 32 0
  | some (_, x) => { value := repairProgress s x + countState x .detached * 65536, detail := b2n x.repair.running }

def repairStatus (c : Cmd) (s : State) : State := answerWith c (fun _ => repairAnswer c s) s.draw

/-- INDEX_REPAIR with action 0 (R293). -/
def execIndexRepairStart (cmd : Nat) (s : State) : Host.Outcome State Fault Refusal :=
  .next (runCmd cmd 0x0404 (fun c s => if c.arg 0 1 = 0 then repairStart c s else s) s)

/-- INDEX_REPAIR with action 1 (R293). -/
def execIndexRepairStatus (cmd : Nat) (s : State) : Host.Outcome State Fault Refusal :=
  .next (runCmd cmd 0x0404 (fun c s => if c.arg 0 1 = 1 then repairStatus c s else s) s)

/-- The threshold of REPAIR_AUTO is reached. -/
def repairDue (x : Index) : Bool :=
  x.state == .ready && idxRepairAuto x != 0 && countState x .tombstoned != 0
    && idxRepairAuto x * countState x .live ≤ 100 * countState x .tombstoned

/-- The Quoin starts a pass by itself (R293). -/
def execRepairAutoStart (slot : Nat) (s : State) : Host.Outcome State Fault Refusal :=
  .next (match find? s.obj.indices slot with
    | none => s
    | some x => if repairDue x then setIndex slot startRepair s else s)

/-- A list of neighbours with each node of the pass replaced by that node's own LIVE neighbours, trimmed. -/
def mend (x : Index) (n : Nat) (v : Node) : List Nat :=
  let gone := x.repair.covered
  if v.neighbours.any (gone.contains ·) then
    let via := (v.neighbours.filter (gone.contains ·)).flatMap (fun t =>
      (nodeOf x t).neighbours.filter (fun m => m != n && (nodeOf x m).state == .live))
    trim x v.code (v.neighbours.filter (fun m => !gone.contains m) ++ via)
  else v.neighbours

/-- A removed entry point is replaced by the nearest remaining node of its layer, or of the next lower one. -/
def newEntry (x : Index) (code : Code) : Nat → Option Nat × Nat
  | 0 => (((isort (x.nodes.filterMap (fun n => if n.2.state == .live || n.2.state == .pending then
      some (hamming code n.2.code, n.1) else none)) (fun a b => !nearer b a)).head?).map (·.2), 0)
  | l + 1 =>
    match isort ((inLayer x (l + 1)).map (fun n => (hamming code (nodeOf x n).code, n))) (fun a b => !nearer b a) with
    | p :: _ => (some p.2, l + 1)
    | [] => newEntry x code l

/-- The end of a sweep (R293): edges replaced, upper entries removed, the pass's nodes DETACHED. -/
def sweepEnd (using_ : List Nat) (x : Index) : Index :=
  let gone := x.repair.covered
  let y := { x with nodes := mapTbl x.nodes (fun n v =>
    if gone.contains n then { v with state := .detached, draining := using_, upper := [] }
    else { v with neighbours := mend x n v, upper := v.upper.map (fun l => l.filter (fun m => !gone.contains m)) }) }
  let z := match x.entry with
    | some e => if gone.contains e then
        let r := newEntry y (nodeOf x e).code x.upperLayers
        { y with entry := r.1, upperLayers := r.2 } else y
    | none => y
  { z with state := .ready, repair := { covered := [], progress := 1000, running := false } }

/-- The hop engines have swept every adjacency slot (R293). -/
def execRepairSweepEnd (slot : Nat) (s : State) : Host.Outcome State Fault Refusal :=
  .next (match find? s.obj.indices slot with
    | none => s
    | some x =>
      if x.repair.running then
        let s := foldS (fun s n => bump (endpointClk (homeEngine s x n.1)) 0x0309 1 s) x.nodes s
        setIndex slot (sweepEnd (coursesUsing s slot)) s
      else s)

/-- DETACHED nodes that every step in flight at the sweep's end has left are FREE (R293). -/
def execNodeDrainFree (slot : Nat) (s : State) : Host.Outcome State Fault Refusal :=
  .next (setIndex slot (fun x => { x with
    nodes := x.nodes.filter (fun n => !(n.2.state == .detached && n.2.draining.isEmpty)) }) s)

/-! ## INDEX_QUERY (R297) -/

/-- Mean neighbour count in units of 1/256. -/
def meanNeighbours (x : Index) : Nat :=
  if x.nodes.isEmpty then 0 else sumBy (fun n => n.2.neighbours.length) x.nodes * 256 / x.nodes.length

def hotNow (x : Index) : Nat := (x.regions.filter (fun r => r.2.hot)).length

def indexRecord (s : State) (slot : Nat) (x : Index) : List Byte :=
  leBytes 8 (mkHandle slot x.reuse) ++ leBytes 1 x.state.code ++ leBytes 1 (b2n x.extended)
    ++ leBytes 1 (shards s (idxCourses x)).length ++ leBytes 1 x.quarter.val ++ leBytes 4 x.epoch
    ++ leBytes 8 (countState x .live) ++ leBytes 8 (countState x .pending) ++ leBytes 8 (countState x .tombstoned)
    ++ leBytes 8 (countState x .detached) ++ leBytes 4 (upperCount x) ++ leBytes 2 (meanNeighbours x)
    ++ leBytes 2 (repairProgress s x) ++ leBytes 4 (if x.extended then hotNow x else regionCount s x)
    ++ leBytes 4 (if x.extended then regionCount s x - hotNow x else 0)

/-- What an INDEX_QUERY finds. -/
def indexAnswer (c : Cmd) (s : State) : Result :=
  match indexOf s c.sid c.handle with
  | none => badResult s 32 0
  | some (slot, x) => recordResult s c (indexRecord s slot x) {}

def queryIndex (c : Cmd) (s : State) : State := answerWith c (fun _ => indexAnswer c s) s.draw

/-- INDEX_QUERY (R297). -/
def execIndexQuery (cmd : Nat) (s : State) : Host.Outcome State Fault Refusal :=
  .next (runCmd cmd 0x0405 queryIndex s)

/-! ## Placement of regions (R294) -/

/-- Hops on a region in the last 10 s. -/
def recentHops (s : State) (r : Region) : Nat := (r.hops.filter (fun t => s.now - t < 10000000000)).length

/-- Whether the Quoin keeps a region in LPDDR6: it is among the HOT_REGIONS, less those pinned there, with the most
hops; equal counts go to the lower number (log 20, DESIGN CHOICE). -/
def wantedHot (s : State) (x : Index) (r : Nat) : Bool :=
  let pinned := (x.regions.filter (fun t => t.2.pinned && t.2.hot)).length
  let mine := recentHops s (regionAt x r)
  let before := (x.regions.filter (fun t => !t.2.pinned &&
    (mine < recentHops s t.2 || (recentHops s t.2 == mine && t.1 < r)))).length
  0 < mine && pinned + before < idxHotRegions x

/-- The Quoin orders a Hod move of one region: at most 16 in a second, none pinned (R294). -/
def placeRegion (slot region : Nat) (s : State) : State :=
  match find? s.obj.indices slot with
  | none => s
  | some x =>
    let r := regionAt x region
    let recent := s.eng.regionMoves.filter (fun t => s.now - t < 1000000000)
    let hot := wantedHot s x region
    let ok := x.extended && !r.pinned && !r.moving && region / 65536 < (shards s (idxCourses x)).length
      && region % 65536 < shardRegions s x && recent.length < 16 && hot != r.hot
      && !(s.eng.moves.any (fun m => m.2.obj == .region slot && moveRuns m.2))
      && (!hot || hotCount x < idxHotRegions x)
    if ok then
      orderMove { obj := .region slot, toFlash := !hot, device := true, first := region, units := 1 }
        (setIndex slot (fun x => { x with regions := upd x.regions region (fun r => { r with moving := hot }) })
          { s with eng := { s.eng with regionMoves := recent ++ [s.now] } })
    else s

/-- REGION_PLACEMENT (R294). -/
def execRegionPlacement (slot region : Nat) (s : State) : Host.Outcome State Fault Refusal :=
  .next (placeRegion slot region s)

end Sys2Proof.Machine
end

