-- ==== Sys2Proof/Machine/Corpora.lean ====
section
/-! DEFINITION. Corpora (R301, R302): passage records written, read and deleted, and what a record holds. -/

namespace Sys2Proof.Machine

/-! ## Records -/

/-- Bytes that a record whose head is at hand takes. -/
def recordSize (head : List Byte) : Nat := 64 + align64 (field head 8 2)

/-- The records of a buffer; none when it does not hold whole records (R302). -/
def splitRecords : Nat → List Byte → Option (List (List Byte))
  | 0, b => if b.isEmpty then some [] else none
  | n + 1, b =>
    if b.isEmpty then some []
    else if b.length < 64 ∨ b.length < recordSize b then none
    else (splitRecords n (b.drop (recordSize b))).map (fun rs => b.take (recordSize b) :: rs)

def recIdent (r : List Byte) : Nat := field r 0 8
def recText (r : List Byte) : List Byte := slice r 64 (field r 8 2)

/-- A record that is not rejected (R302). -/
def recordOk (r : List Byte) : Bool :=
  recIdent r != nullIdent && between 1 (field r 8 2) 16384 && field r 24 1 ≤ 8 && zeroAt r 25 7 && validUtf8 (recText r)

def setCorpus (slot : Nat) (f : Tbl Nat Record → Tbl Nat Record) (s : State) : State :=
  { s with obj := { s.obj with corpora := upd s.obj.corpora slot f } }

/-! ## CORPUS_WRITE (R302) -/

/-- Whether a tier has room for a record: LPDDR6 of the index's courses, or the object area. -/
def recordFits (s : State) (x : Index) (flash : Bool) (bytes : Nat) : Bool :=
  if flash then flashFits s bytes else spreadFits s (idxCourses x) bytes

/-- Why the command stops before a record, if it does: MAX_NODES records, the tier's room, or a quota of its tenant. -/
def writeStop (s : State) (c : Cmd) (slot : Nat) (x : Index) (flash : Bool) (r : List Byte) : Option Status :=
  let corpus := corpusOf s slot
  let old := find? corpus (recIdent r)
  let q := quotasOf s c.tenant
  if old.isNone ∧ idxMaxNodes x ≤ corpus.length then some .corpusFull
  else if flash ∧ flashReadOnly s then some .flashReadOnly
  else if !recordFits s x flash r.length then some .corpusFull
  else if flash ∧ q.flash < tenantFlash s c.tenant + r.length then some .quotaExceeded
  else if !flash ∧ q.lpddr6 < tenantLpddr6 s c.tenant + r.length then some .quotaExceeded
  else none

/-- Records in order, until one stops the command. -/
def writeRecords (c : Cmd) (slot : Nat) (x : Index) (flash : Bool) :
    Nat → List (List Byte) → State × Batch → State × Batch × Option Status
  | _, [], (s, b) => (s, b, none)
  | i, r :: rs, (s, b) =>
    let first := b.first.orElse (fun _ => some i)
    if !recordOk r then writeRecords c slot x flash (i + 1) rs (s, { b with rejected := b.rejected + 1, first })
    else match writeStop s c slot x flash r with
      | some st => (s, { b with first }, some st)
      | none => writeRecords c slot x flash (i + 1) rs
          (setCorpus slot (fun k => put k (recIdent r) { bytes := r, check := crc64 (recText r), inFlash := flash }) s, { b with done := b.done + 1 })

/-- See log 89, DEDUCED. -/
def corpusWrite (bytes : List Byte) (c : Cmd) (s : State) : State :=
  match indexOf s c.sid c.handle with
  | none => badField c 32 0 s
  | some (slot, x) => match splitRecords (bytes.length / 64 + 1) bytes with
    | none => badField c 72 0 s
    | some rs =>
      if 1048576 < rs.length then badField c 72 0 s
      else if rs.any (fun r => unitMoving s (.corpus slot) (recIdent r)) then s
      else if c.imm = 1 ∧ s.flash.writesHeld then s
      else
        let p := writeRecords c slot x (c.imm = 1) 0 rs (s, {})
        let b := p.2.1
        let s := if c.imm = 1 then countIn (sumBy List.length ((rs.filter recordOk).take b.done)) p.1 else p.1
        let stop := p.2.2
        let quota := if c.imm = 1 then 5 else 4
        finish c { status := stop.getD (if b.rejected = 0 then .ok else .partialDone)
                   effect := if b.done = rs.length then .full else if b.done = 0 then .none else .part
                   value := b.done + b.rejected * 2 ^ 32
                   detail := if stop = some .quotaExceeded then quota else b.first.getD 0 } s

/-- CORPUS_WRITE (R302); while a record of it is being moved, its writes wait (R367), as do writes to flash
below GC_URGENT (R403). -/
def execCorpusWrite (cmd : Nat) (records : Input) (s : State) : Host.Outcome State Fault Refusal :=
  .next (runCmd cmd 0x0500 (fun c => withInput c records (fun b => corpusWrite b c)) s)

/-! ## CORPUS_READ and CORPUS_DELETE (R302) -/

/-- What CORPUS_READ writes for an identifier: the record, or a head of text length 0 where there is none or it cannot
be read. -/
def recordOut (k : Tbl Nat Record) (i : Nat) : List Byte :=
  match find? k i with
  | some r => if r.unreadable then leBytes 8 i ++ List.replicate 56 0 else r.bytes
  | none => leBytes 8 i ++ List.replicate 56 0

def unreadables (k : Tbl Nat Record) (is : List Nat) : List Record :=
  is.filterMap (fun i => (find? k i).bind (fun r => if r.unreadable then some r else none))

/-- CORPUS_READ; a record that cannot be read ends it as R305 says (log 34, DEDUCED; log 135, DEDUCED). -/
def corpusRead (bytes : List Byte) (c : Cmd) (s : State) : State :=
  match indexOf s c.sid c.handle with
  | none => badField c 32 0 s
  | some (slot, _) =>
    let k := corpusOf s slot
    let is := idents bytes
    match (unreadables k is).head? with
    | none => withRecord c (is.flatMap (recordOut k)) {} s
    | some r => withRecord c (is.flatMap (recordOut k))
        { status := if r.inFlash then .dataLost else .uncorrectable, effect := .part } s

/-- CORPUS_READ (R302). -/
def execCorpusRead (cmd : Nat) (identifiers : Input) (s : State) : Host.Outcome State Fault Refusal :=
  .next (runCmd cmd 0x0501 (fun c => withInput c identifiers (fun b => corpusRead b c)) s)

def deleteRecords : List Nat → Tbl Nat Record → Tbl Nat Record × Nat × Nat
  | [], k => (k, 0, 0)
  | i :: is, k =>
    let found := (find? k i).isSome
    let r := deleteRecords is (del k i)
    (r.1, r.2.1 + b2n found, r.2.2 + b2n (!found))

def corpusDelete (bytes : List Byte) (c : Cmd) (s : State) : State :=
  match indexOf s c.sid c.handle with
  | none => badField c 32 0 s
  | some (slot, _) =>
    if (idents bytes).any (unitMoving s (.corpus slot)) then s
    else
    let (k, n, miss) := deleteRecords (idents bytes) (corpusOf s slot)
    finish c { status := if miss = 0 then .ok else .partialDone
               effect := if miss = 0 then .full else if n = 0 then .none else .part
               value := n + miss * 2 ^ 32 } (setCorpus slot (fun _ => k) s)

/-- CORPUS_DELETE (R302). -/
def execCorpusDelete (cmd : Nat) (identifiers : Input) (s : State) : Host.Outcome State Fault Refusal :=
  .next (runCmd cmd 0x0502 (fun c => withInput c identifiers (fun b => corpusDelete b c)) s)

end Sys2Proof.Machine
end

