-- ==== Sys2Proof/Machine/Packing.lean ====
section
/-! DEFINITION. Templates and the packer (R312 to R319). -/

namespace Sys2Proof.Machine

/-! ## Template images (R312, R313) -/

def tplVocab (t : List Byte) : Nat := field t 6 1
def tplTokenOut (t : List Byte) : Bool := bitOf (field t 7 1) 0
def tplTrim (t : List Byte) : Bool := bitOf (field t 7 1) 1
def tplReport (t : List Byte) : Bool := bitOf (field t 7 1) 2
def tplPer (t : List Byte) : Nat := field t 12 2
def tplMinTrim (t : List Byte) : Nat := field t 14 2
def tplFloor (t : List Byte) : F32 := BitVec.ofNat 32 (field t 16 4)
def tplFirstCite (t : List Byte) : Nat := field t 20 2

/-- The string whose field lies at an offset of the header. -/
def tplString (t : List Byte) (o : Nat) : List Byte := slice t (64 + field t o 2) (field t (o + 2) 2)
def tplPrefix (t : List Byte) : List Byte := tplString t 24
def tplHead (t : List Byte) : List Byte := tplString t 28
def tplSeparator (t : List Byte) : List Byte := tplString t 32
def tplSuffix (t : List Byte) : List Byte := tplString t 36
def tplMark (t : List Byte) : List Byte := tplString t 40

/-- The header's checks, in the order of R201. -/
def tplHeaderFault (t : List Byte) : Option (Status × Nat) :=
  let pool := field t 8 4 - 72
  let str := fun (o : Nat) => need (field t (o + 2) 2 ≤ 1024 && field t o 2 + field t (o + 2) 2 ≤ pool) o
  firstFail [
    need (t.length ≥ 64) 8, need (field t 0 4 = 0x50545646) 0, need (field t 4 2 = 1) 4,
    (field t 56 4 = crc32c (slice t 0 56), .checkMismatch, 56),
    need (tplVocab t ≤ 7) 6, need (field t 7 1 < 8) 7,
    need (72 ≤ field t 8 4 && field t 8 4 ≤ 4168 && t.length = field t 8 4) 8,
    need (16 ≤ tplPer t && tplPer t ≤ 4096) 12, need (16 ≤ tplMinTrim t && tplMinTrim t ≤ tplPer t) 14,
    need (tplFirstCite t ≤ 9999) 20, need (zeroAt t 22 2) 22, str 24, str 28, str 32, str 36, str 40,
    need (zeroAt t 44 12) 44, need (zeroAt t 60 4) 60]

def countByte (b : Byte) (l : List Byte) : Nat := (l.filter (· == b)).length

/-- The strings' checks: UTF-8, and the two placeholders once each in HEAD alone (R313). -/
def tplStringFault (t : List Byte) : Option Nat :=
  let ok := fun (o : Nat) =>
    let s := tplString t o
    let n := if o = 28 then 1 else 0
    validUtf8 s && countByte 1 s ≤ n && countByte 2 s ≤ n
  [24, 28, 32, 36, 40].find? (fun o => !ok o)

def decimal (n : Nat) : List Byte := (Nat.toDigits 10 n).map (fun c => BitVec.ofNat 8 c.toNat)

def hexDigit (d : Nat) : Byte := BitVec.ofNat 8 (if d < 10 then 48 + d else 55 + d)

/-- An identifier as 16 upper-case hexadecimal digits. -/
def hex16 (n : Nat) : List Byte := (List.range 16).map (fun i => hexDigit (n / 16 ^ (15 - i) % 16))

/-- HEAD with its placeholders replaced (R313). -/
def headText (t : List Byte) (pos ident : Nat) : List Byte :=
  (tplHead t).flatMap (fun b => if b = 1 then decimal (tplFirstCite t + pos) else if b = 2 then hex16 ident else [b])

/-! ## Candidates (R303, R305, R309) -/

/-- A candidate at the packer: its score, its text and check value where its record could be used, the reason it was dropped before
(0 for none), and whether its record came from flash. -/
structure Cand where
  ident : Nat
  score : F32 := 0
  text : List Byte := []
  check : Nat := 0
  reason : Nat := 0
  flash : Bool := false
  deriving DecidableEq, Repr

/-- The packing vocabulary with its pre-tokenization rule. -/
structure Packer where
  template : List Byte
  vocab : List Byte
  rule : Nat
  budget : Nat
  maxPassages : Nat

def Packer.toks (p : Packer) (b : List Byte) : List Nat :=
  match tokenizeFinal p.vocab p.rule b with
  | .ok ts _ _ => ts
  | .reject _ => []

/-- Bytes of a token list. -/
def tokenText (v : List Byte) (ts : List Nat) : List Byte := ts.flatMap (tokenString v)

/-- The last token boundary at or before a limit that ends a complete character (R317). -/
def cutAt (v : List Byte) (ts : List Nat) : Nat → List Nat
  | 0 => []
  | n + 1 => if validUtf8 (tokenText v (ts.take (n + 1))) then ts.take (n + 1) else cutAt v ts n

/-- What the packer has made so far. -/
structure Packed where
  room : Nat
  tokens : List Nat := []
  text : List Byte := []
  texts : List (Nat × List Byte) := []
  /-- records of the report, in rank order: identifier, reason, from flash, cost, rank -/
  report : List (Nat × Nat × Bool × Nat × Nat) := []
  packed : Nat := 0
  dropped : Nat := 0
  cuts : Nat := 0
  duplicates : Nat := 0

def dropCand (c : Cand) (rank reason cost : Nat) (a : Packed) : Packed :=
  { a with
    report := a.report ++ [(c.ident, reason, c.flash, cost, rank)], dropped := a.dropped + 1
    duplicates := a.duplicates + b2n (reason = 5) }

/-- A passage is packed with its separator, head and mark. -/
def addPassage (p : Packer) (c : Cand) (rank cost : Nat) (lead ts : List Nat) (leadText : List Byte) (cut : Bool)
    (a : Packed) : Packed :=
  let mark := if cut then tplMark p.template else []
  { a with
    room := a.room - cost, packed := a.packed + 1, cuts := a.cuts + b2n cut, texts := a.texts ++ [(c.check, c.text)]
    tokens := a.tokens ++ lead ++ ts ++ p.toks mark
    text := a.text ++ leadText ++ (if cut then c.text.take (tokenText p.vocab ts).length else c.text) ++ mark
    report := if tplReport p.template then a.report ++ [(c.ident, 0, c.flash, cost, rank)] else a.report }

/-- Tests 5 to 8 of R316. -/
def fitPassage (p : Packer) (c : Cand) (rank : Nat) (a : Packed) : Packed :=
  let t := p.template
  let mark := (p.toks (tplMark t)).length
  let sep := if a.packed = 0 then [] else tplSeparator t
  let head := headText t a.packed c.ident
  let lead := p.toks sep ++ p.toks head
  let all := p.toks c.text
  let cut := tplPer t < all.length
  let ts := if cut then cutAt p.vocab all (tplPer t - mark) else all
  let cost := lead.length + ts.length + if cut then mark else 0
  let rest := a.room - (lead.length + mark)
  if cost ≤ a.room then addPassage p c rank cost lead ts (sep ++ head) cut a
  else if tplTrim t && lead.length + mark ≤ a.room && tplMinTrim t ≤ rest then
    let ts := cutAt p.vocab ts rest
    addPassage p c rank (lead.length + ts.length + mark) lead ts (sep ++ head) true a
  else dropCand c rank 7 cost a

/-- One candidate, the first test that applies deciding (R316). -/
def packOne (p : Packer) (a : Packed) (c : Cand) (rank : Nat) : Packed :=
  if c.reason ≠ 0 then dropCand c rank c.reason 0 a
  else if flt c.score (tplFloor p.template) then dropCand c rank 4 0 a
  else if a.texts.contains (c.check, c.text) then dropCand c rank 5 0 a
  else if p.maxPassages ≠ 0 ∧ p.maxPassages ≤ a.packed then dropCand c rank 6 0 a
  else fitPassage p c rank a

/-- The tokens reserved for PREFIX and SUFFIX. -/
def reserveOf (p : Packer) : Nat := (p.toks (tplPrefix p.template)).length + (p.toks (tplSuffix p.template)).length

/-- The packer's run over candidates in ranked order; none when the budget lies below the reserve (R315, R316). -/
def packAll (p : Packer) (cs : List Cand) : Option Packed :=
  if p.budget < reserveOf p then none
  else
    let t := p.template
    let a := (cs.zipIdx).foldl (fun a c => packOne p a c.1 (c.2 + 1))
      { room := p.budget - reserveOf p, tokens := p.toks (tplPrefix t), text := tplPrefix t }
    some { a with tokens := a.tokens ++ p.toks (tplSuffix t), text := a.text ++ tplSuffix t }

/-- The drop report (R319). -/
def reportBytes (a : Packed) : List Byte :=
  a.report.flatMap (fun r => leBytes 8 r.1 ++ leBytes 1 r.2.1 ++ leBytes 1 (b2n r.2.2.1) ++ leBytes 2 r.2.2.2.1
    ++ leBytes 4 r.2.2.2.2)

/-- VALUE of R66: packed, dropped, tokens used. -/
def packedValue (a : Packed) : Nat :=
  a.packed + a.dropped % 2 ^ 16 * 2 ^ 16 + (if a.packed = 0 then 0 else a.tokens.length) % 2 ^ 24 * 2 ^ 32

end Sys2Proof.Machine
end

