-- ==== Sys2Proof/Machine/Grid.lean ====
section
/-! DEFINITION. Beats and the grid of an array (R80 to R84, R89 to R92, R99, R103 to R105): links, registers, cells,
holding registers, drains and the staging banks, one array cycle at a time. -/

namespace Sys2Proof.Machine

/-! ## Beats (R83, R84) -/

/-- Bits of one element of an operand format in a beat (R84). -/
def elemBits (format : Nat) : Nat :=
  match format with
  | 2 | 3 => 6 | 4 => 4 | 8 | 9 => 16 | _ => 8

/-- Element codes packed little-endian, element i in bits [w i + w - 1 : w i] (R84). -/
def packCodes (w : Nat) (codes : List Nat) : Nat := codes.foldr (fun c acc => c % 2 ^ w + 2 ^ w * acc) 0

/-- `n` element codes of `w` bits from bytes (R84). -/
def unpackCodes (w n : Nat) (bytes : List Byte) : List Nat :=
  (List.range n).map (fun i => bitsOf (leNat bytes) (w * i) w)

def zeroSlice (format : Nat) : Slice := { format, codes := List.replicate 32 0 }

/-- A slice's elements as bytes. -/
def packSlice (s : Slice) : List Byte := leBytes (4 * elemBits s.format) (packCodes (elemBits s.format) s.codes)

/-- The beats of a slice: one; or for a 16-bit format two halves (R83). -/
def sliceBeats (s : Slice) : List Beat :=
  let b := packSlice s
  if pairFamily s.format = 2 then
    [{ format := s.format, first := true, elems := b.take 32, scale0 := 0 },
     { format := s.format, second := true, elems := b.drop 32, scale0 := 0 }]
  else [{ format := s.format, elems := padTo 32 b, scale0 := s.scale }]

/-- Two slices of MXFP4 in one beat, the second from byte 16 (R83, R84). -/
def pairBeats : List Slice → List Beat
  | a :: b :: rest =>
    { format := 4, two := true, elems := packSlice a ++ packSlice b, scale0 := a.scale, scale1 := b.scale }
      :: pairBeats rest
  | [a] => [{ format := 4, two := true, elems := packSlice a ++ packSlice (zeroSlice 4), scale0 := a.scale, scale1 := 0x7F }]
  | [] => []

/-- The beats of a run of slices, the other operand's format given: MXFP4 with MXFP4 goes two slices to a beat. -/
def runBeats (other : Nat) (ss : List Slice) : List Beat :=
  if ss.all (fun s => s.format == 4) && other == 4 then pairBeats ss else ss.flatMap sliceBeats

/-- The last beat of a pass is marked. -/
def markLast : List Beat → List Beat
  | [] => []
  | [b] => [{ b with last := true }]
  | b :: bs => b :: markLast bs

/-- The slices that a beat brings: one, or two. -/
def beatSlices (b : Beat) : List Slice :=
  let w := elemBits b.format
  if b.two then
    [{ format := 4, codes := unpackCodes 4 32 (b.elems.take 16), scale := b.scale0 },
     { format := 4, codes := unpackCodes 4 32 (b.elems.drop 16), scale := b.scale1 }]
  else [{ format := b.format, codes := unpackCodes w (if w = 16 then 16 else 32) b.elems, scale := b.scale0 }]

/-! ## A fire (R89 to R91) -/

/-- The slices of a fire into the accumulator; the first half of a 16-bit slice waits for the second. -/
def fireInto (c : Cell) (a b : Beat) : Cell :=
  if a.first then { c with half := some (a, b) }
  else
    let joined := fun (x : Beat) (h : Option Beat) => match h with
      | some y => { format := x.format
                    codes := (beatSlices y).flatMap (·.codes) ++ (beatSlices x).flatMap (·.codes) : Slice }
      | none => (beatSlices x).headD (zeroSlice x.format)
    let pairs := if a.second then [(joined a (c.half.map (·.1)), joined b (c.half.map (·.2)))]
      else (beatSlices a).zip (beatSlices b)
    let acc := pairs.foldl (fun acc p => accumulateSlice acc p.1 p.2) c.acc
    if a.last then { acc := 0, half := none, done := c.done ++ [acc] } else { c with acc, half := none }

/-! ## What holds a cell (R103, R104) -/

def aInput (g : Grid) (r c : Nat) : List Beat := if c = 0 then look g.aLink r else look g.aReg (r, c - 1)
def bInput (g : Grid) (r c : Nat) : List Beat := if r = 0 then look g.bLink c else look g.bReg (r - 1, c)

/-- Why a cell is frozen in a cycle, the first reason that applies (R115): an empty input, a full register, or a column
whose finished pass finds its holding registers full. -/
inductive Wait where
  | a | b | out | drain
  deriving DecidableEq, Repr

/-- See `Wait`; none when the cell fires. -/
def waits (g : Grid) (r c : Nat) : Option Wait :=
  match aInput g r c, bInput g r c with
  | [], _ => some .a
  | _, [] => some .b
  | _ :: _, _ =>
    if (c < 31 ∧ 4 ≤ (look g.aReg (r, c)).length) ∨ (r < 31 ∧ 4 ≤ (look g.bReg (r, c)).length) then some .out
    else if !(look g.cells (31, c)).done.isEmpty then some .drain
    else none

def gridCells : List (Nat × Nat) := (List.range 32).flatMap (fun r => (List.range 32).map (fun c => (r, c)))

/-- A fire: one beat from each input, forwarded to the right and down. -/
def fireCell (old g : Grid) (p : Nat × Nat) : Grid :=
  match aInput old p.1 p.2, bInput old p.1 p.2 with
  | a :: _, b :: _ =>
    let g := if p.2 = 0 then { g with aLink := upd g.aLink p.1 (·.drop 1) }
      else { g with aReg := upd g.aReg (p.1, p.2 - 1) (·.drop 1) }
    let g := if p.1 = 0 then { g with bLink := upd g.bLink p.2 (·.drop 1) }
      else { g with bReg := upd g.bReg (p.1 - 1, p.2) (·.drop 1) }
    let g := if p.2 < 31 then { g with aReg := upd g.aReg p (· ++ [a]) } else g
    let g := if p.1 < 31 then { g with bReg := upd g.bReg p (· ++ [b]) } else g
    { g with cells := upd g.cells p (fun c => fireInto c a b) }
  | _, _ => g

/-! ## Drains (R92) -/

/-- The bottom cell of a column has finished: the column's sums move into its holding registers, bottom row first. -/
def takeColumn (g : Grid) (c : Nat) : Grid :=
  let sums := (List.range 32).map (fun i => (look g.cells (31 - i, c)).done)
  if (look g.holding c).isEmpty ∧ sums.all (!·.isEmpty) then
    { g with
      holding := put g.holding c (sums.map (·.headD 0))
      cells := foldS (fun t r => upd t (r, c) (fun x => { x with done := x.done.drop 1 })) (List.range 32) g.cells }
  else g

/-- Four outputs shift from the holding registers into the drain's queue of 16 entries. -/
def shiftColumn (g : Grid) (c : Nat) : Grid :=
  if (look g.holding c).isEmpty ∨ 16 ≤ (look g.queue c).length then g
  else { g with queue := upd g.queue c (· ++ [(look g.holding c).take 4]), holding := upd g.holding c (·.drop 4) }

/-! ## Staging banks (R82) -/

/-- An access of a port to its bank; none where a window fill, a Mortar transfer or an earlier port has the bank. -/
def useBank (bank : Nat → Nat → Nat) (port place : Nat) (used : List Nat) : Option (List Nat) :=
  let b := bank port place % 128
  if used.contains b then none else some (b :: used)

/-- A feeder reads one beat into its link, while that holds fewer than 8. -/
def feedRow (bank : Nat → Nat → Nat) (stream : Nat → List Beat) (x : Grid × List Nat) (r : Nat) : Grid × List Nat :=
  let n := look x.1.aRead r
  match (stream r)[n]? with
  | none => x
  | some b =>
    if 8 ≤ (look x.1.aLink r).length then x
    else match useBank bank r n x.2 with
      | none => x
      | some used => ({ x.1 with aLink := upd x.1.aLink r (· ++ [b]), aRead := upd x.1.aRead r (· + 1) }, used)

def feedCol (bank : Nat → Nat → Nat) (stream : Nat → List Beat) (x : Grid × List Nat) (c : Nat) : Grid × List Nat :=
  let n := look x.1.bRead c
  match (stream c)[n]? with
  | none => x
  | some b =>
    if 8 ≤ (look x.1.bLink c).length then x
    else match useBank bank (32 + c) n x.2 with
      | none => x
      | some used => ({ x.1 with bLink := upd x.1.bLink c (· ++ [b]), bRead := upd x.1.bRead c (· + 1) }, used)

/-- A drain writes one entry of its queue. -/
def drainCol (bank : Nat → Nat → Nat) (x : Grid × List Nat) (c : Nat) : Grid × List Nat :=
  match look x.1.queue c with
  | [] => x
  | e :: rest => match useBank bank (64 + c) (look x.1.wrote c) x.2 with
    | none => x
    | some used => ({ x.1 with
        queue := put x.1.queue c rest, written := upd x.1.written c (· ++ e), wrote := upd x.1.wrote c (· + 1) }, used)

/-! ## One array cycle -/

/-- Cell-cycles of a run of the grid, as the array's counters take them (R115). -/
structure Cycles where
  active : Nat := 0
  fires : Nat := 0
  waitA : Nat := 0
  waitB : Nat := 0
  waitOut : Nat := 0
  waitDrain : Nat := 0
  deriving DecidableEq, Repr

/-- The cells of a cycle counted by what each does. -/
def countCycle (ws : List (Option Wait)) (n : Cycles) : Cycles :=
  let of := fun (w : Option Wait) => (ws.filter (· == w)).length
  { active := n.active + b2n (ws.any (·.isNone)), fires := n.fires + of none, waitA := n.waitA + of (some .a)
    waitB := n.waitB + of (some .b), waitOut := n.waitOut + of (some .out), waitDrain := n.waitDrain + of (some .drain) }

/-- One cycle, `taken` the banks that window fills and Mortar transfers use in it: every cell that may fires, columns
move to the drains, feeders refill at up to 2 slots, and drains write. -/
def gridCycle (bank : Nat → Nat → Nat) (rows cols : Nat → List Beat) (taken : List Nat) (x : Grid × Cycles) :
    Grid × Cycles :=
  let g := x.1
  let ws := gridCells.map (fun p => waits g p.1 p.2)
  let fired := (gridCells.zip ws).filter (fun p => p.2.isNone)
  let n := countCycle ws x.2
  let g1 := foldS shiftColumn (List.range 32) g
  let g2 := foldS (fun g' p => fireCell g g' p.1) fired g1
  let g3 := foldS takeColumn (List.range 32) g2
  let y := foldS (feedRow bank rows) (List.range 32) (g3, taken)
  let y := foldS (feedCol bank cols) (List.range 32) y
  let y := foldS (feedRow bank rows) (List.range 32) y
  let y := foldS (feedCol bank cols) (List.range 32) y
  ((foldS (drainCol bank) (List.range 32) y).1, n)

/-- Every drain has written the 32 outputs of the running pass (R100). -/
def passDrained (g : Grid) : Bool := (List.range 32).all (fun c => 32 ≤ (look g.written c).length)

/-- The grid runs until the running pass is drained; none where the cycles given do not suffice. -/
def runGrid (bank : Nat → Nat → Nat) (rows cols : Nat → List Beat) (busy : List (Nat × Nat)) :
    Nat → Nat → Grid × Cycles → Option (Grid × Cycles)
  | 0, _, _ => none
  | n + 1, i, x =>
    if passDrained x.1 then some x
    else runGrid bank rows cols busy n (i + 1)
      (gridCycle bank rows cols ((busy.filter (fun b => b.1 == i)).map (·.2)) x)

/-- The accumulator of row r and column c of a drained pass. -/
def sumAt (g : Grid) (r c : Nat) : BitVec 32 := ((look g.written c)[31 - r]?).getD 0

/-- The pass leaves the drains, and the beats of it are no longer counted. -/
def endPass (beats : Nat) (g : Grid) : Grid :=
  { g with written := mapTbl g.written (fun _ l => l.drop 32)
           aRead := mapTbl g.aRead (fun _ n => n - beats), bRead := mapTbl g.bRead (fun _ n => n - beats) }

end Sys2Proof.Machine
end

