-- ==== Sys2Proof/Machine/Stack.lean ====
section
/-! DEFINITION. The stack of a model on the rows of a step (R117 to R123, R129, R141, R145): tensors as the image holds
them, operands in array formats, and what the tile cores compute between the passes. -/

namespace Sys2Proof.Machine

/-! ## Values in array formats (R84, R85, R95, R129) -/

def sliceValues (s : Slice) : List F32 :=
  s.codes.map (fun c => toF32 (vmul (elemVal s.format c) (scaleVal s.format s.scale)))

/-- One slice of 32 values in a format: by the block rule of R95 where it carries a block scale. -/
def quantSlice (format : Nat) (vs : List F32) : Slice :=
  if blockScaled format then
    let b := blockOut format vs
    { format, codes := b.2.1, scale := BitVec.ofNat 8 b.1 }
  else { format, codes := vs.map (fun v => (convert format v).1) }

/-- Values as slices, the last filled with zero elements (R87). -/
def quantize (format : Nat) (vs : List F32) : List Slice :=
  (List.range (ceilDiv vs.length 32)).map (fun i =>
    let v := (vs.drop (32 * i)).take 32
    if v.all (fun x => x == 0) then zeroSlice format
    else quantSlice format (v ++ List.replicate (32 - v.length) 0))

/-- One column of a column tile (R129): its slices, and from the scale plane its scale of each slice. -/
def tileColumn (format k : Nat) (tile : List Byte) (col : Nat) : List Slice :=
  let ks := k / 32
  let w := 4 * elemBits format
  (List.range ks).map (fun i =>
    { format, codes := unpackCodes (elemBits format) 32 (slice tile ((32 * i + col) * w) w)
      scale := if blockScaled format then (tile[32 * ks * w + 32 * i + col]?).getD 0x7F else 0x7F })

/-- The bytes of one column tile of a record's tensor; those past the image's end are free (log 152, DESIGN CHOICE). -/
def tensorTile (img : List Byte) (r : LayerRec) (t : Nat) : List Byte :=
  let n := columnTileBytes r.k r.fb
  let b := slice img (field img 96 8 + r.offset + t * n) n
  b ++ (List.range (n - b.length)).map (fun i => BitVec.ofNat 8 (Config.freeNat i))

/-- One column of a record's tensor as values. -/
def tensorColumn (img : List Byte) (r : LayerRec) (c : Nat) : List F32 :=
  (tileColumn r.fb r.k (tensorTile img r (c / 32)) (c % 32)).flatMap sliceValues

/-- A row of an embedding or position table; one that the table does not hold is free (log 163, DESIGN CHOICE). -/
def tableRow (img : List Byte) (r : LayerRec) (i : Nat) : List F32 :=
  if i < r.n then tensorColumn img r i
  else (List.range (imgHidden img)).map (fun j => BitVec.ofNat 32 (Config.freeNat (i * 2 ^ 16 + j)))

/-- `n` FP32 numbers from an offset of an image. -/
def floatsAt (img : List Byte) (o n : Nat) : List F32 :=
  (List.range n).map (fun i => BitVec.ofNat 32 (field img (o + 4 * i) 4))

/-- Gain and bias of a norm record: FP32 at its tensor, the bias after the gain (R122; log 152, DESIGN CHOICE). -/
def normGain (img : List Byte) (r : LayerRec) : List F32 × List F32 :=
  let o := field img 96 8 + r.offset
  (floatsAt img o (imgHidden img),
   if imgShape img 5 then floatsAt img (o + 4 * imgHidden img) (imgHidden img) else [])

/-- Column scales and bias of a linear record, of one column tile; 1.0 and 0 where it names none (R93, R128; log 152,
DESIGN CHOICE). -/
def columnScales (img : List Byte) (r : LayerRec) (t : Nat) : List F32 × List F32 :=
  if r.scales = 0 then ([], [])
  else (floatsAt img (r.scales + 128 * t) (min 32 (r.n - 32 * t)),
        floatsAt img (r.scales + 4 * r.n + 128 * t) (min 32 (r.n - 32 * t)))

/-! ## Keys, values and pages (R119, R141) -/

def kvBytes (img : List Byte) : Nat := if field img 54 1 = 1 then 2 else 1
def kvFormat (img : List Byte) : Nat := if field img 54 1 = 1 then 8 else 5

/-- The scores or mix record of a block. -/
def attentionRec (img : List Byte) (op block : Nat) : LayerRec :=
  ((layerRecs img).find? (fun r => r.op == op && r.block == block)).getD default

/-- The key and value scales of a block: of FP8 pages only, 1.0 where the record holds 0 (R128, R141; log 160, DESIGN
CHOICE). -/
def kvScale (img : List Byte) (block : Nat) (value : Bool) : F32 :=
  if kvFormat img ≠ 5 then oneF32
  else
    let r := attentionRec img (if value then 3 else 2) block
    let x := if value then r.valueScale else r.keyScale
    if x = 0 then oneF32 else x

/-- Offset in a page of a head's vector of a position: keys before values, then by head, then by position (R141). -/
def pageOffset (img : List Byte) (value : Bool) (head i : Nat) : Nat :=
  ((b2n value * imgKvHeads img + head) * 16 + i) * imgHeadDim img * kvBytes img

/-- The key or value of one position into its page, in KV_FORMAT, over its scale. -/
def writePage (img : List Byte) (block : Nat) (value : Bool) (i : Nat) (v : List F32) (page : List Byte) : List Byte :=
  let hd := imgHeadDim img
  (List.range (imgKvHeads img)).foldl (fun page h =>
    let o := pageOffset img value h i
    let codes := ((v.drop (h * hd)).take hd).map (fun x =>
      leBytes (kvBytes img) (convert (kvFormat img) (fdiv x (kvScale img block value))).1)
    page.take o ++ codes.flatten ++ page.drop (o + hd * kvBytes img)) page

/-- A head's vector of a position as a page holds it, before its scale. -/
def readPage (img : List Byte) (value : Bool) (head i : Nat) (page : List Byte) : List F32 :=
  let o := pageOffset img value head i
  (List.range (imgHeadDim img)).map (fun j =>
    toF32 (elemVal (kvFormat img) (field page (o + j * kvBytes img) (kvBytes img))))

/-- A vector of a row of the step as its page will hold it; an encoder's vectors have no page and keep their value. -/
def asPaged (img : List Byte) (block : Nat) (value : Bool) (v : List F32) : List F32 :=
  if imgKind img ≠ 2 then v
  else v.map (fun x => toF32 (elemVal (kvFormat img) (convert (kvFormat img) (fdiv x (kvScale img block value))).1))

/-! ## Rows of a step -/

/-- Whether two rows belong to one input. -/
def sameInput (a b : RowAct) : Bool :=
  a.tenant == b.tenant && a.rider == b.rider && a.seg == b.seg && a.model == b.model

/-- Positions that a row attends to: its own and those before it, or the real ones of its input (R118). -/
def attends (a : RowAct) (j : Nat) : Bool := if a.real = 0 then j ≤ a.pos else j < a.real

/-- The outputs of a kind of pass of a record, its column tiles in order. -/
def gathered (a : RowAct) (record kind sub n : Nat) : List F32 :=
  ((List.range (ceilDiv n 32)).flatMap (fun t => look a.outs (record, kind, sub, t))).take n

/-- The value that a linear of a ROLE reads (R117, R118). -/
def inputOf (img : List Byte) (role : Nat) (a : RowAct) : List F32 :=
  if role = 3 ∨ role = 6 ∨ role = 9 ∨ role = 0x0A then a.h
  else if role = 8 ∨ imgShape img 0 then a.n else a.x

/-- The router's choice of a row (R121): softmax over all experts, the ROUTED highest, equal scores by the lower index,
their weights over their sum when SHAPE bit 4 is set. -/
def routeOf (img : List Byte) (scores : List F32) : List (Nat × F32) :=
  let w := softmax ((scores.take (imgExperts img)).map (·, true))
  let order := isort (w.zipIdx.zip scores) (fun a b => flt b.2 a.2 || (!flt a.2 b.2 && a.1.2 ≤ b.1.2))
  let chosen := (order.take (imgRouted img)).map (fun x => (x.1.2, x.1.1))
  if imgShape img 4 then
    let r := reciprocal (rowSum (chosen.map (·.2)))
    chosen.map (fun x => (x.1, fmul x.2 r))
  else chosen

/-- A linear or attention record has committed: what it gave the row. -/
def endArrayRec (img : List Byte) (idx : Nat) (r : LayerRec) (a : RowAct) : RowAct :=
  let out := gathered a idx 0 0 r.n
  if r.op = 3 then
    let hd := imgHeadDim img
    { a with h := (List.range (imgQHeads img)).flatMap (fun q =>
        ((List.range 2).map (fun p => gathered a idx 3 (2 * q + p) hd)).foldl (fun s v =>
          if v.isEmpty then s else if s.isEmpty then v else zipF fadd s v) []) }
  else if r.op = 4 then { a with route := routeOf img out, experts := [] }
  else if r.op ≠ 1 then a
  else match r.role with
  | 0 => { a with q := out }
  | 1 => { a with kv := upd a.kv r.block (fun p => (out, p.2)) }
  | 2 => { a with kv := upd a.kv r.block (fun p => (p.1, out)) }
  | 3 => { a with y := out }
  | 4 | 5 => a
  | 6 => if r.expert = 0xFFFF then { a with y := out }
    else if r.expert < imgExperts img ∧ !a.route.any (fun x => x.1 == r.expert) then a
    else { a with experts := a.experts ++ [(r.expert, out)] }
  | _ => if a.head then { a with result := out } else a

/-- The linear record of a block, ROLE and expert. -/
def linearIdx (img : List Byte) (block role expert : Nat) : Option (Nat × LayerRec) :=
  (((layerRecs img).zipIdx).find? (fun r => r.1.op == 1 && r.1.block == block && r.1.role == role
    && r.1.expert == expert)).map (fun r => (r.2, r.1))

/-- Gate or up outputs of a row. -/
def ffnPart (img : List Byte) (r : LayerRec) (role : Nat) (a : RowAct) : List F32 :=
  match linearIdx img r.block role r.expert with
  | some (i, l) => gathered a i 0 0 l.n
  | none => []

/-- Rotary position of every head of a vector (R120). -/
def ropeAll (img : List Byte) (pos : Nat) (v : List F32) : List F32 :=
  let hd := imgHeadDim img
  let base := (finite? (BitVec.ofNat 32 (field img 64 4))).getD 1
  let factor := (finite? (BitVec.ofNat 32 (field img 68 4))).getD 1
  (List.range (v.length / max 1 hd)).flatMap (fun h =>
    ropeHead (imgShape img 2) (field img 53 1) base factor (field img 56 4) (field img 60 2) pos ((v.drop (h * hd)).take hd))

/-- Probabilities of a row's query heads, from its scores (R119, R123). -/
def probsOf (img : List Byte) (block : Nat) (a : RowAct) : List (List F32) :=
  match ((layerRecs img).zipIdx).find? (fun r => r.1.op == 2 && r.1.block == block) with
  | none => []
  | some (_, i) => (List.range (imgQHeads img)).map (fun q =>
      let scores := (List.range (a.outs.filter (fun o => o.1.1 == i && o.1.2.1 == 2 && o.1.2.2.1 == q)).length).flatMap
        (fun t => look a.outs (i, 2, q, t))
      softmax ((scores.zipIdx).map (fun s => (s.1, attends a s.2))))

/-- The outputs of a row's experts, each times its weight; shared experts carry 1 (R121). -/
def combineOf (img : List Byte) (a : RowAct) : List F32 :=
  (a.experts.map (fun e =>
    if e.1 < imgExperts img then e.2.map (fmul ((a.route.find? (fun r => r.1 == e.1)).map (·.2) |>.getD 0)) else e.2)).foldl
    (fun s v => if s.isEmpty then v else zipF fadd s v) []

/-- Pooling of an input: its first or last real position, or the mean of them (R118). -/
def poolOf (img : List Byte) (rows : List RowAct) : List F32 :=
  let live := rows.filter (fun a => a.pos < a.real)
  match field img 55 1 with
  | 0 => (live.head?.map (·.x)).getD []
  | 1 => (List.range (imgHidden img)).map (fun i => rowMean (live.map (fun a => (a.x[i]?).getD 0)))
  | _ => (live.getLast?.map (·.x)).getD []

/-- Bit i of the code is 1 when element i is greater than 0 (R118). -/
def signCode (v : List F32) : Code :=
  BitVec.ofNat 256 ((v.take 256).foldr (fun x acc => b2n (flt 0 x) + 2 * acc) 0)

/-- One tile-core record on one row, `all` the rows of its model (R117). -/
def tileRec (img : List Byte) (r : LayerRec) (all : List RowAct) (a : RowAct) : RowAct :=
  match r.op with
  | 0x10 =>
    let e := tableRow img r a.token
    { a with x := if a.pos = 0 ∧ !a.feature.isEmpty then zipF fadd e a.feature else e }
  | 0x11 => { a with x := zipF fadd a.x (tableRow img r a.pos) }
  | 0x12 => { a with q := ropeAll img a.pos a.q, kv := upd a.kv r.block (fun p => (ropeAll img a.pos p.1, p.2)) }
  | 0x13 =>
    let g := normGain img r
    let y := normRow (field img 50 1 = 1) (BitVec.ofNat 32 (field img 72 4)) g.1 g.2 a.x
    { a with n := y, x := if imgShape img 0 then a.x else y }
  | 0x14 => { a with probs := probsOf img r.block a }
  | 0x15 =>
    let up := ffnPart img r 5 a
    let gate := ffnPart img r 4 a
    { a with h := List.zipWith (activation (field img 51 1)) (if gate.isEmpty then up else gate) up }
  | 0x16 => { a with x := zipF fadd a.x a.y }
  | 0x17 => if a.experts.isEmpty then a else { a with y := combineOf img a, experts := [] }
  | 0x18 =>
    if a.head then
      let p := poolOf img (all.filter (sameInput a))
      { a with h := p, embedding := p.map (fun v => BitVec.ofNat 16 (convert 9 v).1) }
    else a
  | 0x19 => { a with code := signCode a.result }
  | 0x1A =>
    let qz := fun (v : List F32) => (quantize r.fo v).flatMap sliceValues |>.take v.length
    { a with n := qz a.n, h := qz a.h }
  | _ => a

/-! ## Operands of passes (R119, R145) -/

/-- Key or value vectors of positions, of one key-value head: those in the sequence's pages, then those of the step's
rows of the same input. -/
def headVectors (img : List Byte) (pages : List (List Byte)) (block : Nat) (value : Bool) (head : Nat)
    (rows : List RowAct) (from_ n : Nat) : List (List F32) :=
  let hd := imgHeadDim img
  (List.range n).map (fun i =>
    let p := from_ + i
    match rows.find? (fun a => a.pos == p) with
    | some a =>
      let v := look a.kv block
      (asPaged img block value (if value then v.2 else v.1) |>.drop (head * hd)).take hd
    | none => readPage img value head (p % 16) ((pages[p / 16 * imgLayers img + block]?).getD []))

/-- 1 ÷ √HEAD_DIM in FP32 (R119). -/
def headScale (img : List Byte) : F32 := toF32Rat (rsqrtRat (imgHeadDim img))

end Sys2Proof.Machine
end

