-- ==== Sys2Proof/Machine/Passes.lean ====
section
/-! DEFINITION. The arrays (R83 to R116, R119, R121, R136 to R140, R145, R146, R153): groups of rows, the passes of a
step, the window, what a pass reads and writes, and what the tile cores do between passes. -/

namespace Sys2Proof.Machine

/-! ## Rows of a chain -/

/-- Work of one sequence or request on a model: its tenant and rider, adapter version, the tokens of its rows from a
first position on, for an encoder's or cross-encoder's input its number and its real positions, and whether its last row
needs the head, or every row (R138). -/
structure Work where
  tenant : Nat
  rider : Nat
  model : Nat
  version : Option (Nat × Nat) := none
  tokens : List Nat := []
  start : Nat := 0
  seg : Nat := 0
  real : Nat := 0
  feature : List F32 := []
  head : Bool := true
  deriving DecidableEq, Repr

/-- One row of a group: the work it belongs to, its number in it, and whether it needs the head. -/
structure GRow where
  work : Work
  row : Nat := 0
  head : Bool
  deriving DecidableEq, Repr

abbrev Group := List GRow

def groupModel (g : Group) : Nat := (g.head?.map (fun r => r.work.model)).getD 0

/-- The distinct adapter versions of some rows. -/
def distinct (vs : List (Nat × Nat)) : List (Nat × Nat) :=
  vs.foldl (fun acc v => if acc.contains v then acc else acc ++ [v]) []

def groupVersions (g : Group) : List (Nat × Nat) := distinct (g.filterMap (·.work.version))

def adapterImage (s : State) (model : Nat) (v : Nat × Nat) : List Byte :=
  (look s.obj.adapters (model, v.1, v.2)).image

/-- The adapter versions that target a record (R127, R145). -/
def targeting (s : State) (model : Nat) (r : LayerRec) (vs : List (Nat × Nat)) : List (Nat × Nat) :=
  vs.filter (fun v =>
    let img := adapterImage s model v
    r.op == 1 && r.role ≤ 6 && bitOf (adTargets img) r.role && (r.expert == 0xFFFF || bitOf (adTargets img) 7))

/-- K of a record with the extensions of some versions (R146). -/
def extendedK (s : State) (model : Nat) (r : LayerRec) (vs : List (Nat × Nat)) : Nat :=
  r.k + sumBy (fun v => adPadded (adapterImage s model v)) (targeting s model r vs)

/-- Whether a group keeps the bounds of R146: of every record that its versions target, and of their number. -/
def groupOk (s : State) (g : Group) : Bool :=
  let m := groupModel g
  let vs := groupVersions g
  g.length ≤ 32 && vs.length ≤ 8
    && (layerRecs (look s.obj.models m).image).all (fun r => r.op ≠ 1 || extendedK s m r vs ≤ 65536)

/-- A row joins the first group of its model that can take it, or opens one (R163); a row that alone breaks a bound goes
alone (log 194, DEDUCED). -/
def joinGroup (s : State) (r : GRow) : List Group → List Group
  | [] => [[r]]
  | g :: gs => if groupModel g = r.work.model ∧ groupOk s (g ++ [r]) then (g ++ [r]) :: gs else g :: joinGroup s r gs

/-- Rows of a work: only the last needs the head, unless every row does. -/
def rowsOf (w : Work) (every : Bool) : List GRow :=
  (List.range w.tokens.length).map (fun i =>
    { work := w, row := i, head := w.head && (every || i + 1 == w.tokens.length) })

/-- Rows cut into whole groups. -/
def wholeGroups : Nat → List GRow → List Group
  | 0, _ => []
  | n + 1, rs => if rs.isEmpty then [] else rs.take 32 :: wholeGroups n (rs.drop 32)

/-- The first prefill chunk fills the last decode group of its model, as far as that can take it; the rest fills whole
groups (R163). -/
def fillLast (s : State) (rs : List GRow) (gs : List Group) : List Group :=
  match (gs.zipIdx.filter (fun g => groupModel g.1 == groupModel rs)).getLast? with
  | none => gs ++ wholeGroups (rs.length + 1) rs
  | some (g, i) =>
    let n := 32 - g.length
    if groupOk s (g ++ rs.take n) then gs.set i (g ++ rs.take n) ++ wholeGroups (rs.length + 1) (rs.drop n)
    else gs ++ wholeGroups (rs.length + 1) rs

/-- The groups of a generation-lane step: decode rows, then the prefill chunks. -/
def generationGroups (s : State) (decode chunks : List Work) : List Group :=
  let gs := decode.foldl (fun gs w => (rowsOf w true).foldl (fun gs r => joinGroup s r gs) gs) []
  match chunks with
  | [] => gs
  | c :: cs => fillLast s (rowsOf c false) gs
      ++ cs.flatMap (fun w => wholeGroups (w.tokens.length + 1) (rowsOf w false))

/-- The groups of a retrieval-lane stage: the positions of each model's requests, 32 to a group. -/
def stageGroups (works : List Work) : List Group :=
  (firstMet (works.map (·.model))).flatMap (fun m =>
    let rs := (works.filter (fun w => w.model == m)).flatMap (fun w => rowsOf w false)
    wholeGroups (rs.length + 1) rs)

/-- The row of a step that a row of a group stands for. -/
def actOf (group : Nat) (r : GRow) : RowAct :=
  { tenant := r.work.tenant, rider := r.work.rider, model := r.work.model, version := r.work.version, group
    seg := r.work.seg, pos := r.work.start + r.row, token := (r.work.tokens[r.row]?).getD 0, real := r.work.real
    head := r.head, feature := r.work.feature }

def actsOf (gs : List Group) : List RowAct := (gs.zipIdx).flatMap (fun g => g.1.map (actOf g.2))

/-! ## Passes of a record (R119, R137, R138, R145, R146) -/

def laneStep (s : State) (c : Fin 4) (lane : Lane) : Option StepRec :=
  match lane with
  | .generation => (courseOf s c).generation.step
  | .retrieval => (courseOf s c).retrieval.step

def setLaneStep (c : Fin 4) (lane : Lane) (f : StepRec → StepRec) (s : State) : State :=
  setCourse c (fun k => match lane with
    | .generation => { k with generation := { k.generation with step := k.generation.step.map f } }
    | .retrieval => { k with retrieval := { k.retrieval with step := k.retrieval.step.map f } }) s

def withdrawnIn (lane : Lane) (r : ArrayRec) : Bool :=
  match lane with
  | .generation => r.withdrawn
  | .retrieval => r.withdrawnR

/-- The arrays of a course that take passes of a lane's step: one that is to leave finishes the step (R481). -/
def chainArrays (s : State) (c : Fin 4) (lane : Lane) : List (Fin 16) :=
  ((List.finRange 16).filter (fun a => a.val / 4 == c.val)).filter (fun a =>
    arrayUp s a && !withdrawnIn lane (look s.eng.arrays a))

/-- The array of a column tile: each of the arrays takes its part of N, in order (R137). -/
def arrayOfTile (arrs : List (Fin 16)) (tile tiles : Nat) : Fin 16 :=
  (arrs[tile * arrs.length / max 1 tiles]?).getD 0

/-- The column tiles of a record that fit a window slot (R137). -/
def tilesPerBlock (img : List Byte) (r : LayerRec) : Nat :=
  max 1 (field img 62 2 * 65536 / max 1 (columnTileBytes r.k r.fb))

/-- The number of a tile's block within its array's part of N (R137). -/
def blockOfTile (img : List Byte) (r : LayerRec) (arrs tile : Nat) : Nat :=
  let tiles := ceilDiv r.n 32
  let part := tile * arrs / max 1 tiles
  (tile - ceilDiv (part * tiles) (max 1 arrs)) / tilesPerBlock img r

/-- Blocks of a record: those of the array with most tiles. -/
def blocksOfRec (img : List Byte) (r : LayerRec) (arrs : Nat) : Nat :=
  ceilDiv (ceilDiv (ceilDiv r.n 32) (max 1 arrs)) (tilesPerBlock img r)

/-- A block's number in a step: model, record, block of the record. -/
def blockNo (model idx i : Nat) : Nat := model * 2 ^ 40 + idx * 2 ^ 20 + i

/-- The rows of a group that a record computes: the head of a stack needs only the rows that have one. -/
def rowsFor (r : LayerRec) (rows : List (Nat × RowAct)) : List (Nat × RowAct) :=
  rows.filter (fun a => !a.2.dead && (!(8 ≤ r.role && r.role ≤ 0x0A) || a.2.head))

/-- An adapter version's record that holds A (op 5) or U (op 1) of the tensor that a base record computes with (R545). -/
def adapterRec (s : State) (model : Nat) (v : Nat × Nat) (op : Nat) (r : LayerRec) : Option LayerRec :=
  (layerRecs (adapterImage s model v)).find? (fun x => x.op == op && x.block == r.block && x.expert == r.expert
    && x.role == r.role)

/-- Down passes of a record on one group: x·A of each version that targets it, in the formats of its record, N = r′,
quantized to MXFP8 E4M3. -/
def downPasses (s : State) (arrs : List (Fin 16)) (idx : Nat) (r : LayerRec) (group : Nat) (rows : List (Nat × RowAct)) :
    List (Fin 16 × Pass) :=
  let model := (rows.head?.map (·.2.model)).getD 0
  (targeting s model r (distinct (rows.filterMap (·.2.version)))).flatMap (fun v =>
    let n := adPadded (adapterImage s model v) / 32
    let mine := rows.filter (fun a => a.2.version == some v)
    (List.range n).map (fun t => (arrayOfTile arrs t n,
      { model, record := idx, kind := .down v.1 v.2, block := blockNo model idx 0, rowTile := group, columnTile := t
        rows := mine.map (fun a => (a.1, 0)), riders := mine.map (fun a => (a.2.tenant, a.2.rider))
        k := r.k, formatA := ((adapterRec s model v 5 r).map (·.fa)).getD 0, formatB := 0, formatOut := 0 })))

/-- The base pass of one column tile on one group, its K extended (R145, R146). -/
def basePass (s : State) (idx block tile : Nat) (r : LayerRec) (group : Nat) (rows : List (Nat × RowAct)) : Pass :=
  let model := (rows.head?.map (·.2.model)).getD 0
  { model, record := idx, block, rowTile := group, columnTile := tile, rows := rows.map (fun a => (a.1, 0))
    riders := rows.map (fun a => (a.2.tenant, a.2.rider)), k := extendedK s model r (distinct (rows.filterMap (·.2.version)))
    formatA := r.fa, formatB := r.fb, formatOut := r.fo }

/-- The passes of a linear record: block by block, for each the groups in turn, column tiles inner; the down passes of
all groups first (R138, R145). -/
def linearPasses (s : State) (arrs : List (Fin 16)) (img : List Byte) (model idx : Nat) (r : LayerRec)
    (groups : List (Nat × List (Nat × RowAct))) : List (Fin 16 × Pass) :=
  let gs := (groups.map (fun g => (g.1, rowsFor r g.2))).filter (fun g => !g.2.isEmpty)
  let tiles := ceilDiv r.n 32
  gs.flatMap (fun g => downPasses s arrs idx r g.1 g.2)
    ++ (List.range (blocksOfRec img r arrs.length)).flatMap (fun b => gs.flatMap (fun g =>
      ((List.range tiles).filter (fun t => blockOfTile img r arrs.length t == b)).map (fun t =>
        (arrayOfTile arrs t tiles, basePass s (idx) (blockNo model idx b) t r g.1 g.2))))

/-- Rows cut into runs of `n`. -/
def cutRows (n : Nat) : Nat → List (Nat × RowAct) → List (List (Nat × RowAct))
  | 0, _ => []
  | k + 1, l => if l.isEmpty then [] else l.take n :: cutRows n k (l.drop n)

/-- The passes of an attention record on one input: for each key-value head, the g query heads of ⌊32 ÷ g⌋ positions
against the column tiles, positions along N for the scores and along K for the mix (R119; the head's array, log 33,
DESIGN CHOICE). A mix over more than 65,536 positions goes in parts of 65,536 (R87; log 158, DESIGN CHOICE). -/
def attentionPasses (arrs : List (Fin 16)) (img : List Byte) (model idx : Nat) (r : LayerRec)
    (rows : List (Nat × RowAct)) : List (Fin 16 × Pass) :=
  let g := imgQHeads img / max 1 (imgKvHeads img)
  let n := 32 * ceilDiv ((rows.foldl (fun m a => max m (a.2.pos + 1)) 0)) 32
  let parts := if r.op = 2 then 1 else ceilDiv n 65536
  let cols := if r.op = 2 then n / 32 else ceilDiv (imgHeadDim img) 32
  (List.range (imgKvHeads img)).flatMap (fun h =>
    (cutRows (max 1 (32 / max 1 g)) (rows.length + 1) rows).flatMap (fun run =>
      (List.range parts).flatMap (fun part => (List.range cols).map (fun t =>
        ((arrs[h % max 1 arrs.length]?).getD 0,
         { model, record := idx, kind := if r.op = 2 then .scores h else .mix h part, block := blockNo model idx 0
           rowTile := (run.head?.map (·.2.group)).getD 0, columnTile := t
           rows := run.flatMap (fun a => (List.range g).map (fun j => (a.1, h * g + j)))
           riders := run.flatMap (fun a => List.replicate g (a.2.tenant, a.2.rider))
           k := if r.op = 2 then imgHeadDim img else min 65536 (n - part * 65536)
           formatA := if r.op = 2 then r.fa else kvFormat img, formatB := r.fb
           formatOut := if r.op = 2 then 10 else r.fo })))))

/-- The inputs of some rows, each with its rows in order. -/
def inputsOfRows (rows : List (Nat × RowAct)) : List (List (Nat × RowAct)) :=
  rows.foldl (fun acc a =>
    if acc.any (fun i => i.any (fun b => sameInput a.2 b.2)) then
      acc.map (fun i => if i.any (fun b => sameInput a.2 b.2) then i ++ [a] else i)
    else acc ++ [[a]]) []

/-- The rows of a model in a step, numbered as in the step. -/
def modelRows (acts : List RowAct) (model : Nat) : List (Nat × RowAct) :=
  ((acts.zipIdx).filter (fun a => a.1.model == model && !a.1.dead)).map (fun a => (a.2, a.1))

/-- The rows of a model by group. -/
def modelGroups (rows : List (Nat × RowAct)) : List (Nat × List (Nat × RowAct)) :=
  (firstMet (rows.map (·.2.group))).map (fun g => (g, rows.filter (fun a => a.2.group == g)))

/-- Rows packed into groups of 32, numbered on from a group number. -/
def packedGroups (rows : List (Nat × RowAct)) : List (Nat × List (Nat × RowAct)) :=
  ((cutRows 32 (rows.length + 1) rows).zipIdx).map (fun g => ((g.1.head?.map (·.2.group)).getD 0, g.1))

/-- Whether a record is of a routed expert, whose rows the router chooses in the step (R121). -/
def routedRec (img : List Byte) (r : LayerRec) : Bool := r.expert < imgExperts img

/-- The passes of one record on the rows of its model: a routed expert's on the rows routed to it, packed (R121). -/
def recordPasses (s : State) (arrs : List (Fin 16)) (img : List Byte) (model idx : Nat) (r : LayerRec)
    (rows : List (Nat × RowAct)) : List (Fin 16 × Pass) :=
  if r.op = 1 ∨ r.op = 4 then
    linearPasses s arrs img model idx r (if routedRec img r then
      packedGroups (rows.filter (fun a => a.2.route.any (fun x => x.1 == r.expert))) else modelGroups rows)
  else if r.op = 2 ∨ r.op = 3 then (inputsOfRows rows).flatMap (attentionPasses arrs img model idx r)
  else []

/-- The passes of a model's rows, in layer order; those of routed experts join once the router has chosen. -/
def modelPasses (s : State) (arrs : List (Fin 16)) (model : Nat) (rows : List (Nat × RowAct)) : List (Fin 16 × Pass) :=
  let img := (look s.obj.models model).image
  ((layerRecs img).zipIdx).flatMap (fun r =>
    if routedRec img r.1 then [] else recordPasses s arrs img model r.2 r.1 rows)

/-- The passes of the rows of a step, model after model. -/
def stepPasses (s : State) (arrs : List (Fin 16)) (acts : List RowAct) (models : List Nat) : List (Fin 16 × Pass) :=
  if arrs.isEmpty then [] else models.flatMap (fun m => modelPasses s arrs m (modelRows acts m))

/-! ## Chains -/

def setArray (a : Fin 16) (f : ArrayRec → ArrayRec) (s : State) : State :=
  { s with eng := { s.eng with arrays := upd s.eng.arrays a f } }

def laneChain (lane : Lane) (r : ArrayRec) : List Pass :=
  match lane with
  | .generation => r.generation
  | .retrieval => r.retrieval

def withChain (lane : Lane) (ps : List Pass) (r : ArrayRec) : ArrayRec :=
  match lane with
  | .generation => { r with generation := ps }
  | .retrieval => { r with retrieval := ps }

/-- Passes join the chains of their arrays. -/
def addPasses (lane : Lane) (ps : List (Fin 16 × Pass)) (s : State) : State :=
  foldS (fun s p => setArray p.1 (fun r => withChain lane (laneChain lane r ++ [p.2]) r) s) ps s

/-- The arrays of a course. -/
def courseArrays (c : Fin 4) : List (Fin 16) := (List.finRange 16).filter (fun a => a.val / 4 == c.val)

/-- Whether every chain of a lane's step has committed. -/
def chainsEmpty (s : State) (c : Fin 4) (lane : Lane) : Bool :=
  (courseArrays c).all (fun a => (laneChain lane (look s.eng.arrays a)).isEmpty)

/-- What an array holds of the passes under way is discarded: accumulators, holding registers, queue entries, links and
registers (R109). -/
def dropGrid (r : ArrayRec) : ArrayRec := { r with grid := {} }

/-- A lane's chains are gone from an array, with what the array holds of them. -/
def withoutChain (lane : Lane) (r : ArrayRec) : ArrayRec :=
  let mine := r.window.head?.any (fun b => b.lane == lane)
  let r := withChain lane [] { r with window := r.window.filter (fun b => b.lane != lane) }
  if mine then dropGrid { r with staged := [], attempts := 0 } else r

def dropChains (c : Fin 4) (lane : Lane) (s : State) : State :=
  foldS (fun s a => setArray a (withoutChain lane) s) (courseArrays c) s

/-- A step's end: its chains are gone, and no array is withdrawn from it any more. -/
def clearChains (c : Fin 4) (lane : Lane) (s : State) : State :=
  foldS (fun s a => setArray a (fun r => match lane with
    | .generation => { withoutChain lane r with withdrawn := false }
    | .retrieval => { withoutChain lane r with withdrawnR := false }) s) (courseArrays c) s

/-! ## The window (R136 to R140, R153) -/

/-- Cycles that the retrieval lane used of an array in the last millisecond. -/
def laneCycles (s : State) (r : ArrayRec) : Nat :=
  sumBy (fun u => if u.2.1 = .retrieval ∧ s.now - u.1 < 1000000 then u.2.2 else 0) r.used

/-- The array's cycles of the last millisecond. -/
def lastMillisecond (s : State) (a : Fin 16) : Nat :=
  let st := (look s.islands (arrayClk a)).startedAt
  Config.islandCycles (arrayClk a) st s.now - Config.islandCycles (arrayClk a) st (s.now - 1000000)

/-- The retrieval lane has used more than its part. -/
def overused (s : State) (a : Fin 16) : Bool :=
  s.dev.cfg.sched.rlaneArrayPct * lastMillisecond s a < 100 * laneCycles s (look s.eng.arrays a)

/-- The first block of a lane's chain that the window does not hold yet. -/
def nextBlock (lane : Lane) (r : ArrayRec) : Option Pass :=
  (laneChain lane r).find? (fun p => !r.window.any (fun b => b.lane == lane && b.block == p.block))

/-- The block that the array takes next: where both lanes have one, the retrieval lane's, unless that lane has used more
than its part (R153). -/
def chosenBlock (s : State) (a : Fin 16) : Option (Lane × Pass) :=
  let r := look s.eng.arrays a
  match nextBlock .generation r, nextBlock .retrieval r with
  | none, none => none
  | some p, none => some (.generation, p)
  | none, some p => some (.retrieval, p)
  | some p, some q => if overused s a then some (.generation, p) else some (.retrieval, q)

/-- The tensor tiles of a block that an array's passes of it read, from the model's home: the base tensor's, and A and U
of the adapter versions bound in the step (R137, R147). -/
def blockTiles (s : State) (lane : Lane) (bound : List (Nat × Nat)) (block : Nat) (r : ArrayRec) :
    Tbl (Nat × Bool × Nat × Nat) (List Byte) :=
  ((laneChain lane r).filter (fun p => p.block == block)).foldl (fun t p =>
    let img := (look s.obj.models p.model).image
    match (layerRecs img)[p.record]? with
    | none => t
    | some rec => match p.kind with
      | .base =>
        let base := put t (p.columnTile, false, 0, 0) (tensorTile img rec p.columnTile)
        (targeting s p.model rec bound).foldl (fun t v => match adapterRec s p.model v 1 rec with
          | some u => put t (p.columnTile, false, v.1 + 1, v.2) (tensorTile (adapterImage s p.model v) u p.columnTile)
          | none => t) base
      | .down id ver =>
        match adapterRec s p.model (id, ver) 5 rec with
        | some x => put t (p.columnTile, true, id + 1, ver)
            (tensorTile (adapterImage s p.model (id, ver)) x p.columnTile)
        | none => t
      | _ => t) []

/-- The adapter versions of a model that the rows of a lane's step bind. -/
def boundIn (s : State) (a : Fin 16) (lane : Lane) (model : Nat) : List (Nat × Nat) :=
  match laneStep s (Fin.ofNat 4 (a.val / 4)) lane with
  | none => []
  | some st => distinct ((st.acts.filter (fun x => x.model == model)).filterMap (·.version))

/-- Fills the free slots of an array's window (R138; log 156, DESIGN CHOICE), but for a staging buffer that pauses for a
relock (R107): the next block beside the one in hand, unless the two have slots of different sizes, which waits until
the one in hand is released (R140). -/
def fillWindow : Nat → Fin 16 → State → State
  | 0, _, s => s
  | n + 1, a, s =>
    let r := look s.eng.arrays a
    if s.now < (look s.islands (arrayClk a)).relockEnd then s
    else match chosenBlock s a with
    | none => s
    | some (lane, p) =>
      let slot := field (look s.obj.models p.model).image 62 2 * 65536
      if 2 ≤ r.window.length ∨ r.window.any (fun b => b.slot != slot) then s
      else fillWindow n a (setArray a (fun r => { r with
        window := r.window ++ [{ lane, block := p.block, slot, tiles := blockTiles s lane (boundIn s a lane p.model) p.block r }] }) s)

/-- A block whose last pass has committed releases its slot, and the next block fills it (R101, R138). -/
def turnWindow (a : Fin 16) (s : State) : State :=
  fillWindow 2 a (setArray a (fun r => { r with
    window := r.window.filter (fun b => (laneChain b.lane r).any (fun p => p.block == b.block)) }) s)

/-- The pass that an array runs: the first of the block in hand (R138, R153). -/
def runningPass (s : State) (a : Fin 16) : Option (Lane × Pass) :=
  let r := look s.eng.arrays a
  match r.window with
  | [] => none
  | b :: _ => ((laneChain b.lane r).find? (fun p => p.block == b.block)).map (fun p => (b.lane, p))

/-! ## Which passes may run -/

/-- Records that read the same values and follow one another: Q, K and V, or gate and up of one expert. -/
def sameStage (a b : LayerRec) : Bool :=
  a.op == 1 && b.op == 1 && a.expert == b.expert && a.block == b.block
    && ((a.role ≤ 2 && b.role ≤ 2) || (4 ≤ a.role && a.role ≤ 5 && 4 ≤ b.role && b.role ≤ 5))

/-- The record after the stage that begins at a record. -/
def stageEnd (recs : List LayerRec) (pc : Nat) : Nat :=
  match recs[pc]? with
  | none => pc
  | some r => pc + 1 + ((recs.drop (pc + 1)).takeWhile (sameStage r)).length

/-- Whether the operands of a pass are there: its record is in hand, and so are the low-rank terms of its rows. -/
def passReady (s : State) (st : StepRec) (p : Pass) : Bool :=
  let img := (look s.obj.models p.model).image
  let recs := layerRecs img
  st.models.head? == some p.model && st.record ≤ p.record && p.record < stageEnd recs st.record
    && (match p.kind, recs[p.record]? with
      | .base, some r => p.rows.all (fun x => match st.acts[x.1]? with
        | none => true
        | some a => (targeting s p.model r a.version.toList).all (fun v =>
            (gathered a p.record 1 (v.1 * 2 ^ 32 + v.2) (adPadded (adapterImage s p.model v))).length
              == adPadded (adapterImage s p.model v)))
      | _, _ => true)

/-! ## Operands of a pass (R87, R101, R119, R145, R146) -/

/-- The format in which an extension's values enter: MXFP8 E4M3, or BF16 beside 16-bit operands (log 157, DESIGN
CHOICE). -/
def extFormat (format : Nat) : Nat := if pairFamily format = 2 then 8 else 0

def zeroSlices (format n : Nat) : List Slice := List.replicate n (zeroSlice format)

/-- The slices of a row: the operand, and for each version of the group its own x·A or zeros. -/
def rowSlices (s : State) (st : StepRec) (img : List Byte) (r : LayerRec) (p : Pass) (versions : List (Nat × Nat))
    (x : Nat × Nat) : List (Nat × List Slice) :=
  match st.acts[x.1]? with
  | none => []
  | some a => match p.kind with
    | .scores _ => [(p.formatB, quantize p.formatA ((a.q.drop (x.2 * imgHeadDim img)).take (imgHeadDim img)))]
    | .mix _ part => [(p.formatB, quantize p.formatA (((a.probs[x.2]?).getD [] |>.drop (part * 65536)).take p.k))]
    | .down _ _ => [(p.formatB, quantize p.formatA (inputOf img r.role a))]
    | .base => (p.formatB, quantize p.formatA (inputOf img r.role a)) :: versions.map (fun v =>
        let n := adPadded (adapterImage s p.model v)
        let f := extFormat p.formatA
        (p.formatB, if a.version = some v then quantize f (gathered a p.record 1 (v.1 * 2 ^ 32 + v.2) n)
          else zeroSlices f (n / 32)))

/-- The slices of a column: W, and U of each version of the group, from the window; or keys or values of a head. -/
def colSlices (s : State) (st : StepRec) (img : List Byte) (r : LayerRec) (p : Pass) (versions : List (Nat × Nat))
    (w : Tbl (Nat × Bool × Nat × Nat) (List Byte)) (col : Nat) : List (Nat × List Slice) :=
  let rows := match (p.rows.head?).bind (fun x => st.acts[x.1]?) with
    | some a => st.acts.filter (sameInput a)
    | none => []
  let pages := if imgKind img = 2 then
      (((rows.head?).bind (fun a => find? s.obj.seqs a.rider)).map (·.pages)).getD [] else []
  match p.kind with
  | .scores h =>
    [(p.formatA, quantize p.formatB ((headVectors img pages r.block false h rows (32 * p.columnTile + col) 1).flatten))]
  | .mix h part =>
    let vs := headVectors img pages r.block true h rows (part * 65536) p.k
    [(p.formatA, quantize p.formatB (vs.map (fun v => (v[32 * p.columnTile + col]?).getD 0)))]
  | .down id ver =>
    let sl := tileColumn 0 r.k (look w (p.columnTile, true, id + 1, ver)) col
    [(p.formatA, sl)]
  | .base => (p.formatA, tileColumn p.formatB r.k (look w (p.columnTile, false, 0, 0)) col)
      :: versions.map (fun v => (extFormat p.formatA,
        tileColumn p.formatB (adPadded (adapterImage s p.model v)) (look w (p.columnTile, false, v.1 + 1, v.2)) col))

/-- Runs of slices as the beats of one row or column. -/
def beatsOf (runs : List (Nat × List Slice)) : List Beat := markLast (runs.flatMap (fun x => runBeats x.1 x.2))

/-- A row or column of zero beats in place of an empty one, as long as another (R87). -/
def zeroBeats (like : List Beat) : List Beat := like.map (fun b => { b with
  elems := List.replicate 32 0, scale0 := if pairFamily b.format = 2 then 0 else 0x7F, scale1 := if b.two then 0x7F else 0 })

/-- Columns of a pass that hold outputs. -/
def colsOf (img : List Byte) (r : LayerRec) (s : State) (p : Pass) : Nat :=
  match p.kind with
  | .base => min 32 (r.n - 32 * p.columnTile)
  | .down id ver => min 32 (adPadded (adapterImage s p.model (id, ver)) - 32 * p.columnTile)
  | .scores _ => 32
  | .mix _ _ => min 32 (imgHeadDim img - 32 * p.columnTile)

/-- The operands of a pass, as its feeders read them from staging; every row and column has as many beats. -/
def stagedOf (s : State) (st : StepRec) (a : Fin 16) (p : Pass) : StagedPass :=
  let img := (look s.obj.models p.model).image
  let r := ((layerRecs img)[p.record]?).getD default
  let w := ((look s.eng.arrays a).window.find? (fun b => b.block == p.block)).map (·.tiles) |>.getD []
  let versions := if p.kind = .base then
      targeting s p.model r (distinct (p.rows.filterMap (fun x => (st.acts[x.1]?).bind (·.version))))
    else []
  let rows := p.rows.map (fun x => beatsOf (rowSlices s st img r p versions x))
  let cols := (List.range (colsOf img r s p)).map (fun c => beatsOf (colSlices s st img r p versions w c))
  let fill := fun (l : List (List Beat)) => l ++ List.replicate (32 - l.length) (zeroBeats (l.headD []))
  { rows := fill rows, cols := fill cols }

/-- Staging holds the operands of the running pass, and of the pass of its block that follows, when that may run. -/
def stageOperands (a : Fin 16) (lane : Lane) (st : StepRec) (s : State) : State :=
  let r := look s.eng.arrays a
  match r.window with
  | [] => s
  | b :: _ =>
    let ps := (((laneChain lane r).filter (fun p => p.block == b.block)).take 2).takeWhile (passReady s st)
    setArray a (fun r => { r with staged := r.staged ++ (ps.drop r.staged.length).map (stagedOf s st a) }) s

/-! ## What a pass writes (R93 to R96, R119) -/

/-- Row scale, column scales and bias of a pass: 1 ÷ √HEAD_DIM of scores (R119), key and value scales of FP8 pages as
column scales (R141; log 160, DESIGN CHOICE), those that a linear's record names (R93). -/
def drainScales (img : List Byte) (r : LayerRec) (p : Pass) : F32 × List F32 × List F32 :=
  let paged := imgKind img == 2
  match p.kind with
  | .scores _ => (headScale img, if paged then List.replicate 32 (kvScale img r.block false) else [], [])
  | .mix _ _ => (oneF32, if paged then List.replicate 32 (kvScale img r.block true) else [], [])
  | .down _ _ => (oneF32, [], [])
  | .base => (oneF32, columnScales img r p.columnTile)

/-- One row of outputs as codes, with its clamps and NaN outputs; a microscaled row begins with its scale (R94, R95). -/
def drainRow (p : Pass) (rowScale : F32) (colScale bias : List F32) (accs : List (BitVec 32)) : List Nat × Nat × Nat :=
  if p.formatA = 7 ∧ p.formatOut = 11 then (accs.map (·.toNat), 0, 0)
  else
    let vs := (accs.zipIdx).map (fun x =>
      let acc := if p.formatA = 7 then f32Val (toF32 (ofInt x.1.toInt 0)) else f32Val x.1
      drainScale acc rowScale ((colScale[x.2]?).getD oneF32) ((bias[x.2]?).getD 0))
    let nans := (vs.filter isNanF32).length
    if p.formatOut < 5 then
      let b := blockOut p.formatOut vs
      (b.1 :: b.2.1, b.2.2, nans)
    else
      let cs := vs.map (convert p.formatOut)
      (cs.map (·.1), (cs.filter (·.2)).length, nans)

/-- The outputs of a row as the values that later passes and jobs of the step read (R102). -/
def outValues (p : Pass) (codes : List Nat) : List F32 :=
  if p.formatOut < 5 then
    sliceValues { format := p.formatOut, codes := codes.drop 1, scale := BitVec.ofNat 8 (codes.headD 0) }
  else if p.formatOut = 10 then codes.map (BitVec.ofNat 32)
  else if p.formatOut = 11 then codes.map (fun c => toF32 (ofInt (BitVec.ofNat 32 c).toInt 0))
  else codes.map (fun c => toF32 (elemVal p.formatOut c))

/-- Where the outputs of a pass go for its row (R96, R102). -/
def outKey (p : Pass) (q : Nat) : OutKey :=
  match p.kind with
  | .base => (p.record, 0, 0, p.columnTile)
  | .down id ver => (p.record, 1, id * 2 ^ 32 + ver, p.columnTile)
  | .scores _ => (p.record, 2, q, p.columnTile)
  | .mix _ part => (p.record, 3, 2 * q + part, p.columnTile)

/-- Fires of one pass: 1,024 cells, each the slices of K, in the fires of R98. -/
def passFires (p : Pass) : Nat :=
  let ks := p.k / 32
  1024 * (if pairFamily p.formatA = 2 then 2 * ks else if p.formatA = 4 ∧ p.formatB = 4 then ceilDiv ks 2 else ks)

/-! ## What the tile cores do between passes (R117 to R123) -/

/-- Whether passes of a model's records are still to commit. -/
def stageRuns (s : State) (c : Fin 4) (lane : Lane) (model lo hi : Nat) : Bool :=
  (courseArrays c).any (fun a => (laneChain lane (look s.eng.arrays a)).any (fun p =>
    p.model == model && lo ≤ p.record && p.record < hi))

/-- Passes of routed experts enter a chain before those of later records. -/
def insertPass (p : Pass) (ps : List Pass) : List Pass :=
  ps.takeWhile (fun x => x.model != p.model || x.record ≤ p.record) ++ p ::
    ps.dropWhile (fun x => x.model != p.model || x.record ≤ p.record)

/-- The router has chosen: the passes of the block's routed experts join the chains, experts in ascending order
(R121). -/
def addExperts (c : Fin 4) (lane : Lane) (model block : Nat) (s : State) : State :=
  match laneStep s c lane with
  | none => s
  | some st =>
    let img := (look s.obj.models model).image
    let ps := ((layerRecs img).zipIdx).flatMap (fun r =>
      if r.1.block = block ∧ routedRec img r.1 then
        recordPasses s (chainArrays s c lane) img model r.2 r.1 (modelRows st.acts model) else [])
    foldS (fun s p => setArray p.1 (fun r => withChain lane (insertPass p.2 (laneChain lane r)) r) s) ps s

/-- The rows of a model change. -/
def mapActs (c : Fin 4) (lane : Lane) (model : Nat) (f : RowAct → RowAct) (s : State) : State :=
  setLaneStep c lane (fun st => { st with acts := st.acts.map (fun a => if a.model == model && !a.dead then f a else a) }) s

/-- The code of an encoder's row reaches the walks of its request (R273, R304). -/
def giveCodes (c : Fin 4) (acts : List RowAct) (s : State) : State :=
  { s with eng := { s.eng with walks := s.eng.walks.map (fun w =>
      match acts.find? (fun a => a.head && a.rider == 2 * w.who + b2n w.inLoop && a.tenant == w.tenant
          && w.course == c && !w.started) with
      | some a => { w with code := a.code }
      | none => w) } }

/-- The step goes on: records whose passes have all committed end, the tile cores run the records that follow, and one
model follows another (R138, R140). -/
def runRecords (c : Fin 4) (lane : Lane) : Nat → State → State
  | 0, s => s
  | n + 1, s => match laneStep s c lane with
    | none => s
    | some st => match st.models with
      | [] => s
      | m :: rest =>
        let img := (look s.obj.models m).image
        let recs := layerRecs img
        match recs[st.record]? with
        | none => runRecords c lane n (setLaneStep c lane (fun st => { st with models := rest, record := 0 }) s)
        | some r =>
          let e := stageEnd recs st.record
          if 5 < r.op then
            let all := (modelRows st.acts m).map (·.2)
            let s := mapActs c lane m (tileRec img r all) s
            let s := if r.op = 0x19 then giveCodes c (((laneStep s c lane).map (·.acts)).getD []) s else s
            runRecords c lane n (setLaneStep c lane (fun st => { st with record := st.record + 1 }) s)
          else if stageRuns s c lane m st.record e then s
          else
            let s := mapActs c lane m (fun a =>
              ((recs.zipIdx.drop st.record).take (e - st.record)).foldl (fun a x => endArrayRec img x.2 x.1 a) a) s
            let s := if r.op = 4 then addExperts c lane m r.block s else s
            runRecords c lane n (setLaneStep c lane (fun st => { st with record := e }) s)

/-- Records that a step has still to run, at most. -/
def recordsLeft (s : State) (st : StepRec) : Nat :=
  st.models.length + 1 + sumBy (fun m => (layerRecs (look s.obj.models m).image).length) st.models

def advanceStep (c : Fin 4) (lane : Lane) (s : State) : State :=
  match laneStep s c lane with
  | none => s
  | some st => foldS (fun s a => turnWindow a s) (courseArrays c) (runRecords c lane (recordsLeft s st) s)

/-- The passes of a step bring the array domains up (R497, R502). -/
def wakeArrays (s : State) : State :=
  if s.dev.gated then
    powerUp (((List.finRange 16).filter (arrayUp s)).map arrayClk) { s with dev := { s.dev with gated := false } }
  else s

/-- The rows of a stage enter the step, and its passes the chains; a work list that holds a pass ends P2. -/
def startActs (c : Fin 4) (lane : Lane) (gs : List Group) (s : State) : State :=
  let acts := actsOf gs
  let models := firstMet (acts.map (·.model))
  let ps := stepPasses s (chainArrays s c lane) acts models
  let s := if ps.isEmpty then s else wakeArrays s
  advanceStep c lane (addPasses lane ps (setLaneStep c lane (fun st => { st with acts, models, record := 0 }) s))

/-! ## PASS_COMMIT (R100, R171) -/

/-- The pass's cycles charged to the tenants of its rows, in equal parts (R171). -/
def chargePass (lane : Lane) (c : Fin 4) (t : Nat) (rs : List (Nat × Nat)) (s : State) : State :=
  setLaneStep c lane (fun st => { st with
    charges := rs.foldl (fun cs r => upd cs r.1 (· + (t : Rat) / rs.length)) st.charges }) s

/-- The counters of a run of the grid (R115). -/
def countGrid (clk : ClockId) (n : Cycles) (s : State) : State :=
  bump clk 0x0000 n.active (bump clk 0x0001 n.fires (bump clk 0x0002 n.waitA (bump clk 0x0003 n.waitB
    (bump clk 0x0004 n.waitOut (bump clk 0x0005 n.waitDrain s)))))

/-- The running pass commits: it leaves its chain and staging, its outputs are there for the step's later passes and
jobs, and its counts and charges are made. -/
def commitPass (a : Fin 16) (lane : Lane) (p : Pass) (x : Grid × Cycles) (s : State) : State :=
  let c : Fin 4 := Fin.ofNat 4 (a.val / 4)
  let img := (look s.obj.models p.model).image
  let r := ((layerRecs img)[p.record]?).getD default
  let sc := drainScales img r p
  let cols := colsOf img r s p
  let outs := (p.rows.zipIdx).map (fun row =>
    (row.1, drainRow p sc.1 sc.2.1 sc.2.2 ((List.range cols).map (sumAt x.1 row.2))))
  let t := passTime p.k p.formatA p.formatB
  let clk := arrayClk a
  let s := setArray a (fun r =>
    let beats := ((r.staged.head?.map (·.rows)).bind (·.head?)).map (·.length) |>.getD 0
    { withChain lane ((laneChain lane r).erase p) r with
      grid := endPass beats x.1, staged := r.staged.drop 1, attempts := 0
      used := (r.used.filter (fun u => s.now - u.1 < 1000000)) ++ [(s.now, lane, t)] }) s
  let s := setLaneStep c lane (fun st => { st with acts := (st.acts.zipIdx).map (fun act =>
    outs.foldl (fun act o => if o.1.1 = act.2 then
      ({ act.1 with outs := put act.1.outs (outKey p o.1.2) (outValues p o.2.1) }, act.2) else act) act |>.1) }) s
  let s := countGrid clk x.2 (bump clk 0x0007 1 s)
  let s := bump clk 0x000B (sumBy (·.2.2.2) outs) (bump clk 0x000A (sumBy (·.2.2.1) outs) s)
  let s := { s with gov := { s.gov with lastChain := s.now } }
  advanceStep c lane (chargePass lane c t p.riders s)

/-- The running pass's beats stream through the grid until its drains have written (R99 to R104); none where its
operands are not there, or the cycles given are all taken from it. -/
def streamPass (a : Fin 16) (lane : Lane) (p : Pass) (busy : List (Nat × Nat)) (s : State) :
    Option (State × Grid × Cycles) :=
  match laneStep s (Fin.ofNat 4 (a.val / 4)) lane with
  | none => none
  | some st =>
    if !passReady s st p then none
    else
      let s := stageOperands a lane st s
      let r := look s.eng.arrays a
      let row := fun i => r.staged.flatMap (fun x => (x.rows[i]?).getD [])
      let col := fun i => r.staged.flatMap (fun x => (x.cols[i]?).getD [])
      (runGrid Config.bankOf row col busy (128 * (2 * (row 0).length + 256) + busy.length) 0 (r.grid, {})).map
        (fun x => (s, x))

end Sys2Proof.Machine
end

