-- ==== Sys2Proof/Machine/Tables.lean ====
section
/-! DEFINITION. Embedding tables (R324 to R345): creation, rows, pooled lookups, load and migration. -/

namespace Sys2Proof.Machine

def tableAt (s : State) (slot : Nat) : Table := look s.obj.tables slot

def setTable (slot : Nat) (f : Table → Table) (s : State) : State :=
  { s with obj := { s.obj with tables := adj s.obj.tables slot f } }

/-! ## Layout (R326, R327) -/

def shardCount (s : State) (t : Table) : Nat := max 1 (shards s t.courses).length

/-- The shard of a row's directory entry and initial slot. -/
def initialShard (s : State) (t : Table) (r : Nat) : Nat := r / 8 % shardCount s t

/-- A row's initial slot in that shard. -/
def initialSlot (s : State) (t : Table) (r : Nat) : Nat := r / 8 / shardCount s t * 8 + r % 8

/-- The home of a row: shard, and slot within it (R327). -/
def rowHome (s : State) (t : Table) (r : Nat) : Nat × Nat := (find? t.homes r).getD (initialShard s t r, initialSlot s t r)

def homeShard (s : State) (t : Table) (r : Nat) : Nat := (rowHome s t r).1

def tableChannel (s : State) (t : Table) (sh : Nat) : Nat := (((shards s t.courses)[sh]?).bind (channelAt s)).getD 0

def tableClk (s : State) (t : Table) (sh : Nat) : ClockId := channelClk (Fin.ofNat 96 (tableChannel s t sh))

/-- Whether the engines of a table's shards work: fetches, copies and counts wait for one that pauses (R345). -/
def tableRuns (s : State) (t : Table) : Bool := (List.range (shardCount s t)).all (fun sh => !stopped s (tableClk s t sh))

/-- Rows whose initial shard is a given one. -/
def initialRows (s : State) (t : Table) (sh : Nat) : Nat :=
  let n := shardCount s t
  let blocks := t.rows / 8
  let full := blocks / n + (if sh < blocks % n then 1 else 0)
  full * 8 + (if blocks % n = sh then t.rows % 8 else 0)

def movedIn (t : Table) (sh : Nat) : Nat := (t.homes.filter (fun h => h.2.1 == sh)).length
def movedOut (s : State) (t : Table) (sh : Nat) : Nat :=
  (t.homes.filter (fun h => initialShard s t h.1 == sh)).length

def rowsHomed (s : State) (t : Table) (sh : Nat) : Nat := initialRows s t sh + movedIn t sh - movedOut s t sh

/-- Free spare slots of a shard: its spares and the slots migrated rows have left, less the slots taken by rows that
came, or are coming, and those whose drain has not ended. -/
def freeSpares (s : State) (t : Table) (sh : Nat) : Nat :=
  let coming := (t.migrations.filter (fun m => m.new == sh && !m.switched)).length
    + (t.queue.filter (fun q => q.2 == sh)).length
  let draining := (t.migrations.filter (fun m => m.switched && m.old == sh)).length
  tblSpare s t + movedOut s t sh - (movedIn t sh + coming + draining)

/-- The slots of a shard that migrated rows hold, or will, or have not yet left. -/
def slotsTaken (t : Table) (sh : Nat) : List Nat :=
  t.homes.filterMap (fun h => if h.2.1 = sh then some h.2.2 else none)
    ++ t.migrations.filterMap (fun m =>
      if m.new = sh ∧ !m.switched then some m.newSlot else if m.old = sh ∧ m.switched then some m.oldSlot else none)

/-- The free spare slot of a shard with the lowest number: one that a migrated row has left, or a spare one (R326, R338; log
20, DESIGN CHOICE). -/
def freeSlotOf (s : State) (t : Table) (sh : Nat) : Option Nat :=
  let left := t.homes.filterMap (fun h => if initialShard s t h.1 = sh then some (initialSlot s t h.1) else none)
  let spare := (List.range (tblSpare s t)).map (tblBase s t + ·)
  (isort left (fun a b => a ≤ b) ++ spare).find? (fun n => !(slotsTaken t sh).contains n)

/-! ## TABLE_CREATE, TABLE_QUERY, the end of a table (R324, R325, R328, R343) -/

def tableFits (s : State) (t : Table) : Bool :=
  (List.range 4).all (fun c => !bitOf t.courses c || positionsIn s c = 0
    || positionsIn s c * shardBytes s t + reserveBytes s ≤ freeBytes s c)

def createTable (c : Cmd) (s : State) : State :=
  match firstFree s.obj.tables 0 256 with
  | none => fail c .tableSlotsFull 0 s
  | some slot =>
    let reuse := (look s.obj.tableReuse slot + 1) % 2 ^ 32
    let t : Table := { reuse, session := c.sid, tenant := c.tenant
                       rows := if c.arg 0 4 = 0 then 4294967296 else c.arg 0 4
                       width := c.arg 4 2, pooling := c.arg 6 1, courses := if c.imm = 0 then 15 else c.imm }
    let bytes := (shards s t.courses).length * shardBytes s t
    if (quotasOf s c.tenant).lpddr6 < tenantLpddr6 s c.tenant + bytes then fail c .quotaExceeded 4 s
    else if (shards s t.courses).isEmpty ∨ !tableFits s t then fail c .homeFull 0 s
    else finish c { value := mkHandle slot reuse }
      { s with obj := { s.obj with
        tables := put s.obj.tables slot t, tableReuse := put s.obj.tableReuse slot reuse } }

/-- TABLE_CREATE (R325). -/
def execTableCreate (cmd : Nat) (s : State) : Host.Outcome State Fault Refusal :=
  .next (runCmd cmd 0x0600 createTable s)

def shardEntry (s : State) (t : Table) (sh : Nat) : List Byte :=
  leBytes 1 (tableChannel s t sh) ++ leBytes 3 0 ++ leBytes 4 (rowsHomed s t sh) ++ leBytes 4 (look t.lastCounts sh)
    ++ leBytes 4 (freeSpares s t sh)

/-- The load record (R343). -/
def tableRecord (s : State) (slot : Nat) (t : Table) : List Byte :=
  leBytes 8 (mkHandle slot t.reuse) ++ leBytes 1 (if t.dropping then 2 else 1) ++ leBytes 1 t.courses
    ++ leBytes 1 (shards s t.courses).length ++ leBytes 1 t.pooling ++ leBytes 2 t.width ++ leBytes 2 0
    ++ leBytes 8 t.rows ++ leBytes 4 (t.homes.filter (fun h => h.2.1 != initialShard s t h.1)).length ++ leBytes 4 t.migrations.length
    ++ ((List.range (shards s t.courses).length).map (shardEntry s t)).flatten

/-- What a TABLE_QUERY finds. -/
def tableAnswer (c : Cmd) (s : State) : Result :=
  match tableOf s c.sid c.handle with
  | none => badResult s 32 0
  | some (slot, t) => recordResult s c (tableRecord s slot t) {}

def queryTable (c : Cmd) (s : State) : State := answerWith c (tableAnswer c) s

/-- TABLE_QUERY (R343). -/
def execTableQuery (cmd : Nat) (s : State) : Host.Outcome State Fault Refusal :=
  .next (runCmd cmd 0x0603 queryTable s)

/-- A DROPPING table's storage is freed once its open migrations have ended (R328). -/
def endDrop (slot : Nat) (s : State) : State :=
  match find? s.obj.tables slot with
  | none => s
  | some t =>
    if t.ending ∧ t.migrations.isEmpty then
      let s' := { s with obj := { s.obj with tables := del s.obj.tables slot } }
      match t.dropCmd.bind (findCmd s) with
      | none => s'
      | some c => finish c {} s'
    else s

/-- ROWS_WRITE and LOOKUP: the table is not DROPPING (R328). -/
def useTableRefusal (s : State) (c : Cmd) : Refusal? :=
  match tableOf s c.sid c.handle with
  | none => some (badResult s 32 0)
  | some (_, t) => if t.dropping then inState 6 2 else none

/-! ## ROWS_WRITE (R329, R338) -/

/-- A row's write at its home: its elements, or none for ZERO. A whole write makes an uncorrectable row good again. -/
def writeRow (row : Nat) (bytes : List Byte) (t : Table) : Table :=
  let t := { t with poisoned := t.poisoned.filter (· != row) }
  if bytes.isEmpty then { t with data := del t.data row } else { t with data := put t.data row bytes }

/-- Whether a row's migration lock is set (R327, R338). -/
def locked (t : Table) (row : Nat) : Bool := t.migrations.any (fun m => m.row == row && !m.switched)

/-- One record's write: at once, or held by the lock. -/
def applyRow (slot cmd row : Nat) (bytes : List Byte) (s : State) : State :=
  let t := tableAt s slot
  if locked t row then
    bump (tableClk s t (initialShard s t row)) 0x0507 1
      (setTable slot (fun t => { t with migrations := t.migrations.map (fun m =>
        if m.row == row && !m.switched then { m with held := m.held ++ [(cmd, bytes)] } else m) }) s)
  else setTable slot (writeRow row bytes) s

/-- A record that is not rejected (R329). -/
def rowRecordOk (t : Table) (r : List Byte) : Bool :=
  field r 0 4 < t.rows && field r 4 1 < 2 && zeroAt r 5 3

def writeRows (slot cmd : Nat) : Nat → List (List Byte) → State × Batch → State × Batch
  | _, [], a => a
  | i, r :: rs, (s, b) =>
    let t := tableAt s slot
    if rowRecordOk t r then
      let bytes := if bitOf (field r 4 1) 0 then [] else slice r 8 (2 * t.width)
      writeRows slot cmd (i + 1) rs (applyRow slot cmd (field r 0 4) bytes s, { b with done := b.done + 1 })
    else writeRows slot cmd (i + 1) rs
      (s, { b with rejected := b.rejected + 1, first := b.first.orElse (fun _ => some i) })

/-- Whether a lock still holds a write of a command. -/
def heldWrites (s : State) (cmd : Nat) : Bool :=
  s.obj.tables.any (fun t => t.2.migrations.any (fun m => m.held.any (fun h => h.1 == cmd)))

def rowsWrite (b : List Byte) (c : Cmd) (s : State) : State :=
  match tableOf s c.sid c.handle with
  | none => badField c 32 0 s
  | some (slot, t) =>
    if t.dropping then conflict c 6 2 s
    else
      let p := writeRows slot c.id 0 (chunksOf (rowRecord t.width) b) (s, {})
      let s := p.1
      let r := p.2
      let res : Result := { status := if r.rejected = 0 then .ok else .partialDone
                            effect := if r.rejected = 0 then .full else if r.done = 0 then .none else .part
                            value := r.done + r.rejected * 2 ^ 32, detail := r.first.getD 0 }
      if heldWrites s c.id then setCmd c.id (fun k => { k with result := some res, begun := true }) s
      else finish c res s

/-- ROWS_WRITE (R329). -/
def execRowsWrite (cmd : Nat) (records : Input) (s : State) : Host.Outcome State Fault Refusal :=
  .next (runCmd cmd 0x0601 (fun c => withInput c records (fun b => rowsWrite b c)) s)

/-! ## Fetching rows (R330, R333, R336) -/

/-- A fetched row enters the list of 256 of its home engine: listed rows gain 1; another replaces the lowest count and
takes that count plus 1 (R336). -/
def noteRow (slot row : Nat) (l : List (Nat × Nat × Nat)) : List (Nat × Nat × Nat) :=
  if l.any (fun e => e.1 == slot && e.2.1 == row) then
    l.map (fun e => if e.1 == slot && e.2.1 == row then (e.1, e.2.1, e.2.2 + 1) else e)
  else if l.length < 256 then l ++ [(slot, row, 1)]
  else
    let low := l.foldl (fun a e => min a e.2.2) ((l.head?.map (·.2.2)).getD 0)
    match l.findIdx? (fun e => e.2.2 == low) with
    | some i => l.set i (slot, row, low + 1)
    | none => l

/-- A row is served by the engine of a shard as its home (R336). -/
def serveRow (slot row sh : Nat) (s : State) : State :=
  let t := tableAt s slot
  let s := bump (tableClk s t sh) 0x0502 1 s
  let s := { s with eng := { s.eng with topRows := upd s.eng.topRows (tableChannel s t sh) (noteRow slot row) } }
  setTable slot (fun t => { t with shardCounts := upd t.shardCounts sh (· + 1) }) s

/-- One unique row is fetched from its home; a request resolved while the lock is set is counted in the migration's
record, and a ROW_DONE will return for it with what served it (R338). -/
def fetchRow (slot row : Nat) (s : State) : State :=
  let t := tableAt s slot
  if locked t row then
    setTable slot (fun t => { t with migrations := t.migrations.map (fun m =>
      if m.row == row && !m.switched then { m with draining := m.draining + 1 } else m) }) s
  else serveRow slot row (homeShard s t row) s

/-- The unique rows of a lookup: each directory line read once, each row fetched once. -/
def fetchRows (slot : Nat) (rows : List Nat) (s : State) : State :=
  let t := tableAt s slot
  let s := foldS (fun s j => bump (tableClk s t (j % shardCount s t)) 0x0503 1 s) (firstMet (rows.map (· / 8))) s
  foldS (fun s r => fetchRow slot r s) rows s

/-- The FP16 elements of a row; an unwritten row reads as zeros, an uncorrectable one contributes zero (R327, R335). -/
def rowElems16 (t : Table) (row : Nat) : List (BitVec 16) :=
  if t.poisoned.contains row then List.replicate t.width 0
  else match find? t.data row with
    | none => List.replicate t.width 0
    | some b => (List.range t.width).map (fun i => BitVec.ofNat 16 (field b (2 * i) 2))

/-! ## Reduction (R332 to R334) -/

/-- One occurrence added to the accumulators: a fused multiply-add per element. -/
def addOccurrence (t : Table) (acc : List F32) (row : Nat) (w : F32) : List F32 :=
  List.zipWith (fun a x => toF32 (vadd (f32Val a) (vmul (f32Val w) (f16Val x)))) acc (rowElems16 t row)

/-- One segment: its occurrences by ascending row index, then position. -/
def reduceSegment (t : Table) (occ : List (Nat × Nat × F32)) : List F32 :=
  (isort occ (fun a b => a.2.1 < b.2.1 || (a.2.1 == b.2.1 && a.1 ≤ b.1))).foldl
    (fun acc o => addOccurrence t acc o.2.1 o.2.2) (List.replicate t.width 0)

/-- Segments of 4,096 occurrences (log 93, DEDUCED). -/
def segments : Nat → List (Nat × Nat × F32) → List (List (Nat × Nat × F32))
  | 0, _ => []
  | n + 1, l => if l.isEmpty then [] else l.take 4096 :: segments n (l.drop 4096)

/-- A bag of occurrences (position, row, weight): partial sums in segment order, divided for the mean. -/
def reduceBag (t : Table) (pooling : Nat) (occ : List (Nat × Nat × F32)) : List F32 :=
  let occ := if pooling = 0 then occ else occ.map (fun o => (o.1, o.2.1, oneF32))
  match (segments (occ.length + 1) occ).map (reduceSegment t) with
  | [] => List.replicate t.width 0
  | p :: ps =>
    let sum := ps.foldl (List.zipWith fadd) p
    if pooling = 2 then sum.map (fun v => fdiv v (ofNatF32 occ.length)) else sum

/-- An output element as bytes, whether it overflowed, whether it is NaN (R334; log 92, DEDUCED). -/
def outElem (format : Nat) (v : F32) : List Byte × Bool × Bool :=
  if format = 1 then (leBytes 4 v.toNat, false, isNanF32 v)
  else
    let code := (convert 9 v).1
    let inf := code % 0x8000 = 0x7C00 && (match f32Val v with | .fin .. => true | _ => false)
    (leBytes 2 code, inf, isNanF32 v)

/-! ## LOOKUP (R331 to R335) -/

/-- 4-byte values of a buffer. -/
def words (b : List Byte) : List Nat := tokenList b

/-- The first bag start that breaks R331. -/
def badBag (n : Nat) : Nat → Nat → List Nat → Option Nat
  | _, _, [] => none
  | i, prev, o :: os => if (i = 0 ∧ o ≠ 0) ∨ o < prev ∨ n < o then some i else badBag n (i + 1) o os

/-- The ranges of the bags. -/
def bagRanges (n : Nat) : List Nat → List (Nat × Nat)
  | [] => []
  | [a] => [(a, n)]
  | a :: b :: rest => (a, b) :: bagRanges n (b :: rest)

/-- Counts of the hash units of a course (R333, R342). -/
def countSort (c : Fin 4) (rows uniq : List Nat) (s : State) : State :=
  foldS (fun s t =>
    let clk := tileClk (Fin.ofNat 64 (c.val * 16 + t))
    bump clk 0x0511 ((uniq.filter (fun r => r % 16 == t)).length)
      (bump clk 0x0510 ((rows.zipIdx.filter (fun p => p.2 % 16 == t)).length) s)) (List.range 16) s

def lookupRun (c : Cmd) (slot : Nat) (t : Table) (row : Row) (idx weights bags : List Byte) (s : State) : State :=
  let rows := words idx
  let n := rows.length
  match rows.findIdx? (fun r => t.rows ≤ r) with
  | some i => hold c (badResult s 64 i) s
  | none =>
    let offs := if c.bdLen 32 = 0 then [0] else words bags
    match badBag n 0 0 offs with
    | some i => hold c (badResult s 96 i) s
    | none =>
      let ws := if c.bdLen 16 = 0 then rows.map (fun _ => oneF32) else (words weights).map (BitVec.ofNat 32)
      let occ := (rows.zip ws).zipIdx.map (fun p => (p.2, p.1.1, p.1.2))
      let pooling := if c.arg 48 1 = 0xFF then (if compatMode s then t.pooling else 0) else c.arg 48 1
      let ranges := bagRanges n offs
      let uniq := firstMet rows
      let outs := (ranges.flatMap (fun r => reduceBag t pooling ((occ.drop r.1).take (r.2 - r.1)))).map
        (outElem (c.arg 49 1))
      let bytes := outs.flatMap (·.1)
      let s := fetchRows slot uniq (countSort (c.course.getD 0) rows uniq s)
      let s := bump (tileClk row.tile) 0x0514 ((outs.filter (·.2.2)).length)
        (bump (tileClk row.tile) 0x0513 ((outs.filter (·.2.1)).length) (bump (tileClk row.tile) 0x0512 n s))
      let bad := ranges.findIdx? (fun r => ((rows.drop r.1).take (r.2 - r.1)).any (t.poisoned.contains ·))
      let value := ranges.length + uniq.length * 2 ^ 32
      let res : Result := match bad with
        | some b => { status := .uncorrectable, effect := .part, value, detail := b }
        | none => { value }
      hold c (outResult s c bytes res) s

/-- LOOKUP in its retrieval-lane step. -/
def lookupJob (indices weights bags : Input) (c : Cmd) (s : State) : State :=
  match tableOf s c.sid c.handle with
  | none => badField c 32 0 s
  | some (slot, t) =>
    if t.dropping then conflict c 6 2 s
    else if !tableRuns s t then s
    else laneJob c indices (fun row i => laneInput c weights (fun w => laneInput c bags (lookupRun c slot t row i w))) s

def execLookup (cmd : Nat) (indices weights bags : Input) (s : State) : Host.Outcome State Fault Refusal :=
  .next (runCmd cmd 0x0602 (lookupJob indices weights bags) s)

/-! ## Load and migration (R336 to R339) -/

/-- Open migrations of a directory engine, over all tables. -/
def openAt (s : State) (ch : Nat) : Nat :=
  sumBy (fun t => (t.2.migrations.filter (fun m => tableChannel s t.2 (initialShard s t.2 m.row) == ch)).length)
    s.obj.tables

/-- A channel whose position is being evacuated takes no row migration (R383). -/
def leavingChannel (s : State) (ch : Nat) : Bool := (look s.eng.channels (Fin.ofNat 96 ch)).role == .evacuating

/-- Opens a table's chosen migrations, at most 16 at one directory engine (R324): the lock of each is set. -/
def openQueued (slot : Nat) : List (Nat × Nat) → State → State
  | [], s => s
  | q :: qs, s =>
    let t := tableAt s slot
    let ch := tableChannel s t (initialShard s t q.1)
    let old := rowHome s t q.1
    let s := match freeSlotOf s t q.2 with
      | none => s
      | some newSlot =>
        if openAt s ch < 16 ∧ !leavingChannel s (tableChannel s t q.2) then
          setTable slot (fun t => { t with
            queue := t.queue.filter (fun x => x.1 != q.1)
            migrations := t.migrations ++ [{ row := q.1, old := old.1, oldSlot := old.2, new := q.2, newSlot }] }) s
        else s
    openQueued slot qs s

def openAll (s : State) : State :=
  if awake s then foldS (fun s t => openQueued t.1 t.2.queue s) s.obj.tables s else s

/-- Shard counts while the Quoin chooses, with the moves chosen so far. -/
structure Choice where
  counts : Tbl Nat Nat
  queue : List (Nat × Nat) := []
  left : Nat

def chosenTo (q : List (Nat × Nat)) (sh : Nat) : Nat := (q.filter (fun x => x.2 == sh)).length

/-- The shard with the lowest count among those with a free spare slot, the lower number on a tie. -/
def coolest (s : State) (t : Table) (v : Choice) : Option Nat :=
  ((List.range (shardCount s t)).filter (fun sh => chosenTo v.queue sh < freeSpares s t sh)).foldl (fun b sh =>
    match b with
    | none => some sh
    | some x => if look v.counts sh < look v.counts x then some sh else some x) none

/-- Step 3 and 4 of R337 for one row of a hot shard; `mean` is the sum of the counts over the shard count. -/
def chooseRow (s : State) (t : Table) (hot : Nat) (total : Nat) (v : Choice) (row n : Nat) : Choice :=
  let k := shardCount s t
  let stillHot := s.dev.cfg.emb.migrateRatio * total < 10 * k * look v.counts hot
  match coolest s t v with
  | none => v
  | some dst =>
    if stillHot && v.left ≠ 0 && dst ≠ hot && (look v.counts dst + n) * k ≤ total then
      { counts := upd (upd v.counts dst (· + n)) hot (· - n), queue := v.queue ++ [(row, dst)], left := v.left - 1 }
    else v

/-- The rows of a shard in its engine's list, by descending count. -/
def listOf (s : State) (slot : Nat) (t : Table) (sh : Nat) : List (Nat × Nat) :=
  isort (((look s.eng.topRows (tableChannel s t sh)).filter (fun e => e.1 == slot && homeShard s t e.2.1 == sh
      && !t.migrations.any (fun m => m.row == e.2.1) && !t.queue.any (fun q => q.1 == e.2.1))).map (·.2))
    (fun a b => b.2 ≤ a.2)

/-- The migrations of one table at the end of an interval (R337). -/
def chooseTable (s : State) (slot : Nat) (t : Table) (left : Nat) : Choice :=
  let n := shardCount s t
  let total := sumBy (fun sh => look t.shardCounts sh) (List.range n)
  let hot := (List.range n).filter (fun sh => s.dev.cfg.emb.migrateRatio * total < 10 * n * look t.shardCounts sh)
  hot.foldl (fun v sh => (listOf s slot t sh).foldl (fun v r => chooseRow s t sh total v r.1 r.2) v)
    { counts := t.shardCounts, left }

/-- Every READY table in turn, then the counts and lists are cleared. -/
def chooseAll : List (Nat × Table) → Nat → State → State
  | [], _, s => s
  | (slot, t) :: ts, left, s =>
    if t.dropping then chooseAll ts left s
    else
      let v := chooseTable s slot t left
      chooseAll ts v.left (setTable slot (fun t => { t with queue := t.queue ++ v.queue }) s)

def endInterval (s : State) : State :=
  let s := chooseAll s.obj.tables s.dev.cfg.emb.migrateMax s
  let s := { s with
    obj := { s.obj with tables := mapTbl s.obj.tables (fun _ t => { t with lastCounts := t.shardCounts, shardCounts := [] }) }
    eng := { s.eng with topRows := [], lastInterval := s.now } }
  openAll s

/-- MIGRATION_INTERVAL (R336, R337). -/
def execMigrationInterval (s : State) : Host.Outcome State Fault Refusal :=
  .next (if awake s && s.eng.lastInterval + s.dev.cfg.emb.intervalMs * 1000000 ≤ s.now then endInterval s else s)

def migrationOf (t : Table) (row : Nat) : Option Migration := t.migrations.find? (fun m => m.row == row)

def setMigration (slot row : Nat) (f : Migration → Migration) (s : State) : State :=
  setTable slot (fun t => { t with migrations := t.migrations.map (fun m => if m.row == row then f m else m) }) s

/-- A migration's record closes: its old slot is a spare, another migration may open, a drop may end. -/
def closeMigration (slot row : Nat) (s : State) : State :=
  endDrop slot (openAll (setTable slot (fun t => { t with migrations := t.migrations.filter (fun m => m.row != row) }) s))

/-- The commands whose last held writes were released complete. -/
def completeWriters (ids : List Nat) (s : State) : State :=
  foldS (fun s id => match findCmd s id with
    | none => s
    | some c => if heldWrites s id then s else match c.result with
      | none => s
      | some r => finish c r s) (firstMet ids) s

/-- Requests that resolved to a row's old slot are served there. -/
def serveTimes (n slot row sh : Nat) (s : State) : State := foldS (fun s _ => serveRow slot row sh s) (List.range n) s

/-- The copy is done: its check matches and the row has its new home, or the row stays (R339). Held writes are
released either way (log 91, DEDUCED). -/
def copyDone (slot : Nat) (m : Migration) (good : Bool) (s : State) : State :=
  let t := tableAt s slot
  let new := (m.new, m.newSlot)
  let homes := if new = (initialShard s t m.row, initialSlot s t m.row) then del t.homes m.row else put t.homes m.row new
  let s := if good then
      bump (tableClk s t m.old) 0x0506 1 (bump (tableClk s t m.new) 0x0505 1
        (setTable slot (fun t => { t with homes }) s))
    else bump (tableClk s t (initialShard s t m.row)) 0x0508 1 (serveTimes m.draining slot m.row m.old s)
  let s := setMigration slot m.row (fun m => { m with switched := true, held := [] }) s
  let s := foldS (fun s h => setTable slot (writeRow m.row h.2) s) m.held s
  let s := if !good || m.draining = 0 then closeMigration slot m.row s else s
  completeWriters (m.held.map (·.1)) s

/-- MOVE_START reaches the old home, and Hod copies the row (R338, R339). -/
def execMoveStart (slot row : Nat) (crcOk : Bool) (s : State) : Host.Outcome State Fault Refusal :=
  .next (match migrationOf (tableAt s slot) row with
    | none => s
    | some m => if m.switched || !tableRuns s (tableAt s slot) then s else copyDone slot m crcOk s)

/-- ROW_DONE (R338): a counted request has been served at the old slot, or, forwarded by its stub, at the new home; at
zero, and unlocked, the old slot is a spare. -/
def rowReturned (slot : Nat) (m : Migration) (forwarded : Bool) (s : State) : State :=
  let t := tableAt s slot
  let s := if forwarded && m.switched then bump (tableClk s t m.old) 0x0504 1 (serveRow slot m.row m.new s)
    else serveRow slot m.row m.old s
  if m.draining = 1 ∧ m.switched then closeMigration slot m.row s
  else setMigration slot m.row (fun m => { m with draining := m.draining - 1 }) s

def execRowDone (slot row : Nat) (forwarded : Bool) (s : State) : Host.Outcome State Fault Refusal :=
  .next (match migrationOf (tableAt s slot) row with
    | none => s
    | some m => if m.draining = 0 ∨ !tableRuns s (tableAt s slot) then s else rowReturned slot m forwarded s)

end Sys2Proof.Machine
end

