-- ==== Sys2Proof/Machine/Retrieval.lean ====
section
/-! DEFINITION. Retrieval requests (R183 to R186, R208, R283 to R287, R303 to R320): RETRIEVE, RERANK, PACK,
RETRIEVE_RERANK_PACK, the retrievals of generations, templates and profiles. -/

namespace Sys2Proof.Machine

/-! ## Requests -/

/-- A request of the retrieval lane: a command, or the retrieval of a sequence. Fields it does not have are 0. -/
structure Req where
  who : Nat
  inLoop : Bool := false
  sid : Nat
  tenant : Nat
  index : Nat := 0
  encoder : Nat := 0
  cross : Nat := 0
  kind : Nat := 2
  vocab : Nat := 0
  ef : Nat := 0
  k : Nat := 0
  budget : Nat := 0
  maxPassages : Nat := 0
  splice : Bool := false
  feature : Nat := 0xFFFFFFFF
  deriving DecidableEq, Repr

/-- The parameters of R66, as a command or a stored profile holds them. -/
def reqOfBlock (who sid tenant : Nat) (inLoop : Bool) (b : List Byte) : Req :=
  { who, inLoop, sid, tenant, index := field b 0 8, encoder := field b 8 8, cross := field b 16 8
    kind := if inLoop then 0 else field b 48 1, vocab := field b 49 1, ef := field b 50 2, k := field b 52 2
    budget := field b 54 2, maxPassages := field b 56 2, splice := field b 59 1 == 1, feature := field b 60 4 }

def reqOfCmd (c : Cmd) : Req :=
  match c.op with
  | 0x0300 => { who := c.id, sid := c.sid, tenant := c.tenant, index := c.handle, encoder := c.arg 24 8
                kind := c.arg 16 1, vocab := c.arg 17 1, ef := c.arg 18 2, k := c.arg 20 2 }
  | 0x0301 => { who := c.id, sid := c.sid, tenant := c.tenant, cross := c.handle, feature := c.arg 16 4
                k := c.arg 20 2 }
  | 0x0302 => { who := c.id, sid := c.sid, tenant := c.tenant, budget := c.arg 24 2, maxPassages := c.arg 26 2 }
  | _ => reqOfBlock c.id c.sid c.tenant false c.params

/-- The retrieval slot that a request's query is tokenized with. -/
def retrievalVocab (s : State) (n : Nat) : Vocab := look s.obj.vocabs (8 + n)

def modelImage? (s : State) (sid h : Nat) : List Byte := ((modelOf s sid h).map (fun m => m.2.image)).getD []

/-! ## Checks at dispatch (R198, R283, R306, R308, R310) -/

/-- The tables that a feature profile names, with the handle's offset in it (R307). -/
def featureTables (p : List Byte) : List (Nat × Nat) :=
  ([0, 8, 16, 24, 32].map (fun o => (o, field p o 8))).filter (fun f => f.2 != 0)

def featureProfile (s : State) (r : Req) : Option (List Byte) :=
  if r.feature = 0xFFFFFFFF then none else find? (look s.tenants r.tenant).featureProfiles r.feature

/-- Whether every feature table is there, with rows of HIDDEN elements of the cross-encoder (R308). -/
def featuresOk (s : State) (r : Req) : Bool :=
  match featureProfile s r with
  | none => r.feature == 0xFFFFFFFF
  | some p => (featureTables p).all (fun f => match tableOf s r.sid f.2 with
      | some (_, t) => t.width == field (modelImage? s r.sid r.cross) 26 2 && !t.dropping
      | none => false)

def badAt (s : State) (o : Nat) : Refusal? := some (badResult s o 0)

/-- A model in use: READY (R133, R135). -/
def modelRefusal (s : State) (sid h o : Nat) : Refusal? :=
  match modelOf s sid h with
  | none => badAt s o
  | some (_, m) => if m.state = .ready then none else refuseWith .stateConflict (3 + 256 * m.state.code)

/-- An index in use: it is not dropping (R272). -/
def indexRefusal (s : State) (sid h o : Nat) : Refusal? :=
  match indexOf s sid h with
  | none => badAt s o
  | some (_, x) => if x.state = .dropping then refuseWith .stateConflict (5 + 256 * 3) else none

/-- The encoder's and cross-encoder's VOCAB against the vocabulary's TOKENS, and EOS for the framing (R198, R306). -/
def vocabFit (s : State) (img : List Byte) (v : List Byte) (needEos : Bool) (o : Nat) : Refusal? :=
  if imgVocab img < vocTokens v ∨ (needEos ∧ vocEos v = noToken) then badAt s o else none

def first? (l : List (Unit → Refusal?)) : Refusal? := l.findSome? (fun f => f ())

/-- RETRIEVE and RETRIEVE_RERANK_PACK; the offsets are those of the command, and of a profile's fields for a
retrieval of a sequence. -/
def walkRefusal (s : State) (r : Req) (rrp : Bool) : Refusal? :=
  let v := retrievalVocab s r.vocab
  first? [
    fun _ => indexRefusal s r.sid r.index (if rrp then 64 else 32),
    fun _ => if r.kind = 2 then none else modelRefusal s r.sid r.encoder (if rrp then 72 else 88),
    fun _ => if rrp then modelRefusal s r.sid r.cross 80 else none,
    fun _ => if r.kind = 0 ∨ rrp then vocabRefusal v else none,
    fun _ => if r.kind = 0 then vocabFit s (modelImage? s r.sid r.encoder) v.image false (if rrp then 113 else 81)
      else none,
    fun _ => if rrp then vocabFit s (modelImage? s r.sid r.cross) v.image true 113 else none,
    fun _ => if rrp ∧ !featuresOk s r then badAt s 124 else none]

/-- The packing vocabulary of a command that packs (R318). -/
def packRefusal (s : State) (c : Cmd) (tpl : Nat) : Refusal? :=
  match templateOf s c.sid tpl with
  | none => badAt s (if c.op = 0x0302 then 80 else 88)
  | some (_, t) => vocabRefusal (look s.obj.vocabs (tplVocab t.image))

/-- A splice's sequence is in BLOCKED_HOST or SWAPPED (R320). -/
def spliceRefusal (s : State) (c : Cmd) : Refusal? :=
  match seqOf s c.sid c.handle with
  | none => badAt s 32
  | some (_, q) => if takesInput q then none else refuseWith .stateConflict (2 + 256 * q.state.code)

/-- What a retrieval-lane command fails on at its dispatch; commands that need arrays fail where no course runs any
(R486). -/
def dispatchRefusal (s : State) (c : Cmd) : Refusal? :=
  match c.op with
  | 0x0300 => if stranded s then refuseWith .resourceRetired 0 else walkRefusal s (reqOfCmd c) false
  | 0x0301 => if stranded s then refuseWith .resourceRetired 0
      else first? [fun _ => modelRefusal s c.sid c.handle 32,
        fun _ => if featuresOk s (reqOfCmd c) then none else badAt s 80]
  | 0x0302 => packRefusal s c (c.arg 16 8)
  | 0x0303 => if stranded s then refuseWith .resourceRetired 0
      else first? [fun _ => walkRefusal s (reqOfCmd c) true,
        fun _ => if c.arg 59 1 = 1 then spliceRefusal s c else packRefusal s c (c.arg 24 8)]
  | 0x0704 | 0x0705 => textRefusal s c
  | _ => none

/-- A request's row: it fails at its dispatch, or its job runs; a walker that waited for its thread may start. -/
def retrievalJob (c : Cmd) (body : Row → State → State) (s : State) : State :=
  startWaiting (laneUse c (fun s => dispatchRefusal s c) body s)

/-! ## Queries (R207, R208, R211, R304) -/

/-- A query's tokens, or the result its request ends with. -/
def queryTokens (s : State) (kind slot descriptor : Nat) (text : List Byte) : Except Result (List Nat × Nat) :=
  if kind = 1 then .ok (words text, 0)
  else
    let v := (retrievalVocab s slot).image
    match tokenizeFinal v (ruleOf s v) text with
    | .ok ts _ bad => .ok (ts, bad)
    | .reject o => .error (badResult s descriptor o)

/-- The tokens of an encoder's input: framed (R208), but for the tokens of a RETRIEVE of kind 1, which ignores its
vocabulary field (R283; log 162, DEDUCED). -/
def encoderTokens (s : State) (r : Req) (ts : List Nat) : List Nat :=
  if r.kind = 1 ∧ r.cross = 0 then ts else frame (retrievalVocab s r.vocab).image ts

/-- Tokens padded to a multiple of 32 positions (R118). -/
def padded (ts : List Nat) : List Nat := ts ++ List.replicate (32 * ceilDiv ts.length 32 - ts.length) 0

/-- The number that stands for a request among the riders of its step. -/
def rowRider (row : Row) : Nat :=
  match row.kind with
  | none => 2 * row.who
  | some .inLoop => 2 * row.who + 1
  | _ => row.who

/-- A walk of a request in its step, with the code it brought, or a free one until its encoder gives the code (log 163,
DESIGN CHOICE). -/
def requestWalk (s : State) (row : Row) (c : Fin 4) (r : Req) : Walk :=
  { id := 0, query := 0, who := r.who, inLoop := r.inLoop, tenant := r.tenant, course := c
    index := handleSlot r.index, ef := max r.ef r.k, tile := row.tile.val, core := coreNumber row.tile row.core
    cores := row.walkers.map (fun x => coreNumber x.1 x.2)
    epoch := (indexAt s (handleSlot r.index)).epoch
    code := match r.kind, row.query with
      | 2, .data b => BitVec.ofNat 256 (leNat b)
      | _, _ => BitVec.ofNat 256 (Config.freeNat s.fresh) }

/-! ## Walk results (R285, R286) -/

def walkEntries (ws : List Walk) : List MergeEntry :=
  ws.flatMap (fun w => w.result.map (fun e => ⟨e.1, BitVec.ofNat 32 e.2.1⟩))

/-- The merge of a request's walkers (R276). -/
def mergedWalk (s : State) (r : Req) : List MergeEntry := topkMerge 0 r.k (walkEntries (walksOf s r.inLoop r.who))

def boundEpoch (s : State) (r : Req) : Nat := (((walksOf s r.inLoop r.who).head?).map (·.epoch)).getD 0

/-- Whether an identifier's entry came from a cold region. -/
def coldIdent (ws : List Walk) (i : Nat) : Bool := ws.any (fun w => w.result.any (fun e => e.1 == i && e.2.2))

def resultEntry (ws : List Walk) (e : MergeEntry) : List Byte :=
  leBytes 8 e.ident ++ leBytes 2 e.key.toNat ++ leBytes 1 (b2n (coldIdent ws e.ident)) ++ leBytes 5 0

def nullEntry : List Byte := leBytes 8 nullIdent ++ leBytes 2 0xFFFF ++ leBytes 6 0

/-- The search-result record (R285). -/
def searchRecord (s : State) (r : Req) : List Byte :=
  let ws := walksOf s r.inLoop r.who
  let es := mergedWalk s r
  leBytes 4 (boundEpoch s r) ++ leBytes 2 es.length ++ leBytes 2 r.k ++ leBytes 4 (sumBy (·.hops) ws)
    ++ leBytes 4 (sumBy (·.coldHops) ws) ++ leBytes 4 (sumBy (·.nulled) ws) ++ leBytes 4 (sumBy (·.unreadable) ws)
    ++ leBytes 8 0 ++ es.flatMap (resultEntry ws) ++ (List.replicate (r.k - es.length) nullEntry).flatten

/-- The version-1 record (R286). -/
def searchRecord1 (s : State) (r : Req) : List Byte :=
  (mergedWalk s r).flatMap (fun e => leBytes 8 e.ident ++ leBytes 4 e.key.toNat)

/-- A merge counted at the selection unit that serves a tile: its entries, k and NaN keys (R256, R260). -/
def countMerge (t : Fin 64) (entries k nans : Nat) (s : State) : State :=
  let clk := tileClk (unitTile s t)
  bump clk 0x0902 1 (bump clk 0x0903 (mergeCycles entries k) (bump clk 0x0904 nans s))

/-- Entries that resolve returned to the walkers of a request, null ones among them. -/
def resolvedOf (s : State) (r : Req) : Nat := sumBy (fun w => w.result.length + w.nulled) (walksOf s r.inLoop r.who)

/-- Every walk of a course's step has ended: stage 3 (R304). -/
def walksEnded (s : State) (c : Fin 4) : Bool := !s.eng.walks.any (fun w => w.course == c && !w.done)

/-- Whether the engines of a request's feature tables work (R345). -/
def featuresRun (s : State) (r : Req) : Bool :=
  match featureProfile s r with
  | none => true
  | some p => (featureTables p).all (fun f => match tableOf s r.sid f.2 with
      | some (_, t) => tableRuns s t
      | none => true)

def retrieveRun (c : Cmd) (row : Row) (s : State) : State :=
  let r := reqOfCmd c
  if !walksEnded s (c.course.getD 0) then s
  else
    let bytes := if compatMode s then searchRecord1 s r else searchRecord s r
    hold c (outResult s c bytes { value := (mergedWalk s r).length, detail := boundEpoch s r }) (countMerge row.tile (resolvedOf s r) r.k 0 s)

/-- RETRIEVE (R283 to R286). -/
def execRetrieve (cmd : Nat) (s : State) : Host.Outcome State Fault Refusal :=
  .next (runCmd cmd 0x0300 (fun c => retrievalJob c (retrieveRun c)) s)

/-! ## Fetch and features (R305, R308) -/

/-- A candidate's record, or the reason it is dropped with. -/
def fetchCand (k : Tbl Nat Record) (i : Nat) (score : F32) : Cand :=
  match find? k i with
  | none => { ident := i, score, reason := 1 }
  | some r => if r.unreadable then { ident := i, score, reason := 2, flash := r.inFlash }
    else { ident := i, score, text := recText r.bytes, check := r.check, flash := r.inFlash }

/-- The counts of a request's fetches (R322). -/
def countFetches (t : Fin 64) (k : Tbl Nat Record) (cs : List Cand) (s : State) : State :=
  let clk := tileClk t
  let got := cs.filter (fun c => c.reason == 0 && (find? k c.ident).isSome)
  bump clk 0x0403 ((cs.filter (fun c => c.reason == 1 || c.reason == 2)).length)
    (bump clk 0x0402 ((got.filter (·.flash)).length) (bump clk 0x0401 ((got.filter (fun c => !c.flash)).length) s))

/-- The rows of a feature that a record names (R308). -/
def featureRows (p : List Byte) (offset : Nat) (r : List Byte) : List Nat :=
  match offset with
  | 0 => [field r 12 4]
  | 8 => [field r 16 4]
  | 16 => [field r 10 2]
  | 24 => [min (field p 42 1 - 1) ((field p 44 4 - field r 20 4) / max 1 (field p 40 2))]
  | _ => (List.range (field r 24 1)).map (fun i => field r (32 + 4 * i) 4)

/-- The feature lookups of a request's candidates: rows in range are fetched, the others counted. -/
def lookupFeatures (t : Fin 64) (r : Req) (records : List (List Byte)) (s : State) : State :=
  match featureProfile s r with
  | none => s
  | some p => foldS (fun s f => match tableOf s r.sid f.2 with
      | none => s
      | some (slot, tb) =>
        let rows := records.flatMap (featureRows p f.1)
        bump (tileClk t) 0x0404 ((rows.filter (fun x => tb.rows ≤ x)).length)
          (fetchRows slot (firstMet (rows.filter (· < tb.rows))) s)) (featureTables p) s

/-! ## Scores (R306, R309) -/

/-- The scores of a request's live candidates: the head's result of each input of the cross-encoder chain (R118). -/
def scoresOf (s : State) (row : Row) (n : Nat) : List F32 :=
  let acts := (((courseOf s (Fin.ofNat 4 (row.tile.val / 16))).retrieval.step).map (·.acts)).getD []
  (List.range n).map (fun i =>
    ((acts.find? (fun a => a.head && a.tenant == row.tenant && a.rider == rowRider row && a.seg == i)).bind
      (·.result.head?)).getD nanF32)

/-- Candidates with their scores, in the order of the merge, those without a score after them (log 35, DEDUCED). -/
def rank (cs : List Cand) (scores : List F32) : List Cand :=
  let live := cs.filter (·.reason == 0)
  let scored := (live.zipIdx).map (fun c => { c.1 with score := (scores[c.2]?).getD nanF32 })
  let order := topkMerge 1 scored.length (scored.map (fun c => ⟨c.ident, c.score⟩))
  let ranked := order.filterMap (fun e => scored.find? (fun c => c.ident == e.ident && c.score == e.key))
  ranked ++ (scored.filter (fun c => isNanF32 c.score)).map (fun c => { c with reason := 3 })
    ++ cs.filter (·.reason != 0)

/-- See log 144, DEDUCED. -/
def scoredCount (cs : List Cand) : Nat := (cs.filter (·.reason == 0)).length

/-- The status of a request some of whose records could not be read: that of the first (R305). -/
def unreadStatus (cs : List Cand) : Option Status :=
  (cs.find? (fun c => c.reason == 2)).map (fun c => if c.flash then .dataLost else .uncorrectable)

/-- The cross-encoder's input of one candidate: BOS, query, EOS, passage, EOS, the passage cut to fit (R306). -/
def crossTokens (s : State) (img v : List Byte) (query : List Nat) (c : Cand) : List Nat :=
  let limit := imgContext img / 32 * 32
  let passage := match tokenizeFinal v (ruleOf s v) c.text with
    | .ok ts _ _ => ts
    | .reject _ => []
  let head := (if vocBos v = noToken then [] else [vocBos v]) ++ query ++ [vocEos v]
  head ++ passage.take (limit - head.length - 1) ++ [vocEos v]

/-- The feature rows of a record, each with its weight (R308). -/
def featureOcc (p : List Byte) (f : Nat) (record : List Byte) : List (Nat × Nat × F32) :=
  let rows := featureRows p f record
  let w := if f = 32 then fdiv oneF32 (toF32 (ofInt rows.length 0)) else oneF32
  (rows.zipIdx).map (fun x => (x.2, x.1, w))

/-- The sum of a record's feature rows that its input embedding takes; a row out of range gives nothing (R308; log 164,
DEDUCED). -/
def featureSum (s : State) (r : Req) (record : List Byte) : List F32 :=
  match featureProfile s r with
  | none => []
  | some p => (featureTables p).foldl (fun acc f => match tableOf s r.sid f.2 with
      | none => acc
      | some (_, t) =>
        let v := reduceBag t 0 ((featureOcc p f.1 record).filter (fun x => x.2.1 < t.rows))
        if acc.isEmpty then v else zipF fadd acc v) []

/-- A query too long for the cross-encoder (R306). -/
def queryTooLong (img : List Byte) (query : List Nat) : Bool := imgContext img / 32 * 32 < query.length + 3 + 32

/-! ## Candidate sets (R303) -/

def setIndexHandle (b : List Byte) : Nat := field b 0 8
def setKind (b : List Byte) : Nat := field b 8 1
def setVocab (b : List Byte) : Nat := field b 9 1
def setQueryLen (b : List Byte) : Nat := field b 10 2
def setCount (b : List Byte) : Nat := field b 12 4
def setQuery (b : List Byte) : List Byte := slice b 16 (setQueryLen b)

/-- The entries of a set: identifier and key, null entries skipped. -/
def setEntries (b : List Byte) : List (Nat × F32) :=
  let base := 16 + ceilDiv (setQueryLen b) 16 * 16
  ((List.range (setCount b)).map (fun i => (field b (base + 16 * i) 8, BitVec.ofNat 32 (field b (base + 16 * i + 8) 4)))).filter
    (fun e => e.1 != nullIdent)

/-- A set's fault: the offset in the set that VALUE reports, or none of the kind for R242. -/
inductive SetFault where
  | at_ (offset : Nat) | tooMany
  deriving DecidableEq, Repr

def setFault (s : State) (sid : Nat) (pack : Bool) (b : List Byte) : Option SetFault :=
  if b.length < 16 then some (.at_ 0)
  else if (indexOf s sid (setIndexHandle b)).isNone then some (.at_ 0)
  else if !pack ∧ 1 < setKind b then some (.at_ 8)
  else if !pack ∧ 3 < setVocab b then some (.at_ 9)
  else if (if pack then setQueryLen b ≠ 0 else !between 1 (setQueryLen b) 4096) then some (.at_ 10)
  else if 262144 < setCount b then some .tooMany
  else if setCount b = 0 ∨ b.length < 16 + ceilDiv (setQueryLen b) 16 * 16 + 16 * setCount b then some (.at_ 12)
  else none

def setRefusal (s : State) (f : SetFault) : Result :=
  match f with
  | .at_ o => badResult s 64 o
  | .tooMany => badResult s 64 0

/-- The cross-encoder chain of a course's retrieval step has been built and has ended. -/
def crossDone (s : State) (c : Fin 4) : Bool :=
  encodersDone s c && match (courseOf s c).retrieval.step with
    | some st => st.crossed
    | none => false

/-! ## RERANK (R303, R306, R309) -/

def rerankEntry (c : Cand) : List Byte := leBytes 8 c.ident ++ leBytes 4 c.score.toNat ++ leBytes 4 0
def rerankFill : List Byte := leBytes 8 nullIdent ++ leBytes 4 0xFF800000 ++ leBytes 4 0

/-- The checks of a RERANK's query against its cross-encoder (R198, R306). -/
def rerankRefusal (s : State) (c : Cmd) (b : List Byte) : Option Result :=
  let v := retrievalVocab s (setVocab b)
  let img := modelImage? s c.sid c.handle
  match vocabRefusal v with
  | some r => some r
  | none =>
    if imgVocab img < vocTokens v.image ∨ vocEos v.image = noToken then some (badResult s 64 9)
    else match queryTokens s (setKind b) (setVocab b) 64 (setQuery b) with
    | .error r => some r
    | .ok (ts, _) => if queryTooLong img ts then some (badResult s 64 16) else none

def rerankSet (c : Cmd) (row : Row) (b : List Byte) (s : State) : State :=
  match setFault s c.sid false b with
  | some f => hold c (setRefusal s f) s
  | none => match rerankRefusal s c b with
  | some r => hold c r s
  | none =>
    let keep := c.arg 20 2
    let k := corpusOf s (handleSlot (setIndexHandle b))
    let cs := (setEntries b).map (fun e => fetchCand k e.1 0)
    let s := countFetches row.tile k cs s
    let s := lookupFeatures row.tile (reqOfCmd c) ((cs.filter (·.reason == 0)).filterMap (fun x =>
      (find? k x.ident).map (·.bytes))) s
    let ranked := rank cs (scoresOf s row (cs.filter (·.reason == 0)).length)
    let n := scoredCount ranked
    let out := (ranked.filter (·.reason == 0)).take keep
    let bytes := out.flatMap rerankEntry ++ (List.replicate (keep - out.length) rerankFill).flatten
    let res : Result := match unreadStatus cs with
      | some st => { status := st, effect := .part, value := out.length + n * 65536 }
      | none => { value := out.length + n * 65536 }
    hold c (outResult s c bytes res) (countMerge row.tile n keep (ranked.countP (·.reason == 3))
      (bump (tileClk row.tile) 0x0400 n s))

/-- RERANK in its retrieval-lane step, its cross-encoder chain committed. -/
def execRerank (cmd : Nat) (set : Input) (s : State) : Host.Outcome State Fault Refusal :=
  .next (runCmd cmd 0x0301 (fun c => retrievalJob c (fun row s =>
    if crossDone s (c.course.getD 0) && featuresRun s (reqOfCmd c) then laneInput c set (rerankSet c row) s else s)) s)

/-! ## Packing a request (R316 to R320) -/

/-- The counts of a packer job (R322). -/
def countPack (t : Fin 64) (a : Packed) (s : State) : State :=
  let clk := tileClk t
  bump clk 0x0405 1 (bump clk 0x0406 a.packed (bump clk 0x0407 a.dropped (bump clk 0x0408 a.cuts
    (bump clk 0x0409 a.duplicates s))))

/-- What a packed prompt for OUTPUT completes with (R66, R318 to R320): NOTHING_PACKED when every candidate was
dropped, else the status of an unreadable record, else OK (log 90, DEDUCED). -/
def packResult (s : State) (c : Cmd) (cs : List Cand) (tpl : List Byte) (a : Packed) (report : Option Nat) (detail : Nat) :
    Result :=
  let writes := match report with
    | some o => [(64 + o, (reportBytes a).take (c.bdLen o / 16 * 16))]
    | none => []
  let base : Result := { value := packedValue a, detail, writes }
  if a.packed = 0 then { base with status := .nothingPacked, effect := .part }
  else
    let bytes := if tplTokenOut tpl then tokenBytesOf a.tokens else a.text
    if c.outLen < bytes.length then
      { base with status := .partialDone, effect := .none, count := bytes.length }
    else
      let r := { base with count := bytes.length, writes := (outputOffset s, bytes) :: writes }
      match unreadStatus cs with
      | some st => { r with status := st, effect := .part }
      | none => r

def packerFor (s : State) (tpl vocab : List Byte) (budget maxPassages : Nat) : Packer :=
  { template := tpl, vocab, rule := ruleOf s vocab, budget, maxPassages }

def packSet (c : Cmd) (row : Row) (b : List Byte) (s : State) : State :=
  match setFault s c.sid true b with
  | some f => hold c (setRefusal s f) s
  | none =>
    let tpl := row.template
    let v := look s.obj.vocabs (tplVocab tpl)
    let k := corpusOf s (handleSlot (setIndexHandle b))
    let cs := (setEntries b).map (fun e => fetchCand k e.1 e.2)
    let s := countFetches row.tile k cs s
    match packAll (packerFor s tpl v.image (c.arg 24 2) (c.arg 26 2)) cs with
    | none => hold c (badResult s 88 0) s
    | some a => hold c (packResult s c cs tpl a none 0) (countPack row.tile a s)

/-- PACK in its retrieval-lane step, after the stages of the others (R303, R304, R316). -/
def execPack (cmd : Nat) (set : Input) (s : State) : Host.Outcome State Fault Refusal :=
  .next (runCmd cmd 0x0302 (fun c => retrievalJob c (fun row s =>
    if crossDone s (c.course.getD 0) then laneInput c set (packSet c row) s else s)) s)

/-! ## RETRIEVE_RERANK_PACK (R304, R310, R320) -/

/-- Stages 5 to 8 of a request: candidates fetched, features looked up, scores ranked. -/
def rankWalk (row : Row) (r : Req) (s : State) : State × List Cand :=
  let t := row.tile
  let k := corpusOf s (handleSlot r.index)
  let cs := (mergedWalk s r).map (fun e => fetchCand k e.ident 0)
  let s := countFetches t k cs (countMerge t (resolvedOf s r) r.k 0 s)
  let s := lookupFeatures t r ((cs.filter (·.reason == 0)).filterMap (fun x => (find? k x.ident).map (·.bytes))) s
  let ranked := rank cs (scoresOf s row (cs.filter (·.reason == 0)).length)
  (countMerge t (scoredCount ranked) r.k (ranked.countP (·.reason == 3)) (bump (tileClk t) 0x0400 (scoredCount ranked) s), ranked)

/-- A splice of packed tokens (R144, R320): CONTEXT_FULL when they do not all fit. -/
def spliceResult (s : State) (c : Cmd) (cs : List Cand) (a : Packed) (epoch : Nat) : Result :=
  let writes := [(128, (reportBytes a).take (c.bdLen 64 / 16 * 16))]
  let base : Result := { value := packedValue a, detail := epoch, writes }
  if a.packed = 0 then { base with status := .nothingPacked, effect := .part }
  else match seqOf s c.sid c.handle with
  | none => badResult s 32 0
  | some (e, q) =>
    if overflows s q a.tokens then { base with status := .contextFull, effect := .none }
    else
      let r := { base with act := .splice e a.tokens }
      match unreadStatus cs with
      | some st => { r with status := st, effect := .part }
      | none => r

def rrpRun (c : Cmd) (row : Row) (s : State) : State :=
  let r := reqOfCmd c
  if !walked s false c.id || !crossDone s (c.course.getD 0) || !featuresRun s r then s
  else
    let epoch := boundEpoch s r
    let ranked := rankWalk row r s
    let s := ranked.1
    let cs := ranked.2
    let vocab := if r.splice then
        ((seqOf s c.sid c.handle).map (fun q => seqVocab s q.2)).getD []
      else (look s.obj.vocabs (tplVocab row.template)).image
    match packAll (packerFor s row.template vocab r.budget r.maxPassages) cs with
    | none => hold c (badResult s 118 0) s
    | some a =>
      let res := if r.splice then spliceResult s c cs a epoch else packResult s c cs row.template a (some 64) epoch
      hold c res (countPack row.tile a s)

/-- RETRIEVE_RERANK_PACK in its retrieval-lane step, its walks and chains done. -/
def execRetrieveRerankPack (cmd : Nat) (s : State) : Host.Outcome State Fault Refusal :=
  .next (runCmd cmd 0x0303 (fun c => retrievalJob c (rrpRun c)) s)

/-! ## The cross-encoder stage of a step (R304, R306) -/

/-- The request of a row. -/
def rowReq (s : State) (row : Row) : Option Req :=
  if row.kind = some .inLoop then
    (find? s.obj.seqs row.who).map (fun q => reqOfBlock row.who q.session row.tenant true row.profile)
  else (findCmd s row.who).map reqOfCmd

/-- The index whose corpus holds the passages of a row's request. -/
def setOrIndex (s : State) (row : Row) (r : Req) : Nat :=
  match row.query, (findCmd s row.who).any (fun c => row.kind.isNone && c.op == 0x0301) with
  | .data b, true => handleSlot (setIndexHandle b)
  | _, _ => handleSlot r.index

/-- The query tokens of a row's request that feeds a cross-encoder, with its candidates. -/
def crossInput (s : State) (row : Row) : Option (Req × List Nat × Nat × List Cand) := do
  let r ← rowReq s row
  if row.kind.isNone ∧ (findCmd s row.who).any (fun c => c.op == 0x0301) then
    match row.query with
    | .data b =>
      if (setFault s r.sid false b).isSome then none
      else match queryTokens s (setKind b) (setVocab b) 64 (setQuery b) with
        | .ok (ts, _) =>
          let k := corpusOf s (handleSlot (setIndexHandle b))
          some (r, ts, setVocab b, (setEntries b).map (fun e => fetchCand k e.1 0))
        | .error _ => none
    | _ => none
  else if r.cross = 0 then none
  else match row.query with
    | .data b => match queryTokens s r.kind r.vocab 96 b with
      | .ok (ts, _) => some (r, ts, r.vocab, (mergedWalk s r).map (fun e =>
          fetchCand (corpusOf s (handleSlot r.index)) e.ident 0))
      | .error _ => none
    | _ => none

/-- The cross-encoder work of a row: an input per candidate whose record is there, padded (R118, R306, R308). -/
def crossWorks (s : State) (row : Row) : List Work :=
  match crossInput s row with
  | none => []
  | some (r, ts, slot, cs) => match modelOf s r.sid r.cross with
    | none => []
    | some (m, md) => ((cs.filter (·.reason == 0)).zipIdx).map (fun c =>
        let tokens := crossTokens s md.image (retrievalVocab s slot).image ts c.1
        let record := (find? (corpusOf s (setOrIndex s row r)) c.1.ident).map (·.bytes)
        { tenant := row.tenant, rider := rowRider row, model := m, tokens := padded tokens, seg := c.2
          real := tokens.length, feature := (record.map (featureSum s r)).getD [] })

def setRetrieval (c : Fin 4) (f : LaneRec → LaneRec) (s : State) : State :=
  setCourse c (fun k => { k with retrieval := f k.retrieval }) s

/-- When every walk of the step has ended, the one cross-encoder chain of the step is built (R304). -/
def crossStage (c : Fin 4) (s : State) : State :=
  match (courseOf s c).retrieval.step with
  | none => s
  | some st =>
    if st.crossed || !encodersDone s c || !walksEnded s c then s
    else
      let works := st.rows.flatMap (crossWorks s)
      startActs c .retrieval (stageGroups works)
        (setRetrieval c (fun l => { l with step := l.step.map (fun st => { st with crossed := true }) }) s)

/-- The walk stage may have ended with this message. -/
def afterMessage (msg : Nat) (s t : State) : State :=
  match s.eng.net.find? (·.id == msg) with
  | none => t
  | some m => match walkOf s m.walk with
    | none => t
    | some w => crossStage w.course t

/-- SLOT_LOAD (R279, R304): the encoder stage of the step has ended. -/
def execSlotLoad (msg : Nat) (s : State) : Host.Outcome State Fault Refusal :=
  .next (match s.eng.net.find? (·.id == msg) with
    | none => s
    | some m => match walkOf s m.walk with
      | none => s
      | some w => if encodersDone s w.course then afterMessage msg s (receive msg isLoad onLoad s) else s)

/-- Another message of the hop protocol. -/
def deliverMsg (msg : Nat) (isKind : HopKind → Bool) (act : HopMsg → Walk → State → State) (s : State) : State :=
  startWaiting (afterMessage msg s (receive msg isKind act s))

/-- HOP_REQ (R279, R280, R295). -/
def execHopReq (msg : Nat) (s : State) : Host.Outcome State Fault Refusal := .next (deliverMsg msg isReq onRequest s)

/-- HOP_ACK (R280). -/
def execHopAck (msg : Nat) (s : State) : Host.Outcome State Fault Refusal := .next (deliverMsg msg isAck onAck s)

/-- HOP_FWD (R279, R280). -/
def execHopFwd (msg : Nat) (s : State) : Host.Outcome State Fault Refusal := .next (deliverMsg msg isFwd onFwd s)

/-- PAIR (R273, R280). -/
def execPair (msg : Nat) (s : State) : Host.Outcome State Fault Refusal := .next (deliverMsg msg isPair onPair s)

/-- RESOLVE (R276, R295). -/
def execResolve (msg : Nat) (s : State) : Host.Outcome State Fault Refusal := .next (deliverMsg msg isResolve onRequest s)

/-- ENTRY (R276). -/
def execEntry (msg : Nat) (s : State) : Host.Outcome State Fault Refusal := .next (deliverMsg msg isEntry onEntry s)

/-! ## INDEX_DROP and TABLE_DROP (R272, R328) -/

/-- The retrieval requests of the steps in flight, with their rows. -/
def rowsInStep (s : State) : List (Row × Req) :=
  (List.finRange 4).flatMap (fun c => match (courseOf s c).retrieval.step with
    | none => []
    | some st => (st.rows.filter (fun r => r.kind = some .inLoop ∨ (findCmd s r.who).any (fun k => k.op / 256 == 3))).filterMap
        (fun r => (rowReq s r).map (fun q => (r, q))))

/-- The tables from which they take features. -/
def tablesRead (s : State) : List Nat :=
  (rowsInStep s).flatMap (fun x => match featureProfile s x.2 with
    | none => []
    | some p => (featureTables p).filterMap (fun f => (tableOf s x.2.sid f.2).map (·.1)))

/-- The bindings of an index (R272). -/
def indexBound (s : State) (c : Cmd) (slot : Nat) (h : Nat) : Bool :=
  s.cmds.any (fun e => e.id != c.id && e.sid == c.sid && !([0x0406, 0x0405, 0x0504, 0x0005, 0x0006].contains e.op)
    && (e.handle == h || (e.op == 0x0303 && e.arg 0 8 == h)))
    || !(coursesUsing s slot).isEmpty || (rowsInStep s).any (fun x => setOrIndex s x.1 x.2 == slot)

/-- INDEX_DROP: the index is READY without bindings (R272). -/
def dropIndexRefusal (s : State) (c : Cmd) : Refusal? :=
  match indexOf s c.sid c.handle with
  | none => some (badResult s 32 0)
  | some (slot, x) =>
    if x.state ≠ .ready ∨ indexBound s c slot c.handle then inState 5 x.state.code else none

/-- INDEX_DROP: DROPPING from its dispatch, gone once its storage is freed. -/
def dropIndex (c : Cmd) (s : State) : State :=
  orRefuse c (if c.holds then none else dropIndexRefusal s c)
    (fun s => finish c {} (removeIndex (handleSlot c.handle) s)) s

/-- INDEX_DROP (R272). -/
def execIndexDrop (cmd : Nat) (s : State) : Host.Outcome State Fault Refusal :=
  .next (runCmd cmd 0x0406 dropIndex s)

/-- The bindings of a table: outstanding commands that name it, and retrieval-lane steps in flight whose requests take
features from it (R328). -/
def tableBound (s : State) (c : Cmd) : Bool :=
  s.cmds.any (fun e => e.id != c.id && e.sid == c.sid && e.handle == c.handle
    && !([0x0604, 0x0603, 0x0005].contains e.op))
    || (tablesRead s).contains (handleSlot c.handle)

/-- TABLE_DROP: the table is READY without bindings (R328). -/
def dropTableRefusal (s : State) (c : Cmd) : Refusal? :=
  match tableOf s c.sid c.handle with
  | none => some (badResult s 32 0)
  | some (_, t) => if t.dropping then inState 6 2 else if tableBound s c then inState 6 1 else none

def dropTable (c : Cmd) (s : State) : State :=
  match tableOf s c.sid c.handle with
  | none => badField c 32 0 s
  | some (slot, _) =>
    if c.begun then s
    else match (if c.holds then none else dropTableRefusal s c) with
    | some r => finish c r s
    | none => endDrop slot (setCmd c.id (fun k => { k with begun := true })
      (setTable slot (fun t => { t with dropping := true, ending := true, queue := [], dropCmd := some c.id }) s))

/-- TABLE_DROP (R328). -/
def execTableDrop (cmd : Nat) (s : State) : Host.Outcome State Fault Refusal :=
  .next (runCmd cmd 0x0604 dropTable s)

/-! ## Templates and profiles (R311, R314) -/

def templatesOfSession (s : State) (sid : Nat) : Nat := (s.obj.templates.filter (fun t => t.2.session == sid)).length

/-- The checks of an image after its header. -/
def templateBodyFault (t : List Byte) : Option (Status × Nat) :=
  if !trailerOk t then some (.checkMismatch, t.length - 8)
  else (tplStringFault t).map (fun o => (.invalidField, o))

def loadTemplate (t : List Byte) (c : Cmd) (s : State) : State :=
  match tplHeaderFault t with
  | some (st, o) => imageFault c st o s
  | none => match firstFree s.obj.templates 0 4096 with
    | none => fail c .templateSlotsFull 0 s
    | some slot =>
      if 16 ≤ templatesOfSession s c.sid then fail c .templateSlotsFull 0 s
      else match templateBodyFault t with
      | some (st, o) => imageFault c st o s
      | none =>
        let reuse := (look s.obj.templateReuse slot + 1) % 2 ^ 32
        finish c { value := mkHandle slot reuse }
          { s with obj := { s.obj with
            templates := put s.obj.templates slot { reuse, session := c.sid, tenant := c.tenant, image := t }
            templateReuse := put s.obj.templateReuse slot reuse } }

def replaceTemplate (t : List Byte) (c : Cmd) (s : State) : State :=
  match templateOf s c.sid c.imm with
  | none => badField c 56 0 s
  | some (slot, _) => match (tplHeaderFault t).orElse (fun _ => templateBodyFault t) with
    | some (st, o) => imageFault c st o s
    | none => finish c { value := c.imm }
        { s with obj := { s.obj with templates := adj s.obj.templates slot (fun x => { x with image := t }) } }

def freeTemplate (c : Cmd) (s : State) : State :=
  match templateOf s c.sid c.imm with
  | none => badField c 56 0 s
  | some (slot, _) => finish c {} { s with obj := { s.obj with templates := del s.obj.templates slot } }

/-- TEMPLATE_LOAD of a new template (R314). -/
def execTemplateLoad (cmd : Nat) (image : Input) (s : State) : Host.Outcome State Fault Refusal :=
  .next (runCmd cmd 0x0304 (fun c s => if c.imm = 0 then withInput c image (fun b => loadTemplate b c) s else s) s)

/-- TEMPLATE_LOAD that replaces a template (R314). -/
def execTemplateReplace (cmd : Nat) (image : Input) (s : State) : Host.Outcome State Fault Refusal :=
  .next (runCmd cmd 0x0304 (fun c s => if c.imm ≠ 0 ∧ c.bdLen 0 ≠ 0 then
    withInput c image (fun b => replaceTemplate b c) s else s) s)

/-- TEMPLATE_LOAD that frees a template (R314). -/
def execTemplateFree (cmd : Nat) (s : State) : Host.Outcome State Fault Refusal :=
  .next (runCmd cmd 0x0304 (fun c s => if c.imm ≠ 0 ∧ c.bdLen 0 = 0 then freeTemplate c s else s) s)

/-- A profile as it is stored: the query descriptor, query kind and destination of a retrieval profile are 0 (log 126,
DEDUCED). -/
def storedProfile (retrieval : Bool) (b : List Byte) : List Byte :=
  if retrieval then b.take 32 ++ List.replicate 17 0 ++ slice b 49 10 ++ [0] ++ slice b 60 4 else b

def putProfile (t : Tbl Nat (List Byte)) (n : Nat) (b : List Byte) : Tbl Nat (List Byte) :=
  if leNat b = 0 then del t n else put t n b

/-- PROFILE_SET (R311): the profile replaces the old one; all zeros clear the slot. -/
def setProfile (c : Cmd) (s : State) : State :=
  let n := c.arg 0 4 % 16
  let b := slice c.params 64 64
  let retrieval := c.arg 0 4 < 2 ^ 31
  finish c {} (setTenant c.tenant (fun t =>
    if retrieval then { t with retrievalProfiles := putProfile t.retrievalProfiles n (storedProfile true b) }
    else { t with featureProfiles := putProfile t.featureProfiles n b }) s)

def execProfileSet (cmd : Nat) (s : State) : Host.Outcome State Fault Refusal :=
  .next (runCmd cmd 0x0305 setProfile s)

end Sys2Proof.Machine
end

