-- ==== Sys2Proof/Machine/Fetch.lean ====
section
/-! DEFINITION. Fetching a command and the ordered checks of R62, admission and dispatch (R47, R48, R53 to R57, R61 to
R63, R67, R78, R79, R173), and refused host writes (R544). -/

namespace Sys2Proof.Machine

/-! ## Headers (R53, R55, R62) -/

/-- The header of the current layout. -/
def header2 (b : List Byte) : Header :=
  { opcode := BitVec.ofNat 16 (field b 0 2), flags := BitVec.ofNat 8 (field b 2 1), layout := BitVec.ofNat 8 (field b 3 1)
    slots := BitVec.ofNat 8 (field b 4 1), reserved := BitVec.ofNat 8 (field b 5 1)
    tenant := BitVec.ofNat 16 (field b 6 2), commandId := BitVec.ofNat 32 (field b 8 4)
    sid := BitVec.ofNat 32 (field b 12 4), tag := BitVec.ofNat 128 (field b 16 16)
    handle := BitVec.ofNat 64 (field b 32 8), output := slice b 40 16, imm := BitVec.ofNat 64 (field b 56 8) }

/-- The version-1 header. -/
def header1 (b : List Byte) : Header :=
  { opcode := BitVec.ofNat 16 (field b 0 2), flags := BitVec.ofNat 8 (field b 2 1), layout := BitVec.ofNat 8 (field b 3 1)
    commandId := BitVec.ofNat 32 (field b 4 4), tenant := BitVec.ofNat 16 (field b 8 2)
    slots := BitVec.ofNat 8 (field b 10 1), reserved := BitVec.ofNat 8 (field b 11 1)
    tag := BitVec.ofNat 128 (field b 12 16), sid := BitVec.ofNat 32 (field b 28 4), output := slice b 32 16
    handle := BitVec.ofNat 64 (field b 48 8), imm := BitVec.ofNat 64 (field b 56 8) }

/-- A header is read in the layout its own LAYOUT byte names, or else in the layout in force (R62). -/
def readHeader (s : State) (b : List Byte) : Header :=
  let l := field b 3 1
  if l = 2 then header2 b else if l = 1 then header1 b
  else if compatMode s then header1 b else header2 b

/-- The slots a command occupies (R62). -/
def slotsOf (b : List Byte) : Nat :=
  let l := field b 3 1
  if l = 2 then 1 + field b 4 1 % 64 else if l = 1 then 1 + field b 10 1 % 64 else 1

/-! ## Checks 1 to 4 -/

/-- The outcome of a check that failed: status, DETAIL and VALUE. -/
structure Refused where
  status : Status
  detail : Nat := 0
  value : Nat := 0
  deriving DecidableEq, Repr

/-- Check 3: the group is accepted on this function and port (R67), and the state of the device allows the command
(R440, R453; log 23, DEDUCED). -/
def groupCheck (s : State) (c : Cmd) (either : Bool) : Option Refused :=
  if c.op / 256 = 0x0F ∧ (c.fn ≠ 0 ∨ (c.port ≠ s.host.primary ∧ !either)) then some ⟨.notAuthorized, 4, 0⟩
  else if gate s c.op c.tenant = .barred then some ⟨.notAuthorized, 6, 0⟩
  else none

/-- Whether the tenant may use the function (R435). -/
def fnAllowed (s : State) (c : Cmd) : Bool := (quotasOf s c.tenant).functions.getLsbD c.fn

/-- Check 4 for commands that need an OPEN session (R62, R67, R72). -/
def sessionCheck (s : State) (c : Cmd) (either : Bool) : Option Refused :=
  let r := fun n => some (⟨.notAuthorized, n, 0⟩ : Refused)
  if c.op = 0x0F0C ∧ s.sec.lifecycle = .factory then none
  else match find? s.sessions c.sid with
  | none => r 1
  | some x =>
    if x.tenant ≠ c.tenant then r 1
    else if x.port ≠ c.port ∧ (x.state = .opened ∨ x.state = .detached) then r 5
    else if x.state ≠ .opened then r 1
    else if x.tag ≠ c.hdr.tag then r 2
    else if !fnAllowed s c then r 3
    else if c.op / 256 = 0x0F ∧ !either ∧ c.tenant ≠ 0 then r 7
    else none

/-- The three commands whose session R72 judges. -/
def opensSession (op : Nat) : Bool := op == 1 || op == 2 || op == 4

/-- Check 4; the rules of R72 replace it for the three, the function mask included (R62; log 179, DEDUCED). -/
def authCheck (s : State) (c : Cmd) (either : Bool) : Option Refused :=
  if opensSession c.op then none else sessionCheck s c either

/-! ## Check 5: scatter-gather lists (R57) -/

/-- Where the walk of one list ends: LENGTH covered, a CHAIN with the bytes left and its length, or a fault. -/
inductive SgEnd where
  | covered | chain (left len : Nat) | bad
  deriving DecidableEq, Repr

/-- The walk of one list: its bytes, at most `n` entries, `left` bytes to cover. An entry with both LAST and CHAIN set acts
as a CHAIN (log 177, DESIGN CHOICE). -/
def sgList : Nat → List Byte → Nat → SgEnd
  | 0, _, left => if left = 0 then .covered else .bad
  | n + 1, b, left =>
    if left = 0 then .covered
    else if b.length < 16 then .bad
    else
      let len := field b 8 4
      let flags := field b 12 1
      if flags ≥ 4 ∨ !zeroAt b 13 3 then .bad
      else if flags / 2 = 1 then
        if len % 16 = 0 ∧ 16 ≤ len ∧ len ≤ 4096 then .chain left len else .bad
      else if flags = 1 then (if left ≤ len then .covered else .bad)
      else sgList n (b.drop 16) (left - len)

/-- The walk of the lists of one descriptor, with at most `limit` entries in the first. -/
def sgWalk : List (List Byte) → Nat → Nat → Bool
  | [], _, left => left = 0
  | b :: bs, limit, left =>
    match sgList limit b left with
    | .covered => true
    | .bad => false
    | .chain l len => sgWalk bs (min 256 (len / 16)) l

/-- Offsets of the descriptors of a command: OUTPUT, and those of its parameter block. -/
def descriptors (c : Cmd) (info : OpInfo) : List (Nat × List Byte) :=
  (40, c.hdr.output) :: (info.bds.map (fun o => (64 + o, slice c.params o 16)))

/-- Whether a descriptor's scatter-gather lists, as read, are well formed. -/
def sgOk (s : State) (lists : List SgData) (o : Nat) (d : List Byte) : Bool :=
  if field d 12 1 = 1 ∧ field d 8 4 ≠ 0 then
    sgWalk (((lists.find? (fun l => l.offset == detailOffset s o)).map (·.lists)).getD []) 256 (field d 8 4)
  else true

/-! ## Check 5: descriptors (R56, R418) -/

/-- Whether a tenant may read a flash-tier range (R418). -/
def rangeOk (s : State) (tenant : Nat) (d : List Byte) : Bool :=
  match find? s.flash.namespaces (field d 14 2) with
  | none => false
  | some n => (n.tenant == tenant || n.tenant == 0) && field d 0 8 + field d 8 4 ≤ n.nsze

/-- Whether a descriptor is well formed; a buffer the device writes is never a flash-tier range. -/
def bdOk (s : State) (tenant : Nat) (isOutput : Bool) (d : List Byte) : Bool :=
  let kind := field d 12 1
  field d 13 1 = 0 && kind ≤ 2 && (kind = 2 || field d 14 2 = 0)
    && (kind ≠ 2 || field d 8 4 = 0 || (!isOutput && rangeOk s tenant d))

/-! ## Check 5 as a whole -/

/-- The header fields that fail (R8, R9, R53, R64): offsets of the current layout. -/
def headerFaults (c : Cmd) (info : OpInfo) : List Nat :=
  (if c.hdr.flags.toNat ≥ 8 then [2] else [])
  ++ (if c.hdr.slots.toNat = info.slots then [] else [4])
  ++ (if c.hdr.reserved = 0 then [] else [5])
  ++ (if c.tenant ≥ 1024 then [6] else [])
  ++ (if opensSession c.op ∧ c.hdr.tag ≠ 0 then [16] else [])

/-- Descriptors that fail. -/
def bdFaults (s : State) (c : Cmd) (info : OpInfo) (lists : List SgData) : List Nat :=
  ((descriptors c info).filter (fun d =>
    !(bdOk s c.tenant (d.1 == 40 || info.outBds.contains (d.1 - 64)) d.2 && sgOk s lists d.1 d.2))).map (·.1)

/-- Reserved parameter bytes that are not 0 (R9, R64). -/
def reservedFaults (c : Cmd) (info : OpInfo) : List Nat :=
  ((List.range (64 * info.slots)).filter (fun o =>
    !(info.fields.any (fun f => f.1 ≤ o && o < f.1 + f.2)) && field c.params o 1 ≠ 0)).map (64 + ·)

/-- The first failing field in the layout in force (R62, R63; log 98, DEDUCED). -/
def fieldCheck (s : State) (c : Cmd) (info : OpInfo) (lists : List SgData) : Option Refused :=
  let faults := (headerFaults c info ++ bdFaults s c info lists
    ++ (if info.looseReserved c then [] else reservedFaults c info) ++ opFaults s c).map (detailOffset s)
  match faults with
  | [] => none
  | o :: os => some ⟨.invalidField, os.foldl min o, 0⟩

/-! ## Checks 6 and 7 -/

/-- Check 6: the counted quotas of R435. -/
def quotaCheck (s : State) (c : Cmd) : Option Refused :=
  let q := quotasOf s c.tenant
  let full := fun (n : Nat) => some (⟨.quotaExceeded, n, 0⟩ : Refused)
  match c.op with
  | 0x0200 => if q.sequences ≤ (s.obj.seqs.filter (·.2.tenant == c.tenant)).length then full 2 else none
  | 0x0102 => if q.adapters ≤ (s.obj.adapters.filter (·.2.tenant == c.tenant)).length then full 3 else none
  | 0x0400 => if q.indices ≤ (s.obj.indices.filter (·.2.tenant == c.tenant)).length then full 6 else none
  | 0x0600 => if q.tables ≤ (s.obj.tables.filter (·.2.tenant == c.tenant)).length then full 7 else none
  | _ => none

/-- Commands of a tenant that wait in its admission queue (R78). -/
def queued (s : State) (t : Nat) : List Cmd := s.cmds.filter (fun c => c.phase == .queued && c.tenant == t)

/-- Commands dispatched per second, over the last 10 ms (R79). -/
def dispatchRate (s : State) (t : Nat) : Nat :=
  ((look s.tenants t).dispatches.filter (fun m => s.now - m < 10000000)).length * 100

/-- The retry hint of R79, in µs. -/
def retryHint (d : Nat) : Nat := if d = 0 then 100000 else min 100000 (ceilDiv 1000000 d)

/-- ATTEST commands that the Quoin holds (R444). -/
def attestsHeld (s : State) : Nat := (s.cmds.filter (·.op == 0x0F03)).length

/-- Check 7: room in the admission queue; groups 0x00 and 0x0F bypass it. The Quoin holds at most 64 ATTEST commands
(R444; log 130, DEDUCED). -/
def queueCheck (s : State) (c : Cmd) : Option Refused :=
  if c.op = 0x0F03 ∧ 64 ≤ attestsHeld s then
    some ⟨.busyRetry, depthOf s c.tenant, min 100000 (4000 * attestsHeld s)⟩
  else if c.op / 256 = 0 ∨ c.op / 256 = 0x0F then none
  else if (queued s c.tenant).length < depthOf s c.tenant then none
  else some ⟨.busyRetry, depthOf s c.tenant, retryHint (dispatchRate s c.tenant)⟩

/-- The checks of R62 in their order; the first that fails decides. -/
def checks (s : State) (c : Cmd) (lists : List SgData) : Option Refused :=
  if c.hdr.layout.toNat ≠ (if compatMode s then 1 else 2) then some ⟨.invalidField, 3, 0⟩
  else match opInfo c.op with
  | none => some ⟨.invalidOpcode, 0, 0⟩
  | some info =>
    (groupCheck s c info.either).orElse fun _ =>
    (authCheck s c info.either).orElse fun _ =>
    (fieldCheck s c info lists).orElse fun _ =>
    (quotaCheck s c).orElse fun _ => queueCheck s c

/-! ## Fetching -/

/-- The command that the slots hold, with the model's next internal number. -/
def cmdOf (s : State) (port : Fin 2) (fn ring : Nat) (b : List Byte) : Cmd :=
  let h := readHeader s b
  let group := h.opcode.toNat / 256
  { id := s.nextCmd, port, fn, ring, hdr := h, params := b.drop 64
    phase := if group = 0 ∨ group = 0x0F then .running else .queued, arrived := s.now }

/-- A command that passes its checks is outstanding (R74); its function carried a command of its session (R73). -/
def enrol (c : Cmd) (s : State) : State :=
  { s with
    cmds := s.cmds ++ [c], nextCmd := s.nextCmd + 1
    sessions := adj s.sessions c.sid (fun x => { x with
      fns := if x.fns.contains c.fn || x.port != c.port then x.fns else x.fns ++ [c.fn] }) }

/-- A command that fails a check completes at once (R62). -/
def refuse (c : Cmd) (r : Refused) (s : State) : State :=
  let s := if r.status = .busyRetry then setTenant c.tenant (fun t => { t with busyRetries := t.busyRetries + 1 }) s
    else s
  post c.pairKey (completionOf s c true
    { status := r.status, effect := .none, value := r.value, detail := r.detail }) s

/-- The slots of one command are read: SQ_HEAD moves past them, and the checks decide (R47, R62). -/
def takeCommand (k : PairKey) (b : List Byte) (lists : List SgData) (s : State) : State :=
  let p := pairOf s k
  let head := (p.sqHead.toNat + slotsOf b) % ringSize p.sqLog2
  let s := setPair k { p with sqHead := BitVec.ofNat 16 head } s
  let c := cmdOf s k.1 k.2.1 k.2.2 b
  match checks s c lists with
  | some r => refuse c r s
  | none => enrol c s

/-- Slots between SQ_HEAD and the last tail written. -/
def slotsReady (p : Pair) : Nat := (p.tail.toNat + ringSize p.sqLog2 - p.sqHead.toNat) % ringSize p.sqLog2

/-- Whether an earlier command of a ring pair has not posted its final completion (R54). A command with FENCE stays in its
ring until none has, since commands are admitted in ring order (R61; log 181, DESIGN CHOICE). -/
def pairBusy (s : State) (k : PairKey) : Bool := !pairQuiet s k || holdsOwn (pairOf s k)

/-- COMMAND_FETCH (R47, R48, R62): `slots` is what the ring's next slots hold, or none for a read error, which stops
the pair with ERROR_CODE 0x04 (R45). -/
def fetch (k : PairKey) (slots : Option (List Byte)) (lists : List SgData) (s : State) : State :=
  let p := pairOf s k
  if !mayFetch s k || slotsReady p = 0 then s
  else match slots with
  | none => ringError k 0x04 s
  | some b =>
    if slotsReady p < slotsOf b ∨ ((readHeader s b).flags.getLsbD 0 ∧ pairBusy s k) then s
    else takeCommand k (padTo (64 * slotsOf b) b) lists s

def execCommandFetch (port : Fin 2) (fn ring : Nat) (slots : Option (List Byte)) (lists : List SgData) (s : State) :
    Host.Outcome State Fault Refusal :=
  .next (if pairOk fn ring then fetch (port, fn, ring) slots lists s else s)

/-! ## Dispatch (R61, R78, R173) -/

/-- The commands that change the object that HANDLE names (R61, R135; log 129, DEDUCED). -/
def changes (op : Nat) : Bool :=
  [0x0101, 0x0102, 0x0103, 0x0201, 0x0202, 0x0203, 0x0204, 0x0205, 0x0303, 0x0401, 0x0402, 0x0403, 0x0404, 0x0406,
   0x0500, 0x0502, 0x0503, 0x0601, 0x0604, 0x0703, 0x0801, 0x0802].contains op

/-- The kind of object that HANDLE names, by the command's group: model, sequence, index, table, grammar or scan. -/
def handleKind (c : Cmd) : Nat :=
  if c.op = 0x0503 then (if c.arg 0 1 = 0 then 1 else 4)
  else if c.op = 0x0303 then 2 else if c.op / 256 = 5 then 4 else c.op / 256

/-- The object that a command changes, by kind and handle: INDEX_REPAIR changes one only when it starts a repair, and
SEQ_CREATE binds its model (R61, R135, R151). -/
def changed (c : Cmd) : Option (Nat × Nat) :=
  if c.op = 0x0200 then some (1, c.arg 0 8)
  else if changes c.op && !(c.op == 0x0404 && c.arg 0 1 == 1) && c.handle != 0 then some (handleKind c, c.handle)
  else none

/-- Whether an earlier command that changes the same object still holds a command (R61); two SEQ_CREATEs of one model do
not wait for each other. -/
def heldByHandle (s : State) (c : Cmd) : Bool :=
  (changed c).isSome &&
    s.cmds.any (fun e => e.phase == .running && e.id < c.id && e.sid == c.sid && changed e == changed c
      && !(e.op == 0x0200 && c.op == 0x0200))

/-- The commands that the retrieval lane runs (R152). -/
def retrievalOp (op : Nat) : Bool := [0x0300, 0x0301, 0x0302, 0x0303, 0x0602, 0x0704, 0x0705].contains op

/-- Requests that wait at a course's retrieval lane: commands, and retrievals of generations. -/
def laneRequests (s : State) (course : Fin 4) : Nat :=
  (s.cmds.filter (fun c => c.phase == .running && retrievalOp c.op && c.course == some course)).length
    + (s.obj.seqs.filter (fun q => q.2.course == course && q.2.retrieving)).length

/-- Whether a command may leave its queue now for a course: R61; to the retrieval lane only at its step
boundary, and up to what its next step can take (R173). -/
def mayDispatch (s : State) (course : Fin 4) (c : Cmd) : Bool :=
  !heldByHandle s c &&
    (!retrievalOp c.op || ((courseOf s course).retrieval.step.isNone
      && laneRequests s course < s.dev.cfg.sched.rlaneMaxReq))

/-- The head of a tenant's queue (R173). -/
def queueHead (s : State) (t : Nat) : Option Cmd := (queued s t).head?

/-- The tenants with queued work, in ascending number. -/
def queueTenants (s : State) : List Nat := (List.range 1024).filter (fun t => (queueHead s t).isSome)

/-- U_t ÷ w_t. -/
def shareOf (s : State) (t : Nat) : Rat := recentEu s t / (weightOf s t : Nat)

/-- The next command to dispatch: among the queue heads that may leave, the tenant with the lowest U_t ÷ w_t, the
lower number on a tie (R173). -/
def nextDispatch (s : State) (course : Fin 4) : Option Cmd :=
  let heads := (queueTenants s).filterMap (fun t =>
    (queueHead s t).bind (fun c => if mayDispatch s course c then some (t, c) else none))
  match heads with
  | [] => none
  | h :: hs => some (hs.foldl (fun b x => if shareOf s x.1 < shareOf s b.1 then x else b) h).2

/-- The strings of the template that a packing command names, as they stand at its dispatch (R314, R323). -/
def templateNow (s : State) (c : Cmd) : List Byte :=
  let h := if c.op = 0x0302 then c.arg 16 8 else if c.op = 0x0303 then c.arg 24 8 else 0
  ((templateOf s c.sid h).map (fun t => t.2.image)).getD []

/-- A command leaves its queue and runs (R74); the course is the Quoin's placement (log 1, DESIGN CHOICE; log 147,
DEDUCED). -/
def dispatch (c : Cmd) (course : Fin 4) (s : State) : State :=
  let s := setCmd c.id (fun x => { x with
    phase := .running, runnableAt := s.now, course := if retrievalOp c.op then some course else none, template := templateNow s c }) s
  setTenant c.tenant (fun t => { t with
    dispatches := t.dispatches.filter (fun m => s.now - m < 10000000) ++ [s.now], dispatched := t.dispatched + 1 }) s

/-! ## Refused host writes (R544) -/

/-- A refused translation: of a command's buffer, after `written` bytes of it; of a completion, which stops the ring pair
with ERROR_CODE 0x05 (log 100, DEDUCED); or of an NVMe command's transfer. -/
def writeFailed (t : WriteTarget) (s : State) : State :=
  match t with
  | .buffer id offset written => setCmd id (fun c => if c.failed.isSome then c else { c with failed := some (offset, written) }) s
  | .completion port fn ring =>
    let p := pairOf s (port, fn, ring)
    if p.enable && !p.error then ringError (port, fn, ring) 0x05 s else s
  | .nvme ctrl sq cid => { s with nvme := upd s.nvme ctrl (fun n => { n with refused := n.refused ++ [(sq, cid)] }) }

def execOutputWriteFailed (target : WriteTarget) (s : State) : Host.Outcome State Fault Refusal :=
  .next (writeFailed target s)

end Sys2Proof.Machine
end

