-- ==== Sys2Proof/Machine/Build.lean ====
section
/-! DEFINITION. Building a step (R17, R35, R152 to R172, R177, R185, R278, R287, R304, R547): candidates, share order,
acquisition, fill target and fill wait. -/

namespace Sys2Proof.Machine

/-! ## Allotment pools (R154, R547) -/

/-- The pool of an endpoint in a class; none for a class it never receives. -/
def pool (e : Endpoint) (m : MortarClass) : Option Nat :=
  match e, m with
  | _, .management => some 64
  | .array _, .operand | .array _, .reads | .array _, .writes => some 256
  | .array _, _ => none
  | .tile _, .moves => some 64
  | .tile _, _ => some 1024
  | .store _, .moves => some 64
  | .store _, .operand | .store _, .writes => some 256
  | .store _, _ => some 1024
  | .hop _, .operand => none
  | .hop _, .writes => some 512
  | .hop _, .moves => some 64
  | .hop _, _ => some 1024
  | .port _, .reads | .port _, .writes => some 4096
  | .port _, .moves => some 64
  | .port _, _ => none
  | .flash _, .reads | .flash _, .writes => some 1024
  | .flash _, .moves => some 64
  | .flash _, _ => none

/-- A lane's portion of a pool: the retrieval lane's share rounded down, the generation lane's the rest. -/
def portion (s : State) (lane : Lane) (n : Nat) : Nat :=
  let r := n * s.dev.cfg.sched.rlanePoolPct / 100
  match lane with
  | .retrieval => r
  | .generation => n - r

def laneOf (s : State) (c : Fin 4) (lane : Lane) : LaneRec :=
  match lane with
  | .generation => (courseOf s c).generation
  | .retrieval => (courseOf s c).retrieval

def setLane (c : Fin 4) (lane : Lane) (f : LaneRec → LaneRec) (s : State) : State :=
  setCourse c (fun k => match lane with
    | .generation => { k with generation := f k.generation }
    | .retrieval => { k with retrieval := f k.retrieval }) s

/-- The rows of a lane's steps in flight, on every course. -/
def laneRows (s : State) (lane : Lane) : List Row :=
  (List.finRange 4).flatMap (fun c => ((laneOf s c lane).step.map (·.rows)).getD [])

/-- The allotments that a candidate's jobs hold as the supervisor names them: for each job one at each endpoint and
class that has a pool, never of the management class (R37). -/
def namedAllots (j : Job) : List (Endpoint × MortarClass) :=
  j.allots.flatMap (fun a => (a.filter (fun x => x.2 != .management && (pool x.1 x.2).isSome)).dedup)

/-- The endpoint of a hop engine or a store's hop engine. -/
def engineEnd (e : Nat) : Endpoint := if 160 ≤ e then .store (Fin.ofNat 4 (e - 160)) else .hop (Fin.ofNat 96 (e - 64))

/-- The allotments of a query's walkers: each holds hop traffic at its tile and at every engine of the index, which
receive its messages (R279, R547). -/
def walkAllots (tiles : List (Fin 64)) (engines : List Nat) : List (Endpoint × MortarClass) :=
  tiles.flatMap (fun t => (.tile t, .hop) :: engines.map (fun e => (engineEnd e, .hop)))

/-- Whether the lane's portions cover a candidate's jobs beside those already in its steps and in the build. -/
def allotsFit (s : State) (lane : Lane) (built : List Row) (a : List (Endpoint × MortarClass)) : Bool :=
  a.all (fun x => match pool x.1 x.2 with
    | none => true
    | some n => sumBy (fun r => r.allots.count x) (laneRows s lane ++ built) + a.count x ≤ portion s lane n)

/-- Whether the semaphores that a candidate's jobs take are free (R36). -/
def semaphoresFree (s : State) (built : List Row) (j : Job) : Bool :=
  j.semaphores.all (fun x => !(laneRows s .generation ++ laneRows s .retrieval ++ built).any (fun r =>
    r.semaphores.contains x))

/-! ## Candidates -/

/-- A candidate of a lane: a sequence's table entry with the kind of its row, or a command. -/
structure Candidate where
  who : Nat
  kind : Option RowKind := none
  tenant : Nat := 0
  model : Nat := 0
  version : Option (Nat × Nat) := none
  /-- the moment it became runnable -/
  since : Nat := 0
  /-- the starvation guard has reached it (R165, R225, R278) -/
  guarded : Bool := false
  deriving DecidableEq, Repr

/-- Whether a sequence has rows to offer at a build of its course. -/
def hasRows (c : Fin 4) (q : Seq) : Bool :=
  q.course == c && !q.inFlash && q.swap == .none && (q.state == .prefill || q.state == .decode)
    && q.run.any (fun r => !r.flushing)

def starveSteps (s : State) : Nat := s.dev.cfg.sched.starveSteps

def seqCandidate (s : State) (e : Nat) (q : Seq) : Candidate :=
  { who := e, kind := some (if q.state = .decode then .decode else .chunk q.input.length), tenant := q.tenant
    model := q.model, version := q.adapter, since := q.runnableAt, guarded := starveSteps s ≤ q.starved }

/-- The tokenize job of a SEQ_APPEND that runs; a token append waits for the carry's flush (R210). -/
def appendCandidate (s : State) (c : Fin 4) (k : Cmd) : Option Candidate :=
  if k.op ≠ 0x0201 ∨ k.phase ≠ .running ∨ k.result.isSome ∨ k.cancel then none
  else match seqOf s k.sid k.handle with
    | none => none
    | some (_, q) =>
      if q.course = c ∧ takesInput q ∧ (k.arg 16 1 = 0 ∨ q.carry.isEmpty) then
        some { who := k.id, kind := some (.append k.id), tenant := k.tenant, model := q.model, since := k.runnableAt }
      else none

def generationCandidates (s : State) (c : Fin 4) : List Candidate :=
  (s.obj.seqs.filter (fun q => hasRows c q.2)).map (fun q => seqCandidate s q.1 q.2)
    ++ s.cmds.filterMap (appendCandidate s c)

/-- Requests of the retrieval lane that need arrays (R486). -/
def needsArrays (op : Nat) : Bool := op == 0x0300 || op == 0x0301 || op == 0x0303

/-- Whether a course can run a request: with arrays and tiles, or on tiles alone. -/
def courseTakes (s : State) (c : Fin 4) (arrays : Bool) : Bool :=
  takesWork s (fabricClk c) && if arrays then courseRuns s c else !(courseOf s c).lost && !(tilesUp s c).isEmpty

/-- The key under which a lane counts the builds that left a request out. -/
def leftKey (inLoop : Bool) (who : Nat) : Nat := 2 * who + b2n inLoop

/-- A command that waits for a course's retrieval lane; one whose course cannot run it goes to another course (R486). -/
def commandCandidate (s : State) (c : Fin 4) (k : Cmd) : Option Candidate :=
  let here := match k.course with
    | some d => d == c || !courseTakes s d (needsArrays k.op)
    | none => false
  if !here ∨ k.phase ≠ .running ∨ !retrievalOp k.op ∨ k.result.isSome ∨ k.cancel ∨ (laneRow s k).isSome
      ∨ (dispatchRefusal s k).isSome ∨ !courseTakes s c (needsArrays k.op) then none
  else some { who := k.id, tenant := k.tenant, since := k.runnableAt
              guarded := starveSteps s ≤ look (laneOf s c .retrieval).leftOut (leftKey false k.id) }

/-- A generation whose trigger waits for its retrieval (R185). -/
def loopCandidate (s : State) (c : Fin 4) (e : Nat) (q : Seq) : Option Candidate :=
  if q.course = c ∧ q.retrieving ∧ courseRuns s c then
    some { who := e, kind := some .inLoop, tenant := q.tenant, model := q.model, since := q.enteredAt
           guarded := starveSteps s ≤ look (laneOf s c .retrieval).leftOut (leftKey true e) }
  else none

def retrievalCandidates (s : State) (c : Fin 4) : List Candidate :=
  s.cmds.filterMap (commandCandidate s c) ++ s.obj.seqs.filterMap (fun q => loopCandidate s c q.1 q.2)

def candidatesOf (s : State) (c : Fin 4) (lane : Lane) : List Candidate :=
  match lane with
  | .generation => generationCandidates s c
  | .retrieval => retrievalCandidates s c

/-! ## Deficits and share order (R172) -/

/-- Q: what the lane's previous step charged, or a million EU. -/
def stepQ (l : LaneRec) : Rat := if l.previous = 0 then 1000000 else l.previous

/-- The deficits at a build. -/
def newDeficits (s : State) (l : LaneRec) (tenants : List Nat) : Tbl Nat Rat :=
  let q := stepQ l
  let w : Rat := (sumBy (weightOf s) tenants : Nat)
  let kept := l.deficits.filterMap (fun d =>
    if tenants.contains d.1 then none else if 0 < d.2 then none else some d)
  kept ++ tenants.map (fun t => (t, min (look l.deficits t + q * (weightOf s t : Nat) / w) (2 * q)))

/-- Share order: the larger deficit, the lower tenant, the older candidate. -/
def sharesFirst (d : Tbl Nat Rat) (a b : Candidate) : Bool :=
  let x := look d a.tenant
  let y := look d b.tenant
  if x ≠ y then y < x
  else if a.tenant ≠ b.tenant then a.tenant < b.tenant
  else if a.since ≠ b.since then a.since < b.since else a.who < b.who

def olderFirst (a b : Candidate) : Bool := if a.since ≠ b.since then a.since < b.since else a.who < b.who

/-- The first of a list in an order. -/
def pickFirst (lt : Candidate → Candidate → Bool) : List Candidate → Option Candidate
  | [] => none
  | x :: xs => some (xs.foldl (fun b y => if lt y b then y else b) x)

/-! ## A build under way -/

/-- What a build has taken and left so far. -/
structure Building where
  rows : List Row := []
  deficits : Tbl Nat Rat := []
  rowsLeft : Nat := 0
  /-- page bytes, and query slots by engine, that the rows take -/
  bytes : Nat := 0
  engines : List Nat := []
  /-- engines without a slot for a request left out -/
  full : List Nat := []
  /-- candidates left out by the row limit, share order, allotments or query slots; and for want of pages -/
  left : List Candidate := []
  noPages : List Candidate := []
  /-- candidates that this build does not offer, the lane taking the other index mode (R287) -/
  others : List Candidate := []
  outAllots : Nat := 0
  guards : Nat := 0
  deriving DecidableEq, Repr

/-- The job of a candidate in the supervisor's placement; without one it is placed on the course's first tile (log 110,
DESIGN CHOICE). -/
def jobOf (jobs : List Job) (x : Candidate) : Job :=
  let isCmd := match x.kind with
    | none | some (.append _) => true
    | _ => false
  (jobs.find? (fun j => j.isCmd == isCmd && j.cand == x.who)).getD { isCmd, cand := x.who }

/-- The tile of a job: the one named, if it works, and a grammar-held sequence's mask tile (R222). -/
def placeTile (s : State) (c : Fin 4) (j : Job) (x : Candidate) : Fin 64 :=
  let named : Fin 64 := Fin.ofNat 64 (c.val * 16 + j.tile.val)
  match x.kind, find? s.obj.seqs x.who with
  | some .decode, some q | some (.chunk _), some q =>
    if q.grammar.isSome then Fin.ofNat 64 q.maskTile else if tileUp s named then named else jobTile s c
  | _, _ => if tileUp s named then named else jobTile s c

def baseRow (s : State) (c : Fin 4) (j : Job) (x : Candidate) : Row :=
  { who := x.who, kind := x.kind, tenant := x.tenant, model := x.model, version := x.version, allots := namedAllots j
    semaphores := j.semaphores, tile := placeTile s c j x, core := j.core, query := j.query
    walkers := j.walkers.map (fun w =>
      let t : Fin 64 := Fin.ofNat 64 (c.val * 16 + w.1.val)
      (if tileUp s t then t else jobTile s c, w.2)) }

/-- A row enters the build; its estimate leaves its tenant's deficit. -/
def takeRow (r : Row) (guarded : Bool) (b : Building) : Building :=
  { b with rows := b.rows ++ [r], deficits := upd b.deficits r.tenant (fun d => d - r.estimate)
           guards := b.guards + b2n guarded }

def leaveOut (x : Candidate) (allot : Bool) (b : Building) : Building :=
  { b with left := b.left ++ [x], outAllots := b.outAllots + b2n allot }

/-- Offers candidates in an order until none is left. -/
def offerAll (offer : Candidate → Building → Building) (order : Building → List Candidate → Option Candidate) :
    Nat → List Candidate → Building → Building
  | 0, _, b => b
  | n + 1, xs, b => match order b xs with
    | none => b
    | some x => offerAll offer order n (xs.filter (· != x)) (offer x b)

def inShares (b : Building) (xs : List Candidate) : Option Candidate := pickFirst (sharesFirst b.deficits) xs
def byAge (_ : Building) (xs : List Candidate) : Option Candidate := pickFirst olderFirst xs

/-! ## Rows of the generation lane (R143, R162 to R165, R177) -/

/-- Page spans that a row adds: through position committed - 1 for a decode row, through the chunk's last (log 114,
DEDUCED). -/
def newSpans (q : Seq) (chunk : Nat) : Nat := ceilDiv (q.tokens.length + chunk) 16 - q.spans

def spanBytes (s : State) (q : Seq) : Nat := let img := seqImage s q; imgLayers img * pageBytes img

/-- Jobs that hold a thread of a core or wait for one, the build's own among them (R17). -/
def threadsTaken (s : State) (b : Building) (t : Fin 64) (core : Fin 64) : Nat :=
  coreJobs s (coreNumber t core) + (b.rows.filter (fun r => r.kind == some (.append r.who) && r.tile == t
    && r.core == core)).length

/-- Page numbers for the new spans of a row. -/
def rowPages (s : State) (c : Fin 4) (b : Building) (q : Seq) (spans : Nat) : List Nat :=
  freePages (pageNumbers s c ++ b.rows.flatMap (·.pages)) (spans * imgLayers (seqImage s q))

/-- A chunk's length: min(CHUNK, pending, rows left), and none when too few rows are left (R164); no chunk reaches past
CONTEXT (R144). -/
def chunkLen (s : State) (q : Seq) (rowsLeft : Nat) : Option Nat :=
  let pending := min q.input.length (seqContext s q - q.tokens.length)
  if rowsLeft < min 32 pending then none else some (min s.dev.cfg.sched.chunk (min pending rowsLeft))

/-- A sequence's row with its pages and its place, once the row limit allows it. -/
def offerPages (s : State) (c : Fin 4) (jobs : List Job) (x : Candidate) (q : Seq) (chunk rows : Nat) (b : Building) :
    Building :=
  let j := jobOf jobs x
  let spans := newSpans q chunk
  let bytes := spans * spanBytes s q
  if !allotsFit s .generation b.rows (namedAllots j) || !semaphoresFree s b.rows j then leaveOut x true b
  else if bytes ≠ 0 ∧ pagePool s c.val < b.bytes + bytes then { b with noPages := b.noPages ++ [x] }
  else
    let r := { baseRow s c j x with
      spans, pages := rowPages s c b q spans, estimate := rowCost (seqImage s q) * (rows : Nat)
      kind := some (if chunk = 0 then .decode else .chunk chunk) }
    { takeRow r x.guarded b with rowsLeft := b.rowsLeft - rows, bytes := b.bytes + bytes }

def offerRow (s : State) (c : Fin 4) (jobs : List Job) (x : Candidate) (b : Building) : Building :=
  match x.kind, find? s.obj.seqs x.who with
  | some .decode, some q => if b.rowsLeft = 0 then leaveOut x false b else offerPages s c jobs x q 0 1 b
  | some (.chunk _), some q => match chunkLen s q b.rowsLeft with
    | none => leaveOut x false b
    | some n => if n = 0 then leaveOut x false b else offerPages s c jobs x q n n b
  | some (.append _), _ =>
    let j := jobOf jobs x
    let r := baseRow s c j x
    if !allotsFit s .generation b.rows r.allots || !semaphoresFree s b.rows j then leaveOut x true b
    else if 4 ≤ threadsTaken s b r.tile r.core then leaveOut x false b
    else takeRow r false b
  | _, _ => b

/-- Every row that could be built lacks pages: the oldest takes them from the reserve, a chunk as far as the free bytes
reach (R177; log 112, DEDUCED). -/
def offerReserve (s : State) (c : Fin 4) (jobs : List Job) (b : Building) : Building × Bool :=
  if b.rows.any (fun r => r.kind != some (.append r.who)) || b.left.any (fun x => x.kind != some (.append x.who)) then
    (b, false)
  else match pickFirst olderFirst b.noPages with
    | none => (b, false)
    | some x => match find? s.obj.seqs x.who with
      | none => (b, false)
      | some q =>
        let room := freeBytes s c.val / max 1 (spanBytes s q)
        let want := match x.kind with
          | some (.chunk _) => (chunkLen s q b.rowsLeft).getD 0
          | _ => 0
        let chunk := min want ((q.spans + room) * 16 - q.tokens.length)
        if room = 0 ∨ (want ≠ 0 ∧ chunk = 0) then (b, false)
        else
          let r := { baseRow s c (jobOf jobs x) x with
            spans := newSpans q chunk, pages := rowPages s c b q (newSpans q chunk), estimate := rowCost (seqImage s q) * (max 1 chunk : Nat)
            kind := some (if want = 0 then .decode else .chunk chunk) }
          ({ takeRow r false b with noPages := b.noPages.filter (· != x) }, true)

/-- The generation lane's build: guarded rows, decode rows, prefill chunks, tokenize jobs. -/
def buildGeneration (s : State) (c : Fin 4) (jobs : List Job) (d : Tbl Nat Rat) : Building × Bool :=
  let xs := generationCandidates s c
  let isRow := fun (x : Candidate) => match x.kind with
    | some (.append _) => false
    | _ => true
  let isDecode := fun (x : Candidate) => x.kind == some .decode
  let offer := offerRow s c jobs
  let run := fun order l b => offerAll offer order (l.length + 1) l b
  let b : Building := { deficits := d, rowsLeft := s.dev.cfg.sched.maxGroups * 32 }
  let b := run byAge (xs.filter (fun x => x.guarded && isRow x)) b
  let b := run inShares (xs.filter (fun x => !x.guarded && isDecode x)) b
  let b := run inShares (xs.filter (fun x => !x.guarded && isRow x && !isDecode x)) b
  let b := run inShares (xs.filter (fun x => !isRow x)) b
  offerReserve s c jobs b

/-! ## Requests of the retrieval lane (R168, R172, R278, R287) -/

/-- The retrieval profile of a generation's retrieval. -/
def profileOf (s : State) (q : Seq) : Option (List Byte) := find? (look s.tenants q.tenant).retrievalProfiles q.profile

/-- The budget of a generation's packer (R185). -/
def loopBudget (s : State) (q : Seq) (r : Req) : Nat := min r.budget (seqContext s q - q.tokens.length - 1)

/-- The text of a query span (R184): its last 512 tokens. -/
def spanText (s : State) (q : Seq) : List Byte :=
  detokenize (seqVocab s q) q.trigger (q.span.drop (q.span.length - 512))

/-- The request of a candidate, with its row. -/
def candidateReq (s : State) (x : Candidate) : Option Req :=
  if x.kind = some .inLoop then do
    let q ← find? s.obj.seqs x.who
    let p ← profileOf s q
    pure (reqOfBlock x.who q.session q.tenant true p)
  else (findCmd s x.who).map reqOfCmd

/-- Whether a request runs a walk. -/
def walks (s : State) (x : Candidate) : Bool :=
  x.kind == some .inLoop || (findCmd s x.who).any (fun k => k.op == 0x0300 || k.op == 0x0303)

/-- The index slot that a request walks. -/
def walkIndex (s : State) (x : Candidate) : Option Nat :=
  if walks s x then (candidateReq s x).bind (fun r => (indexOf s r.sid r.index).map (·.1)) else none

def isExtended (s : State) (x : Candidate) : Bool := (walkIndex s x).any (fun n => (indexAt s n).extended)

/-- The tokens of a query, for its length. -/
def queryLength (s : State) (r : Req) (i : Input) : Nat :=
  match i with
  | .data b => match queryTokens s r.kind r.vocab 64 b with
    | .ok (ts, _) => (padded (encoderTokens s r ts)).length
    | .error _ => 0
  | _ => 0

/-- The candidates that a request re-ranks. -/
def reranked (r : Req) (op : Nat) (i : Input) : Nat :=
  match op, i with
  | 0x0301, .data b => (setEntries b).length
  | 0x0301, _ => 0
  | _, _ => r.k

/-- The estimate of a request (R172). -/
def requestEstimate (s : State) (x : Candidate) (r : Req) (i : Input) : Rat :=
  let op := if x.kind.isSome then 0x0303 else ((findCmd s x.who).map (·.op)).getD 0
  let enc := if (op = 0x0300 ∨ op = 0x0303) ∧ r.kind ≠ 2 then
      rowCost (modelImage? s r.sid r.encoder) * (queryLength s r i : Nat) else 0
  let cross := if op = 0x0301 ∨ op = 0x0303 then
      let img := modelImage? s r.sid r.cross
      rowCost img * (reranked r op i * (imgContext img / 32 * 32) : Nat) else 0
  enc + cross

/-- The engines on which a request finds no query slot beside those that the build takes. -/
def fullEngines (s : State) (b : Building) (es : List Nat) : List Nat :=
  es.filter (fun e => slotLimit e ≤ slotsUsed s e + (b.engines.filter (· == e)).length)

/-- The query of a request: the span of a generation, or what its descriptor brings. -/
def queryOf (s : State) (x : Candidate) (j : Job) : Input :=
  if x.kind = some .inLoop then
    match find? s.obj.seqs x.who with
    | some q => .data (spanText s q)
    | none => .data []
  else j.query

/-- The strings and the profile that a row keeps through its step (R323). -/
def keptOf (s : State) (x : Candidate) : List Byte × List Byte :=
  if x.kind = some .inLoop then
    match find? s.obj.seqs x.who with
    | some q =>
      let p := (profileOf s q).getD []
      (((templateOf s q.session (field p 24 8)).map (fun t => t.2.image)).getD [], p)
    | none => ([], [])
  else (((findCmd s x.who).map (·.template)).getD [], [])

def offerRequest (s : State) (c : Fin 4) (jobs : List Job) (x : Candidate) (b : Building) : Building :=
  match candidateReq s x with
  | none => b
  | some r =>
    let j := jobOf jobs x
    let es := match walkIndex s x with
      | some n => enginesOf s (indexAt s n)
      | none => []
    let base := baseRow s c j x
    let walkers := if es.isEmpty then []
      else (List.range (idxWalkers (indexAt s ((walkIndex s x).getD 0)))).map (fun i =>
        if i = 0 then base.tile else ((base.walkers[i - 1]?).map (·.1)).getD base.tile)
    let base := { base with allots := base.allots ++ walkAllots walkers es }
    if b.rowsLeft = 0 then leaveOut x false b
    else if !allotsFit s .retrieval b.rows base.allots || !semaphoresFree s b.rows j then leaveOut x true b
    else if !(fullEngines s b es).isEmpty then
      { leaveOut x false b with full := b.full ++ fullEngines s b es }
    else
      let q := queryOf s x j
      let kept := keptOf s x
      let row := { base with
        query := q, estimate := requestEstimate s x r q, template := kept.1, profile := kept.2 }
      { takeRow row x.guarded b with rowsLeft := b.rowsLeft - 1, engines := b.engines ++ es }

/-- The retrieval lane's build: requests of resident and of extended indices take turns (R287). -/
def buildRetrieval (s : State) (c : Fin 4) (jobs : List Job) (d : Tbl Nat Rat) : Building × Bool :=
  let xs := retrievalCandidates s c
  let ext := xs.any (isExtended s) && ((courseOf s c).extendedTurn
    || !xs.any (fun x => (walkIndex s x).isSome && !isExtended s x))
  let mine := fun x => (walkIndex s x).isNone || isExtended s x == ext
  let others := xs.filter (fun x => !mine x)
  let xs := xs.filter mine
  let offer := offerRequest s c jobs
  let b : Building := { deficits := d, rowsLeft := s.dev.cfg.sched.rlaneMaxReq, others }
  let b := offerAll offer byAge (xs.length + 1) (xs.filter (·.guarded)) b
  (offerAll offer inShares (xs.length + 1) (xs.filter (fun x => !x.guarded)) b, ext)

/-! ## Fill target and fill wait (R166, R167) -/

/-- "Groups of 32" of the break-even table, for the formats of B and A. -/
def breakEven (fb fa : Nat) : Nat :=
  if fb ≤ 1 then 18 else if fb ≤ 3 then 14 else if fb = 4 then (if fa = 4 then 19 else 10) else 18

/-- The fill target of a lane. -/
def fillTarget (s : State) (lane : Lane) (xs : List Candidate) : Nat :=
  match lane with
  | .retrieval => s.dev.cfg.sched.rlaneMaxReq
  | .generation =>
    if s.dev.cfg.sched.fillGroups ≠ 0 then s.dev.cfg.sched.fillGroups * 32
    else match pickFirst olderFirst xs with
      | none => 0
      | some x => match (layerRecs (look s.obj.models x.model).image).find? (fun r => r.op == 1) with
        | some r => 32 * breakEven r.fb r.fa
        | none => 0

/-- The rows that a candidate counts toward the target. -/
def fillCount (s : State) (lane : Lane) (xs : List Candidate) : Nat :=
  match lane with
  | .retrieval => xs.length
  | .generation => min (s.dev.cfg.sched.maxGroups * 32) (sumBy (fun x => match x.kind with
      | some .decode => 1
      | some (.chunk n) => min s.dev.cfg.sched.chunk n
      | _ => 0) xs)

def filled (s : State) (lane : Lane) (xs : List Candidate) : Bool := fillTarget s lane xs ≤ fillCount s lane xs

/-- The fill wait has run out. Its count of fabric cycles, converted again at every change of the fabric's frequency,
lasts FILL_WAIT_US (R167; log 166, DEDUCED). -/
def waited (s : State) (c : Fin 4) (lane : Lane) (xs : List Candidate) : Bool :=
  match pickFirst olderFirst xs with
  | none => false
  | some x => max (laneOf s c lane).lastRelease x.since + s.dev.cfg.sched.fillWaitUs * 1000 ≤ s.now

/-! ## At the step boundary before a build (R149, R186, R259) -/

/-- The version that a sequence rebinds to (R149). -/
def rebindTo (s : State) (q : Seq) : Option (Nat × Nat) :=
  match q.adapter with
  | none => none
  | some (id, v) =>
    match (if q.replaced then currentVersion s q.model id else none) with
    | some n => if v < n then some (id, n) else q.rebind.map (fun n => (id, n))
    | none => q.rebind.map (fun n => (id, n))

/-- Sequences of a course rebind at a step boundary of its generation lane, but for those that a move carries or that
lie in flash, which rebind at the first step after their restore (R149, R191). -/
def rebindAll (c : Fin 4) (s : State) : State :=
  let due := s.obj.seqs.filter (fun q => q.2.course == c && !q.2.inFlash && q.2.swap == .none
    && (q.2.replaced || (rebindTo s q.2).isSome))
  if due.isEmpty then s
  else reapAdapters (foldS (fun s e => setSeq e.1 (fun q => { q with
    adapter := (rebindTo s q).orElse (fun _ => q.adapter), rebind := none, replaced := false }) s) due s)

/-- A retrieval of a generation that splices nothing (R186). -/
def failLoop (e : Nat) (s : State) : State :=
  match find? s.obj.seqs e with
  | none => s
  | some q =>
    let s := bump (fabricClk q.course) 0x020C 1 s
    let s := setSeq e (fun x => { x with retrievalFails := x.retrievalFails + 1, retrieving := false, span := [] }) s
    if q.state = .blockedRetrieval then enter e .decode (setSeq e (fun x => { x with runnableAt := s.now }) s) else s

/-- Whether a course reaches what a request uses: its index and its models (R31). -/
def reqReaches (s : State) (c : Fin 4) (r : Req) : Bool :=
  let model := fun (h : Nat) => (modelOf s r.sid h).all (fun m => reachesMask s c (homeMask m.2))
  (indexOf s r.sid r.index).all (fun x => reachesMask s c (indexMask x.2)) && model r.encoder && model r.cross

/-- Whether a generation's retrieval cannot run: its profile or template is gone, its budget is 0, or a check of
RETRIEVE_RERANK_PACK fails (R186, R323). -/
def loopFails (s : State) (e : Nat) (q : Seq) : Bool :=
  match profileOf s q with
  | none => true
  | some p =>
    let r := reqOfBlock e q.session q.tenant true p
    loopBudget s q r = 0 || !reqReaches s q.course r || (templateOf s q.session (field p 24 8)).isNone || (walkRefusal s r true).isSome

/-- Retrievals of generations that cannot run end at the build. -/
def failLoops (c : Fin 4) (s : State) : State :=
  foldS (fun s q => if q.2.course = c ∧ q.2.retrieving ∧ loopFails s q.1 q.2 then failLoop q.1 s else s) s.obj.seqs s

/-- Requests of a course that reaches no longer what they use complete with RESOURCE_RETIRED (R31). -/
def endCutOff (c : Fin 4) (s : State) : State :=
  foldS (fun s k =>
    if k.phase = .running ∧ retrievalOp k.op ∧ k.course = some c ∧ k.result.isNone ∧ !reqReaches s c (reqOfCmd k) then
      fail k .resourceRetired 0 s else s) s.cmds s

/-- So do the generations of a course that reaches their model's home no longer. -/
def endCutOffRuns (c : Fin 4) (s : State) : State :=
  foldS (fun s q =>
    if q.2.course = c ∧ q.2.run.any (fun r => !r.flushing) ∧ !reachesMask s c (homeMask (look s.obj.models q.2.model)) then
      endRun q.1 .resourceRetired ((q.2.run.map runEffect).getD .none) 0 0 false s else s) s.obj.seqs s

/-- Grammar-held sequences whose mask tile lost its selection unit get a new one, and the course's units start the step
without a fault (R259). -/
def freshUnits (c : Fin 4) (s : State) : State :=
  let lost := fun (t : Nat) => (look s.eng.tiles (Fin.ofNat 64 t)).selRetired || !tileUp s (Fin.ofNat 64 t)
  let s := foldS (fun s q =>
    if q.2.course = c ∧ q.2.grammar.isSome ∧ lost q.2.maskTile then
      let t := maskTileFor s c
      let waits := (look s.eng.tiles (Fin.ofNat 64 q.2.maskTile)).masks.contains q.1
      let s := setSeq q.1 (fun x => { x with maskTile := t }) (dropMask q.1 s)
      if waits then askMask q.1 s else s
    else s) s.obj.seqs s
  { s with eng := { s.eng with tiles := mapTbl s.eng.tiles (fun k t =>
      if k.val / 16 = c.val then { t with selFaults := 0 } else t) } }

/-! ## The step starts -/

/-- The work of a sequence's row on the arrays: the last committed token, whose position gives the next one, or the
tokens of its chunk. -/
def rowWork (s : State) (r : Row) : Option (Bool × Work) :=
  match r.kind, find? s.obj.seqs r.who with
  | some .decode, some q => some (true,
      { tenant := r.tenant, rider := r.who, model := r.model, version := r.version
        tokens := q.tokens.drop (q.tokens.length - 1), start := q.tokens.length - 1 })
  | some (.chunk n), some q => some (false,
      { tenant := r.tenant, rider := r.who, model := r.model, version := r.version
        tokens := q.input.take n, start := q.tokens.length, head := n == q.input.length })
  | _, _ => none

/-- The groups of a generation-lane step's rows. -/
def rowGroups (s : State) (rows : List Row) : List Group :=
  let works := rows.filterMap (rowWork s)
  generationGroups s ((works.filter (·.1)).map (·.2)) ((works.filter (fun w => !w.1)).map (·.2))

/-- The jobs of a step's commands that walk no index are bound for their cores (R17). -/
def startJobs (c : Fin 4) (lane : Lane) (rows : List Row) (s : State) : State :=
  foldS (fun s r => match r.kind with
    | some (.append id) => startJob (.command id) c lane (coreNumber r.tile r.core) s
    | none => if (findCmd s r.who).any (fun k => k.op != 0x0300 && k.op != 0x0303) then
        startJob (.command r.who) c lane (coreNumber r.tile r.core) s else s
    | _ => s) rows s

/-- The starvation counts after a build (R165): reset for rows taken, one more for rows left out (log 113, DEDUCED). -/
def countStarved (b : Building) (s : State) : State :=
  let s := foldS (fun s r => match r.kind with
    | some .decode | some (.chunk _) => setSeq r.who (fun q => { q with starved := 0 }) s
    | _ => s) b.rows s
  foldS (fun s x => match x.kind with
    | some .decode | some (.chunk _) => setSeq x.who (fun q => { q with starved := q.starved + 1 }) s
    | _ => s) b.left s

def startGeneration (c : Fin 4) (b : Building) (reserve : Bool) (s : State) : State :=
  let gs := rowGroups s b.rows
  let st : StepRec := { rows := b.rows, groups := gs.length, reserve, recovery := (courseOf s c).recovery }
  let s := setLane c .generation (fun l => { l with step := some st, deficits := b.deficits }) s
  startActs c .generation gs (startJobs c .generation b.rows (countStarved b s))

/-- The query of a request enters its step: tokenized, its walk with its slots and its epoch; or the result that ends
it (R207, R211, R284, R306). -/
def startRequest (c : Fin 4) (row : Row) (s : State) : State :=
  let cmd := if row.kind.isNone then findCmd s row.who else none
  let stop := fun (r : Result) (s : State) => match cmd with
    | some k => hold k r s
    | none => s
  match rowReq s row with
  | none => s
  | some r =>
    let op := (cmd.map (·.op)).getD 0x0303
    if op ≠ 0x0300 ∧ op ≠ 0x0303 then s
    else match row.query with
    | .lost n => stop { status := .dataLost, effect := .none, value := n } s
    | .poisoned => stop { status := .uncorrectable, effect := .none } s
    | .data b =>
      if r.kind = 2 then startQuery (requestWalk s row c r) s
      else match queryTokens s r.kind r.vocab (if op = 0x0300 then 64 else 96) b with
      | .error e => stop e s
      | .ok (ts, bad) =>
        let s := if r.kind = 0 then countTokens row.tile b.length ts.length bad 0 s else s
        if op = 0x0303 ∧ queryTooLong (modelImage? s r.sid r.cross) ts then stop (badResult s 96 0) s
        else startQuery (requestWalk s row c r) { s with fresh := s.fresh + 1 }

/-- The encoder work of a row whose walk has been started: its query's tokens, framed and padded (R118, R208). -/
def encoderWork (s : State) (row : Row) : Option Work := do
  let r ← rowReq s row
  if r.kind = 2 ∨ (walksOf s r.inLoop r.who).isEmpty then none
  else
    let m ← modelOf s r.sid r.encoder
    match row.query with
    | .data b => match queryTokens s r.kind r.vocab 64 b with
      | .ok (ts, _) =>
        let ts := encoderTokens s r ts
        pure { tenant := row.tenant, rider := rowRider row, model := m.1, tokens := padded ts, real := ts.length }
      | .error _ => none
    | _ => none

/-- The builds that left a request out, in a row (R165, R278); one of the other index mode keeps its count. -/
def countLeft (b : Building) (l : LaneRec) : Tbl Nat Nat :=
  let key := fun (x : Candidate) => leftKey (x.kind == some .inLoop) x.who
  b.left.map (fun x => (key x, look l.leftOut (key x) + 1))
    ++ b.others.filterMap (fun x => (find? l.leftOut (key x)).map (fun n => (key x, n)))

/-- The vocabulary slot that the set of a RERANK names (R196; log 184, DEDUCED). -/
def setSlots (k : Cmd) (i : Input) : List Nat :=
  match i with
  | .data b => if k.op = 0x0301 then [8 + setVocab b] else []
  | _ => []

def startRetrieval (c : Fin 4) (b : Building) (ext : Bool) (s : State) : State :=
  let s := foldS (fun s r => if r.kind.isNone then
      setCmd r.who (fun k => { k with course := some c, vocabs := setSlots k r.query }) s else s) b.rows s
  let s := setLane c .retrieval (fun l => { l with
    step := some { rows := b.rows }, deficits := b.deficits, leftOut := countLeft b l }) s
  let s := setCourse c (fun k => { k with extendedTurn := !ext }) s
  let s := foldS (fun s r => startRequest c r s) b.rows (startJobs c .retrieval b.rows s)
  crossStage c (startActs c .retrieval (stageGroups (b.rows.filterMap (encoderWork s))) s)

/-- Counts of a build (R188, R298). -/
def countBuild (c : Fin 4) (b : Building) (reserve expired : Bool) (s : State) : State :=
  let clk := fabricClk c
  let s := foldS (fun s e => bump (endpointClk e) 0x0308 1 s) b.full s
  bump clk 0x0202 (b2n expired) (bump clk 0x0203 b.outAllots (bump clk 0x0204 b.noPages.length
    (bump clk 0x0205 b.guards (bump clk 0x0209 (b2n reserve) s))))

/-- The course's supervisor is in service, and the device in P0 to P2. -/
def courseActive (s : State) (c : Fin 4) : Bool := awake s && !(courseOf s c).lost && islandUp s (fabricClk c)

/-- A build: a lane without a step in flight whose build finds rows starts a step; otherwise nothing changes (log 111,
DEDUCED). -/
def buildStep (c : Fin 4) (lane : Lane) (jobs : List Job) (expired : Bool) (s : State) : State :=
  let l := laneOf s c lane
  let d := newDeficits s l (firstMet ((candidatesOf s c lane).map (·.tenant)))
  match lane with
  | .generation =>
    let (b, reserve) := buildGeneration s c jobs d
    if b.rows.isEmpty then s else startGeneration c b reserve (countBuild c b reserve expired s)
  | .retrieval =>
    let (b, ext) := buildRetrieval s c jobs d
    if b.rows.isEmpty then s else startRetrieval c b ext (countBuild c b false expired s)

/-- What a step boundary does before the lane's build. -/
def atBoundary (c : Fin 4) (lane : Lane) (s : State) : State :=
  let s := freshUnits c s
  match lane with
  | .generation => rebindAll c (endCutOffRuns c s)
  | .retrieval => failLoops c (endCutOff c s)

/-- The candidates of a lane without a step in flight, after what its step boundary does. -/
def buildWhen (c : Fin 4) (lane : Lane) (jobs : List Job) (early : Bool) (s : State) : State :=
  if !courseActive s c || stopped s (fabricClk c) || (laneOf s c lane).step.isSome then s
  else
    let s := atBoundary c lane s
    let xs := candidatesOf s c lane
    let full := filled s lane xs
    if xs.isEmpty then s
    else if (early && full) || waited s c lane xs then buildStep c lane jobs (!full) s else s

/-- STEP_BUILD (R162 to R168): once the fill target is met, or the fill wait has run out. -/
def execStepBuild (course : Fin 4) (lane : Lane) (jobs : List Job) (s : State) : Host.Outcome State Fault Refusal :=
  .next (buildWhen course lane jobs true s)

/-- FILL_WAIT_EXPIRY (R166): the fill wait has run out. -/
def execFillWaitExpiry (course : Fin 4) (lane : Lane) (jobs : List Job) (s : State) : Host.Outcome State Fault Refusal :=
  .next (buildWhen course lane jobs false s)

end Sys2Proof.Machine
end

