-- ==== Sys2Proof/Machine/Commit.lean ====
section
/-! DEFINITION. The commit point of a step (R75, R144, R158 to R161, R169 to R172, R183 to R186, R220 to R234, R251 to
R260): tokens, pages, results, charges, release. -/

namespace Sys2Proof.Machine

/-! ## Selecting a token (R221, R225, R251 to R255, R259, R260) -/

/-- Whether a sequence's mask is there at the selection point. -/
def maskHere (q : Seq) : Bool := q.grammar.isNone || q.maskReady

/-- The mask of a row. -/
def rowMask (s : State) (q : Seq) : Nat → Bool :=
  match seqGrammar s q with
  | none => fun _ => true
  | some g => maskBit g q.ctx (vocEos (seqVocab s q)) (trigger? q)

/-- Whether a row's mask is set to EOS alone (R227). -/
def rowDead (s : State) (q : Seq) : Bool :=
  match seqGrammar s q with
  | none => false
  | some g => maskDead g q.ctx (vocEos (seqVocab s q)) (trigger? q)

def selectParams (s : State) (e : Nat) (q : Seq) (fallback : Bool) : SelectParams :=
  { greedy := q.greedy || fallback, tau := q.temperature, topP := q.topP, topK := q.topK, seed := q.seed
    handle := seqHandle e q, eos := vocEos (seqVocab s q), tokens := vocTokens (seqVocab s q) }

/-- The counts of a selection (R260). -/
def countSelected (t : Fin 64) (x : Selected) (fallback : Bool) (s : State) : State :=
  let clk := tileClk t
  bump clk 0x0900 x.compactions (bump clk 0x0901 x.argmaxes (bump clk 0x0902 x.merges (bump clk 0x0903 x.busy
    (bump clk 0x0904 x.nans (bump clk 0x0905 x.overflows (bump clk 0x0906 (b2n fallback) (bump clk 0x0907 (b2n x.empty) s)))))))

/-! ## What a token does (R158, R219, R220, R228 to R234) -/

/-- The decision of the check phase: the run ends, a retrieval begins, or it goes on. -/
inductive Decision where
  | ends (reason idx : Nat) (status : Status) (empty : Bool)
  | retrieves
  | goesOn
  deriving DecidableEq, Repr

/-- The first end condition that applies (R234); `ctx` is the grammar context after the token. -/
def decide? (s : State) (q : Seq) (x : Selected) (stop : Option Nat) (dead : Bool) (ctx : Context) : Decision :=
  let g := seqGrammar s q
  let eos := vocEos (seqVocab s q)
  match stop with
  | some i => .ends 1 i .ok x.empty
  | none =>
    if x.token = eos then
      if dead then .ends 2 0 .grammarDead x.empty
      else .ends (if !x.empty && g.any (fun g => accepts g q.ctx || stateTerminal g ctx.state) then 4 else 2) 0 .ok x.empty
    else if trigger? q ≠ some x.token ∧ g.any (fun g => stateTerminal g ctx.state) then .ends 4 0 .ok false
    else if q.run.any (fun r => r.maxNew ≠ 0 && r.maxNew ≤ r.tokens + 1) then .ends 3 0 .ok false
    else if seqContext s q ≤ q.tokens.length + 1 then .ends 3 0 .contextFull false
    else if trigger? q = some x.token then .retrieves
    else .goesOn

/-- A progress completion after every interval of tokens (R60, R64). -/
def progress (e : Nat) (s : State) : State :=
  match find? s.obj.seqs e with
  | none => s
  | some q => match q.run with
    | none => s
    | some r => match findCmd s r.cmd with
      | none => s
      | some c =>
        if c.progress ∧ r.interval ≠ 0 ∧ r.tokens % r.interval = 0 then
          setSeq e (fun x => { x with run := some { r with fallback := false } })
            (post c.pairKey (completionOf s c false (runResult r .ok .part 0 0 q.state.code false)) s)
        else s

/-- The decision is applied. A run that an adoption has ended holds its stop (R73). -/
def applyDecision (e : Nat) (d : Decision) (s : State) : State :=
  match d with
  | .ends reason idx st empty =>
    if ((find? s.obj.seqs e).bind (·.run)).isSome then stopRun e reason idx st empty s
    else setSeq e (fun q => { q with
      undelivered := q.undelivered ++ tailText q.tail, tail := [], heldStop := some (reason, idx, st, empty) }) s
  | .retrieves =>
    askMask e (enter e .blockedRetrieval (setSeq e (fun q => { q with retrieving := true })
      (progress e (deliver e s))))
  | .goesOn =>
    let s := deliver e s
    if ((find? s.obj.seqs e).bind (·.run)).isSome && textLeft s e then blockRun e s else askMask e (progress e s)

/-- One token commits: it is selected, joins the sequence, advances its grammar, adds its text, and is judged. -/
def commitToken (row : Row) (fallback : Bool) (logits : List F32) (e : Nat) (s : State) : State :=
  match find? s.obj.seqs e with
  | none => s
  | some q =>
    let v := seqVocab s q
    let x := selectToken (selectParams s e q fallback) (rowMask s q) logits q.tokens.length
    let isTrigger := trigger? q == some x.token
    let ctx := match seqGrammar s q with
      | some g => if isTrigger then q.ctx else advanceGrammar g q.ctx x.token
      | none => q.ctx
    let bytes := textOf v (trigger? q) x.token
    let out := streamOut q.stops q.tail bytes
    let dead := rowDead s q
    let d := decide? s q x out.2.2 dead ctx
    let s := countSelected (unitTile s row.tile) x fallback s
    let s := bump (tileClk row.tile) 0x0704 bytes.length s
    let s := bump (tileClk (Fin.ofNat 64 q.maskTile)) 0x0708 (b2n (dead && d == .ends 2 0 .grammarDead x.empty)) s
    let s := setTenant q.tenant (fun t => { t with tokensCommitted := t.tokensCommitted + 1 }) s
    applyDecision e d (setSeq e (fun q => { q with
      tokens := q.tokens ++ [x.token], generated := q.generated + 1, ctx, tail := out.2.1
      undelivered := q.undelivered ++ out.1, maskReady := false, maskLate := false
      span := if d == .goesOn then q.span ++ [x.token] else q.span
      run := q.run.map (fun r => { r with tokens := r.tokens + 1, work := true, fallback := r.fallback || fallback })
      }) s)

/-! ## Rows of the generation lane (R143, R160, R225, R226) -/

/-- The notice of a deferred row (R226). -/
def deferNotice (e : Nat) (s : State) : State :=
  match find? s.obj.seqs e with
  | none => s
  | some q => match q.run with
    | none => s
    | some r => match findCmd s r.cmd with
      | none => s
      | some c =>
        if c.progress then
          post c.pairKey (completionOf s c false
            (runResult { r with fallback := false } .deadlineDeferred .none 0 0 q.state.code false)) s
        else s

/-- A row whose mask is late (R225): the sequence keeps its state, and the guard takes its row first. -/
def deferRow (c : Fin 4) (e : Nat) (s : State) : State :=
  deferNotice e (setSeq e (fun q => { q with
    maskDeferrals := q.maskDeferrals + 1, starved := starveSteps s, maskLate := true })
    (bump (fabricClk c) 0x020A 1 s))

/-- Keys and values of a sequence's rows up to a position enter its pages (R141, R143). -/
def writeKv (img : List Byte) (acts : List RowAct) (upto : Nat) (pages : List (List Byte)) : List (List Byte) :=
  (acts.filter (fun a => a.pos < upto)).foldl (fun pages a =>
    (List.range (imgLayers img)).foldl (fun pages b =>
      let i := a.pos / 16 * imgLayers img + b
      let kv := look a.kv b
      pages.set i (writePage img b true (a.pos % 16) kv.2
        (writePage img b false (a.pos % 16) kv.1 ((pages[i]?).getD [])))) pages) pages

/-- The rows of a sequence in its step. -/
def actsOfSeq (st : StepRec) (row : Row) : List RowAct :=
  st.acts.filter (fun a => a.tenant == row.tenant && a.rider == row.who && !a.dead)

/-- The step's new pages that a committed length needs join the sequence's page table, in order, and the keys and values
up to it its pages (R142, R143, R160); page numbers beyond it are free again. -/
def joinPages (st : StepRec) (row : Row) (upto : Nat) (s : State) : State :=
  setSeq row.who (fun q =>
    let img := seqImage s q
    let n := min row.spans (ceilDiv upto 16 - q.spans)
    let pages := q.pages ++ List.replicate (n * imgLayers img) (List.replicate (pageBytes img) 0)
    { q with
      spans := q.spans + n, table := q.table ++ row.pages.take (n * imgLayers img)
      pages := writeKv img (actsOfSeq st row) upto pages }) s

/-- The logits row of a sequence's last position (R118). -/
def logitsOf (st : StepRec) (row : Row) : List F32 :=
  ((((actsOfSeq st row).filter (·.head)).getLast?).map (·.result)).getD []

/-- Tokens of a chunk join the committed length with their pages. -/
def commitInput (st : StepRec) (row : Row) (n : Nat) (s : State) : State :=
  let upto := (((find? s.obj.seqs row.who).map (fun q => q.tokens.length)).getD 0) + n
  setSeq row.who (fun q => { q with
    tokens := q.tokens ++ q.input.take n, input := q.input.drop n
    run := q.run.map (fun r => { r with work := r.work || n ≠ 0 }) }) (joinPages st row upto s)

/-- A row that is not cancelled (log 117, DEDUCED); one that reaches CONTEXT ends its generation (R144; log 167,
DEDUCED). -/
def commitSeqRow (c : Fin 4) (st : StepRec) (row : Row) (d : RowData) (q : Seq) (s : State) : State :=
  let e := row.who
  let clk := fabricClk c
  if d.poisoned || q.lost then
    (if q.run.isSome then endRun e .uncorrectable .part 0 0 false s else seqDone e 0 0 s)
  else match row.fate with
  | some f => endRun e f ((q.run.map runEffect).getD .none) 0 0 false s
  | none => match row.kind with
    | some .decode =>
      if seqContext s q ≤ q.tokens.length then applyDecision e (.ends 3 0 .contextFull false) s
      else if maskHere q then
        commitToken row st.recovery (logitsOf st row) e (joinPages st row q.tokens.length (bump clk 0x020D 1 s))
      else deferRow c e s
    | some (.chunk n) =>
      if seqContext s q ≤ q.tokens.length + n then
        applyDecision e (.ends 3 0 .contextFull false) (commitInput st row n (bump clk 0x020D n s))
      else if n < q.input.length then commitInput st row n (bump clk 0x020D n s)
      else if maskHere q then
        commitToken row st.recovery (logitsOf st row) e
          (enter e .decode (setSeq e (fun q => { q with span := [] }) (commitInput st row n (bump clk 0x020D n s))))
      else deferRow c e (commitInput st row (n - 1) (bump clk 0x020D (n - 1) s))
    | _ => s

/-- A command's row commits: its result is posted and applied, or the cancel that was latched first wins. -/
def commitCommand (row : Row) (s : State) : State :=
  match findCmd s row.who with
  | none => s
  | some k =>
    if k.cancel ∧ !pastCommit s k then cancelled k s
    else match row.fate, k.result with
    | some f, _ => fail k f 0 s
    | none, none => s
    | none, some r =>
      let s := match r.act with
        | .nothing => s
        | .append e ts carry => setSeq e (fun q => { q with carry }) (addInput e ts s)
        | .splice e ts => addInput e ts s
      finish k r s

def dataOf (d : CommitData) (e : Nat) : RowData := (d.rows.find? (fun r => r.entry == e)).getD { entry := e }

/-- One row of a generation-lane step. -/
def commitRow (c : Fin 4) (st : StepRec) (d : CommitData) (row : Row) (s : State) : State :=
  match row.kind with
  | some (.append _) => commitCommand row s
  | _ => match find? s.obj.seqs row.who with
    | none => s
    | some q => if q.cancelling then s else commitSeqRow c st row (dataOf d row.who) q s

/-- Cancels latched before the commit point take effect, whether or not the sequence had a row (R160, R169). -/
def commitCancels (c : Fin 4) (s : State) : State :=
  foldS (fun s q => if q.2.course = c ∧ q.2.cancelling then cancelRun q.1 s else s) s.obj.seqs s

/-- Sequences whose run an adoption ended block at the commit (R73, R158). -/
def commitAdoptions (c : Fin 4) (s : State) : State :=
  foldS (fun s q =>
    if q.2.course = c ∧ q.2.adopting then
      let s := setSeq q.1 (fun x => { x with adopting := false }) s
      if q.2.state = .prefill ∨ q.2.state = .decode ∨ q.2.state = .blockedRetrieval then 
        enter q.1 .blockedHost (setSeq q.1 (fun x => { x with maskReady := false }) (dropMask q.1 s))
      else s
    else s) s.obj.seqs s

/-! ## Retrievals of generations (R184 to R186, R320) -/

/-- The packed tokens of a generation's retrieval; none where it ends in a status other than OK or packs nothing. -/
def loopTokens (row : Row) (q : Seq) (s : State) : State × Option (List Nat) :=
  match rowReq s row, row.query with
  | some r, .data b =>
    match queryTokens s r.kind r.vocab 96 b with
    | .error _ => (s, none)
    | .ok (ts, _) =>
      if queryTooLong (modelImage? s r.sid r.cross) ts || (walksOf s true row.who).isEmpty || row.fate.isSome then (s, none)
      else
        let ranked := rankWalk row r s
        let s := ranked.1
        let cs := ranked.2
        match packAll (packerFor s row.template (seqVocab s q) (loopBudget s q r) r.maxPassages) cs with
        | none => (s, none)
        | some a =>
          let ok := a.packed ≠ 0 && (unreadStatus cs).isNone
          (countPack row.tile a s, if ok then some a.tokens else none)
  | _, _ => (s, none)

/-- A splice enters its sequence, which prefills it (R158). -/
def spliceLoop (c : Fin 4) (e : Nat) (ts : List Nat) (s : State) : State :=
  let s := addInput e ts (bump (fabricClk c) 0x020B 1 s)
  let s := setSeq e (fun x => { x with retrievals := x.retrievals + 1, retrieving := false, span := [] }) s
  match find? s.obj.seqs e with
  | none => s
  | some q =>
    if q.state = .blockedRetrieval ∨ q.state = .decode then
      enter e .prefill (setSeq e (fun x => { x with runnableAt := s.now }) s)
    else s

/-- The row of a generation's retrieval: discarded when its run is cancelled, spliced, or counted as failed. -/
def commitLoop (c : Fin 4) (row : Row) (s : State) : State :=
  match find? s.obj.seqs row.who with
  | none => s
  | some q =>
    if !q.retrieving then s
    else if q.cancelling then
      let s := setSeq row.who (fun x => { x with retrieving := false }) s
      if (courseOf s q.course).generation.step.isNone then cancelRun row.who s else s
    else
      let (s, ts) := loopTokens row q s
      match ts with
      | some ts => if ts.isEmpty then failLoop row.who s else spliceLoop c row.who ts s
      | none => failLoop row.who s

/-! ## Charges (R171, R172) -/

/-- What each tenant is charged for a step: its passes and its threads. -/
def stepCharges (s : State) (st : StepRec) (d : CommitData) : Tbl Nat Rat :=
  d.threads.foldl (fun t x => upd t x.1 (· + (x.2 : Nat) / (2 ^ s.dev.cfg.sched.threadShift : Nat))) st.charges

/-- The charges are made; deficits take back the estimates less the charges. -/
def settle (c : Fin 4) (lane : Lane) (st : StepRec) (d : CommitData) (s : State) : State :=
  let ch := stepCharges s st d
  let s := foldS (fun s x => charge x.1 x.2 s) ch s
  let est : Tbl Nat Rat := st.rows.foldl (fun t r => upd t r.tenant (· + r.estimate)) []
  setLane c lane (fun l => { l with
    previous := ch.foldl (fun a x => a + x.2) 0
    deficits := (firstMet ((st.rows.map (·.tenant)) ++ ch.map (·.1))).foldl (fun t x =>
      upd t x (· + (look est x - look ch x))) l.deficits }) s

/-! ## Release (R159, R258, R292, R293, R481) -/

/-- Islands of a course that wait to leave service and carry nothing any more (R481): they leave, and their commands
complete. -/
def leaveIslands (c : Fin 4) (s : State) : State :=
  let busy := fun (clk : ClockId) =>
    (courseArrays c).any (fun a => arrayClk a == clk && !((look s.eng.arrays a).generation.isEmpty
      && (look s.eng.arrays a).retrieval.isEmpty))
    || (laneRows s .generation ++ laneRows s .retrieval).any (fun r => tileClk r.tile == clk)
  foldS (fun s i =>
      if i.2.leaving && (arrayClk (Fin.ofNat 16 (c.val * 4)) ≤ i.1 && i.1 ≤ arrayClk (Fin.ofNat 16 (c.val * 4 + 3))
          || tileClk (Fin.ofNat 64 (c.val * 16)) ≤ i.1 && i.1 ≤ tileClk (Fin.ofNat 64 (c.val * 16 + 15))) && !busy i.1 then
        match i.2.leaver.bind (findCmd s) with
        | none => retire i.1 s
        | some k => if k.op = 0x0F0C then standAside i.1 s else finish k {} (retire i.1 s)
      else s) s.islands s

/-- A course leaves recovery after 16 commits of its generation lane in a row without a fault (R258). -/
def countClean (c : Fin 4) (faulted : Bool) (s : State) : State :=
  setCourse c (fun k =>
    if !k.recovery then { k with clean := 0 }
    else if faulted then { k with clean := 0 }
    else if 15 ≤ k.clean then { k with recovery := false, clean := 0 }
    else { k with clean := k.clean + 1 }) s

def releaseStep (c : Fin 4) (lane : Lane) (s : State) : State :=
  let s := clearChains c lane (setLane c lane (fun l => { l with step := none, lastRelease := s.now }) s)
  let s := match lane with
    | .generation => rebindAll c s
    | .retrieval => drainIndices c (endWalks c s)
  leaveIslands c (startWaiting (endJobs c lane s))

/-! ## STEP_COMMIT -/

/-- Whether a row's work is done: a command's job has its result, or was latched for cancelling. -/
def rowEnded (s : State) (r : Row) : Bool :=
  match r.kind with
  | none | some (.append _) => match findCmd s r.who with
    | none => true
    | some k => k.result.isSome || k.cancel || r.fate.isSome
  | some .inLoop => walked s true r.who && (rowReq s r).all (featuresRun s)
  | _ => true

/-- Whether what a row's commit runs on works: its tile, and the mask tile of its sequence (R239, R261). -/
def rowRuns (s : State) (r : Row) : Bool :=
  !stopped s (tileClk r.tile) && match r.kind with
    | some .decode | some (.chunk _) => (find? s.obj.seqs r.who).all (fun q =>
        q.grammar.isNone || !stopped s (tileClk (Fin.ofNat 64 q.maskTile)))
    | _ => true

/-- A step may commit: nothing of the course that its commit needs is paused (R323), its chains and jobs have ended. -/
def mayCommit (s : State) (c : Fin 4) (lane : Lane) (st : StepRec) : Bool :=
  courseActive s c && !stopped s (fabricClk c) && chainsEmpty s c lane && st.rows.all (fun r => rowEnded s r && rowRuns s r)

def commitGeneration (c : Fin 4) (st : StepRec) (d : CommitData) (s : State) : State :=
  let s := foldS (fun s r => commitRow c st d r s) st.rows s
  let s := commitAdoptions c (commitCancels c s)
  let s := countClean c st.faulted (bump (fabricClk c) 0x0200 1 (settle c .generation st d s))
  releaseStep c .generation s

def commitRetrieval (c : Fin 4) (st : StepRec) (d : CommitData) (s : State) : State :=
  let s := foldS (fun s r => if r.kind = some .inLoop then commitLoop c r s else commitCommand r s) st.rows s
  let idle := (courseOf s c).generation.step.isNone
  let s := if idle then commitAdoptions c s else s
  let s := bump (fabricClk c) 0x0201 1 (settle c .retrieval st d s)
  releaseStep c .retrieval s

/-- STEP_COMMIT (R160): the lane's chains and jobs have ended. -/
def execStepCommit (course : Fin 4) (lane : Lane) (data : CommitData) (s : State) : Host.Outcome State Fault Refusal :=
  .next (match (laneOf s course lane).step with
    | none => s
    | some st =>
      if !mayCommit s course lane st then s
      else match lane with
      | .generation => commitGeneration course st data s
      | .retrieval => if st.crossed then commitRetrieval course st data s else s)

end Sys2Proof.Machine
end

