-- ==== Sys2Proof/Machine/Recover.lean ====
section
/-! DEFINITION. Faults that meet a step and their replay (R109 to R112, R161, R258, R259, R284, R461), mask jobs (R223,
R225), and the sequences that the supervisors and the Quoin move (R177 to R181, R486). -/

namespace Sys2Proof.Machine

/-! ## Replay of a step (R111, R161, R284) -/

def setStep (c : Fin 4) (lane : Lane) (f : StepRec → StepRec) (s : State) : State :=
  setLane c lane (fun l => { l with step := l.step.map f }) s

/-- A fault met a lane's step. -/
def markFault (c : Fin 4) (lane : Lane) (s : State) : State := setStep c lane (fun st => { st with faulted := true }) s

/-- Results that jobs of a step had given are discarded with it. -/
def dropResults (st : StepRec) (s : State) : State :=
  foldS (fun s r => match r.kind with
    | none | some (.append _) => setCmd r.who (fun k => { k with result := none }) s
    | _ => s) st.rows s

/-- The queries of a course start again in their slots; each keeps its bound epoch, or binds the present one. -/
def restartWalks (c : Fin 4) (bindAgain : Bool) (s : State) : State :=
  let mine := s.eng.walks.filter (fun w => w.course == c)
  let ids := mine.map (·.id)
  let again := (mine.filter (fun w => w.walker = 0)).map (fun w =>
    { id := w.id, query := w.query, who := w.who, inLoop := w.inLoop, tenant := w.tenant, course := c, index := w.index
      epoch := if bindAgain then (indexAt s w.index).epoch else w.epoch, code := w.code, ef := w.ef, tile := w.tile
      core := w.core, cores := w.cores })
  let s := { s with eng := { s.eng with
    walks := s.eng.walks.filter (fun w => w.course != c) ++ again
    net := s.eng.net.filter (fun m => !ids.contains m.walk || m.kind == .free)
    cold := (s.eng.cold.map (fun b => { b with msgs := b.msgs.filter (fun m => !ids.contains m.walk) })).filter
      (fun b => !b.msgs.isEmpty) } }
  foldS (fun s w => foldS (fun s e => send w.id w.tile e .load 0 0 s) (enginesOf s (indexAt s w.index)) s) again s

/-- The step is abandoned and replayed with its work list, allotments and pages; its chains are built again. -/
def replayStep (c : Fin 4) (lane : Lane) (bindAgain : Bool) (s : State) : State :=
  match (laneOf s c lane).step with
  | none => s
  | some st =>
    let s := dropResults st s
    let s := dropChains c lane s
    let s := setStep c lane (fun st => { st with faulted := true, crossed := false }) s
    match lane with
    | .generation => startActs c .generation (rowGroups s (st.rows.filter (fun r => r.fate.isNone))) s
    | .retrieval =>
      let s := restartWalks c bindAgain s
      let s := foldS (fun s r => if (walksOf s (r.kind == some .inLoop) r.who).isEmpty then startRequest c r s else s)
        st.rows s
      crossStage c (startActs c .retrieval (stageGroups ((st.rows.filter (fun r => r.fate.isNone)).filterMap
        (encoderWork s))) s)

/-! ## ARRAY_FAULT -/

/-- The passes that a fault abandons: every uncommitted pass of the array (R109; log 119, DEDUCED). -/
def abandoned (r : ArrayRec) : Nat := r.generation.length + r.retrieval.length

/-- The rows of a group whose weights are uncorrectable: every command and sequence that rides in it ends at the commit
point, and the group's passes are dropped (R111, R461). -/
def dropGroup (c : Fin 4) (lane : Lane) (p : Pass) (s : State) : State :=
  let inGroup := fun (a : RowAct) => a.model == p.model && a.group == p.rowTile
  let riders := match laneStep s c lane with
    | none => []
    | some st => (st.acts.filter inGroup).map (fun (a : RowAct) => (a.tenant, a.rider))
  let s := setStep c lane (fun st => { st with
    acts := st.acts.map (fun a => if inGroup a then { a with dead := true } else a)
    rows := st.rows.map (fun r => match r.kind with
      | some (.append _) => r
      | _ => if riders.contains (r.tenant, rowRider r) then { r with fate := some .uncorrectable } else r) }) s
  let s := foldS (fun s a => setArray a (fun r =>
    let ps := (laneChain lane r).filter (fun x => !(x.model == p.model && x.rowTile == p.rowTile))
    if ps.length = (laneChain lane r).length then r else dropGrid { withChain lane ps r with staged := [] }) s)
    (courseArrays c) s
  advanceStep c lane s

/-- Passes spread in turn over the arrays that remain. -/
def spreadPasses (lane : Lane) (arrs : List (Fin 16)) (ps : List Pass) (s : State) : State :=
  foldS (fun s p => match arrs[p.2 % max 1 arrs.length]? with
    | some a => setArray a (fun r => withChain lane (laneChain lane r ++ [p.1]) r) s
    | none => s) ps.zipIdx s

/-- A step without an array left is abandoned: what it held is freed, its rows are offered again, and the course
enters recovery (R112, R143, R258; log 119, DEDUCED). -/
def abandonStep (c : Fin 4) (lane : Lane) (s : State) : State :=
  match (laneOf s c lane).step with
  | none => s
  | some st =>
    let s := setCourse c (fun k => { k with recovery := true, clean := 0 }) (dropResults st s)
    let s := clearChains c lane (setLane c lane (fun l => { l with step := none, lastRelease := s.now }) s)
    let s := if lane = .retrieval then drainIndices c (endWalks c s) else commitAdoptions c (commitCancels c s)
    leaveIslands c (startWaiting (endJobs c lane s))

/-- Three attempts of a pass have failed: the array is withdrawn from the steps in flight, its passes move, and the Quoin
retires it (R112, R464, R486). -/
def withdraw (a : Fin 16) (s : State) : State :=
  let c := Fin.ofNat 4 (a.val / 4)
  let r := look s.eng.arrays a
  let s := setArray a (fun x => dropGrid { x with
    withdrawn := true, withdrawnR := true, generation := [], retrieval := [], window := [], staged := [], attempts := 0 }) s
  let s := { s with islands := upd s.islands (arrayClk a) (fun i => { i with leaving := true }) }
  let s := logFault (arrayClk a) 5 3 0 1 s
  let move := fun (lane : Lane) (ps : List Pass) (s : State) =>
    if ps.isEmpty then s
    else if (chainArrays s c lane).isEmpty then abandonStep c lane s
    else foldS (fun s a => turnWindow a s) (courseArrays c) (spreadPasses lane (chainArrays s c lane) ps s)
  move .retrieval r.retrieval (move .generation r.generation s)

/-- The blocks of an array's window that lie in a faulty region are copied again from their homes (R111). -/
def refetch (a : Fin 16) (s : State) : State :=
  turnWindow a (setArray a (fun r => { r with window := r.window.drop 1 }) s)

/-- A group whose weight home is uncorrectable: it ends, and the fault is logged (R111, R461). -/
def loseGroup (a : Fin 16) (lane : Lane) (p : Pass) (s : State) : State :=
  logFault (arrayClk a) 2 4 0 1 (dropGroup (Fin.ofNat 4 (a.val / 4)) lane p s)

/-- A fault in the pass that an array runs: accumulators, holding registers, queue entries and links are discarded, and
the chain replays from its earliest uncommitted pass, which is where it stands: committed passes have left it. -/
def arrayFault (a : Fin 16) (kind : ArrayFaultKind) (lane : Lane) (p : Pass) (s : State) : State :=
  let c := Fin.ofNat 4 (a.val / 4)
  let r := look s.eng.arrays a
  let s := bump (arrayClk a) 0x0009 1 (bump (arrayClk a) 0x0008 (abandoned r) (markFault c lane s))
  let s := if kind = .poison then bump (arrayClk a) 0x0A42 1 s else s
  let s := setArray a (fun x => dropGrid { x with staged := [] }) s
  match kind with
  | .window true => loseGroup a lane p (setArray a (fun x => { x with attempts := 0 }) s)
  | .stepOutput => replayStep c lane false s
  | .window false => if 2 ≤ r.attempts then withdraw a s
      else refetch a (setArray a (fun x => { x with attempts := x.attempts + 1 }) s)
  | _ => if 2 ≤ r.attempts then withdraw a s else setArray a (fun x => { x with attempts := x.attempts + 1 }) s

/-- ARRAY_FAULT (R109 to R112). -/
def execArrayFault (array : Fin 16) (kind : ArrayFaultKind) (s : State) : Host.Outcome State Fault Refusal :=
  .next (if !arrayUp s array then s
    else match runningPass s array with
    | none => s
    | some (l, p) => arrayFault array kind l p s)

/-! ## PASS_COMMIT (R100) -/

/-- Whether a weight home that a pass reads is uncorrectable: its model's, or that of an adapter version of its group
(R461). -/
def homeBad (s : State) (lane : Lane) (a : Fin 16) (p : Pass) : Bool :=
  let bad := fun (v : Nat × Nat) => (look s.obj.adapters (p.model, v)).badRecords.contains p.record
  match p.kind with
  | .base => (look s.obj.models p.model).badRecords.contains p.record
      || ((laneStep s (Fin.ofNat 4 (a.val / 4)) lane).map (·.acts)).any (fun as =>
        as.any (fun x => x.model == p.model && x.group == p.rowTile && x.version.any bad))
  | .down id ver => bad (id, ver)
  | _ => false

/-- PASS_COMMIT: the pass that the array runs streams through the grid and commits, unless the array is paused or relocks
(R106, R107), or its operands are not there. A group that uses an uncorrectable home ends with it (R111, R461). -/
def execPassCommit (array : Fin 16) (busy : List (Nat × Nat)) (s : State) : Host.Outcome State Fault Refusal :=
  .next (if !islandRuns s (arrayClk array) then s
    else
      let s := turnWindow array s
      match runningPass s array with
      | none => s
      | some (l, p) =>
        if homeBad s l array p then loseGroup array l p s
        else match streamPass array l p busy s with
        | none => s
        | some (t, x) => commitPass array l p x t)

/-! ## SELECTION_UNIT_FAULT (R258, R259, R464) -/

/-- A fault of a selection unit: the operation runs again; the second in a step retires the unit, and the course enters
recovery. -/
def selectionFault (t : Fin 64) (s : State) : State :=
  let c : Fin 4 := Fin.ofNat 4 (t.val / 16)
  let n := (look s.eng.tiles t).selFaults
  let s := bump (tileClk t) 0x0908 1 s
  let s := markFault c .retrieval (markFault c .generation s)
  let s := { s with eng := { s.eng with tiles := upd s.eng.tiles t (fun x => { x with
    selFaults := x.selFaults + 1, selRetired := x.selRetired || 1 ≤ n }) } }
  if n = 0 then s
  else setCourse c (fun k => { k with recovery := true, clean := 0 }) (logFault (tileClk t) 5 3 0 1 s)

def execSelectionUnitFault (tile : Fin 64) (s : State) : Host.Outcome State Fault Refusal :=
  .next (if tileUp s tile && !(look s.eng.tiles tile).selRetired then selectionFault tile s else s)

/-! ## MASK_JOB_DONE (R223 to R225, R238) -/

/-- Mask buffers of a tile in use: masks ready and not yet used. -/
def masksHeld (s : State) (t : Fin 64) : Nat :=
  (s.obj.seqs.filter (fun q => q.2.grammar.isSome && q.2.maskReady && q.2.maskTile == t.val)).length

/-- The oldest job of a mask unit completes, into one of its 16 buffers. -/
def maskDone (t : Fin 64) (s : State) : State :=
  match (look s.eng.tiles t).masks with
  | [] => s
  | e :: rest =>
    if 16 ≤ masksHeld s t ∨ stopped s (tileClk t) then s
    else
      let s := { s with eng := { s.eng with tiles := upd s.eng.tiles t (fun x => { x with masks := rest }) } }
      match find? s.obj.seqs e with
      | none => s
      | some q => match seqGrammar s q with
        | none => s
        | some g =>
          let clk := tileClk t
          let s := bump clk 0x0705 1 (bump clk 0x0706 (maskCycles g q.ctx) (bump clk 0x0707 (b2n q.maskLate) s))
          setSeq e (fun x => { x with maskReady := true }) s

/-- See log 143, DESIGN CHOICE. -/
def execMaskJobDone (tile : Fin 64) (s : State) : Host.Outcome State Fault Refusal :=
  .next (if tileUp s tile then maskDone tile s else s)

/-! ## SEQUENCE_RESTORE (R181) -/

/-- A runnable SWAPPED sequence that no move carries. -/
def waitsRestore (q : Seq) : Bool := q.state == .swapped && q.inFlash && q.runnable && q.swap == .none

/-- Whether the Quoin has no other sequence to restore first: one of a tenant with less of its share used (log 118,
DEDUCED). -/
def restoreFirst (s : State) (e : Nat) (q : Seq) : Bool :=
  !s.obj.seqs.any (fun x => x.1 != e && waitsRestore x.2 && (shareOf s x.2.tenant < shareOf s q.tenant
    || (shareOf s x.2.tenant == shareOf s q.tenant && x.2.tenant < q.tenant)))

/-- The course of a restore: the previous one while that fits (R181). -/
def restoreCourse (s : State) (q : Seq) (c : Fin 4) : Bool := seqFits s q c && (c == q.course || !seqFits s q q.course)

def execSequenceRestore (entry : Nat) (course : Fin 4) (s : State) : Host.Outcome State Fault Refusal :=
  .next (match find? s.obj.seqs entry with
    | none => s
    | some q =>
      if awake s && waitsRestore q && restoreFirst s entry q && restoreCourse s q course then
        bring entry (.restoring course) s
      else s)

/-! ## SEQUENCE_EVICT (R178 to R180) -/

/-- Whether rows of the course's next step lack pages. -/
def rowsLackPages (s : State) (c : Fin 4) : Bool :=
  s.obj.seqs.any (fun q => hasRows c q.2 &&
    (let n := if q.2.state = .decode then 0 else (chunkLen s q.2 (s.dev.cfg.sched.maxGroups * 32)).getD 0
     let bytes := newSpans q.2 n * spanBytes s q.2
     bytes ≠ 0 && pagePool s c.val < bytes))

/-- Whether a runnable SWAPPED sequence waits for pages. -/
def restoreLacksPages (s : State) : Bool :=
  s.obj.seqs.any (fun q => waitsRestore q.2 && !(List.finRange 4).any (seqFits s q.2))

/-- A sequence that may be evicted. -/
def evictable (c : Fin 4) (q : Seq) : Bool := q.course == c && q.state == .blockedHost && !q.inFlash && q.swap == .none

/-- The candidates, the longest in BLOCKED_HOST first (log 20, DESIGN CHOICE). -/
def evictOrder (s : State) (c : Fin 4) : List (Nat × Seq) :=
  isort (s.obj.seqs.filter (fun q => evictable c q.2)) (fun a b =>
    a.2.enteredCycles < b.2.enteredCycles || (a.2.enteredCycles == b.2.enteredCycles && a.1 ≤ b.1))

/-- The first candidate that flash can take goes; those before it are counted as skipped. -/
def evictFirst (c : Fin 4) (s : State) : State :=
  let l := evictOrder s c
  let skipped := (l.takeWhile (fun q => !swapFits s q.2)).length
  let s := bump (fabricClk c) 0x0207 skipped s
  match l[skipped]? with
  | none => s
  | some q => evict q.1 none s

/-- See log 139, DEDUCED. -/
def execSequenceEvict (course : Fin 4) (s : State) : Host.Outcome State Fault Refusal :=
  .next (if courseActive s course && (rowsLackPages s course || restoreLacksPages s)
      && !s.obj.seqs.any (fun q => q.2.course == course && holdsSwap q.2 && !q.2.inFlash) then
      evictFirst course s
    else s)

/-! ## SEQUENCE_RELOCATE (R484, R486) -/

/-- A course that its sequences leave: it lost its last working array or tile, or it is being retired. -/
def leavesCourse (s : State) (c : Fin 4) : Bool := !courseRuns s c || (look s.islands (fabricClk c)).leaving

/-- At its step boundary a sequence has no row in flight. -/
def atStepBoundary (s : State) (e : Nat) (q : Seq) : Bool :=
  match (courseOf s q.course).generation.step with
  | none => true
  | some st => !st.rows.any (fun r => r.who == e && (match r.kind with
      | some .decode | some (.chunk _) => true
      | _ => false))

def execSequenceRelocate (entry : Nat) (course : Fin 4) (s : State) : Host.Outcome State Fault Refusal :=
  .next (match find? s.obj.seqs entry with
    | none => s
    | some q =>
      if awake s && leavesCourse s q.course && !q.inFlash && !isDone q && q.swap == .none && atStepBoundary s entry q
          && course != q.course && seqFits s q course && !leavesCourse s course then
        bring entry (.relocating course) s
      else s)

end Sys2Proof.Machine
end

