-- ==== Sys2Proof/Machine/Moves.lean ====
section
/-! DEFINITION. TIER_MOVE, MOVE_QUERY and the move protocol of Hod (R362 to R379). -/

namespace Sys2Proof.Machine

/-! ## TIER_MOVE (R371, R372) -/

/-- Ends a TIER_MOVE at its dispatch or its end: units moved, those at the target before, those abandoned (R373). -/
def moveResult (m : Move) : Result :=
  { status := if m.abandoned = 0 then .ok else .partialDone
    effect := if m.abandoned = 0 then .full else if m.committed = 0 then .none else .part
    value := m.committed % 2 ^ 32 + m.already % 2 ^ 32 * 2 ^ 32, detail := m.abandoned }

/-- Whether quota 4 or 5 of a tenant cannot take bytes more at a target, and its number. -/
def quotaStops (s : State) (t : Nat) (flash : Bool) (bytes : Nat) : Option Nat :=
  if flash then (if (quotasOf s t).flash < tenantFlash s t + bytes then some 5 else none)
  else if (quotasOf s t).lpddr6 < tenantLpddr6 s t + bytes then some 4 else none

/-- A TIER_MOVE of `bytes` runs, or completes with QUOTA_EXCEEDED, FLASH_READ_ONLY or MOVE_NO_ROOM (R372, R403). -/
def acceptMove (c : Cmd) (m : Move) (bytes : Nat) (room : Bool) (mark : State → State) (s : State) : State :=
  match quotaStops s c.tenant m.toFlash bytes with
  | some q => fail c .quotaExceeded q (letGo c s)
  | none =>
    if m.toFlash && flashReadOnly s then fail c .flashReadOnly 0 (letGo c s)
    else if !room then fail c .moveNoRoom 0 (letGo c s)
    else setCmd c.id (fun x => { x with begun := true }) (orderMove { m with cmd := some c.id } (mark s))

/-- Kind 0: a model in READY without bindings goes to flash, one in COLD to LPDDR6 (R135). -/
def moveModelRefusal (s : State) (c : Cmd) (toFlash : Bool) : Refusal? :=
  match modelOf s c.sid c.handle with
  | none => some (badResult s 32 0)
  | some (slot, m) =>
    let ok := if toFlash then m.state == .ready && bindingsBefore s slot c.id == 0 else m.state == .cold
    if ok then none else inState 3 m.state.code

def moveModel (c : Cmd) (toFlash : Bool) (s : State) : State :=
  match modelOf s c.sid c.handle with
  | none => badField c 32 0 s
  | some (slot, m) =>
    let bytes := modelUnit s slot
    let room := if toFlash then flashFits s bytes else homeFits s m.home bytes (reserveWith s m.image)
    orRefuse c (if c.holds then none else moveModelRefusal s c toFlash) (acceptMove c { obj := .model slot, toFlash, units := 1 } bytes room
      (fun s => { s with obj := { s.obj with models := adj s.obj.models slot (fun x => { x with state := .moving }) } })) s

/-- Kind 1: the records of a range of identifiers. -/
def moveRecords (c : Cmd) (toFlash : Bool) (s : State) : State :=
  match indexOf s c.sid c.handle with
  | none => badField c 32 0 s
  | some (slot, x) =>
    let m : Move := { obj := .corpus slot, toFlash, first := c.arg 8 8, units := c.arg 16 8 }
    let left := unitsLeft s m
    let m := { m with ordered := left.length, already := (recordsIn s slot m.first m.units).length - left.length }
    let sizes := left.map (unitBytes s m.obj)
    let bytes := sumBy id sizes
    let blocks := sumBy blocksOf sizes
    let room := if toFlash then blocks ≤ flashFree s && mapFits s blocks else spreadFits s (idxCourses x) bytes
    if left.isEmpty then finish c (moveResult m) s else acceptMove c m bytes room id s

/-- The regions of a range are pinned where they are (R294). -/
def pinRegions (slot : Nat) (us : List Nat) (s : State) : State :=
  { s with obj := { s.obj with indices := adj s.obj.indices slot (fun x => { x with
    regions := foldS (fun t u => upd t u (fun r => { r with pinned := true })) us x.regions }) } }

/-- Kind 2: regions of an extended-mode index, at most HOT_REGIONS of them in LPDDR6 (R294). -/
def moveRegions (c : Cmd) (toFlash : Bool) (s : State) : State :=
  match indexOf s c.sid c.handle with
  | none => badField c 32 0 s
  | some (slot, x) =>
    let m : Move := { obj := .region slot, toFlash, first := c.arg 8 8, units := c.arg 16 8 }
    let left := unitsLeft s m
    let there := ((List.range m.units).map (m.first + ·)).filter (fun u => !left.contains u)
    let m := { m with ordered := left.length, already := there.length }
    let n := left.length
    let room := if toFlash then n * 2304 ≤ flashFree s && mapFits s (n * 2304) else true
    if !toFlash && idxHotRegions x < hotCount x + n then conflict c 5 x.state.code s
    else if left.isEmpty then finish c (moveResult m) (pinRegions slot there s)
    else acceptMove c m (n * regionBytes) room (pinRegions slot there) s

def tierMove (c : Cmd) (s : State) : State :=
  if c.begun then s
  else match c.arg 0 1 with
  | 0 => moveModel c (c.arg 1 1 == 1) s
  | 1 => moveRecords c (c.arg 1 1 == 1) s
  | _ => moveRegions c (c.arg 1 1 == 1) s

/-- TIER_MOVE (R371 to R373): checked at its dispatch; it completes with the commit of its last unit. -/
def execTierMove (cmd : Nat) (s : State) : Host.Outcome State Fault Refusal :=
  .next (runCmd cmd 0x0503 tierMove s)

/-! ## MOVE_QUERY (R376) -/

/-- Kind of a move; 3 for a sequence. No MOVE_QUERY finds an evacuation. -/
def MoveObj.kind : MoveObj → Nat
  | .model _ => 0 | .corpus _ => 1 | .region _ => 2 | .seq _ => 3 | .evacuation _ => 0

/-- The record of a move; zeros where the object has had none (log 39, DEDUCED). -/
def moveRecord (handle kind : Nat) (m : Option Move) : List Byte :=
  match m with
  | none => leBytes 8 handle ++ [0] ++ leBytes 1 kind ++ List.replicate 38 0
  | some m => leBytes 8 handle ++ leBytes 1 m.state.code ++ leBytes 1 m.obj.kind ++ leBytes 1 (b2n m.toFlash)
      ++ leBytes 1 (b2n m.device) ++ leBytes 4 0 ++ leBytes 8 m.ordered ++ leBytes 8 m.committed ++ leBytes 8 m.bytes
      ++ leBytes 4 m.abandoned ++ leBytes 4 0

/-- The latest move of an index, of its corpus or of its regions. -/
def latestOfIndex (s : State) (slot : Nat) : Option Move :=
  ((s.eng.moves.filter (fun m => movesOfIndex slot m.2.obj)).getLast?).map (·.2)

/-- What a MOVE_QUERY finds. -/
def moveAnswer (c : Cmd) (s : State) : Result :=
  match objOf s c.sid c.handle with
  | some (.model slot) => recordResult s c (moveRecord c.handle 0 (latestMove s (.model slot))) {}
  | some (.index slot) => recordResult s c (moveRecord c.handle 0 (latestOfIndex s slot)) {}
  | some (.seq e) => recordResult s c (moveRecord c.handle 3 (latestMove s (.seq e))) {}
  | _ => badResult s 32 0

def queryMove (c : Cmd) (s : State) : State := answerWith c (moveAnswer c) s

def execMoveQuery (cmd : Nat) (s : State) : Host.Outcome State Fault Refusal :=
  .next (runCmd cmd 0x0504 queryMove s)

/-! ## MOVE_UNIT_START (R367 steps 1 to 3) -/

/-- Bytes of an object spread over its courses, by course. -/
def byCourse (f : Nat → Nat) : List (Nat × Nat) := (List.range 4).map (fun c => (c, f c))

/-- Room reserved for a corpus record in flight (log 107, DEDUCED). -/
def reserveUnit (s : State) (u : Nat) (m : Move) : Move :=
  match m.obj with
  | .corpus slot =>
    let n := unitBytes s m.obj u
    if m.toFlash then { m with takenFlash := blocksOf n }
    else { m with takenLp := byCourse (fun c => spread s (idxCourses (look s.obj.indices slot)) c n) }
  | _ => m

/-- Whether a move's copies cross the flash tier: all but the relocation of a sequence and an evacuation. -/
def crossesFlash (s : State) (m : Move) : Bool :=
  match m.obj with
  | .seq e => !(find? s.obj.seqs e).any relocates
  | .evacuation _ => false
  | _ => true

/-- The channels of the source and the destination of a unit: a region's, an evacuation's two, or all of the object's
courses (log 189, DESIGN CHOICE). -/
def unitChannels (s : State) (o : MoveObj) (u : Nat) : List Nat :=
  let of := fun (mask : Nat) => (shards s mask).filterMap (channelAt s)
  match o with
  | .model slot => of (homeMask (look s.obj.models slot))
  | .corpus slot => of (idxCourses (look s.obj.indices slot))
  | .region slot => [shardChannel s (look s.obj.indices slot) (u / 65536)]
  | .seq e => match find? s.obj.seqs e with
    | none => []
    | some q => of (2 ^ q.course.val) ++ (match q.swap with
        | .restoring t | .relocating t => of (2 ^ t.val)
        | _ => [])
  | .evacuation ch => [ch.val, (look s.eng.evacuations ch).receiver.val]

/-- Whether a unit's channels work: Hod pauses with its source or destination, and waits out the hold of a calibration
(R383). -/
def unitRuns (s : State) (o : MoveObj) (u : Nat) : Bool :=
  (unitChannels s o u).all (fun ch => !stopped s (channelClk (Fin.ofNat 96 ch)))

/-- The time in ns that a unit's transfer takes at MOVE_PCT of the data bandwidth of a position (R354, R370): a unit
spread over positions uses that share of each. -/
def unitTime (s : State) (o : MoveObj) (u : Nat) : Nat :=
  let cs := unitChannels s o u
  let mhz := cs.foldl (fun a ch => min a (channelMHz s (Fin.ofNat 96 ch))) 1200
  ceilDiv (ceilDiv (unitBytes s o u) (max 1 cs.length) * 1000000) (max 1 (288 * mhz * s.dev.cfg.mem.movePct))

/-- A copy of a unit takes its part of Hod's share of the positions' bandwidth and of the flash tier (R370, R408). -/
def takeShare (k : Nat) (m : Move) (u : Nat) (s : State) : State :=
  let t := s.now + unitTime s m.obj u
  if crossesFlash s m then
    let f := hodDone s (unitBytes s m.obj u)
    setMove k (fun m => { m with ready := max t f }) { s with flash := { s.flash with hodFree := f } }
  else setMove k (fun m => { m with ready := t }) s

/-- The keeper marks the unit as moving, and Hod copies it. -/
def startUnit (k : Nat) (m : Move) (u : Nat) (s : State) : State :=
  let s := takeShare k m u s
  let s := setMove k (fun m => reserveUnit s u { m with state := .copying, unit := some u, attempts := 0 }) s
  match m.obj with
  | .region slot =>
    let xs := adj s.obj.indices slot (fun x => { x with
      regions := upd x.regions u (fun r => { r with moving := true }) })
    { s with obj := { s.obj with indices := xs } }
  | _ => s

/-- The command of a move, where one waits for it. -/
def moveCmd (s : State) (m : Move) : Option Cmd := m.cmd.bind (findCmd s)

/-- A move has no unit left: its command completes, and old homes drain (R373, R375). -/
def endMove (k : Nat) (s : State) : State :=
  match find? s.eng.moves k with
  | none => s
  | some m =>
    let s := setMove k (fun m => { m with state := .draining, cmd := none }) s
    match m.obj, moveCmd s m with
    | .seq _, _ | .evacuation _, _ | _, none => s
    | _, some c => finish c (moveResult m) s

/-- Other work has taken the room of a TIER_MOVE's next unit (R373). -/
def stopNoRoom (k : Nat) (m : Move) (s : State) : State :=
  let s := unmark m { s with eng := { s.eng with moves := put s.eng.moves k { idleMove m with state := .draining } } }
  match moveCmd s m with
  | none => s
  | some c => finish c { moveResult m with
      status := if m.toFlash && flashReadOnly s then .flashReadOnly else .moveNoRoom
      effect := if m.committed = 0 then .none else .part } s

/-- A unit of a move starts, when it is its turn; a TIER_MOVE whose next unit has no room stops. -/
def execMoveUnitStart (move : Nat) (s : State) : Host.Outcome State Fault Refusal :=
  .next (match find? s.eng.moves move with
    | none => s
    | some m =>
      if !awake s || m.unit.isSome || (m.state != .queued && m.state != .copying) then s
      else match (unitsLeft s m).head? with
      | none => endMove move s
      | some u =>
        if !m.device && !unitFits s m u && !unitBusy s move m u then stopNoRoom move m s
        else if mayStart s move m then startUnit move m u s
        else s)

/-! ## MOVE_UNIT_VERIFY (R367 steps 4 and 5, R368, R369) -/

/-- The channel on which an abandoned unit counts: that of the lowest position of the object's courses (log 38, DESIGN
CHOICE). -/
def moveChannel (s : State) (o : MoveObj) : Option (Fin 96) :=
  let mask : Nat := match o with
    | .evacuation _ => 0
    | .model slot => let h := (look s.obj.models slot).home; if h < 4 then 2 ^ h else 15
    | .corpus slot | .region slot => idxCourses (look s.obj.indices slot)
    | .seq e => match find? s.obj.seqs e with
      | some q => 2 ^ q.course.val
      | none => 15
  match o with
  | .evacuation ch => some ch
  | _ => (shards s mask).head?.bind (fun p => (s.eng.channels.find? (fun c => c.2.position == some p)).map (·.1))

/-- Adds old homes to those that wait for their reads. -/
def addHeld (k : Nat) (lp : List (Nat × Nat)) (flash swap : Nat) (s : State) : State :=
  setMove k (fun m => { m with
    heldLp := m.heldLp ++ lp, heldFlash := m.heldFlash + flash, heldSwap := m.heldSwap + swap }) s

/-- A model's locator changes. -/
def commitModel (k slot : Nat) (toFlash : Bool) (s : State) : State :=
  let m := look s.obj.models slot
  let bytes := modelUnit s slot
  let ms := adj s.obj.models slot (fun x => { x with cold := toFlash, state := if toFlash then .cold else .ready })
  addHeld k (if toFlash then byCourse (fun c => homeShare s m.home c bytes) else []) (if toFlash then 0 else blocksOf bytes)
    0 { s with obj := { s.obj with models := ms } }

/-- A corpus record's directory entry changes. -/
def commitRecord (k slot u : Nat) (toFlash : Bool) (s : State) : State :=
  let n := unitBytes s (.corpus slot) u
  let mask := idxCourses (look s.obj.indices slot)
  addHeld k (if toFlash then byCourse (fun c => spread s mask c n) else []) (if toFlash then 0 else blocksOf n) 0
    (setCorpus slot (fun t => adj t u (fun r => { r with inFlash := toFlash })) s)

/-- A region map entry changes; a region moved by a TIER_MOVE is pinned (R294). -/
def commitRegion (k slot u : Nat) (toFlash pin : Bool) (s : State) : State :=
  let xs := adj s.obj.indices slot (fun x => { x with regions := upd x.regions u (fun r => { r with
    hot := !toFlash, moving := false, pinned := r.pinned || pin }) })
  addHeld k [] (if toFlash then 0 else 2304) 0 { s with obj := { s.obj with indices := xs } }

/-- The mask of a sequence is formed anew on a tile of its course: that with the fewest of the other sequences (R222). -/
def newMaskTile (e : Nat) (s : State) : State :=
  match find? s.obj.seqs e with
  | none => s
  | some q =>
    if q.grammar.isNone then s
    else
      let t := maskTileFor { s with obj := { s.obj with seqs := del s.obj.seqs e } } q.course
      let s := setSeq e (fun x => { x with maskTile := t, maskReady := false }) (dropMask e s)
      if q.state = .prefill ∨ q.state = .decode then askMask e s else s

/-- The pages take new numbers in the pool of the course (R379). -/
def renumber (s : State) (course : Fin 4) (e : Nat) (q : Seq) : List Nat :=
  freePages (pageNumbers { s with obj := { s.obj with seqs := del s.obj.seqs e } } course)
    (q.spans * imgLayers (look s.obj.models q.model).image)

/-- An eviction commits: the sequence is SWAPPED, and a SEQ_SWAP_OUT completes (R180, R182). Either counts as an eviction
(R188; log 171, DESIGN CHOICE). -/
def commitEvict (k e : Nat) (cmd : Option Nat) (s : State) : State :=
  match find? s.obj.seqs e with
  | none => s
  | some q =>
    let s := bump (fabricClk q.course) 0x0206 1 (addHeld k [(q.course.val, seqBytes s q)] 0 0 s)
    let s := enter e .swapped (setSeq e (fun x => { x with
      inFlash := true, swap := .none, table := [], maskReady := x.grammar.isNone }) (dropMask e s))
    match cmd.bind (findCmd s) with
    | none => s
    | some c => finish c {} s

/-- A restore commits: the sequence joins the course, and its SEQ_GENERATE takes effect (R158, R181, R379). -/
def commitRestore (k e : Nat) (course : Fin 4) (s : State) : State :=
  match find? s.obj.seqs e with
  | none => s
  | some q =>
    let s := bump (fabricClk course) 0x0208 1 (addHeld k [] 0 (swapBlocks s q) s)
    let s := newMaskTile e (setSeq e (fun x => { x with
      course, inFlash := false, swap := .none, table := renumber s course e q }) s)
    startRun e (enter e .blockedHost s)

/-- A relocation commits: the sequence goes on in its new course (R486), and a SEQ_GENERATE that waited for it takes
effect (R158). -/
def commitRelocate (k e : Nat) (course : Fin 4) (s : State) : State :=
  match find? s.obj.seqs e with
  | none => s
  | some q =>
    resumeRun e (newMaskTile e (setSeq e (fun x => { x with course, swap := .none, table := renumber s course e q })
      (addHeld k [(q.course.val, seqBytes s q)] 0 0 s)))

/-- The unit's locator names its new home. -/
def commitUnit (k : Nat) (m : Move) (u : Nat) (s : State) : State :=
  match m.obj with
  | .model slot => commitModel k slot m.toFlash s
  | .corpus slot => commitRecord k slot u m.toFlash s
  | .region slot => commitRegion k slot u m.toFlash (!m.device) s
  | .evacuation _ => s
  | .seq e => match find? s.obj.seqs e with
    | none => s
    | some q => match q.swap with
      | .none => s
      | .evicting cmd => commitEvict k e (m.cmd.orElse (fun _ => cmd)) s
      | .restoring t => commitRestore k e t s
      | .relocating t => commitRelocate k e t s

/-- The move goes past a unit; with none left it ends. -/
def pastUnit (k u : Nat) (f : Move → Move) (s : State) : State :=
  let s := setMove k (fun m => f { m with cursor := u + 1, unit := none, attempts := 0, takenLp := [], takenFlash := 0 }) s
  match find? s.eng.moves k with
  | none => s
  | some m => if (unitsLeft s m).isEmpty then endMove k s else s

/-- A unit whose copy failed twice stays at its old home, which is counted and which its command reports (R368). A chunk of
an evacuation is tried anew, as every allocated chunk has to move (R381; log 190, DESIGN CHOICE). -/
def abandonUnit (k : Nat) (m : Move) (u : Nat) (s : State) : State :=
  let s := unmark m s
  let s := match moveChannel s m.obj with
    | some ch => bump (channelClk ch) 0x060F 1 s
    | none => s
  match m.obj with
  | .seq e =>
    let s := setSeq e (fun q => { q with swap := .none }) s
    let s := setMove k (fun m => { idleMove m with abandoned := 1 }) s
    resumeRun e (match moveCmd s m with
    | none => s
    | some c => finish c { status := .partialDone, effect := .none, detail := 1 } s)
  | .evacuation _ => setMove k (fun m => { m with unit := none, attempts := 0, abandoned := m.abandoned + 1 }) s
  | _ => pastUnit k u (fun m => { m with abandoned := m.abandoned + 1 }) s

/-- The old home holds a lost flash block (R425): a restore is abandoned and its run ends; a model stays COLD, a record
or region in flash, and the command reports DATA_LOST. -/
def loseUnit (k : Nat) (m : Move) (u : Nat) (s : State) : State :=
  match m.obj with
  | .seq e =>
    let s := setMove k idleMove s
    match find? s.obj.seqs e with
    | none => s
    | some q => if q.run.isSome then endRun e .dataLost .part 0 0 false s else seqDone e 0 0 s
  | _ =>
    let s := abandonUnit k { m with cmd := none } u (setMove k (fun m => { m with cmd := none }) s)
    let s := setMove k (fun m => { idleMove m with state := .draining }) s
    match moveCmd s m with
    | none => s
    | some c => finish c { status := .dataLost, effect := if m.committed = 0 then .none else .part, value := m.committed
                           detail := m.abandoned + 1 } s

/-- A SEQ_SWAP_OUT whose cancel was latched before its commit (R75). -/
def swapCancelled (s : State) (m : Move) : Option Cmd :=
  (moveCmd s m).bind (fun c => if c.cancel && c.op == 0x0204 then some c else none)

/-- A cancelled eviction leaves the sequence where it is. -/
def stopEvict (k : Nat) (m : Move) (c : Cmd) (s : State) : State :=
  let s := match m.obj with
    | .seq e => resumeRun e (setSeq e (fun q => { q with swap := .none }) s)
    | _ => s
  cancelled c (setMove k idleMove s)

/-- MOVE_UNIT_VERIFY (R367, R368, R425): the copy has ended, no sooner than Hod's share lets it (R408). -/
def execMoveUnitVerify (move : Nat) (result : MoveResult) (s : State) : Host.Outcome State Fault Refusal :=
  .next (match find? s.eng.moves move with
    | none => s
    | some m => match m.unit with
      | none => s
      | some u => if s.now < m.ready ∨ !unitRuns s m.obj u then s else match result with
        | .ok =>
          match swapCancelled s m with
          | some c => stopEvict move m c s
          | none =>
          let n := unitBytes s m.obj u
          pastUnit move u (fun m => { m with committed := m.committed + 1, bytes := m.bytes + n })
            (if m.toFlash then countIn n (commitUnit move m u s) else commitUnit move m u s)
        | .mismatch =>
          if m.attempts = 0 then takeShare move m u (setMove move (fun m => { m with attempts := 1 }) s)
          else abandonUnit move m u s
        | .lost => if m.toFlash || !crossesFlash s m then s else loseUnit move m u s)

/-! ## MOVE_OLD_HOME_RELEASE (R367 step 6) -/

def releaseOldHome (m : Move) : Move :=
  { m with heldLp := [], heldFlash := 0, heldSwap := 0, state := if m.state = .draining then .idle else m.state }

def execMoveOldHomeRelease (move : Nat) (s : State) : Host.Outcome State Fault Refusal :=
  .next (setMove move releaseOldHome s)

end Sys2Proof.Machine
end

