-- ==== Sys2Proof/Machine/Loss.lean ====
section
/-! DEFINITION. What a lost position, store quarter or course takes with it (R467, R468), and the objects that cease to
exist (R365, R468, R484). -/

namespace Sys2Proof.Machine

/-! ## Objects that cease to exist -/

/-- The objects that a loss takes, by slot. -/
structure Gone where
  models : List Nat := []
  indices : List Nat := []
  tables : List Nat := []
  vocabs : List Nat := []
  grammars : List Nat := []
  seqs : List Nat := []
  deriving DecidableEq, Repr

def Gone.size (g : Gone) : Nat :=
  g.models.length + g.indices.length + g.tables.length + g.vocabs.length + g.grammars.length + g.seqs.length

/-- Sequences bound to an object that goes go with it (log 41, DEDUCED). -/
def withBound (s : State) (g : Gone) : Gone :=
  { g with seqs := (s.obj.seqs.filter (fun q => g.seqs.contains q.1 || g.models.contains q.2.model
    || (g.vocabs.contains q.2.vocab) || q.2.grammar.any g.grammars.contains)).map (·.1) }

/-- Whether an object is among those that go. -/
def Gone.has (g : Gone) : Obj → Bool
  | .model n => g.models.contains n
  | .seq n => g.seqs.contains n
  | .index n => g.indices.contains n
  | .table n => g.tables.contains n
  | .grammar n => g.grammars.contains n
  | _ => false

/-- Whether an outstanding command names an object that goes. -/
def namesGone (s : State) (g : Gone) (c : Cmd) : Bool :=
  c.op != 6 && ((objOf s c.sid c.handle).any g.has
    || g.models.any (fun n => let m := look s.obj.models n; c.sid == m.session && bindsModel (mkHandle n m.reuse) c)
    || (c.op == 0x0303 && (indexOf s c.sid (c.arg 0 8)).any (fun x => g.indices.contains x.1))
    || (c.op == 0x0200 && (g.vocabs.contains (c.arg 16 1) || (grammarOf s c.sid (c.arg 24 8)).any (fun x =>
          g.grammars.contains x.1)))
    || (c.op == 0x0701 && g.vocabs.contains (c.arg 1 1 + (if c.arg 0 1 = 1 then 8 else 0)))
    || (vocabUses s c).any g.vocabs.contains)

/-- The completion of such a command: RESOURCE_RETIRED, with the counts of a run (R468). -/
def retiredResult (s : State) (c : Cmd) : Result :=
  match (runSeq s c.id).bind (fun e => (find? s.obj.seqs e).bind (fun q => q.run)) with
  | some r => runResult r .resourceRetired (runEffect r) 0 0 7 false
  | none => { status := .resourceRetired, effect := if c.begun then .part else .none }

/-- Walks on an index leave the device. -/
def endIndexWalks (slots : List Nat) (s : State) : State :=
  let gone := (s.eng.walks.filter (fun w => slots.contains w.index)).map (·.id)
  { s with eng := { s.eng with
    walks := s.eng.walks.filter (fun w => !slots.contains w.index)
    net := s.eng.net.filter (fun m => !gone.contains m.walk)
    slots := s.eng.slots.filter (fun q => !gone.contains q.2.walk)
    cold := (s.eng.cold.map (fun b => { b with msgs := b.msgs.filter (fun m => !gone.contains m.walk) })).filter
      (fun b => !b.msgs.isEmpty) } }

/-- The objects cease to exist: their outstanding commands end with RESOURCE_RETIRED, their handles are unknown. -/
def vanish (g : Gone) (s : State) : State :=
  let g := withBound s g
  let s := foldS (fun s c => finish c (retiredResult s c) s) (s.cmds.filter (namesGone s g)) s
  let s := foldS (fun s e => freeSeq e s) g.seqs s
  let s := foldS (fun s n => removeModel n s) g.models s
  let s := foldS (fun s n => removeIndex n s) g.indices (endIndexWalks g.indices s)
  let s := foldS (fun s n => clearVocab n s) g.vocabs s
  let s := { s with obj := { s.obj with
    tables := s.obj.tables.filter (fun t => !g.tables.contains t.1)
    grammars := s.obj.grammars.filter (fun t => !g.grammars.contains t.1) } }
  reapVocabs (reapAdapters s)

/-! ## What is homed where -/

/-- Whether a position of a course is among those lost. -/
def losesIn (ps : List Nat) (c : Nat) : Bool := ps.any (fun p => p / 24 == c)
def losesMask (ps : List Nat) (mask : Nat) : Bool := ps.any (fun p => bitOf mask (p / 24))

/-- Whether every position of a course is lost. -/
def losesAll (s : State) (ps : List Nat) (c : Nat) : Bool :=
  ((positions s).filter (fun p => p / 24 == c)).all ps.contains

/-- Whether map lines of an object in flash lay on a lost position. -/
def losesMap (ps : List Nat) (kind n u : Nat) : Bool := ps.any (fun p => Config.mapOnPosition kind n u p)

def modelLost (ps : List Nat) (n : Nat) (m : Model) : Bool :=
  if m.cold then losesMap ps 0 n 0 else if m.home < 4 then losesIn ps m.home else !ps.isEmpty

def seqLost (s : State) (ps : List Nat) (e : Nat) (q : Seq) : Bool :=
  if q.inFlash then losesMap ps 3 e 0
  else losesIn ps q.course.val
    && (losesAll s ps q.course.val || ps.any (fun p => p / 24 == q.course.val && Config.seqOnPosition e p))

/-- The objects with a home on a lost position. -/
def goneWith (s : State) (ps : List Nat) : Gone :=
  { models := (s.obj.models.filter (fun m => modelLost ps m.1 m.2)).map (·.1)
    indices := (s.obj.indices.filter (fun x => losesMask ps (idxCourses x.2))).map (·.1)
    tables := (s.obj.tables.filter (fun t => losesMask ps t.2.courses)).map (·.1)
    seqs := (s.obj.seqs.filter (fun q => seqLost s ps q.1 q.2)).map (·.1) }

/-- The objects with a home in a lost store quarter. -/
def goneWithQuarters (s : State) (qs : List (Fin 4)) : Gone :=
  let inQ := fun (ext : List Nat) => qs.any (fun q => (ext[q.val]?).getD 0 != 0)
  { vocabs := (s.obj.vocabs.filter (fun v => inQ v.2.extents)).map (·.1)
    grammars := (s.obj.grammars.filter (fun v => inQ v.2.extents)).map (·.1)
    indices := (s.obj.indices.filter (fun x => qs.contains x.2.quarter)).map (·.1) }

/-- Corpus records in flash and cold regions whose map lines are lost cannot be read (R468). -/
def loseMapLines (ps : List Nat) (s : State) : State :=
  { s with obj := { s.obj with
    corpora := mapTbl s.obj.corpora (fun n t => mapTbl t (fun i r =>
      if r.inFlash && losesMap ps 1 n i then { r with unreadable := true } else r))
    indices := mapTbl s.obj.indices (fun n x => if !x.extended then x else { x with
      nodes := mapTbl x.nodes (fun k v =>
        if coldNode x k && losesMap ps 2 n (nodeRegion k) then { v with badSlot := true, badIdent := true } else v) }) } }

/-! ## Loss of a position (R468) -/

/-- The highest-numbered SPARE channel of a course (R348, R381). -/
def spareOf (s : State) (c : Nat) : Option (Fin 96) :=
  (((List.finRange 96).filter (fun ch => ch.val / 24 == c && (look s.eng.channels ch).role == .spare
    && islandUp s (channelClk ch))).getLast?)

def setChannel (ch : Fin 96) (f : Channel → Channel) (s : State) : State :=
  { s with eng := { s.eng with channels := upd s.eng.channels ch f } }

/-- Moves to a place that is lost stop: their objects stay where they are. -/
def dropRestores (c : Nat) (s : State) : State :=
  let hit := s.obj.seqs.filter (fun q => reservesOn q.2 c)
  foldS (fun s q => resumeRun q.1 (setSeq q.1 (fun x => { x with swap := .none }) (dropMoves (movesOfSeq q.1) s))) hit s

/-- A channel leaves its position without warning; the position's objects go, and a spare takes it over. -/
def losePosition (ch : Fin 96) (s : State) : State :=
  let k := look s.eng.channels ch
  let s' := setChannel ch (fun k => { k with role := .retired, position := none }) s
  match k.position with
  | none => s'
  | some p =>
    let s := count 0x0A25 1 (loseMapLines [p] (vanish (goneWith s [p]) s))
    let s := setChannel ch (fun k => { k with role := .retired, position := none }) s
    match spareOf s (p / 24) with
    | none => s
    | some r => setChannel r (fun k => { k with role := .active, position := some p }) s

/-! ## Loss of a course (R467) -/

/-- The islands of a course. -/
def courseIslands (c : Fin 4) : List ClockId :=
  (courseArrays c).map arrayClk ++ ((List.finRange 64).filter (fun t => t.val / 16 == c.val)).map tileClk
    ++ [storeClk c, fabricClk c] ++ ((List.finRange 96).filter (fun h => h.val / 24 == c.val)).map channelClk

/-- Evacuations of the course's channels end; a CHANNEL_RETRAIN that waits completes with RESOURCE_RETIRED. -/
def endEvacuations (c : Fin 4) (s : State) : State :=
  let mine := s.eng.evacuations.filter (fun e => e.1.val / 24 == c.val)
  let s := { s with eng := { s.eng with evacuations := s.eng.evacuations.filter (fun e => e.1.val / 24 != c.val) } }
  let s := foldS (fun s e => dropMoves (· == .evacuation e.1) s) mine s
  foldS (fun s e => match e.2.cmd.bind (findCmd s) with
    | none => s
    | some k => finish k { status := .resourceRetired, effect := .part, value := e.2.bytes } s) mine s

/-- An island leaves service; an ISLAND_RETIRE that waited for it completes. -/
def leaveNow (clk : ClockId) (s : State) : State :=
  let i := look s.islands clk
  if i.retired then s
  else
    let s := retire clk s
    match i.leaver.bind (findCmd s) with
    | none => s
    | some k => finish k {} s

/-- The course's islands leave service together, its positions with them. -/
def leaveCourse (c : Fin 4) (s : State) : State :=
  let s := setCourse c (fun k => { k with lost := true }) s
  let s := foldS (fun s ch => setChannel ch (fun k => { k with role := .retired, position := none }) s)
    ((List.finRange 96).filter (fun h => h.val / 24 == c.val)) s
  foldS (fun s clk => leaveNow clk s) (courseIslands c) s

/-- Every step of the course, and every object with a home on it, is lost. -/
def loseCourse (c : Fin 4) (s : State) : State :=
  if (courseOf s c).lost then s
  else
    let ps := (positions s).filter (fun p => p / 24 == c.val)
    let s := abandonStep c .retrieval (abandonStep c .generation s)
    let s := endEvacuations c (dropRestores c.val s)
    let s := vanish (goneWithQuarters s [c]) (loseMapLines ps (vanish (goneWith s ps) s))
    leaveCourse c (count 0x0A25 ps.length s)

/-- A store island fails (R468, R486). -/
def loseStore (c : Fin 4) (s : State) : State := leaveNow (storeClk c) (vanish (goneWithQuarters s [c]) s)

end Sys2Proof.Machine
end

