-- ==== Sys2Proof/Machine/Channels.lean ====
section
/-! DEFINITION. LPDDR6 channels: evacuation to a spare, retraining and retirement, calibration (R356, R359 to R361, R380
to R383). -/

namespace Sys2Proof.Machine

def channelAtRole (s : State) (ch : Fin 96) : Role := (look s.eng.channels ch).role

/-- Role codes of R349. -/
def Role.code : Role → Nat
  | .active => 0 | .spare => 1 | .evacuating => 2 | .receiving => 3 | .training => 4 | .testing => 5 | .retired => 6

/-- A channel is RETIRED and powered down: its island leaves service (R349). -/
def retireChannel (ch : Fin 96) (s : State) : State :=
  let s := setChannel ch (fun k => { k with role := .retired, position := none }) s
  if (look s.islands (channelClk ch)).retired then s else retire (channelClk ch) s

/-- The evacuation that runs in a course, and its move state (R375, R380). -/
def evacuatingIn (s : State) (course : Nat) : Option (Fin 96 × Evacuation) :=
  s.eng.evacuations.find? (fun e => e.1.val / 24 == course && channelAtRole s e.1 == .evacuating)

def evacState (e : Evacuation) : Nat := if e.switched then MoveState.draining.code else MoveState.copying.code

/-- The Quoin takes the course's highest-numbered SPARE as the receiver, and Hod moves every allocated chunk of the
position in ascending order, the move's cursor being the locator (R366, R381 steps 1 and 2). -/
def startEvacuation (ch r : Fin 96) (action : Nat) (cmd : Option Nat) (s : State) : State :=
  let s := setChannel r (fun k => { k with role := .receiving }) (setChannel ch (fun k => { k with role := .evacuating }) s)
  orderMove { obj := .evacuation ch, device := true, units := usedChunks s ch, ordered := usedChunks s ch }
    { s with eng := { s.eng with evacuations := put s.eng.evacuations ch { receiver := r, action, cmd } } }

/-- An evacuation that a command orders: its checks in the order of R380. -/
def orderEvacuation (c : Cmd) (ch : Fin 96) (action : Nat) (s : State) : State :=
  if channelAtRole s ch ≠ .active then fail c .channelNotActive (channelAtRole s ch).code s
  else match spareOf s (ch.val / 24) with
  | none => fail c .noSpare 0 s
  | some r => match evacuatingIn s (ch.val / 24) with
    | some (_, e) => conflict c 0x0C (evacState e) s
    | none => setCmd c.id (fun x => { x with begun := true }) (startEvacuation ch r action (some c.id) s)

/-- CHANNEL_RETRAIN with an action (R380). -/
def retrain (action : Nat) (c : Cmd) (s : State) : State :=
  if c.begun ∨ c.arg 1 1 ≠ action then s else orderEvacuation c (Fin.ofNat 96 (c.arg 0 1)) action s

/-- CHANNEL_RETRAIN, action 0 (R380, R381). -/
def execChannelRetrain (cmd : Nat) (s : State) : Host.Outcome State Fault Refusal :=
  .next (runCmd cmd 0x0F08 (retrain 0) s)

/-- CHANNEL_RETRAIN, action 1 (R380, R381). -/
def execChannelActivateSpare (cmd : Nat) (s : State) : Host.Outcome State Fault Refusal :=
  .next (runCmd cmd 0x0F08 (retrain 1) s)

/-! ## EVACUATION_MAP_SWITCH (R381 step 3) -/

def setEvacuation (ch : Fin 96) (f : Evacuation → Evacuation) (s : State) : State :=
  { s with eng := { s.eng with evacuations := adj s.eng.evacuations ch f } }

/-- Every allocated chunk of the position has committed. -/
def allCopied (s : State) (ch : Fin 96) : Bool :=
  match moveOf s (.evacuation ch) with
  | some (_, m) => m.unit.isNone && (unitsLeft s m).isEmpty
  | none => true

/-- Bytes of the chunks that an evacuation has committed. -/
def copiedBytes (s : State) (ch : Fin 96) : Nat := ((latestMove s (.evacuation ch)).map (·.bytes)).getD 0

/-- The old hop engine's slots and messages are served at the receiver from now on, by forwarding. -/
def forwardHops (ch r : Fin 96) (s : State) : State :=
  let via := fun (e : Nat) => if e = 64 + ch.val then 64 + r.val else e
  { s with eng := { s.eng with
    slots := s.eng.slots.map (fun q => ((via q.1.1, q.1.2), q.2))
    net := s.eng.net.map (fun m => { m with src := via m.src, dst := via m.dst }) } }

/-- An open row migration from or to a position (R383). -/
def migratesAt (s : State) (p : Nat) : Bool :=
  s.obj.tables.any (fun t => t.2.migrations.any (fun m =>
    (shards s t.2.courses)[m.old]? == some p || (shards s t.2.courses)[m.new]? == some p))

/-- The position passes to the receiver; a progress completion gives the bytes moved. -/
def switchMap (ch : Fin 96) (e : Evacuation) (s : State) : State :=
  let p := (look s.eng.channels ch).position
  let bytes := copiedBytes s ch
  let loaded := (s.eng.slots.filter (fun q => q.1.1 == 64 + ch.val)).map (fun q => q.2.walk)
  let s := setChannel ch (fun k => { k with position := none }) s
  let s := setChannel e.receiver (fun k => { k with role := .active, position := p }) s
  let s := setEvacuation ch (fun e => { e with switched := true, bytes, walks := loaded }) (forwardHops ch e.receiver s)
  let s := match e.cmd.bind (findCmd s) with
    | some c => if c.progress then post c.pairKey (completionOf s c false { effect := .part, value := bytes }) s else s
    | none => s
  openAll s

def execEvacuationMapSwitch (course : Fin 4) (s : State) : Host.Outcome State Fault Refusal :=
  .next (match evacuatingIn s course.val with
    | none => s
    | some (ch, e) =>
      let busy := match (look s.eng.channels ch).position with
        | some p => migratesAt s p
        | none => true
      if e.switched || busy || !allCopied s ch || !awake s then s else switchMap ch e s)

/-! ## EVACUATION_DRAIN_DONE (R381 steps 4 to 6) -/

/-- Ends an evacuation; the command reports the bytes moved and the channel's role. -/
def endEvacuation (ch : Fin 96) (e : Evacuation) (st : Status) (s : State) : State :=
  let s := dropMoves (· == .evacuation ch) { s with eng := { s.eng with evacuations := del s.eng.evacuations ch } }
  match e.cmd.bind (findCmd s) with
  | none => s
  | some c => finish c { status := st, value := e.bytes, detail := (channelAtRole s ch).code } s

/-- The old channel holds nothing more: it trains, is retired, or leaves for SERVICE. -/
def leavePosition (ch : Fin 96) (e : Evacuation) (s : State) : State :=
  match e.action with
  | 0 => setChannel ch (fun k => { k with role := .training }) s
  | 3 =>
    let s := setChannel ch (fun k => { k with role := .spare }) s
    let wanted := s.cmds.any (fun c => c.op == 0x0F0C && c.begun && c.scope.contains (channelClk ch))
    endEvacuation ch { e with cmd := none } .ok (if wanted then standAside (channelClk ch) s else s)
  | _ => endEvacuation ch e .ok (retireChannel ch s)

def execEvacuationDrainDone (course : Fin 4) (s : State) : Host.Outcome State Fault Refusal :=
  .next (match evacuatingIn s course.val with
    | none => s
    | some (ch, e) =>
      if e.switched && !s.eng.walks.any (fun w => e.walks.contains w.id) then leavePosition ch e s else s)

/-! ## Training and test (R381 step 5) -/

def evacuationOf (s : State) (ch : Fin 96) : Evacuation := look s.eng.evacuations ch

def execChannelTrainingDone (channel : Fin 96) (pass : Bool) (s : State) : Host.Outcome State Fault Refusal :=
  .next (if channelAtRole s channel ≠ .training then s
    else if pass then bump (channelClk channel) 0x060B 1 (setChannel channel (fun k => { k with role := .testing }) s)
    else endEvacuation channel (evacuationOf s channel) .trainingFailed (retireChannel channel s))

def execChannelTestDone (channel : Fin 96) (pass : Bool) (s : State) : Host.Outcome State Fault Refusal :=
  .next (if channelAtRole s channel ≠ .testing ∨ (find? s.eng.evacuations channel).isNone then s
    else if pass then
      endEvacuation channel (evacuationOf s channel) .ok (setChannel channel (fun k => { k with role := .spare }) s)
    else endEvacuation channel (evacuationOf s channel) .trainingFailed (retireChannel channel s))

/-! ## AUTO_RETRAIN (R361) -/

def anHour : Nat := 3600000000000

/-- Words corrected in the last hour. -/
def correctedHour (s : State) (k : Channel) : Nat := sumBy (fun m => if s.now - m.1 < anHour then m.2 else 0) k.corrected

/-- More than RETRAIN_CE corrected words in an hour, or a failed retune. -/
def needsRetrain (s : State) (k : Channel) : Bool :=
  k.role == .active && (k.retuneFailed || (s.dev.cfg.mem.retrainCe != 0 && s.dev.cfg.mem.retrainCe < correctedHour s k))

/-- The Quoin starts a retrain where the course has a spare; otherwise it logs the need and the channel serves on (log
42, DEDUCED). -/
def autoRetrain (ch : Fin 96) (s : State) : State :=
  let met := fun s => setChannel ch (fun k => { k with retuneFailed := false, corrected := [] }) s
  match spareOf s (ch.val / 24) with
  | none => logFault (channelClk ch) 1 0 0 1 (met s)
  | some r => if (evacuatingIn s (ch.val / 24)).isSome then s else startEvacuation ch r 0 none (met s)

def execAutoRetrain (channel : Fin 96) (s : State) : Host.Outcome State Fault Refusal :=
  .next (if awake s && needsRetrain s (look s.eng.channels channel) then autoRetrain channel s else s)

/-! ## CHANNEL_CALIBRATION (R359, R360) -/

/-- The channels that calibrate: those trained and powered. -/
def trained (r : Role) : Bool := [Role.active, .spare, .evacuating, .receiving].contains r

/-- The number of a channel's calibration interval at a moment: channel k starts at offset k × CAL_INTERVAL ÷ 24. -/
def calSlot (s : State) (ch : Fin 96) (t : Nat) : Nat :=
  let i := s.dev.cfg.mem.calIntervalMs * 1000000
  (t + i - ch.val % 24 * i / 24) / i

/-- Whether a calibration is due. -/
def calDue (s : State) (ch : Fin 96) : Bool :=
  match (look s.eng.channels ch).lastCal with
  | none => 1 ≤ calSlot s ch s.now
  | some t => calSlot s ch t < calSlot s ch s.now

/-- The time that a calibration holds a channel's requests, at most 1.0 µs, and a retune after it, at most 4.0 µs (R359,
R360): each a free value under its bound (log 190, DESIGN
CHOICE). -/
def calHold (s : State) (ch : Fin 96) (drift : Nat) : Nat :=
  Config.calTime ch.val s.now % 1001 + (if 4 < drift then Config.retuneTime ch.val s.now % 4001 else 0)

/-- A calibration; a drift above 4 ps makes the channel retune in place. The channel holds its requests meanwhile. -/
def calibrate (ch : Fin 96) (drift : Nat) (ok : Bool) (s : State) : State :=
  let s := bump (channelClk ch) 0x0609 1 (setChannel ch (fun k => { k with lastCal := some s.now }) s)
  let t := s.now + calHold s ch drift
  let s := { s with islands := upd s.islands (channelClk ch) (fun i => { i with relockEnd := max i.relockEnd t }) }
  if 4 < drift then
    bump (channelClk ch) 0x060A 1 (setChannel ch (fun k => { k with retuneFailed := k.retuneFailed || !ok }) s)
  else s

def execChannelCalibration (channel : Fin 96) (driftPs : Nat) (retuneOk : Bool) (s : State) :
    Host.Outcome State Fault Refusal :=
  .next (if awake s && trained (channelAtRole s channel) && islandUp s (channelClk channel) && calDue s channel then
      calibrate channel driftPs retuneOk s
    else s)

end Sys2Proof.Machine
end

