-- ==== Sys2Proof/Machine/Flash.lean ====
section
/-! DEFINITION. The flash tier: blocks, bands, staging and programs, folding and garbage collection, journal, read
recovery and die failure (R389 to R409, R546). -/

namespace Sys2Proof.Machine

/-! ## The division of the die blocks (R546) -/

/-- Logical blocks of a QLC die block: planes × pages × 4 codewords (R393, R394). -/
def qlcBlockLbas (b : Board) : Nat := b.planes * b.qlcPages * 4

/-- Whether the device accepts the dies' geometry (R390). -/
def geometryOk (b : Board) : Bool :=
  b.pageBytes = 16384 && 2048 ≤ b.spareBytes && [1, 2, 4].contains b.planes && b.oneBitMode && b.planeBlocks ≤ 2047
    && b.planes * b.qlcPages ≤ 16384

/-- Dies present on a channel: those of its dies that are accepted and pass at its rate (R389, R390). -/
def diesOn (b : Board) (f : Fin 16) : Nat :=
  if geometryOk b then b.dieRows - ((b.excluded.find? (fun x => x.1 == f)).map (·.2)).getD 0 else 0

/-- Die rows: row d exists when every channel presents die d (R391). -/
def dieRowsOf (b : Board) : Nat := (List.finRange 16).foldl (fun n f => min n (diesOn b f)) 16

/-- Whether M map-area die blocks per die hold two checkpoints of the map and 1 GiB of journal records; `rest` is what
the first three parts leave of a die. -/
def mapAreaHolds (b : Board) (p : FlashParams) (rest m : Nat) : Bool :=
  let d := 16 * dieRowsOf b
  let cap := d * (rest - m) * qlcBlockLbas b * (100 - p.opPct) / 100
  2 * 64 * ceilDiv cap 12 + 2 ^ 30 ≤ m * d * (qlcBlockLbas b / 4 * 4096) * 15 / 16

/-- The least M from a start on. -/
def leastMap (b : Board) (p : FlashParams) (rest : Nat) : Nat → Nat → Option Nat
  | 0, _ => none
  | n + 1, m => if mapAreaHolds b p rest m then some m else leastMap b p rest n (m + 1)

/-- The division of a board with a parameter set. -/
def divide (b : Board) (p : FlashParams) (f : Flash) : Flash :=
  let d := 16 * dieRowsOf b
  let reserve := b.planeBlocks * 2 / 100
  let pool := ceilDiv 128 (max 1 d)
  let rest := b.planeBlocks - reserve - p.onebitBlocks - pool
  let m := (leastMap b p rest rest 1).getD rest
  let qlc := if d = 0 then 0 else rest - m
  { f with dieRows := dieRowsOf b, reserve, oneBitPerDie := p.onebitBlocks, qlcPerDie := qlc, qlcLbas := qlcBlockLbas b
           logical := d * qlc * qlcBlockLbas b * (100 - p.opPct) / 100 }

/-! ## Bands (R394) -/

/-- Bands of the one-bit region, and of QLC data. -/
def oneBitBands (f : Flash) : Nat := f.oneBitPerDie * f.dieRows
def qlcBands (f : Flash) : Nat := f.qlcPerDie * f.dieRows

def isOneBit (f : Flash) (b : Nat) : Bool := b < oneBitBands f

/-- The die row of a band. -/
def bandRow (f : Flash) (b : Nat) : Nat :=
  if isOneBit f b then b / max 1 f.oneBitPerDie else (b - oneBitBands f) / max 1 f.qlcPerDie

/-- The channels whose dies a band uses. -/
def bandChannels (r : Band) : List Nat := (List.range 16).filter (fun c => !r.missing.contains c)

/-- Blocks that a band holds. -/
def bandCapacity (f : Flash) (b : Nat) (r : Band) : Nat :=
  (bandChannels r).length * (if isOneBit f b then f.qlcLbas / 4 else f.qlcLbas)

/-- The die of a block of a band, as channel × 16 + die (R391, R396). -/
def dieOf (f : Flash) (b idx : Nat) : Nat :=
  let cs := bandChannels (look f.bands b)
  (cs[Config.dieIn b idx % max 1 cs.length]?).getD 0 * 16 + bandRow f b

/-- Dies that a new band of a row leaves out: failed ones, and those whose reserve is used up (R394, R406). -/
def leftOutDies (f : Flash) (row : Nat) : List Nat :=
  (List.range 16).filter (fun c => f.failedDies.contains (c * 16 + row) || f.reserve < look f.retired (c * 16 + row))

/-- Bands that the device areas take. -/
def deviceBandsOf (s : State) : Nat × Nat :=
  let n := min s.flash.swap (swapUsed s) + objectBlocks s
  if n = 0 then (0, 0) else Config.deviceBands n

/-- Listed bands of a mode that are not free. -/
def bandsInUse (f : Flash) (oneBit : Bool) : Nat :=
  (f.bands.filter (fun b => isOneBit f b.1 == oneBit && !b.2.free)).length

def freeOneBit (s : State) : Nat := oneBitBands s.flash - bandsInUse s.flash true - (deviceBandsOf s).1
def freeQlc (s : State) : Nat := qlcBands s.flash - bandsInUse s.flash false - (deviceBandsOf s).2

/-- Open bands; at most 32 device-wide (R404). -/
def openBands (f : Flash) : Nat := (f.bands.filter (fun b => !b.2.free && !b.2.closed && !b.2.erasing)).length

/-- The first band of a mode that was never used. -/
def unusedBand (f : Flash) (oneBit : Bool) : Option Nat :=
  let used := (f.bands.filter (fun b => isOneBit f b.1 == oneBit)).map (·.1)
  let first := if oneBit then 0 else oneBitBands f
  let n := if oneBit then oneBitBands f else qlcBands f
  (List.range (used.length + 1)).findSome? (fun i =>
    if i < n ∧ !used.contains (first + i) then some (first + i) else none)

/-- The free band with the lowest erase count, the lower number on a tie (R402; log 20, DESIGN CHOICE). -/
def nextBand (f : Flash) (oneBit : Bool) : Option Nat :=
  match unusedBand f oneBit with
  | some b => some b
  | none => (f.bands.filter (fun b => isOneBit f b.1 == oneBit && b.2.free)).foldl (fun best b => match best with
      | none => some b.1
      | some k => if b.2.erases < (look f.bands k).erases ∨ (b.2.erases = (look f.bands k).erases ∧ b.1 < k) then some b.1
          else some k) none

/-- Opens a band of a mode. -/
def openBand (s : State) (oneBit : Bool) : Option (Nat × Flash) :=
  if 32 ≤ openBands s.flash ∨ (if oneBit then freeOneBit s else freeQlc s) = 0 then none
  else (nextBand s.flash oneBit).map (fun b => (b, { s.flash with
    opened := s.flash.opened + 1
    bands := upd s.flash.bands b (fun r => { r with
      missing := leftOutDies s.flash (bandRow s.flash b), next := 0, free := false, closed := false, worn := false
      born := s.flash.opened }) }))

/-! ## Channel queues (R408, R409) -/

/-- Operations that wait or run: the programs of staged blocks, oldest first, and the erases of bands; none on a failed die
(R406). -/
def flashWork (s : State) : List FlashOp :=
  let programs : List FlashOp :=
    s.flash.staging.map (fun x => ⟨dieOf s.flash x.band x.idx, .writes, .program x.nsid x.lba⟩)
  let erases : List FlashOp := (s.flash.bands.filter (fun b => b.2.erasing)).flatMap (fun b => (bandChannels b.2).map
    (fun c => ⟨c * 16 + bandRow s.flash b.1, .background, .erase b.1⟩))
  (programs ++ erases).filter (fun o => !s.flash.failedDies.contains o.die)

/-- The weight of a class; the journal comes strictly first. -/
def classWeight (s : State) : FlashClass → Nat
  | .journal => 0
  | .retrieval => 8
  | .host | .writes => 4
  | .background => if freeQlc s < s.dev.cfg.flash.gcUrgent then 8 else 2

/-- The classes that take turns, from one on. -/
def classesFrom : FlashClass → List FlashClass
  | .journal | .retrieval => [.retrieval, .host, .writes, .background]
  | .host => [.host, .writes, .background, .retrieval]
  | .writes => [.writes, .background, .retrieval, .host]
  | .background => [.background, .retrieval, .host, .writes]

/-- The class that comes next among those that have operations ready, with what is left of its weight: the present one while
its turn lasts, else the next one (R408). -/
def nextClass (s : State) (turn : FlashClass × Nat) (ready : List FlashClass) : Option (FlashClass × Nat) :=
  if ready.contains .journal then some (.journal, 0)
  else if ready.contains turn.1 && turn.2 ≠ 0 then some (turn.1, turn.2 - 1)
  else ((classesFrom turn.1).drop 1 ++ [turn.1]).findSome? (fun k =>
    if ready.contains k then some (k, classWeight s k - 1) else none)

/-- One operation of a channel goes to its idle die; at most 8,192 are in flight (R409). -/
def issueOne (s : State) (ch : Nat) : State :=
  let idle := (flashWork s).filter (fun o => o.die / 16 == ch && !s.flash.issued.any (fun i => i.die == o.die))
  if 8192 ≤ s.flash.issued.length then s
  else match nextClass s ((find? s.flash.turns ch).getD (.retrieval, 0)) (idle.map (·.cls)) with
    | none => s
    | some (k, left) => match idle.find? (fun o => o.cls == k) with
      | none => s
      | some o => { s with flash := { s.flash with
          issued := s.flash.issued ++ [o]
          turns := if k = .journal then s.flash.turns else put s.flash.turns ch (k, left) } }

def issueN : Nat → Nat → State → State
  | 0, _, s => s
  | n + 1, ch, s => issueN n ch (issueOne s ch)

/-- A channel issues what its idle dies can take: one operation a die, 16 dies at most (R391); a paused one issues nothing
(R425). -/
def issueOn (s : State) (ch : Nat) : State :=
  if stopped s (flashClk (Fin.ofNat 16 ch)) then s else issueN 16 ch s

/-- Whether new writes wait: from when free QLC bands fall below GC_URGENT until they are above it again (R403). -/
def holdsWrites (s : State) : Bool :=
  freeQlc s < s.dev.cfg.flash.gcUrgent || (s.flash.writesHeld && freeQlc s == s.dev.cfg.flash.gcUrgent)

/-- Every channel issues, after operations that are no longer wanted have left their dies; whether new writes wait is found
anew. -/
def issueFlash (s : State) : State :=
  let live := flashWork s
  foldS issueOn (List.range 16) { s with flash := { s.flash with
    issued := s.flash.issued.filter live.contains, writesHeld := holdsWrites s } }

/-- Whether the operations of a kind of work run on their dies. -/
def runsOnDie (s : State) (w : FlashWork) : Bool :=
  ((flashWork s).filter (fun o => o.work == w)).all (fun o => s.flash.issued.contains o)

/-! ## Blocks of a namespace -/

/-- The blocks with one changed, in rising order. -/
def setBlock (v : BlockState) (lba : Nat) : List (Nat × BlockState) → List (Nat × BlockState)
  | [] => [(lba, v)]
  | b :: bs => if lba < b.1 then (lba, v) :: b :: bs else if lba = b.1 then (lba, v) :: bs else b :: setBlock v lba bs

/-- The blocks in rising order of their numbers: the canonical form. -/
def blocksOk : List (Nat × BlockState) → Bool
  | [] => true
  | [_] => true
  | a :: b :: bs => a.1 < b.1 && blocksOk (b :: bs)

def blockAt (n : Namespace) (lba : Nat) : Option BlockState := (n.blocks.find? (fun b => b.1 == lba)).map (·.2)

/-- The bytes of a block; none where it is lost. -/
def blockBytes : BlockState → Option (List Byte)
  | .mapped b _ _ => some b
  | .lost => none

def setNamespace (nsid : Nat) (f : Namespace → Namespace) (s : State) : State :=
  { s with flash := { s.flash with namespaces := adj s.flash.namespaces nsid f } }

/-- Journal records are appended (R397). -/
def journal (n : Nat) (s : State) : State :=
  { s with flash := { s.flash with
    journal := s.flash.journal + n, journalAt := if s.flash.journal = 0 then s.now else s.flash.journalAt
    shutdownOpen := true } }

/-- A block is unmapped: it reads as zeros, and is staged no more. -/
def unmapBlocks (nsid : Nat) (gone : Nat → Bool) (s : State) : State :=
  setNamespace nsid (fun n => { n with blocks := n.blocks.filter (fun b => !gone b.1) }) { s with flash := { s.flash with
    staging := s.flash.staging.filter (fun x => !(x.nsid == nsid && gone x.lba)) } }

/-! ## Reading (R399, R405, R407) -/

/-- A block of zeros. -/
def zeroBlock : List Byte := List.replicate 4096 0

/-- What a read of a block gives: its bytes, or none where it is lost. A staged block is served from the staging buffer,
a block of an open band of a failed die by reconstruction. -/
def readBlock (s : State) (nsid lba : Nat) (n : Namespace) : Option (List Byte) :=
  if (look s.tenants n.tenant).dataKey.isNone then none
  else match blockAt n lba with
  | none => some zeroBlock
  | some .lost => none
  | some (.mapped b band idx) =>
    if s.flash.staging.any (fun x => x.nsid == nsid && x.lba == lba && x.band == band && x.idx == idx) then some b
    else if s.flash.failedDies.contains (dieOf s.flash band idx) && (look s.flash.bands band).closed then none
    else some b

/-! ## Writing (R399, R403) -/

/-- Blocks that the staging buffer holds: 8 MiB, or 64 KiB per die on boards with fewer than 128 dies. -/
def stagingSize (f : Flash) : Nat := if f.dieRows < 8 then 16 * 16 * f.dieRows else 2048

/-- A place in the open one-bit band that takes writes, opened where there is none. -/
def place? (s : State) : Option (Nat × Nat × Flash) :=
  let fresh := (openBand s true).map (fun r => (r.1, 0, { r.2 with writeBand := some r.1 }))
  match s.flash.writeBand with
  | none => fresh
  | some b =>
    let r := look s.flash.bands b
    if r.next < bandCapacity s.flash b r then some (b, r.next, s.flash) else fresh

/-- Step 2 of R399 for one block: its place is its home. -/
def placeBlock (nsid lba : Nat) (bytes : List Byte) (s : State) : Option State :=
  (place? s).map (fun p =>
    let s := { s with flash := { p.2.2 with
      bands := upd p.2.2.bands p.1 (fun r => { r with next := r.next + 1 })
      staging := p.2.2.staging.filter (fun x => !(x.nsid == nsid && x.lba == lba))
        ++ [{ nsid, lba, band := p.1, idx := p.2.1 }] } }
    setNamespace nsid (fun n => { n with blocks := setBlock (.mapped bytes p.1 p.2.1) lba n.blocks }) s)

/-- Blocks of one portion, in order; none when not all find a place. -/
def placeAll (nsid : Nat) : Nat → List (List Byte) → State → Option State
  | _, [], s => some s
  | lba, b :: bs, s => (placeBlock nsid lba b s).bind (placeAll nsid (lba + 1) bs)

/-- Blocks that are written together: 16 in an atomic namespace (R416). -/
def portionOf (n : Namespace) : Nat := if n.kind = 1 then 16 else 1

/-- Whether a portion may enter the staging buffer now: it has room, and new writes do not wait. -/
def mayStage (s : State) (blocks : Nat) : Bool :=
  s.flash.staging.length + blocks ≤ stagingSize s.flash && !holdsWrites s

/-- One portion of a waiting write enters; none when it must wait. -/
def stagePortion (w : WaitingWrite) (s : State) : Option (WaitingWrite × State) :=
  match find? s.flash.namespaces w.nsid with
  | none => none
  | some n =>
    let bs := w.blocks.take (portionOf n)
    if mayStage s bs.length then
      (placeAll w.nsid w.slba bs s).map (fun s =>
        ({ w with slba := w.slba + bs.length, blocks := w.blocks.drop bs.length, begun := true }, journal 1 s))
    else none

/-- The oldest waiting write goes on, portion by portion; what is left of it, and the state. -/
def stageWrite : Nat → WaitingWrite → State → WaitingWrite × State
  | 0, w, s => (w, s)
  | n + 1, w, s =>
    if w.blocks.isEmpty then (w, s)
    else match stagePortion w s with
      | none => (w, s)
      | some (w, s) => stageWrite n w s

/-! ## FLASH_PROGRAM_DONE -/

/-- A counter of a flash channel, by die. -/
def bumpDie (die sel n : Nat) (s : State) : State := bump (flashClk (Fin.ofNat 16 (die / 16))) sel n s

/-- A staged block's program ends (R399 step 3). -/
def programDone (nsid lba : Nat) (s : State) : State :=
  match s.flash.staging.find? (fun x => x.nsid == nsid && x.lba == lba) with
  | none => s
  | some x =>
    let s := { s with flash := { s.flash with
      staging := s.flash.staging.filter (fun y => !(y.nsid == nsid && y.lba == lba)) } }
    bumpDie (dieOf s.flash x.band x.idx) 0x080A 4096 s

/-! ## Retired die blocks, rewrites -/

/-- A die block is retired; one of its die's reserve replaces it in later bands (R394). -/
def retireDieBlock (die : Nat) (s : State) : State :=
  bumpDie die 0x080D 1 { s with flash := { s.flash with retired := upd s.flash.retired die (· + 1) } }

/-- The blocks of a namespace on a die of a band, that are programmed there. -/
def blocksOnDie (s : State) (nsid : Nat) (n : Namespace) (band die : Nat) : List (Nat × List Byte) :=
  n.blocks.filterMap (fun b => match b.2 with
    | .mapped bytes k idx =>
      if k == band && dieOf s.flash k idx == die && !s.flash.staging.any (fun x => x.nsid == nsid && x.lba == b.1) then
        some (b.1, bytes) else none
    | .lost => none)

/-- Blocks are rewritten through R399, with the room that they need (log 45, DESIGN CHOICE). -/
def rewriteBlocks (band die : Nat) (s : State) : State :=
  foldS (fun s n => foldS (fun s b => match placeBlock n.1 b.1 b.2 s with
      | some s => journal 1 s
      | none => s) (blocksOnDie s n.1 n.2 band die) s) s.flash.namespaces s

/-- Staged blocks that were to be programmed on a die, in a band or in any, are placed anew. -/
def restage (die : Nat) (band : Option Nat) (s : State) : State :=
  foldS (fun s x =>
    if dieOf s.flash x.band x.idx = die ∧ (band = none ∨ band = some x.band) then
      match (find? s.flash.namespaces x.nsid).bind (fun n => blockAt n x.lba) with
      | some (.mapped bytes _ _) => match placeBlock x.nsid x.lba bytes s with
        | some s => journal 1 s
        | none => s
      | _ => s
    else s) s.flash.staging s

/-- The open write band closes: no more blocks are placed in it. -/
def closeBand (b : Nat) (s : State) : State :=
  { s with flash := { s.flash with
    bands := upd s.flash.bands b (fun r => { r with closed := true })
    writeBand := if s.flash.writeBand = some b then none else s.flash.writeBand } }

/-- A die block that fails a program is retired; what it held and what was to go there is written anew, and its band takes no
more blocks (R394, R399; log 191, DESIGN CHOICE). -/
def programFailed (x : Staged) (s : State) : State :=
  let die := dieOf s.flash x.band x.idx
  let s := closeBand x.band s
  retireDieBlock die (rewriteBlocks x.band die (restage die (some x.band) s))

/-- FLASH_PROGRAM_DONE: a program that its channel has issued ends, or fails, and the channels issue what waits (R394, R399,
R408). -/
def execFlashProgramDone (nsid lba : Nat) (failed : Bool) (s : State) : Host.Outcome State Fault Refusal :=
  .next (match s.flash.staging.find? (fun x => x.nsid == nsid && x.lba == lba) with
    | none => s
    | some x =>
      if !runsOnDie s (.program nsid lba) then s
      else issueFlash (if failed then programFailed x s else programDone nsid lba s))

/-! ## Folding and garbage collection (R401, R402) -/

/-- The mapped blocks of a band in write order: place, namespace, block. -/
def mappedIn (s : State) (band : Nat) : List (Nat × Nat × Nat) :=
  isort (s.flash.namespaces.flatMap (fun n => n.2.blocks.filterMap (fun b => match b.2 with
    | .mapped _ k idx => if k = band then some (idx, n.1, b.1) else none
    | .lost => none))) (fun a b => a.1 ≤ b.1)

/-- A band that a fold or collection already reads or writes. -/
def inFold (f : Flash) (b : Nat) : Bool := f.folds.any (fun x => x.dst == b || x.srcs.contains b)

/-- Closed bands of a mode that may be a source. -/
def sources (s : State) (oneBit : Bool) : List (Nat × Band) :=
  s.flash.bands.filter (fun b => isOneBit s.flash b.1 == oneBit && b.2.closed && !b.2.erasing && !b.2.free
    && !inFold s.flash b.1)

/-- A band without a mapped block waits for its erase. -/
def eraseBand (b : Nat) (s : State) : State :=
  { s with flash := { s.flash with bands := upd s.flash.bands b (fun r => { r with erasing := true, closed := false }) } }

/-- The copying of sources into a new QLC band, until it is full. -/
def startFold (gc : Bool) (srcs : List Nat) (s : State) : State :=
  let empty := srcs.filter (fun b => (mappedIn s b).isEmpty)
  let full := srcs.filter (fun b => !(mappedIn s b).isEmpty)
  let s := foldS (fun s b => eraseBand b s) empty s
  if full.isEmpty then s
  else match openBand s false with
  | none => s
  | some (dst, f) =>
    let s := { s with flash := f }
    let room := bandCapacity f dst (look f.bands dst)
    let all := (full.flatMap (fun b => (mappedIn s b).map (fun m => (b, m)))).take room
    let notes := all.zipIdx.map (fun x =>
      { nsid := x.1.2.2.1, lba := x.1.2.2.2, band := x.1.1, idx := x.1.2.1, newIdx := x.2 : FoldNote })
    { s with flash := { s.flash with
      folds := s.flash.folds ++ [{ gc, srcs := full, dst, notes }]
      bands := upd s.flash.bands dst (fun r => { r with next := notes.length }) } }

/-- The bands that a fold takes: a worn one first, else the oldest, as many as one QLC band holds. -/
def foldSources (s : State) : List Nat :=
  let l := isort (sources s true) (fun a b => a.2.born ≤ b.2.born)
  let worn := l.filter (fun b => b.2.worn)
  ((worn ++ l.filter (fun b => !b.2.worn)).map (·.1)).take 4

/-- FOLD_START (R401): free one-bit bands are below FOLD_PCT, or a one-bit band is worn (R405). -/
def execFoldStart (s : State) : Host.Outcome State Fault Refusal :=
  let low := freeOneBit s * 100 < s.dev.cfg.flash.foldPct * oneBitBands s.flash
  .next (if awake s && (low || (sources s true).any (fun b => b.2.worn)) then issueFlash (startFold false (foldSources s) s)
    else s)

/-- The victim of a collection: a worn band, by wear, or the band with the fewest mapped blocks (R402, R405). -/
def victim (s : State) : Option Nat :=
  let l := sources s false
  let least := l.foldl (fun (best : Option (Nat × Band)) b => match best with
    | none => some b
    | some k => if b.2.erases < k.2.erases ∨ (b.2.erases = k.2.erases ∧ b.1 < k.1) then some b else best) none
  let most := s.flash.bands.foldl (fun m b => max m b.2.erases) 0
  match l.find? (fun b => b.2.worn) with
  | some b => some b.1
  | none =>
    match least with
    | none => none
    | some k =>
      if k.2.erases + s.dev.cfg.flash.wearGap < most then some k.1
      else (l.foldl (fun (best : Option (Nat × Nat)) b =>
        let n := (mappedIn s b.1).length
        match best with
        | none => some (b.1, n)
        | some x => if n < x.2 ∨ (n = x.2 ∧ b.1 < x.1) then some (b.1, n) else best) none).map (·.1)

/-- GC_START (R402). -/
def execGcStart (s : State) : Host.Outcome State Fault Refusal :=
  let low := freeQlc s < s.dev.cfg.flash.gcStart
  .next (if awake s && (low || (sources s false).any (fun b => b.2.worn)) then
      match victim s with
      | none => s
      | some b => issueFlash (startFold true [b] s)
    else s)

/-! ## BAND_CLOSE_VERIFY (R401, R404) -/

/-- The map switch of one note: a block written, zeroed or lost since the fold read it keeps its entry. -/
def switchNote (f : Fold) (x : FoldNote) (s : State) : State :=
  match (find? s.flash.namespaces x.nsid).bind (fun n => blockAt n x.lba) with
  | some (.mapped bytes b i) =>
    if b = x.band ∧ i = x.idx then
      let s := setNamespace x.nsid (fun n => { n with blocks := setBlock (.mapped bytes f.dst x.newIdx) x.lba n.blocks }) s
      let s := bumpDie (dieOf s.flash f.dst x.newIdx) (if f.gc then 0x080C else 0x080B) 4096 (journal 1 s)
      { s with flash := { s.flash with
        bytesFolded := s.flash.bytesFolded + (if f.gc then 0 else 4096)
        bytesGc := s.flash.bytesGc + (if f.gc then 4096 else 0) } }
    else s
  | _ => s

def dropFold (dst : Nat) (s : State) : State :=
  { s with flash := { s.flash with folds := s.flash.folds.filter (fun f => f.dst != dst) } }

/-- A verified destination: the map switches block by block, and emptied sources wait for their erase. -/
def commitFold (f : Fold) (s : State) : State :=
  let s := foldS (fun s x => switchNote f x s) f.notes s
  let s := dropFold f.dst { s with flash := { s.flash with
    bands := upd s.flash.bands f.dst (fun r => { r with closed := true }) } }
  foldS (fun s b => if (mappedIn s b).isEmpty then eraseBand b s else s) f.srcs s

/-- A band whose last page is programmed, and none of whose blocks is staged. -/
def bandFull (s : State) (b : Nat) : Bool :=
  let r := look s.flash.bands b
  (find? s.flash.bands b).isSome && !r.free && !r.closed && !r.erasing && bandCapacity s.flash b r ≤ r.next
    && !s.flash.staging.any (fun x => x.band == b)

def bandVerify (b : Nat) (failing : Option Nat) (s : State) : State :=
  match s.flash.folds.find? (fun f => f.dst == b) with
  | some f => match failing with
    | none => commitFold f s
    | some c => eraseBand b (dropFold b (retireDieBlock (c % 16 * 16 + bandRow s.flash b) s))
  | none =>
    if !bandFull s b then s
    else
      match failing with
      | none => closeBand b s
      | some c =>
        let die := c % 16 * 16 + bandRow s.flash b
        retireDieBlock die (rewriteBlocks b die (closeBand b s))

/-- BAND_CLOSE_VERIFY: `failing` is the channel whose die block fails read-verify. -/
def execBandCloseVerify (band : Nat) (failing : Option Nat) (s : State) : Host.Outcome State Fault Refusal :=
  .next (issueFlash (bandVerify band failing s))

/-! ## FLASH_ERASE_DONE (R394) -/

def eraseDone (b : Nat) (failed : List Nat) (s : State) : State :=
  let r := look s.flash.bands b
  if !r.erasing then s
  else
    let cs := bandChannels r
    let row := bandRow s.flash b
    let s := foldS (fun s c => bumpDie (c * 16 + row) 0x0804 1 s) cs s
    let s := foldS (fun s c => retireDieBlock (c * 16 + row) s) (cs.filter failed.contains) s
    { s with flash := { s.flash with bands := upd s.flash.bands b (fun r => { r with
      erasing := false, free := true, closed := false, next := 0, worn := false, erases := r.erases + 1 }) } }

def execFlashEraseDone (band : Nat) (failed : List Nat) (s : State) : Host.Outcome State Fault Refusal :=
  .next (if runsOnDie s (.erase band) then issueFlash (eraseDone band failed s) else s)

/-! ## JOURNAL_FLUSH (R397) -/

/-- The unwritten journal reaches the map area. -/
def flushJournal (s : State) : State :=
  { s with flash := { s.flash with
    journal := 0, namespaces := mapTbl s.flash.namespaces (fun _ n => { n with journalled := n.blocks }) } }

def execJournalFlush (s : State) : Host.Outcome State Fault Refusal :=
  let due := 2 ^ 20 ≤ Config.journalBytes s.flash.journal
    || s.dev.cfg.flash.flushMs * 1000000 ≤ s.now - s.flash.journalAt
  .next (if s.dev.stage = .service ∧ s.flash.journal ≠ 0 ∧ due then flushJournal s else s)

/-! ## Die failure (R406, R407) -/

/-- Asynchronous events of a controller: reported through an outstanding request, or kept (R412). -/
def nvmeEvent (ctrl : Fin 2) (kind : Nat) (s : State) : State :=
  let n := look s.nvme ctrl
  if !n.enabled then s
  else match n.aers with
  | [] => { s with nvme := put s.nvme ctrl { n with events := n.events ++ [kind] } }
  | cid :: rest =>
    { s with nvme := put s.nvme ctrl { n with aers := rest }, out := s.out ++ [.nvmeEvent ctrl cid kind] }

/-- Event kinds: error, SMART/Health, namespace attribute, LBA status alert. -/
def evError : Nat := 0
def evSmart : Nat := 1
def evNamespace : Nat := 2
def evLbaStatus : Nat := 3

/-- Whether a board has a single die row, so that parity lies on the row itself (R546). -/
def singleRow (f : Flash) : Bool := f.dieRows = 1

/-- Blocks of an open band on a die, lost with the row's parity. -/
def loseOnDie (band die : Nat) (s : State) : State :=
  foldS (fun s n =>
    let lost := (blocksOnDie s n.1 n.2 band die).map (·.1)
    let s := bumpDie die 0x0808 lost.length s
    setNamespace n.1 (fun n => { n with blocks := n.blocks.map (fun b => if lost.contains b.1 then (b.1, .lost) else b) }) s)
    s.flash.namespaces s

/-- The time in ns of a map scan at 10% of the device's LPDDR6 data bandwidth, 80% of what its positions' channels carry
(R351, R353, R406). -/
def scanTime (s : State) : Nat :=
  let rate := sumBy (fun ch => if (look s.eng.channels ch).position.isSome then 288 * channelMHz s ch else 0) (List.finRange 96)
  ceilDiv (mapBytes s * 100000) (max 1 rate)

/-- The Quoin fails a die: its fold destinations are abandoned, its open write bands rebuilt, what was staged for it placed
elsewhere, its map scan begun. -/
def failDie (die : Nat) (s : State) : State :=
  if s.flash.failedDies.contains die ∨ s.flash.dieRows ≤ die % 16 then s
  else
    let onRow := fun b => bandRow s.flash b == die % 16 && (bandChannels (look s.flash.bands b)).contains (die / 16)
    let dsts := (s.flash.folds.map (·.dst)).filter onRow
    let s := foldS (fun s b => eraseBand b (dropFold b s)) dsts s
    let openWrites := (s.flash.bands.filter (fun b => !b.2.free && !b.2.closed && !b.2.erasing && onRow b.1)).map (·.1)
    let s := { s with flash := { s.flash with
      failedDies := s.flash.failedDies ++ [die], scans := s.flash.scans ++ [die]
      scanAt := max s.flash.scanAt s.now + scanTime s
      writeBand := s.flash.writeBand.filter (fun b => !openWrites.contains b) } }
    let s := restage die none s
    let s := foldS (fun s b => if singleRow s.flash then loseOnDie b die s else rewriteBlocks b die s) openWrites s
    let s := { s with flash := { s.flash with
      bands := s.flash.bands.map (fun b => if openWrites.contains b.1 then (b.1, { b.2 with closed := true }) else b) } }
    let s := logFault (flashClk (Fin.ofNat 16 (die / 16))) 7 3 die 1 s
    issueFlash (nvmeEvent 1 evSmart (nvmeEvent 0 evSmart s))

/-- FLASH_DIE_FAIL: the die does not answer Reset LUN (R406). -/
def execFlashDieFail (die : Fin 256) (s : State) : Host.Outcome State Fault Refusal :=
  .next (if s.dev.stage = .service then failDie die.val s else s)

/-- Blocks of closed bands on failed dies are lost. -/
def scanNamespace (f : Flash) (dies : List Nat) (n : Namespace) : Namespace :=
  { n with blocks := n.blocks.map (fun b => match b.2 with
    | .mapped _ k i => if (look f.bands k).closed && dies.contains (dieOf f k i) then (b.1, .lost) else b
    | .lost => b) }

/-- The map scan ends: every entry that points into a failed die is lost, objects in flash with a block there cannot be
read, and one alert tells both controllers. -/
def scanDone (s : State) : State :=
  let dies := s.flash.scans
  let f := s.flash
  let s := foldS (fun s d => bumpDie d 0x0808 (sumBy (fun n => (n.2.blocks.filter (fun b => match b.2 with
      | .mapped _ k i => (look f.bands k).closed && dieOf f k i == d
      | .lost => false)).length) f.namespaces) s) dies s
  let s := { s with
    flash := { s.flash with scans := [], namespaces := mapTbl s.flash.namespaces (fun _ n => scanNamespace f dies n) }
    obj := { s.obj with
      corpora := mapTbl s.obj.corpora (fun k t => mapTbl t (fun i r =>
        if r.inFlash && dies.any (fun d => Config.objectOnDie 1 k i d) then { r with unreadable := true } else r))
      indices := mapTbl s.obj.indices (fun k x => { x with nodes := mapTbl x.nodes (fun n v =>
        if coldNode x n && dies.any (fun d => Config.objectOnDie 2 k (nodeRegion n) d) then
          { v with badSlot := true, badIdent := true } else v) }) } }
  nvmeEvent 1 evLbaStatus (nvmeEvent 0 evLbaStatus s)

def execMapScanDone (s : State) : Host.Outcome State Fault Refusal :=
  .next (if s.dev.stage = .service ∧ !s.flash.scans.isEmpty ∧ s.flash.scanAt ≤ s.now then scanDone s else s)

/-! ## Reads that need recovery (R405, R406) -/

/-- A read of a die that reached step 3, or failed it: 16 distinct pages within 1 s fail the die. -/
def dieError (die page : Nat) (s : State) : State :=
  let l := (look s.flash.dieErrors die).filter (fun e => s.now - e.1 < 1000000000) ++ [(s.now, page)]
  let s := { s with flash := { s.flash with dieErrors := put s.flash.dieErrors die l } }
  if 16 ≤ ((l.map (·.2)).dedup).length then failDie die s else s

/-- How the read of a mapped block's codeword ended. -/
def readDone (nsid lba : Nat) (o : ReadOutcome) (s : State) : State :=
  match (find? s.flash.namespaces nsid).bind (fun n => blockAt n lba) with
  | some (.mapped _ band idx) =>
    let die := dieOf s.flash band idx
    let page := band * 2 ^ 32 + idx / 4
    let openBand := !(look s.flash.bands band).closed
    match o with
    | .decoded => s
    | .retried => bumpDie die 0x0805 1 s
    | .soft => bumpDie die 0x0806 1 (bumpDie die 0x0805 1 s)
    | .rebuilt =>
      if openBand then dieError die page (bumpDie die 0x0807 1 (bumpDie die 0x0806 1 (bumpDie die 0x0805 1 s))) else s
    | .lost =>
      let s := bumpDie die 0x0808 1 (bumpDie die 0x0806 1 (bumpDie die 0x0805 1 s))
      dieError die page (setNamespace nsid (fun n => { n with blocks := setBlock .lost lba n.blocks }) s)
  | _ => s

def execFlashReadDone (nsid lba : Nat) (outcome : ReadOutcome) (s : State) : Host.Outcome State Fault Refusal :=
  .next (if s.flash.staging.any (fun x => x.nsid == nsid && x.lba == lba) then s else readDone nsid lba outcome s)

/-- Seven days. -/
def aWeek : Nat := 604800000000000

/-- CLOSED_BAND_READ (R405): a band in which a codeword needed step 2 is folded or collected next. -/
def execClosedBandRead (band : Nat) (soft : Bool) (s : State) : Host.Outcome State Fault Refusal :=
  let r := look s.flash.bands band
  .next (if awake s && (find? s.flash.bands band).isSome && r.closed && !r.erasing && r.readAt / aWeek < s.now / aWeek then
      { s with flash := { s.flash with bands := upd s.flash.bands band (fun r => { r with
        readAt := s.now, worn := r.worn || soft }) } }
    else s)

/-- FLASH_CALIBRATION (R392): every 64 ms. -/
def execFlashCalibration (channel : Fin 16) (s : State) : Host.Outcome State Fault Refusal :=
  .next (if awake s && islandUp s (flashClk channel) && look s.flash.calAt channel.val + 64000000 ≤ s.now then
      { s with flash := { s.flash with calAt := put s.flash.calAt channel.val s.now } }
    else s)

/-! ## A die drained before it is retired (R482) -/

/-- Blocks mapped on a set of dies, with their bytes. -/
def blocksOnDies (s : State) (dies : List Nat) : List (Nat × Nat × List Byte) :=
  s.flash.namespaces.flatMap (fun n => n.2.blocks.filterMap (fun b => match b.2 with
    | .mapped bytes k i => if dies.contains (dieOf s.flash k i) then some (n.1, b.1, bytes) else none
    | .lost => none))

/-- Whether free QLC bands take what lies on the dies. -/
def drainFits (s : State) (dies : List Nat) : Bool :=
  (blocksOnDies s dies).length ≤ freeQlc s * (15 * s.flash.qlcLbas)

/-- Blocks are relocated into new QLC bands, one band after another. -/
def relocateInto : Nat → List (Nat × Nat × List Byte) → State → State
  | 0, _, s => s
  | n + 1, bs, s =>
    if bs.isEmpty then s
    else match openBand s false with
    | none => s
    | some (dst, f) =>
      let room := bandCapacity f dst (look f.bands dst)
      let s := { s with flash := { f with bands := upd f.bands dst (fun r => { r with
        closed := true, next := (bs.take room).length }) } }
      let s := foldS (fun s x => journal 1 (setNamespace x.1.1 (fun n => { n with
        blocks := setBlock (.mapped x.1.2.2 dst x.2) x.1.2.1 n.blocks }) s)) (bs.take room).zipIdx s
      relocateInto n (bs.drop room) s

/-- The dies fail with no mapped block left on them (log 47, DESIGN CHOICE). -/
def drainDies (dies : List Nat) (s : State) : State :=
  let bs := blocksOnDies s dies
  let s := { s with flash := { s.flash with
    failedDies := s.flash.failedDies ++ dies.filter (fun d => !s.flash.failedDies.contains d)
    writeBand := none
    bands := s.flash.bands.map (fun b => if !b.2.free && !b.2.erasing then (b.1, { b.2 with closed := true }) else b)
    folds := []
    staging := s.flash.staging.filter (fun x => !dies.contains (dieOf s.flash x.band x.idx)) } }
  issueFlash (relocateInto (bs.length + 1) bs s)

end Sys2Proof.Machine
end

