-- ==== Sys2Proof/Machine/Nvme.lean ====
section
/-! DEFINITION. The NVMe controllers of PF1 (R400, R407, R410 to R417): queues, admin and I/O commands, namespaces. -/

namespace Sys2Proof.Machine

/-! ## Controllers and queues -/

def ctrlOf (s : State) (c : Fin 2) : Nvme := look s.nvme c

def setCtrl (c : Fin 2) (f : Nvme → Nvme) (s : State) : State := { s with nvme := upd s.nvme c f }

/-- PF1 reports ready: where NVMe is allowed, the device serves, the port's link is up, the map is rebuilt (R397, R453,
R503). -/
def nvmeReady (s : State) (c : Fin 2) : Bool :=
  (ctrlOf s c).enabled && awake s && nvmeAllowed s && s.dev.mapReady && (look s.host.ports c).link
    && !(look s.host.ports c).retired

/-- Entries that wait in a submission queue. -/
def sqWaiting (s : State) (c : Fin 2) (sq : Nat) : Bool :=
  match find? (ctrlOf s c).sqs sq with
  | some q => q.head != q.tail
  | none => false

def qNext (q : NvmeQueue) (n : Nat) : Nat := (n + 1) % max 1 q.size

/-- The command leaves its submission queue. -/
def takeEntry (c : Fin 2) (sq : Nat) (s : State) : State :=
  setCtrl c (fun n => { n with sqs := adj n.sqs sq (fun q => { q with head := qNext q q.head }) }) s

/-- Writes a completion of a submission queue; one that finds its completion queue full waits. A command whose transfer
the host refused completes with Data Transfer Error (R544). -/
def complete (c : Fin 2) (sq cid : Nat) (st : NvmeStatus) (data : List Byte) (s : State) : State :=
  let bad := (ctrlOf s c).refused.contains (sq, cid)
  let st := if bad then .dataTransferError else st
  let data := if bad then [] else data
  let s := if bad then setCtrl c (fun n => { n with refused := n.refused.filter (· != (sq, cid)) }) s else s
  match find? (ctrlOf s c).sqs sq with
  | none => s
  | some q => match find? (ctrlOf s c).cqs q.target with
    | none => s
    | some cq =>
      if qNext cq cq.tail = cq.head then
        setCtrl c (fun n => { n with cqs := adj n.cqs q.target (fun k => { k with held := k.held ++ [(sq, cid, st, data)] }) }) s
      else
        let s := setCtrl c (fun n => { n with cqs := adj n.cqs q.target (fun k => { k with tail := qNext k k.tail }) }) s
        raiseMsix c pf1 cq.target { s with out := s.out ++ [.nvme c sq cid st data] }

/-- A command of a submission queue runs, when the controller is ready and the queue holds one. -/
def nvmeRun (c : Fin 2) (sq : Nat) (body : State → State) (s : State) : State :=
  if nvmeReady s c && sqWaiting s c sq then body (takeEntry c sq s) else s

/-- An admin command that ends with a status. -/
def adminDone (c : Fin 2) (cid : Nat) (r : NvmeStatus × List Byte × State) : State := complete c 0 cid r.1 r.2.1 r.2.2

def nvmeOk (s : State) : NvmeStatus × List Byte × State := (.success, [], s)
def nvmeFail (st : NvmeStatus) (s : State) : NvmeStatus × List Byte × State := (st, [], s)

/-- An admin command by what it answers. -/
def admin (c : Fin 2) (cid : Nat) (body : State → NvmeStatus × List Byte × State) (s : State) :
    Host.Outcome State Fault Refusal :=
  .next (nvmeRun c 0 (fun s => adminDone c cid (body s)) s)

/-! ## Enable, reset, doorbells (R410, R513) -/

/-- CC.EN is set: the admin queues exist with the sizes that the host gave. -/
def enableCtrl (c : Fin 2) (asqs acqs : Nat) (s : State) : State :=
  setCtrl c (fun _ => { enabled := true, sqs := [(0, { size := asqs })], cqs := [(0, { size := acqs })] }) s

def execNvmeControllerEnable (ctrl : Fin 2) (asqs acqs : Nat) (s : State) : Host.Outcome State Fault Refusal :=
  .next (if inService s && nvmeAllowed s && (look s.host.ports ctrl).link && !(ctrlOf s ctrl).enabled
      && 2 ≤ asqs && 2 ≤ acqs && asqs ≤ 4096 && acqs ≤ 4096 then enableCtrl ctrl asqs acqs s
    else s)

/-- A controller reset: queues, requests and unstaged writes go; staged writes stay (R513). -/
def resetCtrl (c : Fin 2) (s : State) : State :=
  { s with
    nvme := put s.nvme c {}
    flash := { s.flash with waiting := s.flash.waiting.filter (fun w => w.ctrl != c) } }

/-- NVME_CONTROLLER_RESET: FLR of PF1, or CC.EN cleared (R513). -/
def execNvmeControllerReset (ctrl : Fin 2) (s : State) : Host.Outcome State Fault Refusal :=
  .next (if reached s ctrl then resetCtrl ctrl s else s)

/-- A tail outside the queue is an invalid doorbell write: an error event. -/
def execNvmeSqTailDoorbell (ctrl : Fin 2) (qid tail : Nat) (s : State) : Host.Outcome State Fault Refusal :=
  .next (if !(ctrlOf s ctrl).enabled || !reached s ctrl then s
    else match find? (ctrlOf s ctrl).sqs qid with
    | none => nvmeEvent ctrl evError s
    | some q => if tail < q.size then
        setCtrl ctrl (fun n => { n with sqs := adj n.sqs qid (fun q => { q with tail }) }) s
      else nvmeEvent ctrl evError s)

/-- Completions that waited for room. -/
def drainCq (c : Fin 2) (l : List (Nat × Nat × NvmeStatus × List Byte)) (s : State) : State :=
  foldS (fun s h => complete c h.1 h.2.1 h.2.2.1 h.2.2.2 s) l s

def execNvmeCqHeadDoorbell (ctrl : Fin 2) (qid head : Nat) (s : State) : Host.Outcome State Fault Refusal :=
  .next (if !(ctrlOf s ctrl).enabled || !reached s ctrl then s
    else match find? (ctrlOf s ctrl).cqs qid with
    | none => nvmeEvent ctrl evError s
    | some q => if head < q.size then
        drainCq ctrl q.held (setCtrl ctrl (fun n => { n with cqs := adj n.cqs qid (fun q => { q with head, held := [] }) }) s)
      else nvmeEvent ctrl evError s)

/-! ## Queue commands (R412) -/

def queueId (q : Nat) : Bool := 1 ≤ q && q ≤ 128

/-- NVME_CREATE_IO_CQ. -/
def createCq (c : Fin 2) (qid size vector : Nat) (s : State) : NvmeStatus × List Byte × State :=
  if !queueId qid || (find? (ctrlOf s c).cqs qid).isSome then nvmeFail .invalidQueue s
  else if size < 2 ∨ 65536 < size then nvmeFail .invalidQueueSize s
  else if 129 ≤ vector then nvmeFail .invalidVector s
  else nvmeOk (setCtrl c (fun n => { n with cqs := put n.cqs qid { size, target := vector } }) s)

def execNvmeCreateIoCq (ctrl : Fin 2) (cid qid size vector : Nat) (s : State) : Host.Outcome State Fault Refusal :=
  admin ctrl cid (createCq ctrl qid size vector) s

/-- NVME_CREATE_IO_SQ. -/
def createSq (c : Fin 2) (qid size cqid : Nat) (s : State) : NvmeStatus × List Byte × State :=
  if !queueId qid || (find? (ctrlOf s c).sqs qid).isSome then nvmeFail .invalidQueue s
  else if size < 2 ∨ 65536 < size then nvmeFail .invalidQueueSize s
  else if cqid = 0 ∨ (find? (ctrlOf s c).cqs cqid).isNone then nvmeFail .invalidCq s
  else nvmeOk (setCtrl c (fun n => { n with sqs := put n.sqs qid { size, target := cqid } }) s)

def execNvmeCreateIoSq (ctrl : Fin 2) (cid qid size cqid : Nat) (s : State) : Host.Outcome State Fault Refusal :=
  admin ctrl cid (createSq ctrl qid size cqid) s

/-- NVME_DELETE_IO_SQ: writes of the queue that wait, and entries not fetched, are aborted. -/
def deleteSq (c : Fin 2) (qid : Nat) (s : State) : NvmeStatus × List Byte × State :=
  if qid = 0 ∨ (find? (ctrlOf s c).sqs qid).isNone then nvmeFail .invalidQueue s
  else
    let mine := s.flash.waiting.filter (fun w => w.ctrl == c && w.sq == qid && !w.begun)
    let s := { s with flash := { s.flash with
      waiting := s.flash.waiting.filter (fun w => !(w.ctrl == c && w.sq == qid && !w.begun)) } }
    let s := foldS (fun s w => complete c qid w.cid .abortedSqDeletion [] s) mine s
    nvmeOk (setCtrl c (fun n => { n with sqs := del n.sqs qid }) s)

def execNvmeDeleteIoSq (ctrl : Fin 2) (cid qid : Nat) (s : State) : Host.Outcome State Fault Refusal :=
  admin ctrl cid (deleteSq ctrl qid) s

/-- NVME_DELETE_IO_CQ: not while a submission queue uses it. -/
def deleteCq (c : Fin 2) (qid : Nat) (s : State) : NvmeStatus × List Byte × State :=
  if qid = 0 ∨ (find? (ctrlOf s c).cqs qid).isNone then nvmeFail .invalidQueue s
  else if (ctrlOf s c).sqs.any (fun q => q.2.target == qid && q.1 != 0) then nvmeFail .invalidQueueDeletion s
  else nvmeOk (setCtrl c (fun n => { n with cqs := del n.cqs qid }) s)

def execNvmeDeleteIoCq (ctrl : Fin 2) (cid qid : Nat) (s : State) : Host.Outcome State Fault Refusal :=
  admin ctrl cid (deleteCq ctrl qid) s

/-! ## Identify, log pages, features (R411, R412, R414) -/

/-- Namespaces attached to a controller. -/
def attachedTo (s : State) (c : Fin 2) : List Nat :=
  isort ((s.flash.namespaces.filter (fun n => n.2.attached.contains c)).map (·.1)) (· ≤ ·)

/-- What a controller reports of itself (R410, R411): CNTLID, VID, SSVID, VS, CMIC, MDTS, OACS, ACL, AERL, SQES, CQES, NN,
ONCS, VWC, AWUN, AWUPF, SGLS. -/
def controllerFacts (s : State) (c : Fin 2) : List Nat :=
  [c.val + 1, vendorId, s.dev.cfg.host.subsystem % 2 ^ 16, nvmeVs, 3, 9, if c = s.host.primary then 8 else 0, 3, 7, 0x66, 0x44,
   1024, 0x8C, 0, 0, 0, 1]

/-- What a namespace reports (R411, R416): NSZE, NCAP, NSFEAT, NAWUN, NAWUPF, NABSN, NABSPF, FLBAS, the exponent of the block
size, DLFEAT. -/
def namespaceFacts (n : Namespace) : List Nat :=
  [n.nsze, n.nsze] ++ (if n.kind = 1 then [2, 15, 15] else [0, 0, 0]) ++ [0, 0, 0, 12, 9]

/-- What Identify's structures are made from (R411). -/
def identifyFacts (s : State) (c : Fin 2) (nsid : Nat) : List Nat :=
  controllerFacts s c ++ [nsid] ++ namespaceFacts (look s.flash.namespaces nsid) ++ attachedTo s c

def identify (c : Fin 2) (cns nsid : Nat) (s : State) : NvmeStatus × List Byte × State :=
  if cns ≤ 3 ∨ (0x10 ≤ cns ∧ cns ≤ 0x13) then
    if cns = 0 ∧ !(attachedTo s c).contains nsid ∧ nsid ≠ 0xFFFFFFFF then nvmeFail .invalidNamespace s
    else (.success, Config.nvmeIdentify cns (identifyFacts s c nsid), s)
  else nvmeFail .invalidField s

def execNvmeIdentify (ctrl : Fin 2) (cid cns nsid : Nat) (s : State) : Host.Outcome State Fault Refusal :=
  admin ctrl cid (identify ctrl cns nsid) s

/-- Runs of lost blocks of a namespace from a block on: first block and length. -/
def lostRuns (n : Namespace) (slba : Nat) : List (Nat × Nat) :=
  (n.blocks.filter (fun b => slba ≤ b.1 && b.2 == .lost)).foldl (fun l b => match l.getLast? with
    | some r => if r.1 + r.2 = b.1 then l.dropLast ++ [(r.1, r.2 + 1)] else l ++ [(b.1, 1)]
    | none => [(b.1, 1)]) []

/-- Blocks lost, in namespaces and in corpora in flash (R414). -/
def lostBlocks (s : State) : Nat :=
  sumBy (fun n => (n.2.blocks.filter (fun b => b.2 == .lost)).length) s.flash.namespaces
    + sumBy (fun t => sumBy (fun r => if r.2.inFlash && r.2.unreadable then blocksOf r.2.bytes.length else 0) t.2) s.obj.corpora

/-- Erase counts of the bands: a band never used has none. -/
def eraseCounts (s : State) : Nat × Nat × Nat :=
  let n := oneBitBands s.flash + qlcBands s.flash
  let most := s.flash.bands.foldl (fun m b => max m b.2.erases) 0
  let least := if s.flash.bands.length < n then 0 else s.flash.bands.foldl (fun m b => min m b.2.erases) most
  (least, sumBy (fun b => b.2.erases) s.flash.bands / max 1 n, most)

/-- Log page 0xC0. -/
def tierPage (s : State) : List Byte :=
  let e := eraseCounts s
  leBytes 4 (freeQlc s) ++ leBytes 4 (freeOneBit s) ++ leBytes 4 e.1 ++ leBytes 4 e.2.1 ++ leBytes 4 e.2.2
    ++ leBytes 2 (16 * s.flash.dieRows) ++ leBytes 2 s.flash.failedDies.length ++ leBytes 8 (lostBlocks s)
    ++ leBytes 1 (b2n (flashReadOnly s) + 2 * b2n s.flash.lastIncomplete) ++ leBytes 7 0 ++ leBytes 8 s.flash.bytesFolded
    ++ leBytes 8 s.flash.bytesGc ++ leBytes 8 s.flash.bytesIn

/-- SMART/Health critical warning: bit 2 after a die failure, bit 3 read-only (R403, R406). -/
def criticalWarning (s : State) : Nat := 4 * b2n (!s.flash.failedDies.isEmpty) + 8 * b2n (flashReadOnly s)

/-- Percentage Used: the mean erase count ÷ the endurance in the dies' parameter page (R414). -/
def percentUsed (s : State) : Nat := (eraseCounts s).2.1 * 100 / max 1 s.dev.board.endurance

/-- A log page; reading the changed-namespace list empties it. -/
def logPage (c : Fin 2) (page nsid : Nat) (s : State) : NvmeStatus × List Byte × State :=
  match page with
  | 0xC0 => (.success, tierPage s, s)
  | 0x02 => if nsid = 0 ∨ nsid = 0xFFFFFFFF then
      (.success, Config.nvmeLog page [criticalWarning s, percentUsed s, s.flash.unsafeShutdowns], s)
    else nvmeFail .invalidField s
  | 0x04 => (.success, Config.nvmeLog page (ctrlOf s c).changed, setCtrl c (fun n => { n with changed := [] }) s)
  | 0x0E => (.success, Config.nvmeLog page (s.flash.namespaces.flatMap (fun n =>
      (lostRuns n.2 0).flatMap (fun r => [n.1, r.1, r.2]))), s)
  | 0x01 | 0x03 | 0x05 => (.success, Config.nvmeLog page [], s)
  | _ => nvmeFail .invalidLogPage s

def execNvmeGetLogPage (ctrl : Fin 2) (cid page nsid : Nat) (s : State) : Host.Outcome State Fault Refusal :=
  admin ctrl cid (logPage ctrl page nsid) s

/-- The features of R414. -/
def featureKnown (f : Nat) : Bool := [0x01, 0x02, 0x04, 0x05, 0x07, 0x08, 0x09, 0x0B].contains f

/-- Number of Queues answers the 128 submission and 128 completion queues that there are, counted from 0 (R411; log 192,
PRESUMED). -/
def queueCount : List Byte := leBytes 4 0x007F007F

/-- Values that a feature takes: PS0 only, TLER 0 and DULBE 0 only. -/
def featureTakes (f v : Nat) : Bool := if f = 0x02 ∨ f = 0x05 then v == 0 else true

def setFeature (c : Fin 2) (f v : Nat) (s : State) : NvmeStatus × List Byte × State :=
  if f = 0x07 then (.success, queueCount, s)
  else if featureKnown f && featureTakes f v then
    nvmeOk (setCtrl c (fun n => { n with features := put n.features f (if f = 1 then v % 8 else v) }) s)
  else nvmeFail .invalidField s

def execNvmeSetFeatures (ctrl : Fin 2) (cid feature value : Nat) (s : State) : Host.Outcome State Fault Refusal :=
  admin ctrl cid (setFeature ctrl feature value) s

def getFeature (c : Fin 2) (f : Nat) (s : State) : NvmeStatus × List Byte × State :=
  if f = 0x07 then (.success, queueCount, s)
  else if featureKnown f then (.success, leBytes 4 (look (ctrlOf s c).features f), s) else nvmeFail .invalidField s

def execNvmeGetFeatures (ctrl : Fin 2) (cid feature : Nat) (s : State) : Host.Outcome State Fault Refusal :=
  admin ctrl cid (getFeature ctrl feature) s

/-- An asynchronous event request, of at most 8 (AERL 7): an event that waited is reported at once. -/
def eventRequest (c : Fin 2) (cid : Nat) (s : State) : State :=
  let n := ctrlOf s c
  if 8 ≤ n.aers.length then complete c 0 cid .aerLimit [] s
  else match n.events with
  | [] => setCtrl c (fun n => { n with aers := n.aers ++ [cid] }) s
  | k :: ks => { (setCtrl c (fun n => { n with events := ks }) s) with out := s.out ++ [.nvmeEvent c cid k] }

def execNvmeAsyncEventRequest (ctrl : Fin 2) (cid : Nat) (s : State) : Host.Outcome State Fault Refusal :=
  .next (nvmeRun ctrl 0 (eventRequest ctrl cid) s)

/-! ## Abort (R417) -/

/-- A target still in its queue, or with no block past step 2, is aborted: bit 0 of the result is 0; else it is 1. -/
def abortCommand (c : Fin 2) (cid sqid target : Nat) (inQueue : Bool) (s : State) : State :=
  let mine := fun (w : WaitingWrite) => w.ctrl == c && w.sq == sqid && w.cid == target && !w.begun
  if s.flash.waiting.any mine then
    let s := { s with flash := { s.flash with waiting := s.flash.waiting.filter (fun w => !mine w) } }
    complete c 0 cid .success (leBytes 4 0) (complete c sqid target .abortedByRequest [] s)
  else if inQueue && sqWaiting s c sqid then
    complete c 0 cid .success (leBytes 4 0) (complete c sqid target .abortedByRequest [] (takeEntry c sqid s))
  else complete c 0 cid .success (leBytes 4 1) s

/-- NVME_ABORT; `inQueue` says that the target is still in its submission queue (log 1, DESIGN CHOICE). -/
def execNvmeAbort (ctrl : Fin 2) (cid sqid target : Nat) (inQueue : Bool) (s : State) : Host.Outcome State Fault Refusal :=
  .next (nvmeRun ctrl 0 (abortCommand ctrl cid sqid target inQueue) s)

/-! ## Namespace management (R412, R415) -/

/-- The commands that only the management-primary port takes. -/
def primaryOnly (c : Fin 2) (body : State → NvmeStatus × List Byte × State) (s : State) : NvmeStatus × List Byte × State :=
  if c = s.host.primary then body s else nvmeFail .invalidOpcode s

/-- The attributes of a namespace changed, for the controllers it was attached to. -/
def tellChanged (nsid : Nat) (cs : List (Fin 2)) (s : State) : State :=
  foldS (fun s c => nvmeEvent c evNamespace (setCtrl c (fun n => { n with
    changed := n.changed.filter (· != nsid) ++ [nsid] }) s)) cs s

def createNamespace (r : NsRequest) (s : State) : NvmeStatus × List Byte × State :=
  if 1024 ≤ r.tenant ∨ (look s.tenants r.tenant).state ≠ .active ∨ 1 < r.kind ∨ r.nsze ≠ r.ncap ∨ r.flbas ≠ 0 ∨ r.dps ≠ 0 then
    nvmeFail .invalidField s
  else if flashFree s < r.nsze ∨ !mapFits s r.nsze then nvmeFail .insufficientCapacity s
  else if (quotasOf s r.tenant).flash < tenantFlash s r.tenant + r.nsze * 4096 then nvmeFail .insufficientCapacity s
  else match firstFree s.flash.namespaces 1 1024 with
  | none => nvmeFail .identifierUnavailable s
  | some nsid => (.success, leBytes 4 nsid, journal 1 { s with flash := { s.flash with
      namespaces := put s.flash.namespaces nsid { nsze := r.nsze, tenant := r.tenant, kind := r.kind } } })

def execNamespaceCreate (ctrl : Fin 2) (cid : Nat) (request : NsRequest) (s : State) : Host.Outcome State Fault Refusal :=
  admin ctrl cid (primaryOnly ctrl (createNamespace request)) s

/-- Kind-2 descriptors of a running command. -/
def kind2Of (c : Cmd) : List Nat :=
  match opInfo c.op with
  | none => []
  | some i => i.bds.filterMap (fun o =>
      if c.bdKind o = 2 ∧ c.bdLen o ≠ 0 then some (field c.params (o + 14) 2) else none)

/-- Whether a kind-2 read of a namespace runs (R425). -/
def kind2Reads (s : State) (nsid : Nat) : Bool :=
  s.cmds.any (fun c => c.phase == .running && (kind2Of c).contains nsid)

/-- Scans of a namespace that is deleted: those QUEUED or RUNNING end with INVALID_FIELD at offset 98, those SUSPENDED
can no longer resume (R495; log 64, DEDUCED). -/
def endScans (nsid : Nat) (s : State) : State :=
  let mine := fun (x : Scan) => x.space == 1 && x.start / 2 ^ 48 == nsid
  let ends := fun (x : Scan) => mine x && x.state != .suspended
  let gone := s.obj.scans.filter (fun x => ends x.2)
  let left := (s.obj.scans.filter (fun x => !ends x.2)).map (fun x => (x.1, { x.2 with orphan := x.2.orphan || mine x.2 }))
  let s := { s with obj := { s.obj with scans := left } }
  foldS (fun s x => match findCmd s x.2.cmd with
    | none => s
    | some c => badField c 98 0 s) gone s

def removeNamespace (nsid : Nat) (s : State) : State :=
  let s := endScans nsid s
  let cs := (look s.flash.namespaces nsid).attached
  let mine := s.flash.waiting.filter (fun w => w.nsid == nsid)
  let s := { s with flash := { s.flash with
    namespaces := del s.flash.namespaces nsid
    staging := s.flash.staging.filter (fun x => x.nsid != nsid)
    waiting := s.flash.waiting.filter (fun w => w.nsid != nsid) } }
  let s := foldS (fun s w => complete w.ctrl w.sq w.cid .invalidNamespace [] s) mine s
  tellChanged nsid cs (journal 1 s)

/-- The namespaces that a command names: one, or all of them. -/
def namedNamespaces (s : State) (nsid : Nat) : List Nat :=
  if nsid = 0xFFFFFFFF then s.flash.namespaces.map (·.1)
  else if (find? s.flash.namespaces nsid).isSome then [nsid] else []

def deleteNamespace (nsid : Nat) (s : State) : NvmeStatus × List Byte × State :=
  match namedNamespaces s nsid with
  | [] => nvmeFail .invalidNamespace s
  | l => nvmeOk (foldS (fun s n => removeNamespace n s) l s)

/-- NAMESPACE_DELETE waits for kind-2 reads of the namespace (R425). -/
def execNamespaceDelete (ctrl : Fin 2) (cid nsid : Nat) (s : State) : Host.Outcome State Fault Refusal :=
  if ctrl = s.host.primary ∧ (namedNamespaces s nsid).any (kind2Reads s) then .next s
  else admin ctrl cid (primaryOnly ctrl (deleteNamespace nsid)) s

def attachment (nsid : Nat) (attach : Bool) (cs : List (Fin 2)) (s : State) : NvmeStatus × List Byte × State :=
  match find? s.flash.namespaces nsid with
  | none => nvmeFail .invalidNamespace s
  | some n =>
    if cs.isEmpty then nvmeFail .invalidField s
    else if attach && cs.any n.attached.contains then nvmeFail .alreadyAttached s
    else if !attach && cs.any (fun c => !n.attached.contains c) then nvmeFail .notAttached s
    else nvmeOk (tellChanged nsid cs (journal 1 (setNamespace nsid (fun n => { n with
      attached := if attach then n.attached ++ cs.dedup else n.attached.filter (fun c => !cs.contains c) }) s)))

def execNamespaceAttachment (ctrl : Fin 2) (cid nsid : Nat) (attach : Bool) (controllers : List (Fin 2)) (s : State) :
    Host.Outcome State Fault Refusal :=
  admin ctrl cid (primaryOnly ctrl (attachment nsid attach controllers)) s

/-- FORMAT_NVM: every block is unmapped with one journal record (R412). -/
def formatNamespaces (nsid ses : Nat) (s : State) : NvmeStatus × List Byte × State :=
  if 1 < ses then nvmeFail .invalidField s
  else match namedNamespaces s nsid with
  | [] => nvmeFail .invalidNamespace s
  | l => nvmeOk (issueFlash (journal 1 (foldS (fun s n => unmapBlocks n (fun _ => true) s) l s)))

def execFormatNvm (ctrl : Fin 2) (cid nsid ses : Nat) (s : State) : Host.Outcome State Fault Refusal :=
  admin ctrl cid (primaryOnly ctrl (formatNamespaces nsid ses)) s

/-- GET_LBA_STATUS: the lost ranges from a block on (R407). -/
def lbaStatus (c : Fin 2) (nsid slba : Nat) (s : State) : NvmeStatus × List Byte × State :=
  match find? s.flash.namespaces nsid with
  | none => nvmeFail .invalidNamespace s
  | some n =>
    if !n.attached.contains c then nvmeFail .invalidNamespace s
    else if n.nsze ≤ slba then nvmeFail .lbaOutOfRange s
    else (.success, Config.nvmeLbaStatus (lostRuns n slba), s)

def execGetLbaStatus (ctrl : Fin 2) (cid nsid slba : Nat) (s : State) : Host.Outcome State Fault Refusal :=
  admin ctrl cid (lbaStatus ctrl nsid slba) s

/-! ## I/O commands (R399, R400, R413) -/

/-- The fault of an I/O command's namespace and range. -/
def rangeFault (s : State) (c : Fin 2) (nsid slba count : Nat) : Option NvmeStatus :=
  match find? s.flash.namespaces nsid with
  | none => some .invalidNamespace
  | some n =>
    if !n.attached.contains c then some .invalidNamespace
    else if n.nsze < slba + count then some .lbaOutOfRange
    else none

/-- Whether a range overlaps a write not yet past step 2 (R400). -/
def overlapsWaiting (s : State) (nsid slba count : Nat) : Bool :=
  s.flash.waiting.any (fun w => w.nsid == nsid && slba < w.slba + w.blocks.length && w.slba < slba + count)

/-- NVME_FLUSH completes at once. -/
def execNvmeFlush (ctrl : Fin 2) (sq cid nsid : Nat) (s : State) : Host.Outcome State Fault Refusal :=
  .next (nvmeRun ctrl sq (fun s => complete ctrl sq cid
    (if nsid = 0xFFFFFFFF then .success else (rangeFault s ctrl nsid 0 0).getD .success) [] s) s)

/-- The waiting writes go on in the order in which they were fetched (R400); a write completes when step 2 has passed
for all of its blocks (log 123, DEDUCED). -/
def admitWrites : List WaitingWrite → State → State
  | [], s => s
  | w :: ws, s =>
    let staged := stageWrite (w.blocks.length + 1) w s
    let w' := staged.1
    let s := staged.2
    let s := countIn ((w.blocks.length - w'.blocks.length) * 4096) s
    if w'.blocks.isEmpty then
      admitWrites ws (complete w.ctrl w.sq w.cid .success [] { s with flash := { s.flash with waiting := ws } })
    else { s with flash := { s.flash with waiting := w' :: ws } }

def admitAll (s : State) : State := issueFlash (admitWrites s.flash.waiting s)

/-- STAGING_ADMIT: room in the staging buffer lets waiting writes in (R399, R403). -/
def execStagingAdmit (s : State) : Host.Outcome State Fault Refusal :=
  .next (if inService s && !s.dev.asleep then admitAll s else s)

/-- A write, of at most 2 MiB (MDTS 9): it joins the writes and goes on as far as it can. -/
def writeBlocks (c : Fin 2) (sq cid nsid slba : Nat) (blocks : List (List Byte)) (s : State) : State :=
  if 512 < blocks.length ∨ blocks.isEmpty then complete c sq cid .invalidField [] s
  else match rangeFault s c nsid slba blocks.length with
  | some st => complete c sq cid st [] s
  | none =>
    if flashReadOnly s then complete c sq cid .writeFault [] s
    else if (look s.tenants (look s.flash.namespaces nsid).tenant).dataKey.isNone then complete c sq cid .internalError [] s
    else admitAll { s with flash := { s.flash with
      waiting := s.flash.waiting ++ [{ ctrl := c, sq, cid, nsid, slba, blocks := blocks.map (padTo 4096) }] } }

/-- NVME_WRITE (R399, R403); data of a poisoned host packet completes it with Data Transfer Error (R461). -/
def execNvmeWrite (ctrl : Fin 2) (sq cid nsid slba : Nat) (blocks : List Block) (poisoned : Bool) (s : State) :
    Host.Outcome State Fault Refusal :=
  .next (nvmeRun ctrl sq (if poisoned then complete ctrl sq cid .dataTransferError [] else writeBlocks ctrl sq cid nsid slba blocks) s)

/-- The blocks of a range; none where one is lost (R407). -/
def readRange (s : State) (nsid : Nat) (n : Namespace) (slba count : Nat) : Option (List Byte) :=
  ((List.range count).mapM (fun i => readBlock s nsid (slba + i) n)).map List.flatten

/-- A read or verify; it waits for a write of its range that was fetched before it (R400). -/
def readBlocks (c : Fin 2) (sq cid nsid slba count : Nat) (transfer : Bool) (s : State) : State :=
  if 512 < count ∧ transfer ∨ count = 0 then complete c sq cid .invalidField [] s
  else match rangeFault s c nsid slba count with
  | some st => complete c sq cid st [] s
  | none => match readRange s nsid (look s.flash.namespaces nsid) slba count with
    | none => complete c sq cid .unrecoveredRead [] s
    | some b => complete c sq cid .success (if transfer then b else []) s

/-- NVME_READ (R400, R407). -/
def execNvmeRead (ctrl : Fin 2) (sq cid nsid slba count : Nat) (s : State) : Host.Outcome State Fault Refusal :=
  .next (if overlapsWaiting s nsid slba count then s else nvmeRun ctrl sq (readBlocks ctrl sq cid nsid slba count true) s)

/-- NVME_VERIFY (R400, R413). -/
def execNvmeVerify (ctrl : Fin 2) (sq cid nsid slba count : Nat) (s : State) : Host.Outcome State Fault Refusal :=
  .next (if overlapsWaiting s nsid slba count then s else nvmeRun ctrl sq (readBlocks ctrl sq cid nsid slba count false) s)

/-- Whether a block lies in a range of a list. -/
def inRanges (rs : List (Nat × Nat)) (b : Nat) : Bool := rs.any (fun r => r.1 ≤ b && b < r.1 + r.2)

/-- Ranges are deallocated: their blocks read as zeros, a lost one among them (R407, R411). -/
def deallocate (c : Fin 2) (sq cid nsid : Nat) (rs : List (Nat × Nat)) (s : State) : State :=
  if rs.isEmpty ∨ 256 < rs.length then complete c sq cid .invalidField [] s
  else match rs.findSome? (fun r => rangeFault s c nsid r.1 r.2) with
  | some st => complete c sq cid st [] s
  | none => complete c sq cid .success [] (issueFlash (journal 1 (unmapBlocks nsid (inRanges rs) s)))

/-- WRITE_ZEROES always deallocates (R413). -/
def writeZeroes (c : Fin 2) (sq cid nsid slba count : Nat) (s : State) : State :=
  if flashReadOnly s && (rangeFault s c nsid slba count).isNone then complete c sq cid .writeFault [] s
  else deallocate c sq cid nsid [(slba, count)] s

def execWriteZeroes (ctrl : Fin 2) (sq cid nsid slba count : Nat) (s : State) : Host.Outcome State Fault Refusal :=
  .next (if overlapsWaiting s nsid slba count then s else nvmeRun ctrl sq (writeZeroes ctrl sq cid nsid slba count) s)

/-- DATASET_MANAGEMENT: deallocate, up to 256 ranges (R413). -/
def execDatasetManagement (ctrl : Fin 2) (sq cid nsid : Nat) (ranges : List (Nat × Nat)) (s : State) :
    Host.Outcome State Fault Refusal :=
  .next (if ranges.any (fun r => overlapsWaiting s nsid r.1 r.2) then s
    else nvmeRun ctrl sq (deallocate ctrl sq cid nsid ranges) s)

end Sys2Proof.Machine
end

