-- ==== Sys2Proof/Machine/Retire.lean ====
section
/-! DEFINITION. Islands that leave service, by command or by the Quoin, and the faults that lead there (R356, R458 to
R464, R466, R481 to R486). -/

namespace Sys2Proof.Machine

/-! ## Clock identifiers as islands (R23, R26) -/

/-- The islands that can leave service. -/
inductive IslandName where
  | array (a : Fin 16) | tile (t : Fin 64) | store (c : Fin 4) | fabric (c : Fin 4) | channel (ch : Fin 96)
  | port (p : Fin 2) | flash (f : Fin 16) | root
  deriving DecidableEq, Repr

def islandName (clk : ClockId) : Option IslandName :=
  let n := clk.toNat
  let course := n / 256 % 16
  let i := n % 256
  if n = 0xFF00 then some .root
  else if !islandClock n then none
  else match n / 4096 with
  | 0 => some (.array (Fin.ofNat 16 (course * 4 + i)))
  | 1 => some (.tile (Fin.ofNat 64 (course * 16 + i)))
  | 2 => some (.store (Fin.ofNat 4 course))
  | 3 => some (.fabric (Fin.ofNat 4 course))
  | 4 => some (.channel (Fin.ofNat 96 (course * 24 + i)))
  | 8 => some (.port (Fin.ofNat 2 i))
  | _ => some (.flash (Fin.ofNat 16 i))

def setIsland (clk : ClockId) (f : Island → Island) (s : State) : State :=
  { s with islands := upd s.islands clk f }

/-! ## Arrays and tiles (R481) -/

/-- An island of a course leaves at the next step boundary, which is now where it carries nothing. -/
def leaveAtBoundary (clk : ClockId) (c : Fin 4) (leaver : Option Nat) (s : State) : State :=
  leaveIslands c (setIsland clk (fun i => { i with leaving := true, leaver }) s)

def courseOfArray (a : Fin 16) : Fin 4 := Fin.ofNat 4 (a.val / 4)
def courseOfTile (t : Fin 64) : Fin 4 := Fin.ofNat 4 (t.val / 16)

/-! ## Ports (R481, R485) -/

/-- A port leaves service: its sessions detach. -/
def leavePort (p : Fin 2) (s : State) : State :=
  let s := setPort p (fun x => { x with retired := true }) s
  leaveNow (portClk p) (if (look s.host.ports p).link then linkDown p s else s)

/-! ## Store islands (R483) -/

/-- Extents of a quarter placed into the free extents of the others: what each other quarter takes. -/
def spreadExtents (free : List Nat) (n : Nat) : Option (List Nat) :=
  let r := free.foldl (fun (a : List Nat × Nat) f => let m := min a.2 f; (a.1 ++ [m], a.2 - m)) ([], n)
  if r.2 = 0 then some r.1 else none

/-- Free extents by quarter, without one. -/
def freeWithout (s : State) (c : Fin 4) : List Nat :=
  (List.range 4).map (fun q => if q = c.val then 0 else extentsFree s q)

/-- The extents of an image with those of a quarter moved. -/
def moveExtents (s : State) (c : Fin 4) (ext : List Nat) : Option (List Nat) :=
  (spreadExtents (freeWithout s c) (partOf ext c.val)).map (fun add =>
    (List.range 4).map (fun q => if q = c.val then 0 else partOf ext q + partOf add q))

/-- The quarter that takes an index's upper entries: the lowest other one with room (log 20, DESIGN CHOICE). -/
def otherQuarter (s : State) (c : Fin 4) (x : Index) : Option (Fin 4) :=
  (List.finRange 4).find? (fun q => q != c && idxHotQuota x * 65536 ≤ storeFree s q)

def moveVocabs (c : Fin 4) : List Nat → State → Option State
  | [], s => some s
  | n :: ns, s => (moveExtents s c (look s.obj.vocabs n).extents).bind (fun e =>
      moveVocabs c ns { s with obj := { s.obj with vocabs := adj s.obj.vocabs n (fun v => { v with extents := e }) } })

def moveGrammars (c : Fin 4) : List Nat → State → Option State
  | [], s => some s
  | n :: ns, s => (moveExtents s c ((find? s.obj.grammars n).map (·.extents) |>.getD [])).bind (fun e =>
      moveGrammars c ns { s with obj := { s.obj with grammars := adj s.obj.grammars n (fun v => { v with extents := e }) } })

def moveQuarters (c : Fin 4) : List Nat → State → Option State
  | [], s => some s
  | n :: ns, s => (otherQuarter s c (look s.obj.indices n)).bind (fun q =>
      moveQuarters c ns { s with obj := { s.obj with indices := adj s.obj.indices n (fun x => { x with quarter := q }) } })

/-- What a store island holds. -/
def storeHolds (s : State) (c : Fin 4) : Bool :=
  s.obj.vocabs.any (fun v => partOf v.2.extents c.val != 0) || s.obj.grammars.any (fun v => partOf v.2.extents c.val != 0)
    || s.obj.indices.any (fun x => x.2.quarter == c)

/-- The contents of a store island's quarters move to other quarters; none when these lack room (log 48, DESIGN CHOICE).
-/
def moveStore (c : Fin 4) (s : State) : Option State :=
  ((moveVocabs c ((s.obj.vocabs.filter (fun v => partOf v.2.extents c.val != 0)).map (·.1)) s).bind
    (moveGrammars c ((s.obj.grammars.filter (fun v => partOf v.2.extents c.val != 0)).map (·.1)))).bind
    (moveQuarters c ((s.obj.indices.filter (fun x => x.2.quarter == c)).map (·.1)))

def retireStore (c : Fin 4) (cmd : Cmd) (s : State) : State :=
  match moveStore c s with
  | none => fail cmd .moveNoRoom 0 s
  | some s => finish cmd {} (leaveNow (storeClk c) s)

/-! ## Courses (R484) -/

/-- Whether sequences of a course are still there, or steps of it in flight. -/
def courseBusy (s : State) (c : Fin 4) : Bool :=
  s.obj.seqs.any (fun q => q.2.course == c && !q.2.inFlash && !isDone q.2)
    || (courseOf s c).generation.step.isSome || (courseOf s c).retrieval.step.isSome

/-- Other courses in service. -/
def otherCourses (s : State) (c : Fin 4) : List (Fin 4) :=
  (List.finRange 4).filter (fun d => d != c && !(courseOf s d).lost && islandUp s (fabricClk d))

/-- Sequences in DONE or in flash belong to another course from now on. -/
def rehome (c : Fin 4) (s : State) : State :=
  match (otherCourses s c).head? with
  | none => s
  | some d => { s with obj := { s.obj with seqs := mapTbl s.obj.seqs (fun _ q =>
      if q.course = c then { q with course := d } else q) } }

/-- The objects with a home on a course's positions. -/
def homedOn (s : State) (c : Fin 4) : Gone :=
  { goneWith s ((positions s).filter (fun p => p / 24 == c.val)) with seqs := [] }

/-- The course is drained, and leaves or stays (R484 steps 3 to 5). -/
def finishCourse (c : Fin 4) (cmd : Cmd) (s : State) : State :=
  let stay := fun (s : State) => setIsland (fabricClk c) (fun i => { i with leaving := false, leaver := none }) s
  match (if (look s.islands (storeClk c)).retired then some s else moveStore c s) with
  | none => fail cmd .moveNoRoom 0 (stay s)
  | some s' =>
    let moved := cmd.moved || storeHolds s c
    let s := leaveNow (storeClk c) s'
    let g := homedOn s c
    if cmd.imm % 2 = 0 ∧ g.size ≠ 0 then
      finish cmd { status := .islandInUse, effect := if moved then .part else .none } (stay s)
    else
      let s := rehome c s
      let ps := (positions s).filter (fun p => p / 24 == c.val)
      let s := loseMapLines ps (vanish g s)
      finish cmd { detail := g.size } (leaveCourse c (setIsland (fabricClk c) (fun i => { i with leaver := none }) s))

def retireFabric (c : Fin 4) (cmd : Cmd) (s : State) : State :=
  let i := look s.islands (fabricClk c)
  if (otherCourses s c).isEmpty then fail cmd .islandInUse 0 s
  else if i.leaver.any (· != cmd.id) then s
  else
    let s := setIsland (fabricClk c) (fun i => { i with leaving := true, leaver := some cmd.id }) s
    let moved := cmd.moved || s.obj.seqs.any (fun q => q.2.course == c && !q.2.inFlash && !isDone q.2)
    let s := setCmd cmd.id (fun x => { x with begun := true, moved }) s
    if courseBusy s c then s else finishCourse c { cmd with begun := true, moved } s

/-! ## Flash channels (R482) -/

/-- The dies that IMMEDIATE names: one of the channel, or all of them. -/
def flashDies (s : State) (f : Fin 16) (imm : Nat) : List Nat :=
  if bitOf imm 4 then [f.val * 16 + imm % 16] else (List.range s.flash.dieRows).map (f.val * 16 + ·)

def retireFlash (f : Fin 16) (cmd : Cmd) (s : State) : State :=
  let dies := flashDies s f cmd.imm
  if !drainFits s dies then fail cmd .moveNoRoom 0 s
  else
    let s := drainDies dies s
    finish cmd {} (if bitOf cmd.imm 4 then s else leaveNow (flashClk f) s)

/-! ## ISLAND_RETIRE (R481) -/

def retireByCommand (cmd : Cmd) (s : State) : State :=
  let clk : ClockId := BitVec.ofNat 16 (cmd.arg 0 2)
  if (look s.islands clk).retired then finish cmd {} s
  else match islandName clk with
  | none | some .root => badField cmd 64 0 s
  | some (.array a) =>
    if (look s.islands clk).leaving then s
    else if arraysUp s (courseOfArray a) = [a] then fail cmd .lastInCourse 0 s
    else leaveAtBoundary clk (courseOfArray a) (some cmd.id) (setCmd cmd.id (fun x => { x with begun := true }) s)
  | some (.tile t) =>
    if (look s.islands clk).leaving then s
    else if tilesUp s (courseOfTile t) = [t] then fail cmd .lastInCourse 0 s
    else leaveAtBoundary clk (courseOfTile t) (some cmd.id) (setCmd cmd.id (fun x => { x with begun := true }) s)
  | some (.store c) => retireStore c cmd s
  | some (.fabric c) => retireFabric c cmd s
  | some (.channel ch) => if cmd.begun then s else orderEvacuation cmd ch 2 s
  | some (.port p) =>
    if p ≠ s.host.primary then leavePort p (finish cmd {} s)
    else if (look s.host.ports (otherPort p)).link && !(look s.host.ports (otherPort p)).retired then
      leavePort p (finish cmd {} (failover s))
    else fail cmd .islandInUse 0 s
  | some (.flash f) => retireFlash f cmd s

def execIslandRetire (cmd : Nat) (s : State) : Host.Outcome State Fault Refusal :=
  .next (runCmd cmd 0x0F07 retireByCommand s)

/-! ## Retirement by the Quoin (R464, R486) -/

/-- A channel that fails: evacuated where the course has a spare, its position lost otherwise. -/
def failChannel (ch : Fin 96) (s : State) : State :=
  match channelAtRole s ch with
  | .retired => s
  | .active => match spareOf s (ch.val / 24) with
    | some r =>
      if (evacuatingIn s (ch.val / 24)).isSome then
        let s := logFault (channelClk ch) 7 4 0 1 (losePosition ch s)
        retireChannel ch s
      else startEvacuation ch r 2 none s
    | none => retireChannel ch (logFault (channelClk ch) 7 4 0 1 (losePosition ch s))
  | .evacuating =>
    let s := { s with eng := { s.eng with evacuations := adj s.eng.evacuations ch (fun e => { e with action := 2 }) } }
    s
  | .receiving => retireChannel ch (logFault (channelClk ch) 7 4 0 1
      (foldS (fun s e => if e.2.receiver = ch then
          endEvacuation e.1 e.2 .resourceRetired (retireChannel e.1 (losePosition e.1 s)) else s) s.eng.evacuations s))
  | .training | .testing => endEvacuation ch (evacuationOf s ch) .trainingFailed (retireChannel ch s)
  | .spare => retireChannel ch s

/-- The Quoin retires an island. -/
def autoRetire (clk : ClockId) (s : State) : State :=
  if (look s.islands clk).retired then s
  else match islandName clk with
  | none | some .root => s
  | some (.array a) =>
    if (look s.islands clk).leaving then s
    else leaveAtBoundary clk (courseOfArray a) none (logFault clk 5 3 0 1 s)
  | some (.tile t) =>
    if (look s.islands clk).leaving then s
    else leaveAtBoundary clk (courseOfTile t) none (logFault clk 5 3 0 1 s)
  | some (.store c) => loseStore c (logFault clk 5 4 0 1 s)
  | some (.fabric c) => loseCourse c (logFault clk 6 4 0 1 s)
  | some (.channel ch) => failChannel ch (logFault clk 5 3 0 1 s)
  | some (.port p) =>
    let s := logFault clk 5 3 0 1 s
    let o := look s.host.ports (otherPort p)
    leavePort p (if p = s.host.primary && o.link && !o.retired then failover s else s)
  | some (.flash f) =>
    let s := foldS (fun s d => failDie d s) (flashDies s f 0) (logFault clk 5 3 0 1 s)
    leaveNow clk s

/-! ## Uncorrectable errors (R461, R464) -/

/-- Errors of an island in the last hour. -/
def recentErrors (s : State) (clk : ClockId) : List Nat :=
  (look s.islands clk).errors.filter (fun t => s.now - t < anHour)

/-- An island reports uncorrectable errors: counted and logged; 16 within an hour retire it. -/
def uncorrectable (clk : ClockId) (addr n : Nat) (s : State) : State :=
  if n = 0 then s
  else
    let l := recentErrors s clk ++ List.replicate (min n 16) s.now
    let s := setIsland clk (fun i => { i with errors := l }) (logFault clk 2 4 addr n (bump clk 0x0A41 n s))
    if 16 ≤ l.length then autoRetire clk s else s

def setNodeBad (slot n : Nat) (f : Node → Node) (s : State) : State :=
  { s with obj := { s.obj with indices := adj s.obj.indices slot (fun x => { x with nodes := adj x.nodes n f }) } }

/-- What an uncorrectable line reaches (R461). -/
def reach (d : Datum) (s : State) : State :=
  match d with
  | .other => s
  | .vocab n => { s with obj := { s.obj with vocabs := adj s.obj.vocabs n (fun v => { v with bad := true }) } }
  | .grammar n => { s with obj := { s.obj with grammars := adj s.obj.grammars n (fun v => { v with bad := true }) } }
  | .sequence e => setSeq e (fun q => { q with lost := true }) s
  | .record n i => setCorpus n (fun t => adj t i (fun r => { r with unreadable := true })) s
  | .code n i => setNodeBad n i (fun v => { v with badCode := true }) s
  | .adjacency n i => setNodeBad n i (fun v => { v with badSlot := true }) s
  | .identity n i => setNodeBad n i (fun v => { v with badIdent := true }) s
  | .upper n i => setNodeBad n i (fun v => { v with badUpper := true }) s
  | .directory n is => { s with obj := { s.obj with indices := adj s.obj.indices n (fun x => { x with
      badIdents := x.badIdents ++ is.filter (fun i => !x.badIdents.contains i) }) } }
  | .weights n r none => { s with obj := { s.obj with models := adj s.obj.models n (fun m => { m with
      badRecords := m.badRecords.filter (· != r) ++ [r] }) } }
  | .weights n r (some v) => { s with obj := { s.obj with adapters := adj s.obj.adapters (n, v) (fun m => { m with
      badRecords := m.badRecords.filter (· != r) ++ [r] }) } }
  | .job c lane => replayStep c lane false s
  | .journal => flushJournal s
  | .row t r => { s with obj := { s.obj with tables := adj s.obj.tables t (fun x => { x with
      poisoned := x.poisoned.filter (· != r) ++ [r] }) } }
  | .staged nsid lba =>
    if s.flash.staging.any (fun x => x.nsid == nsid && x.lba == lba) then
      setNamespace nsid (fun n => { n with blocks := setBlock .lost lba n.blocks })
        { s with flash := { s.flash with staging := s.flash.staging.filter (fun x => !(x.nsid == nsid && x.lba == lba)) } }
    else s
  | .packet msg => { s with eng := { s.eng with net := s.eng.net.map (fun m =>
      if m.id == msg then { m with poisoned := true } else m) } }

/-- Corrected words of a channel count toward RETRAIN_CE (R361). -/
def correctedWords (ch : Fin 96) (n : Nat) (s : State) : State :=
  bump (channelClk ch) 0x0604 n (setChannel ch (fun k => { k with
    corrected := k.corrected.filter (fun m => s.now - m.1 < anHour) ++ [(s.now, n)] }) s)

/-- What a channel counts of the errors that its reads meet (R354). -/
def channelErrors (clk : ClockId) (r : FaultReport) (s : State) : State :=
  match islandName clk with
  | some (.channel ch) => match r.cls with
    | 1 => correctedWords ch r.count s
    | 2 => bump clk (if r.tag then 0x0606 else 0x0605) r.count s
    | _ => s
  | _ => s

/-- A fault report by its class (R462; log 148, DEDUCED). Words are corrected below the rows of the table, and a report
brings the outcome (log 150, DESIGN CHOICE). -/
def faultReport (clk : ClockId) (r : FaultReport) (s : State) : State :=
  let s := channelErrors clk r (bump clk 0x0A43 r.count s)
  match r.cls with
  | 1 => bump clk 0x0A40 r.count s
  | 2 => uncorrectable clk r.addr r.count (reach r.datum s)
  | 3 => logFault clk 3 1 r.addr r.count s
  | _ => logFault clk r.cls 0 r.addr r.count s

/-- ISLAND_FAULT_REPORT (R461, R462, R464). -/
def execIslandFaultReport (clk : ClockId) (report : FaultReport) (s : State) : Host.Outcome State Fault Refusal :=
  .next (if inService s && (islandName clk).isSome && islandUp s clk && between 1 report.cls 9 then
      faultReport clk report s
    else s)

/-! ## HEARTBEAT_MISS (R464) -/

/-- The interval of heartbeats. -/
def heartbeat : Nat := 100000

/-- See log 124, DEDUCED. -/
def missed (clk : ClockId) (s : State) : State :=
  let i := look s.islands clk
  let n := if i.misses ≠ 0 ∧ s.now - i.missAt ≤ heartbeat then i.misses + 1 else 1
  let s := setIsland clk (fun i => { i with misses := n, missAt := s.now }) s
  if 3 ≤ n then autoRetire clk (setIsland clk (fun i => { i with misses := 0 }) s) else s

def execHeartbeatMiss (clk : ClockId) (s : State) : Host.Outcome State Fault Refusal :=
  .next (if inService s && (islandName clk).isSome && islandUp s clk then missed clk s else s)

/-! ## Patrols (R354, R356, R459) -/

/-- SRAM_PATROL: one pass over the SRAM of an island, which pauses with the island (R459). -/
def execSramPatrol (clk : ClockId) (corrected poisoned : Nat) (s : State) : Host.Outcome State Fault Refusal :=
  let due := match (look s.islands clk).patrolAt with
    | none => true
    | some t => s.dev.cfg.sys.sramScrubMs * 1000000 ≤ s.now - t
  .next (if inService s && (islandName clk).isSome && islandUp s clk && !stopped s clk && due then
      uncorrectable clk 0 poisoned (bump clk 0x0A40 corrected (setIsland clk (fun i => { i with patrolAt := some s.now }) s))
    else s)

/-- Whether a scrub pass of a channel is due. -/
def scrubDue (s : State) (ch : Fin 96) : Bool :=
  match (look s.eng.channels ch).scrubAt with
  | none => true
  | some t => s.dev.cfg.mem.scrubHours * anHour ≤ s.now - t

/-- The counts of a scrub pass; corrected words count toward RETRAIN_CE (R361). -/
def scrubServing (ch : Fin 96) (d : ScrubData) (s : State) : State :=
  let clk := channelClk ch
  let s := bump clk 0x0608 d.slots (bump clk 0x0605 d.doubleErrors (bump clk 0x0606 d.tagErrors s))
  let s := correctedWords ch d.corrected s
  uncorrectable clk 0 (d.doubleErrors + d.tagErrors) s

/-- LPDDR6_PATROL_SCRUB: serving channels are read, a SPARE is tested with a pattern. -/
def scrub (ch : Fin 96) (d : ScrubData) (s : State) : State :=
  let s := setChannel ch (fun k => { k with scrubAt := some s.now }) s
  match channelAtRole s ch with
  | .active | .evacuating | .receiving => scrubServing ch d s
  | .spare => if d.patternOk then s else logFault (channelClk ch) 5 3 0 1 (retireChannel ch s)
  | _ => s

def execLpddr6PatrolScrub (channel : Fin 96) (found : ScrubData) (s : State) : Host.Outcome State Fault Refusal :=
  .next (if awake s && trained (channelAtRole s channel) && islandUp s (channelClk channel) && scrubDue s channel then
      scrub channel found s
    else s)

/-! ## SUPERVISOR_LOCKSTEP_MISMATCH (R466, R467) -/

/-- A supervisor restarts and replays both lanes' steps; a second mismatch within 1 s loses the course (log 120,
DEDUCED). -/
def supervisorMismatch (c : Fin 4) (s : State) : State :=
  let recent : Bool := match find? s.dev.supervisorMismatch c with
    | some t => s.now - t < 1000000000
    | none => false
  let s := { s with dev := { s.dev with supervisorMismatch := put s.dev.supervisorMismatch c s.now } }
  if recent then loseCourse c (logFault (fabricClk c) 6 4 0 1 s)
  else
    let s := count 0x0A21 1 (logFault (fabricClk c) 4 2 0 1 s)
    replayStep c .retrieval true (replayStep c .generation true s)

def execSupervisorLockstepMismatch (course : Fin 4) (s : State) : Host.Outcome State Fault Refusal :=
  .next (if inService s && !(courseOf s course).lost && islandUp s (fabricClk course) then supervisorMismatch course s else s)

/-! ## The fault log (R463) -/

def FaultEntry.bytes (e : FaultEntry) : List Byte :=
  leBytes 4 e.seq ++ leBytes 2 e.clk.toNat ++ leBytes 1 e.cls ++ leBytes 1 e.action ++ leBytes 8 e.time ++ leBytes 8 e.addr
    ++ leBytes 8 e.count

/-- The entries that a FAULT_LOG_READ may see: in SERVICE before ownership, those of the islands in scope (R452). -/
def visibleLog (s : State) : List FaultEntry :=
  match s.sec.lifecycle, s.sec.service with
  | .factory, some v => s.log.entries.filter (fun e => v.scope.isEmpty || v.scope.contains e.clk)
  | _, _ => s.log.entries

/-- See log 122, DEDUCED. -/
def readLog (c : Cmd) (s : State) : State :=
  if gate s c.op c.tenant = .held then s
  else
  let first := c.arg 0 4
  let n := c.arg 4 4
  let es := ((visibleLog s).filter (fun e => first ≤ e.seq)).take n
  let out := es.take (c.outLen / 32)
  let short := c.outLen < 32 * n
  let newest := ((s.log.entries.getLast?).map (·.seq)).getD 0
  finish c { status := if short then .partialDone else .ok
             effect := if !short then .full else if out.isEmpty then .none else .part
             count := 32 * out.length, value := out.length, detail := newest
             writes := [(outputOffset s, out.flatMap FaultEntry.bytes)] } s

/-- FAULT_LOG_READ (R463). -/
def execFaultLogRead (cmd : Nat) (s : State) : Host.Outcome State Fault Refusal :=
  .next (runCmd cmd 0x0F0B readLog s)

/-- FAULT_LOG_SAVE: the newest 1,024 entries go to the serial NOR die every 10 s. -/
def execFaultLogSave (s : State) : Host.Outcome State Fault Refusal :=
  .next (if s.dev.stage = .service ∧ 10000000000 ≤ s.now - s.log.savedAt then
      { s with log := { s.log with nor := s.log.entries.drop (s.log.entries.length - 1024), savedAt := s.now } }
    else s)

end Sys2Proof.Machine
end

