-- ==== Sys2Proof/Machine/Scans.lean ====
section
/-! DEFINITION. Check-value scans (R469 to R476). What a unit reads is an operand of the row at which it stops reading
(log 1, DESIGN CHOICE). -/

namespace Sys2Proof.Machine

/-! ## The check value (R470) -/

/-- One input bit shifted into a register of `w` bits. -/
def scanBit (w poly reg : Nat) (b : Bool) : Nat :=
  let r := reg * 2 % 2 ^ w
  if bitOf reg (w - 1) != b then Nat.xor r poly else r

/-- One byte, its most significant bit first, reflected before when the input is reflected. -/
def scanByte (w poly : Nat) (reflectIn : Bool) (reg : Nat) (b : Byte) : Nat :=
  let v := if reflectIn then reverseBits 8 b.toNat else b.toNat
  [7, 6, 5, 4, 3, 2, 1, 0].foldl (fun r i => scanBit w poly r (bitOf v i)) reg

/-- The running value over bytes. -/
def scanRun (w poly : Nat) (reflectIn : Bool) (reg : Nat) (bytes : List Byte) : Nat :=
  bytes.foldl (scanByte w poly reflectIn) reg

/-- The final value: reflected over the width when the output is reflected, and XORed. -/
def scanFinal (w : Nat) (reflectOut : Bool) (xor reg : Nat) : Nat :=
  Nat.xor (if reflectOut then reverseBits w reg else reg) xor

/-- The scan after more bytes of its range. -/
def Scan.take (x : Scan) (bytes : List Byte) : Scan :=
  { x with running := scanRun x.width x.poly (bitOf x.reflect 0) x.running bytes, done := x.done + bytes.length }

/-- Bytes left, in units of 4 KiB (R64). -/
def Scan.left (x : Scan) : Nat := ceilDiv (x.length - x.done) 4096

/-- The 4 KiB units scanned (log 65, DEDUCED). -/
def Scan.scanned (x : Scan) : Nat := if x.done = 0 then 0 else ceilDiv (x.start % 4096 + x.done) 4096

/-- Whether a scan stands at a 4 KiB boundary inside its range. -/
def Scan.atBoundary (x : Scan) : Bool := x.done = 0 || (x.start + x.done) % 4096 = 0 && x.done < x.length

/-! ## SCAN_START (R471 to R474) -/

/-- The handle that a SCAN_START forms (R473). -/
def scanHandle (c : Cmd) : Nat :=
  c.hdr.commandId.toNat + c.ring % 65536 * 2 ^ 32 + c.fn % 256 * 2 ^ 48 + c.port.val * 2 ^ 56

def newScan (c : Cmd) : Scan :=
  { session := c.sid, tenant := c.tenant, width := c.arg 32 1, reflect := c.arg 33 1, space := c.arg 34 1
    poly := c.arg 0 8, finalXor := c.arg 16 8, expected := c.arg 24 8, start := c.arg 40 8, length := c.arg 48 8
    running := c.arg 8 8, cmd := c.id }

/-- The scan is QUEUED from now on; a handle that another scan still holds makes it wait (log 63, DEDUCED). -/
def startScan (c : Cmd) (s : State) : State :=
  if c.begun ∨ (find? s.obj.scans (scanHandle c)).isSome then s
  else match (scanFaults s c) with
  | o :: _ => badField c o 0 s
  | [] =>
    setCmd c.id (fun x => { x with begun := true })
      { s with obj := { s.obj with scans := put s.obj.scans (scanHandle c) (newScan c) } }

def execScanStart (cmd : Nat) (s : State) : Host.Outcome State Fault Refusal := .next (runCmd cmd 0x0800 startScan s)

/-! ## SCAN_SUSPEND, SCAN_RESUME, SCAN_QUERY (R474) -/

def setScan (h : Nat) (f : Scan → Scan) (s : State) : State :=
  { s with obj := { s.obj with scans := adj s.obj.scans h f } }

/-- The selector of a register of a unit; unit 0 of an operand is unit 4 of the device (R493). -/
def cvSelector (u : Fin 4) (n : Nat) : Nat := 0x0A00 + 4 * (u.val + 4) + n

/-- Whether a RUNNING scan can have read `n` bytes since it took its context: 16 bytes per management clock cycle, and of
LPDDR6 SCAN_PCT of the data bandwidth of its position (R469, R475). -/
def scanReached (s : State) (x : Scan) (n : Nat) : Bool :=
  let lp := match x.space, channelAt s (x.start / 2 ^ 40) with
    | 0, some ch => ceilDiv (n * 1000000) (max 1 (288 * channelMHz s (Fin.ofNat 96 ch) * s.dev.cfg.sys.scanPct))
    | _, _ => 0
  x.since + max (ceilDiv n 16) lp ≤ s.now

/-- Counts what a unit has checked. -/
def countChecked (x : Scan) (n : Nat) (s : State) : State :=
  match x.unit with
  | none => s
  | some u => count (cvSelector u 1) n s

/-- SCAN_SUSPEND: the scan is QUEUED or RUNNING (R474). -/
def suspendRefusal (s : State) (c : Cmd) : Refusal? :=
  match scanOf s c.sid c.handle with
  | none => some (badResult s 32 0)
  | some (_, x) => if x.state = .suspended then inState 9 x.state.code else none

/-- SCAN_RESUME: a running value of the scan's width, and the scan SUSPENDED (R474, R495). -/
def resumeRefusal (s : State) (c : Cmd) : Refusal? :=
  match scanOf s c.sid c.handle with
  | none => some (badResult s 32 0)
  | some (_, x) =>
    if 2 ^ x.width ≤ c.imm then some (badResult s 56 0)
    else if x.state ≠ .suspended ∨ x.orphan then inState 9 x.state.code else none

def suspend (bytes : List Byte) (c : Cmd) (s : State) : State :=
  match scanOf s c.sid c.handle with
  | none => badField c 32 0 s
  | some (h, x) => match x.state with
    | .suspended => conflict c 9 x.state.code s
    | .queued => finish c { value := x.running } (setScan h (fun x => { x with state := .suspended }) s)
    | .running =>
      let y := x.take bytes
      if y.atBoundary ∧ scanReached s x bytes.length then
        finish c { value := y.running }
          (countChecked x bytes.length (setScan h (fun _ => { y with state := .suspended, unit := none }) s))
      else s

def execScanSuspend (cmd : Nat) (bytes : List Byte) (s : State) : Host.Outcome State Fault Refusal :=
  .next (runCmd cmd 0x0801 (suspend bytes) s)

def resume (c : Cmd) (s : State) : State :=
  orRefuse c (resumeRefusal s c)
    (fun s => finish c {} (setScan c.handle (fun x => { x with state := .queued, running := c.imm }) s)) s

def execScanResume (cmd : Nat) (s : State) : Host.Outcome State Fault Refusal := .next (runCmd cmd 0x0802 resume s)

/-- A count of 4 KiB units in COUNT [3:0] and DETAIL (R474, R476). -/
def unitsOf (n : Nat) : Nat × Nat := (n / 2 ^ 32 % 16, n % 2 ^ 32)

/-- The running value and the units left; how far a RUNNING scan has come is free (log 54, DESIGN CHOICE). -/
def scanAnswer (c : Cmd) (s : State) : Result :=
  match scanOf s c.sid c.handle with
  | none => badResult s 32 0
  | some (_, x) =>
    if x.state = .running then
      let u := unitsOf (Config.freeNat s.fresh % (x.left + 1))
      { count := u.1, value := Config.freeNat (s.fresh + 1) % 2 ^ x.width, detail := u.2 }
    else { count := (unitsOf x.left).1, value := x.running, detail := (unitsOf x.left).2 }

def queryScan (c : Cmd) (s : State) : State := answerWith c (fun _ => scanAnswer c s) s.draw.draw

def execScanQuery (cmd : Nat) (s : State) : Host.Outcome State Fault Refusal := .next (runCmd cmd 0x0803 queryScan s)

/-! ## SCAN_CONTEXT_GRANT (R469, R474) -/

/-- Scans that hold a context of a unit. -/
def contextsBusy (s : State) (u : Fin 4) : Nat :=
  (s.obj.scans.filter (fun x => x.2.state == .running && x.2.unit == some u)).length

def execScanContextGrant (handle : Nat) (unit : Fin 4) (s : State) : Host.Outcome State Fault Refusal :=
  .next (match find? s.obj.scans handle with
    | none => s
    | some x =>
      if x.state = .queued ∧ contextsBusy s unit < 16 ∧ awake s then
        setScan handle (fun x => { x with state := .running, unit := some unit, since := s.now }) s
      else s)

/-! ## SCAN_END (R476) -/

/-- The result of a scan whose range ended, or of one stopped by bad data. -/
def scanResult (x : Scan) (bad : Bool) : Result :=
  let u := unitsOf x.scanned
  if bad then
    { status := if x.space = 1 then .dataLost else .uncorrectable, effect := .none, count := u.1, value := x.running
      detail := u.2 }
  else
    let v := scanFinal x.width (bitOf x.reflect 1) x.finalXor x.running
    if v = x.expected then { count := u.1, value := v, detail := u.2 }
    else { status := .checkMismatch, effect := .none, count := u.1, value := v, detail := u.2, urgent := true }

/-- The counters of the scan's unit. -/
def countEnd (x : Scan) (r : Result) (s : State) : State :=
  match x.unit, r.status with
  | some u, .checkMismatch => count (cvSelector u 2) 1 s
  | some u, .dataLost => count (cvSelector u 3) 1 s
  | some u, .uncorrectable => count (cvSelector u 3) 1 s
  | _, _ => s

def endScan (h : Nat) (x : Scan) (bytes : List Byte) (bad : Bool) (s : State) : State :=
  let y := x.take bytes
  if if bad then y.atBoundary else y.done = y.length then
    let r := scanResult y bad
    let s := countEnd x r (countChecked x bytes.length s)
    let s := { s with obj := { s.obj with scans := del s.obj.scans h } }
    match findCmd s x.cmd with
    | none => s
    | some c => if c.cancel then cancelled c s else finish c r s
  else s

def execScanEnd (handle : Nat) (bytes : List Byte) (bad : Bool) (s : State) : Host.Outcome State Fault Refusal :=
  .next (match find? s.obj.scans handle with
    | none => s
    | some x => if x.state = .running ∧ awake s ∧ scanReached s x bytes.length then endScan handle x bytes bad s else s)

end Sys2Proof.Machine
end

