-- ==== Sys2Proof/Machine/Admission.lean ====
section
/-! DEFINITION. ADMISSION_DISPATCH: the next command leaves its admission queue, and its object's state decides whether it runs
(R61, R74, R78, R173). -/

namespace Sys2Proof.Machine

/-- What a command's object says at its dispatch: none where its state allows the command (R74, R76). A VOCAB_LOAD learns
its slot from its image, and INDEX_INSERT and its like run in every state but DROPPING (R272). -/
def admitRefusal (s : State) (c : Cmd) : Refusal? :=
  match c.op with
  | 0x0101 => unloadModelRefusal s c
  | 0x0102 => loadAdapterRefusal s c
  | 0x0103 => (retireAdapterPick s c).refusal s
  | 0x0200 => (createFault s c).bind (fun f => refuseWith f.1 f.2)
  | 0x0201 => inputRefusal s c
  | 0x0202 => generateRefusal s c
  | 0x0203 => rebindRefusal s c
  | 0x0204 => swapOutRefusal s c
  | 0x0205 => releaseRefusal s c
  | 0x0401 | 0x0402 | 0x0403 | 0x0500 | 0x0501 | 0x0502 => droppingRefusal s c
  | 0x0404 => if c.arg 0 1 = 0 then repairRefusal s c else none
  | 0x0406 => dropIndexRefusal s c
  | 0x0503 => if c.arg 0 1 = 0 then moveModelRefusal s c (c.arg 1 1 == 1) else droppingRefusal s c
  | 0x0601 | 0x0602 => useTableRefusal s c
  | 0x0604 => dropTableRefusal s c
  | 0x0701 => unloadVocabRefusal s c
  | 0x0703 => unloadGrammarRefusal s c
  | 0x0801 => suspendRefusal s c
  | 0x0802 => resumeRefusal s c
  | _ => dispatchRefusal s c

/-- What a query reports: the state as of its dispatch (R61). -/
def queryAnswer (s : State) (c : Cmd) : Option Result :=
  match c.op with
  | 0x0104 => some (modelAnswer c s)
  | 0x0206 => some (seqAnswer c s)
  | 0x0404 => if c.arg 0 1 = 1 then some (repairAnswer c s) else none
  | 0x0405 => some (indexAnswer c s)
  | 0x0504 => some (moveAnswer c s)
  | 0x0603 => some (tableAnswer c s)
  | 0x0803 => some (scanAnswer c s)
  | _ => none

/-- An object that a command takes from its users enters UNLOADING, MOVING or DROPPING (R135, R197, R216, R272, R328). -/
def takeObject (c : Cmd) (s : State) : State :=
  let n := handleSlot c.handle
  match c.op with
  | 0x0101 => { s with obj := { s.obj with models := adj s.obj.models n (fun x => { x with state := .unloading }) } }
  | 0x0503 => if c.arg 0 1 = 0 then
      { s with obj := { s.obj with models := adj s.obj.models n (fun x => { x with state := .moving }) } }
    else s
  | 0x0406 => setIndex n (fun x => { x with state := .dropping }) s
  | 0x0604 => setTable n (fun t => { t with dropping := true, queue := [] }) s
  | 0x0701 => { s with obj := { s.obj with vocabs := adj s.obj.vocabs (unloadSlot c) (fun v => { v with
      state := .unloading, worker := some c.id }) } }
  | 0x0703 => { s with obj := { s.obj with grammars := adj s.obj.grammars n (fun g => { g with unloading := true }) } }
  | _ => s

/-- The commands that take their object from its users at their dispatch. -/
def takesObject (c : Cmd) : Bool :=
  [0x0101, 0x0406, 0x0604, 0x0701, 0x0703].contains c.op || (c.op == 0x0503 && c.arg 0 1 == 0)

/-- A dispatched command whose object's state allows it begins: a query reads its answer, and an object is taken. -/
def beginCommand (c : Cmd) (s : State) : State :=
  if takesObject c then takeObject c (setCmd c.id (fun x => { x with holds := true }) s)
  else setCmd c.id (fun x => { x with answer := queryAnswer s c }) s.draw.draw

/-- A command leaves its queue for a course: it runs, or completes with the check that its object fails (R74). -/
def admitCmd (c : Cmd) (course : Fin 4) (s : State) : State :=
  let s := dispatch c course s
  orRefuse c (admitRefusal s c) (beginCommand c) s

/-- ADMISSION_DISPATCH (R78, R173); no command of groups 0x01 to 0x08 leaves its queue in P3 (R503). -/
def execAdmissionDispatch (course : Fin 4) (s : State) : Host.Outcome State Fault Refusal :=
  .next (if !awake s then s
    else match nextDispatch s course with
    | none => s
    | some c => admitCmd c course s)

end Sys2Proof.Machine
end

