-- ==== Sys2Proof/Machine/Security.lean ====
section
/-! DEFINITION. Tenants, attestation and images (R429 to R449). -/

namespace Sys2Proof.Machine

/-! ## TENANT_SET (R433 to R437) -/

/-- The fields of a quota record (R435). -/
def quotaChecks (b : List Byte) : List Check :=
  [need (1 ≤ field b 0 2 && field b 0 2 ≤ 64) 0, need (zeroAt b 2 2) 2, need (field b 4 4 ≤ 16384) 4,
   need (field b 8 4 ≤ 4096) 8, need (field b 12 2 ≤ 64) 12, need (field b 14 2 ≤ 256) 14]

def quotasFrom (b : List Byte) : Quotas :=
  { sessions := field b 0 2, sequences := field b 4 4, adapters := field b 8 4, indices := field b 12 2
    tables := field b 14 2, lpddr6 := field b 16 8, flash := field b 24 8
    functions := BitVec.ofNat 256 (field b 32 32) }

/-- The key under which a tenant key arrives wrapped (R434). -/
def wrapKey (s : State) (sid : Nat) : BitVec 256 :=
  let tag := match find? s.sessions sid with | some x => x.tag.toNat | none => 0
  Config.kmac256 (tenantKey s 0) (leBytes 16 tag) "KCP wrap"

/-- The new record of a tenant; an UNSET tenant gets a data key drawn by the device (R436, R437). -/
def newTenant (s : State) (c : Cmd) (old : Tenant) (key : Option (BitVec 256)) (q : Option Quotas) : Tenant :=
  let fresh := old.state == .unset
  let base : Tenant := if fresh then { state := .active, dataKey := some (Config.dataKey s.fresh)
                                       badProofs := old.badProofs } else old
  { base with key := key.getD base.key, weight := some (c.arg 2 2), depth := some (c.arg 4 2)
              quotas := q.orElse (fun _ => base.quotas) }

/-- Action 0 (R434, R436): key and quotas as read, none where their descriptors name no buffer. -/
def setTenantRecord (c : Cmd) (key quotas : Option (List Byte)) (s : State) : State :=
  let t := c.arg 0 2
  let old := look s.tenants t
  if old.state = .revoking then conflict c 0x0A 2 s
  else
    let unwrapped := key.map (fun b => Config.keyUnwrap (wrapKey s c.sid) b)
    if unwrapped = some none then badField c 72 0 s
    else match quotas.bind (fun b => firstFail (quotaChecks b)) with
      | some (_, o) => badField c 88 o s
      | none =>
        let r := newTenant s c old (unwrapped.bind id) (quotas.map quotasFrom)
        finish c {} { s with tenants := put s.tenants t r, fresh := s.fresh + 1 }

/-- The buffers of TENANT_SET, where their descriptors name any. -/
def tenantInputs (c : Cmd) (key quotas : Input) (s : State) : State :=
  let run := fun k (s : State) => if c.bdLen 24 = 0 then setTenantRecord c k none s
    else withInput c quotas (fun q => setTenantRecord c k (some q)) s
  if c.bdLen 8 = 0 then run none s else withInput c key (fun b => run (some b)) s

/-- TENANT_SET with action 0 (R434, R436). -/
def execTenantSet (cmd : Nat) (key quotas : Input) (s : State) : Host.Outcome State Fault Refusal :=
  .next (runCmd cmd 0x0F02 (fun c s => if c.imm = 0 then tenantInputs c key quotas s else s) s)

/-- Every mapped block of a tenant's namespaces is lost: its data key is destroyed (R437). -/
def loseBlocks (t : Nat) (s : State) : State :=
  { s with flash := { s.flash with namespaces := mapTbl s.flash.namespaces (fun _ n =>
      if n.tenant = t then { n with blocks := n.blocks.map (fun b => (b.1, .lost)) } else n) } }

/-- Sessions of a tenant close (R72, R436): one still CHALLENGED goes at once. -/
def closeTenant (t : Nat) (s : State) : State :=
  let s := { s with sessions := s.sessions.filter (fun x => !(x.2.tenant == t && x.2.state == .challenged)) }
  foldS (fun s x => if x.2.tenant = t ∧ x.2.state ≠ .closing then beginClose x.1 none s else s) s.sessions s

/-- Action 1 (R436, R437). -/
def revokeTenant (c : Cmd) (s : State) : State :=
  let t := c.arg 0 2
  let r := look s.tenants t
  if r.state ≠ .active then conflict c 0x0A r.state.code s
  else
    let s := setTenant t (fun r => { r with state := .revoking, dataKey := none }) (loseBlocks t s)
    finish c {} (closeTenant t s)

/-- TENANT_SET with action 1 (R436). -/
def execTenantRevoke (cmd : Nat) (s : State) : Host.Outcome State Fault Refusal :=
  .next (runCmd cmd 0x0F02 (fun c s => if c.imm = 1 then revokeTenant c s else s) s)

/-- The last session of a REVOKING tenant has closed: its record is cleared (R436). -/
def execTenantRevokeFinish (tenant : Nat) (s : State) : Host.Outcome State Fault Refusal :=
  .next (if (look s.tenants tenant).state = .revoking ∧ !s.sessions.any (fun x => x.2.tenant == tenant) then
    { s with tenants := del s.tenants tenant } else s)

/-! ## Attestation (R442 to R446) -/

/-- 2²⁰ signatures of each key (R442). -/
def keyUses : Nat := 1048576

/-- The Heleri image in use; empty under factory defaults. -/
def activeImage (s : State) : List Byte :=
  if s.dev.factory then [] else if s.dev.usedB then s.sec.slotB else s.sec.slotA

def activeFirmware (s : State) (cls : Nat) : List Byte :=
  let f := look s.sec.firmware cls
  if f.activeB then f.imageB else f.imageA

def firmwareVersion (s : State) (cls : Nat) : Nat :=
  let f := look s.sec.firmware cls
  if f.activeB then f.versionB else f.versionA

/-- The report of R445. -/
def report (s : State) (c : Cmd) : List Byte :=
  let img := activeImage s
  leBytes 16 Config.uniqueId.toNat ++ leBytes 1 (lifecycleValue s)
    ++ leBytes 1 (b2n (compatMode s) + 2 * b2n (c.port = s.host.primary)) ++ leBytes 2 c.tenant
    ++ leBytes 1 c.port.val ++ leBytes 3 0 ++ leBytes 8 s.now ++ padTo 32 (c.params.take 32)
    ++ leBytes 32 (if s.dev.factory then 0 else (Config.shake256 img).toNat)
    ++ leBytes 8 (if s.dev.factory then 0 else field img 16 8)
    ++ leBytes 32 (Config.shake256 s.sec.ownerSection).toNat
    ++ ((List.range 8).map (fun k => leBytes 8 (firmwareVersion s k))).flatten
    ++ leBytes 32 (Config.shake256 ((List.range 8).map (activeFirmware s)).flatten).toNat
    ++ leBytes 4 s.sec.attSerial ++ leBytes 4 s.sec.attNext ++ leBytes 16 0

/-- The output of ATTEST (R444): the report, its signature, the key and its certificates. -/
def attestOutput (s : State) (c : Cmd) : List Byte :=
  let r := report s c
  r ++ padTo 2820 (Config.attestSignature s.sec.attSerial s.sec.attNext r) ++ leBytes 4 s.sec.attSerial
    ++ leBytes 4 0 ++ padTo 8577 (Config.attestChain s.sec.attSerial)

/-- Entries of 32 bytes that a sector of the index log holds. -/
def sectorEntries : Nat := 2048

/-- A reservation end is appended to the index log: a full sector is erased once the other one holds the entry (R443). -/
def appendIndex (k : Security) (stop : Nat) : Security :=
  let e := (k.attSerial, stop)
  let k := { k with attEnd := stop }
  if k.logB.isEmpty then
    if k.logA.length < sectorEntries then { k with logA := k.logA ++ [e] } else { k with logA := [], logB := [e] }
  else if k.logB.length < sectorEntries then { k with logB := k.logB ++ [e] } else { k with logA := [e], logB := [] }

/-- One index used: a block of 16 is reserved before the first of it is signed at (R443); at the key's last index the
next key becomes current, or none is (R442). -/
def useIndex (s : State) : State :=
  let k := if s.sec.attNext = s.sec.attEnd then appendIndex s.sec (s.sec.attEnd + 16) else s.sec
  if s.sec.attNext + 1 < keyUses then { s with sec := { k with attNext := s.sec.attNext + 1 } }
  else if s.sec.attNextReady then
    { s with sec := { k with attSerial := s.sec.attSerial + 1, attNext := 0, attEnd := 0, attNextReady := false } }
  else { s with sec := { k with attNext := s.sec.attNext + 1, attOk := false } }

def attestNow (c : Cmd) (s : State) : State :=
  if s.sec.lifecycle = .quarantine ∨ !s.sec.attOk then fail c .attestUnavailable 0 s
  else if c.outLen < 11661 then finish c { status := .partialDone, effect := .none, count := 11661 } s
  else finish c { count := 11661, writes := [(outputOffset s, attestOutput s c)] } (count 0x0922 1 (useIndex s))

/-- ATTEST (R443 to R446). -/
def execAttest (cmd : Nat) (s : State) : Host.Outcome State Fault Refusal :=
  .next (runCmd cmd 0x0F03 attestNow s)

/-- The next attestation key is generated and certified (R442); it is current at once where the old one is used up. -/
def execAttestKeyGenerate (s : State) : Host.Outcome State Fault Refusal :=
  .next (if s.sec.attNextReady ∨ 131072 + s.sec.attNext < keyUses ∨ s.dev.stage ≠ .service then s
    else if s.sec.attOk then { s with sec := { s.sec with attNextReady := true } }
    else { s with sec := { s.sec with
      attSerial := s.sec.attSerial + 1, attNext := 0, attEnd := 0, attOk := true } })

/-! ## Images (R441, R447 to R449) -/

def signatureBytes (sigType : Nat) : Nat :=
  match sigType with | 1 => 2820 | 2 => 5605 | _ => 8392

def envKind (img : List Byte) : Nat := field img 6 1
def envClaim (img : List Byte) : Bool := bitOf (field img 7 1) 0
def envRelease (img : List Byte) : Bool := bitOf (field img 7 1) 1
def envVersion (img : List Byte) : Nat := field img 16 8

/-- The owner-key section of an image, empty where it has none. -/
def ownerSectionOf (img : List Byte) : List Byte :=
  let o := field img 44 4
  if o = 0 then [] else slice img o (4 + 68 * field img o 1)

def keysOf (sec : List Byte) : List (List Byte) :=
  (List.range (field sec 0 1)).map (fun i => slice sec (4 + 68 * i) 68)

/-- The envelope (R447). -/
def envelopeFault (img : List Byte) : Option (Status × Nat) :=
  let k := envKind img
  let o := field img 44 4
  let heleri := 4096 ≤ img.length && img.length ≤ 1048576
  firstFail
    [need (field img 0 4 = 0x45485646) 0, need (field img 4 2 = 1) 4, need (k ≤ 2) 6, need (field img 7 1 < 16) 7,
     need (field img 8 8 = img.length && 64 + signatureBytes (field img 40 1) ≤ img.length && (k ≠ 1 || heleri)) 8,
     need (bitOf (field img 7 1) 2 || zeroAt img 24 16) 24,
     need (1 ≤ field img 40 1 && field img 40 1 ≤ 3) 40, need (field img 41 1 ≤ 3) 41,
     need (if k = 0 then field img 42 1 ≤ 7 else field img 42 1 = 0) 42, need (zeroAt img 43 1) 43,
     need (o = 0 || (1 ≤ field img o 1 && field img o 1 ≤ 4 && zeroAt img (o + 1) 3
       && o + 4 + 68 * field img o 1 ≤ img.length)) 44,
     need (zeroAt img 48 8) 48, (decide (field img 56 4 = crc32c (img.take 56)), .checkMismatch, 56),
     need (zeroAt img 60 4) 60]

/-- The key that an image must be signed with (R447). -/
def trustedKey (s : State) (img : List Byte) : Option (List Byte) :=
  let n := field img 41 1
  if envKind img ≠ 1 then (if s.sec.yarcenFloor ≤ n then some (Config.yarcenKey n) else none)
  else if envClaim img then
    (if s.sec.lifecycle = .unowned then (keysOf (ownerSectionOf img))[n]? else none)
  else s.sec.ownerKeys[n]?

/-- Whether an image verifies (R447). -/
def imageVerifies (s : State) (img : List Byte) : Bool :=
  let sig := signatureBytes (field img 40 1)
  match trustedKey s img with
  | none => false
  | some key =>
    Config.sigValid (field img 40 1) key (img.take (img.length - sig)) (img.drop (img.length - sig))
      && (!bitOf (field img 7 1) 2 || field img 24 16 = Config.uniqueId.toNat)

def slotImage (s : State) (b : Bool) : List Byte := if b then s.sec.slotB else s.sec.slotA

def setSlot (b : Bool) (img : List Byte) (s : State) : State :=
  if b then { s with sec := { s.sec with slotB := img } } else { s with sec := { s.sec with slotA := img } }

/-- IMAGE_WRITE (R448). -/
def writeImage (img : List Byte) (c : Cmd) (s : State) : State :=
  let b := c.arg 16 1 = 1
  if !(s.dev.factory || b ≠ s.dev.usedB) then badField c 80 0 s
  else match envelopeFault img with
  | some (st, o) => finish c { status := st, effect := .none, value := o, detail := 64 } s
  | none =>
    if envKind img = 0 then finish c { status := .invalidField, effect := .none, value := 6, detail := 64 } s
    else if envVersion img < s.sec.heleriFloor ∧ envKind img = 1 then fail c .imageRollback 0 (count 0x0924 1 s)
    else if imageVerifies s img then finish c {} (setSlot b img s)
    else fail c .imageRejected 0 (count 0x0924 1 (setSlot b [] s))

def execImageWrite (cmd : Nat) (image : Input) (s : State) : Host.Outcome State Fault Refusal :=
  .next (runCmd cmd 0x0F04 (fun c => withInput c image (fun b => writeImage b c)) s)

/-- The claim (R429, R432): the owner keys are pinned and tenant 0 is ACTIVE under the claim key (log 96, DEDUCED). -/
def claim (img : List Byte) (s : State) : State :=
  let sec := ownerSectionOf img
  { s with
    sec := { s.sec with lifecycle := .owned, ownerKeys := keysOf sec, ownerSection := sec }
    tenants := put s.tenants 0 { look s.tenants 0 with
      state := .active, key := Config.claimKey, dataKey := some (Config.dataKey s.fresh) }
    fresh := s.fresh + 1 }

/-- The erase of R431: sessions, keys, namespaces, owner keys, both slots and the floor. -/
def eraseOwner (s : State) : State :=
  let s := foldS (fun s x => releaseObjects x.1 s) s.sessions s
  { s with
    sessions := [], tenants := []
    flash := { s.flash with namespaces := [], staging := [], waiting := [] }
    sec := { s.sec with
      lifecycle := .unowned, ownerKeys := [], ownerSection := [], slotA := [], slotB := [], heleriFloor := 0 } }

/-- A RELEASE (R429, R431): every other command ends, the erase runs, and a full reset follows (log 97, DEDUCED). -/
def release (c : Cmd) (s : State) : State :=
  let s := cancelAll ((s.cmds.filter (fun t => t.id != c.id)).map (·.id)) s
  let s := eraseOwner (finish c {} s)
  { s with dev := { s.dev with pendingReset := some (.cold, s.now), stopFetch := true } }

/-- IMAGE_ACTIVATE (R449). -/
def activateImage (c : Cmd) (s : State) : State :=
  let b := c.arg 0 1 = 1
  let img := slotImage s b
  if img.isEmpty then conflictDevice c s
  else if !imageVerifies s img then fail c .imageRejected 0 (count 0x0924 1 s)
  else if envKind img = 2 then
    if s.sec.lifecycle = .factory then finish c {} { s with sec := { s.sec with lifecycle := .unowned } }
    else conflictDevice c s
  else if envVersion img < s.sec.heleriFloor then fail c .imageRollback 0 (count 0x0924 1 s)
  else if envClaim img then
    if s.sec.lifecycle = .unowned ∧ c.tenant = 0 then finish c {} (claim img s) else conflictDevice c s
  else if envRelease img then
    if (s.sec.lifecycle = .owned ∨ s.sec.lifecycle = .quarantine) ∧ s.sec.service.isNone then release c s
    else conflictDevice c s
  else
    let sec := ownerSectionOf img
    let s := { s with sec := { s.sec with activeB := b, heleriFloor := envVersion img } }
    finish c {} (if sec.isEmpty then s
      else { s with sec := { s.sec with ownerKeys := keysOf sec, ownerSection := sec } })

def execImageActivate (cmd : Nat) (s : State) : Host.Outcome State Fault Refusal :=
  .next (runCmd cmd 0x0F05 activateImage s)

end Sys2Proof.Machine
end

