-- ==== Sys2Proof/Machine/Update.lean ====
section
/-! DEFINITION. Firmware updates that keep the device serving (R477 to R480, R495). How long an island is held for its
load is time, which the model leaves out (log 49, DEDUCED). -/

namespace Sys2Proof.Machine

/-! ## Firmware slots (R445, R477, R516) -/

/-- The islands of a class, the classes in the order of R445. -/
def islandsOf (cls : Nat) : List ClockId :=
  match cls with
  | 0 => (List.finRange 16).map arrayClk
  | 1 => (List.finRange 64).map tileClk
  | 2 => (List.finRange 4).map storeClk
  | 3 => (List.finRange 4).map fabricClk
  | 4 => (List.finRange 96).map channelClk
  | 5 => (List.finRange 2).map portClk
  | 6 => (List.finRange 16).map flashClk
  | _ => [mgmtClk]

/-- Those of them in service (R477). -/
def classIslands (s : State) (cls : Nat) : List ClockId := (islandsOf cls).filter (islandUp s)

def setFirmware (cls : Nat) (f : Firmware → Firmware) (s : State) : State :=
  { s with sec := { s.sec with firmware := upd s.sec.firmware cls f } }

/-- The inactive slot takes an image. -/
def Firmware.writeOther (f : Firmware) (img : List Byte) (ok : Bool) : Firmware :=
  if f.activeB then { f with imageA := img, versionA := envVersion img, okA := ok }
  else { f with imageB := img, versionB := envVersion img, okB := ok }

def Firmware.image (f : Firmware) (b : Bool) : List Byte := if b then f.imageB else f.imageA

/-- Whether a slot verifies: an image that the device wrote verifies again under R447. -/
def slotVerifies (s : State) (f : Firmware) (b : Bool) : Bool :=
  (if b then f.okB else f.okA) && ((f.image b).isEmpty || imageVerifies s (f.image b))

/-! ## FIRMWARE_UPDATE (R477, R480) -/

/-- An update whose command is gone with its port logs its outcome (R495; log 193, DESIGN CHOICE). -/
def logUpdate (u : Update) (s : State) : State :=
  if (findCmd s u.cmd).isNone then logFault mgmtClk 8 0 u.cls u.loaded s else s

/-- The last island has passed: the class's active slot switches, and its image may raise the Yarcen key floor (R447,
R479; log 73, DEDUCED). -/
def commitUpdate (u : Update) (s : State) : State :=
  let s := setFirmware u.cls (fun f => { f with activeB := !f.activeB }) s
  let img := activeFirmware s u.cls
  let floor := if envKind img = 0 ∧ bitOf (field img 7 1) 3 then max s.sec.yarcenFloor (field img 41 1) else s.sec.yarcenFloor
  let s := logUpdate u { s with sec := { s.sec with update := none, yarcenFloor := floor } }
  match findCmd s u.cmd with
  | none => s
  | some c => finish c { value := firmwareVersion s u.cls, detail := u.loaded } s

/-- The islands of a class are to be loaded one by one; a class without an island in service switches at once. -/
def beginUpdate (cls : Nat) (c : Cmd) (s : State) : State :=
  let u : Update := { cls, left := classIslands s cls, cmd := c.id }
  let s := setCmd c.id (fun x => { x with begun := true }) s
  if u.left.isEmpty then commitUpdate u s else { s with sec := { s.sec with update := some u } }

def rejected (c : Cmd) (st : Status) (s : State) : State := fail c st 0 (count 0x0924 1 s)

/-- An image is written to the inactive slot and verified there. -/
def updateFrom (cls : Nat) (img : List Byte) (c : Cmd) (s : State) : State :=
  let good := (envelopeFault img).isNone && envKind img = 0 && imageVerifies s img
  if !good then rejected c .imageRejected (setFirmware cls (fun f => f.writeOther img false) s)
  else if field img 42 1 ≠ cls then rejected c .imageRejected s
  else if envVersion img < firmwareVersion s cls then rejected c .imageRollback s
  else beginUpdate cls c (setFirmware cls (fun f => f.writeOther img true) s)

def updateFirmware (image : Input) (c : Cmd) (s : State) : State :=
  if c.begun then s
  else
    let cls := c.arg 16 1
    if s.sec.update.isSome then conflictDevice c s
    else if c.bdLen 0 = 0 then
      let f := look s.sec.firmware cls
      if slotVerifies s f (!f.activeB) then beginUpdate cls c s else rejected c .imageRejected s
    else withInput c image (fun img => updateFrom cls img c) s

/-- FIRMWARE_UPDATE (R477, R480). -/
def execFirmwareUpdate (cmd : Nat) (image : Input) (s : State) : Host.Outcome State Fault Refusal :=
  .next (runCmd cmd 0x0F06 (updateFirmware image) s)

/-! ## ISLAND_FIRMWARE_LOADED (R478, R479, R495) -/

/-- Whether an island carries nothing now that its load has to wait for (R478). -/
def loadable (s : State) (clk : ClockId) : Bool :=
  match islandName clk with
  | some (.array a) => (look s.eng.arrays a).generation.isEmpty && (look s.eng.arrays a).retrieval.isEmpty
  | some (.tile t) => (look s.eng.tiles t).masks.isEmpty
      && !((List.finRange 4).any (fun c =>
        let k := courseOf s c
        [k.generation.step, k.retrieval.step].any (fun st => match st with
          | some st => st.rows.any (fun r => r.tile == t)
          | none => false)))
  | some (.fabric c) => (courseOf s c).generation.step.isNone && (courseOf s c).retrieval.step.isNone
  | _ => true

/-- Whether a channel's homes are moving. -/
def evacuates (s : State) (clk : ClockId) : Bool :=
  match islandName clk with
  | some (.channel ch) => [Role.evacuating, Role.receiving].contains (channelAtRole s ch)
  | _ => false

/-- The islands still to load: those that left service are skipped. -/
def leftToLoad (s : State) (u : Update) : List ClockId := u.left.filter (islandUp s)

/-- Channel islands of evacuating positions come last (R495). -/
def loadTurn (s : State) (u : Update) (clk : ClockId) : Bool :=
  (leftToLoad s u).contains clk && (!evacuates s clk || (leftToLoad s u).all (evacuates s))

/-- One island passes, or fails: then every island is back on the old slot and the island is retired. -/
def islandLoaded (u : Update) (clk : ClockId) (pass : Bool) (s : State) : State :=
  if pass then
    let s := count 0x0A23 1 s
    let u := { u with left := (leftToLoad s u).filter (· != clk), loaded := u.loaded + 1 }
    if u.left.isEmpty then commitUpdate u s else { s with sec := { s.sec with update := some u } }
  else
    let s := logUpdate u { s with sec := { s.sec with update := none } }
    let s := match findCmd s u.cmd with
      | none => s
      | some c => fail c .updateFailed 0 s
    autoRetire clk s

def execIslandFirmwareLoaded (clk : ClockId) (pass : Bool) (s : State) : Host.Outcome State Fault Refusal :=
  .next (match s.sec.update with
    | none => s
    | some u =>
      if !inService s then s
      else if (leftToLoad s u).isEmpty then commitUpdate u s
      else if loadTurn s u clk && loadable s clk then islandLoaded u clk pass s else s)

end Sys2Proof.Machine
end

