-- ==== Sys2Proof/Machine/Reset.lean ====
section
/-! DEFINITION. Start-up, HOLD, P4, and the resets of the device, of a port and of a function (R2, R3, R10, R348 to
R352, R365, R378, R420, R421, R426 to R430, R465, R489, R500, R502, R511 to R518, R531, R533, R541, R546). -/

namespace Sys2Proof.Machine

/-! ## Parameters in their ranges (R187, R340, R385, R423, R455, R493, R519) -/

def keepIf (ok : Bool) (v d : Nat) : Nat := if ok then v else d

def rangedSched (p : SchedParams) : SchedParams :=
  { fillWaitUs := keepIf (p.fillWaitUs ≤ 10000) p.fillWaitUs 200
    fillGroups := keepIf (p.fillGroups ≤ 64) p.fillGroups 0
    starveSteps := keepIf (between 1 p.starveSteps 255) p.starveSteps 8
    chunk := keepIf (between 32 p.chunk 2048 && p.chunk % 32 = 0) p.chunk 256
    maxGroups := keepIf (between 1 p.maxGroups 128) p.maxGroups 64
    rlaneMaxReq := keepIf (between 1 p.rlaneMaxReq 64) p.rlaneMaxReq 16
    rlaneArrayPct := keepIf (between 10 p.rlaneArrayPct 90) p.rlaneArrayPct 50
    rlanePoolPct := keepIf (between 10 p.rlanePoolPct 50) p.rlanePoolPct 25
    threadShift := keepIf (between 6 p.threadShift 14) p.threadShift 10
    defaultWeight := keepIf (between 1 p.defaultWeight 65535) p.defaultWeight 100
    defaultDepth := keepIf (between 16 p.defaultDepth 4096) p.defaultDepth 256 }

def rangedEmb (p : EmbParams) : EmbParams :=
  { intervalMs := keepIf (between 10 p.intervalMs 10000) p.intervalMs 100
    migrateRatio := keepIf (between 11 p.migrateRatio 100) p.migrateRatio 20
    migrateMax := keepIf (p.migrateMax ≤ 65535) p.migrateMax 1024
    spareShift := keepIf (between 4 p.spareShift 10) p.spareShift 6 }

def rangedMem (p : MemParams) : MemParams :=
  { spares := keepIf (p.spares ≤ 2) p.spares 1
    maxRate := keepIf (p.maxRate ≤ 3) p.maxRate 3
    movePct := keepIf (between 5 p.movePct 50) p.movePct 25
    calIntervalMs := keepIf (between 16 p.calIntervalMs 255) p.calIntervalMs 128
    scrubHours := keepIf (between 1 p.scrubHours 168) p.scrubHours 24
    retrainCe := keepIf (p.retrainCe ≤ 65535) p.retrainCe 1000
    swapGb := keepIf (p.swapGb ≤ 65535) p.swapGb 1024 }

def rangedFlash (p : FlashParams) : FlashParams :=
  let gcStart := keepIf (between 64 p.gcStart 4096) p.gcStart 256
  { opPct := keepIf (between 7 p.opPct 28) p.opPct 10
    onebitBlocks := keepIf (between 8 p.onebitBlocks 64) p.onebitBlocks 24
    foldPct := keepIf (between 10 p.foldPct 90) p.foldPct 50
    maxRate := keepIf (p.maxRate ≤ 5) p.maxRate 5
    gcStart
    gcUrgent := keepIf (between 16 p.gcUrgent 1024 && p.gcUrgent < gcStart) p.gcUrgent 64
    wearGap := keepIf (between 50 p.wearGap 2000) p.wearGap 200
    flushMs := keepIf (between 1 p.flushMs 100) p.flushMs 10 }

def rangedQuotas (q : Quotas) : Quotas :=
  { sessions := keepIf (between 1 q.sessions 64) q.sessions 64
    sequences := keepIf (q.sequences ≤ 16384) q.sequences 0
    adapters := keepIf (q.adapters ≤ 4096) q.adapters 0
    indices := keepIf (q.indices ≤ 64) q.indices 0
    tables := keepIf (q.tables ≤ 256) q.tables 0
    lpddr6 := keepIf (q.lpddr6 < 2 ^ 64) q.lpddr6 0
    flash := keepIf (q.flash < 2 ^ 64) q.flash 0
    functions := q.functions }

def rangedSys (p : SysParams) : SysParams :=
  { scanPct := keepIf (between 1 p.scanPct 50) p.scanPct 10
    sramScrubMs := keepIf (between 100 p.sramScrubMs 10000) p.sramScrubMs 1000
    mgmtPort := keepIf (p.mgmtPort ≤ 2) p.mgmtPort 0
    holdS := keepIf (between 1 p.holdS 600) p.holdS 30
    powerCapW := keepIf (between 300 p.powerCapW 620) p.powerCapW 620
    idleMs := keepIf (between 1 p.idleMs 255) p.idleMs 5
    wakeOnWork := p.wakeOnWork, compatImage := p.compatImage }

def rangedHost (p : HostParams) : HostParams :=
  { signal := keepIf (p.signal ≤ 15) p.signal 15
    intCount := keepIf (p.intCount ≤ 65535) p.intCount 1
    intTimeUs := keepIf (p.intTimeUs ≤ 65535) p.intTimeUs 0
    subsystem := keepIf (p.subsystem < 2 ^ 32) p.subsystem Config.factorySubsystem }

/-- An image value outside a field's range is replaced by the factory default. -/
def rangedParams (p : Params) : Params :=
  { sched := rangedSched p.sched, emb := rangedEmb p.emb, mem := rangedMem p.mem, flash := rangedFlash p.flash
    quota := rangedQuotas p.quota, sys := rangedSys p.sys, host := rangedHost p.host }

/-! ## What ends with the power of the memory edge (R365) -/

/-- Everything homed in LPDDR6, every command, session and queue ends; BAR0 is in its reset state (R511, R542). -/
def dropWork (s : State) : State :=
  { s with
    cmds := [], sessions := [], obj := {}, eng := {}, nvme := []
    host := { s.host with funcs := [], pairs := [], vecs := [], flrs := [] }
    sec := { s.sec with update := none } }

/-- Fold and garbage-collection destinations are reset; their sources are still the homes (R420). -/
def dropFolds (s : State) : State := foldS (fun s f => eraseBand f.dst (dropFold f.dst s)) s.flash.folds s

/-- Staged blocks and the journal reach the flash, and the shutdown record follows (R420); writes that are not staged
are discarded (log 69, DEDUCED). -/
def cleanFlash (s : State) : State :=
  let s := foldS (fun s x => programDone x.nsid x.lba s) s.flash.staging s
  let s := dropFolds (flushJournal s)
  { s with flash := { s.flash with staging := [], waiting := [], shutdownOpen := false } }

/-- One namespace after a loss of power: each block as now or as the last journal write left it (R421). -/
def lossBlocks (draw nsid : Nat) (n : Namespace) : List (Nat × BlockState) :=
  let now := fun (l : Nat) => (n.blocks.find? (fun b => b.1 == l)).map (·.2)
  let old := fun (l : Nat) => (n.journalled.find? (fun b => b.1 == l)).map (·.2)
  (n.blocks.map (·.1) ++ n.journalled.map (·.1)).foldl (fun acc l =>
    match if Config.keptAfterLoss (draw * 2 ^ 96 + nsid * 2 ^ 64 + l) then now l else old l with
    | some v => setBlock v l acc
    | none => acc) []

/-- Power fails without R420 (R421, R531). -/
def lossyFlash (s : State) : State :=
  let s := dropFolds s
  let ns := if s.flash.shutdownOpen then mapTbl s.flash.namespaces (fun k n =>
      let bs := lossBlocks s.fresh k n
      { n with blocks := bs, journalled := bs }) else s.flash.namespaces
  { s with
    flash := { s.flash with namespaces := ns, staging := [], waiting := [], journal := 0 }
    fresh := s.fresh + 1 }

/-! ## Start-up: straps, records, images (R426 to R430, R489, R515 to R517, R534) -/

/-- Rate codes that a channel passes; a package of another density has its channels RETIRED (R351, R352). -/
def codesPassed (b : Board) (ch : Fin 96) : Nat :=
  let p : Fin 24 := Fin.ofNat 24 (ch.val / 4)
  let ok := match b.density.find? (fun d => d.1 == p) with
    | some d => [16, 24, 32, 48, 64].contains d.2
    | none => true
  if ok then ((b.rates.find? (fun r => r.1 == ch)).map (·.2)).getD 4 else 0

/-- Whether a course has a channel that passes at some rate. -/
def courseTrains (b : Board) (c : Nat) : Bool := (List.finRange 96).any (fun h => h.val / 24 == c && codesPassed b h != 0)

def anySlot (s : State) (cls : Nat) : Bool :=
  let f := look s.sec.firmware cls
  slotVerifies s f false || slotVerifies s f true

/-- The cases in which start-up stops (R517). -/
def startupStops (s : State) : Bool :=
  let b := s.dev.board
  !b.rootKeyOk || !b.rootFirmwareOk || !anySlot s 7 || !b.rootTestOk || !b.reference
    || !(List.range 4).all (courseTrains b)

/-- A class whose active slot does not verify uses the other one, and the fallback is logged (R516). -/
def chooseFirmware (s : State) : State :=
  foldS (fun s cls =>
    let f := look s.sec.firmware cls
    if !slotVerifies s f f.activeB && slotVerifies s f (!f.activeB) then
      logFault mgmtClk 2 0 cls 1 (setFirmware cls (fun f => { f with activeB := !f.activeB }) s)
    else s) (List.range 8) s

/-- OWNED and QUARANTINE by the faults of R430; the cause is logged (R429). Which records are damaged comes with the
board (log 195, DEDUCED). -/
def checkRecords (s : State) : State :=
  let faulty := !s.dev.board.recordsOk || !s.dev.board.attestOk || !(List.range 7).all (anySlot s)
  match s.sec.lifecycle with
  | .owned => if faulty then logFault mgmtClk 2 0 0 1 { s with sec := { s.sec with lifecycle := .quarantine } } else s
  | .quarantine => if faulty then s else { s with sec := { s.sec with lifecycle := .owned } }
  | _ => s

/-- Whether a Heleri slot qualifies (R516). -/
def slotQualifies (s : State) (b : Bool) : Bool :=
  let img := slotImage s b
  !img.isEmpty && envKind img = 1 && imageVerifies s img && s.sec.heleriFloor ≤ envVersion img

/-- The Heleri slot in use; none for the factory defaults (R10, R516). -/
def chooseSlot (s : State) : Option Bool :=
  let first := s.sec.activeB != s.dev.board.straps.bootSlotPref
  if s.sec.lifecycle = .factory ∨ s.sec.lifecycle = .unowned then none
  else if slotQualifies s first then some first
  else if slotQualifies s (!first) then some (!first)
  else none

/-- The management-primary port (R489). -/
def choosePrimary (p : SysParams) (strap : Bool) : Fin 2 :=
  match p.mgmtPort with
  | 1 => 0
  | 2 => 1
  | _ => if strap then 1 else 0

/-- Straps are sampled, images chosen, and every field takes its value (R3, R10, R534). -/
def sampleStraps (cause : Cause) (s : State) : State :=
  let s := checkRecords (chooseFirmware s)
  let b := s.dev.board
  let slot := chooseSlot s
  let cfg := match slot with
    | some x => rangedParams (Params.ofImage (Config.heleriFields (slotImage s x)))
    | none => Params.factory
  { s with
    dev := { s.dev with
      stage := .startup, cause, cfg, usedB := slot.getD false, factory := slot.isNone, straps := b.straps }
    host := { s.host with primary := choosePrimary cfg.sys b.straps.mgmtPrimary }
    gov := { cap := cfg.sys.powerCapW } }

/-- What a tenant keeps across a reset that powers up the management root (R427; log 67, DEDUCED). -/
def Tenant.stored (t : Tenant) : Tenant :=
  { state := t.state, key := t.key, dataKey := t.dataKey, weight := t.weight, depth := t.depth, quotas := t.quotas }

/-- The fault log goes on from its copy in the serial NOR die (R463; log 66, DEDUCED). -/
def FaultLog.restart (l : FaultLog) : FaultLog :=
  { entries := l.nor, nor := l.nor, next := match l.nor.getLast? with | some e => (e.seq + 1) % 2 ^ 32 | none => l.next }

/-- The next signing index is the reservation end (R443; log 68, DEDUCED). -/
def skipIndices (k : Security) : Security :=
  if k.attEnd < keyUses then { k with attNext := max k.attNext k.attEnd }
  else if k.attNextReady then { k with attSerial := k.attSerial + 1, attNext := 0, attEnd := 0, attNextReady := false }
  else { k with attNext := max k.attNext k.attEnd, attOk := false }

/-- The flash tier as start-up finds it: an incomplete shutdown is counted, the object and swap areas are empty (R365,
R397, R421). -/
def Flash.restart (f : Flash) : Flash :=
  { f with
    staging := [], waiting := [], folds := [], writeBand := none, journal := 0, dieErrors := [], calAt := []
    issued := [], turns := [], hodFree := 0, writesHeld := false
    bands := f.bands.map (fun b => if !b.2.free && !b.2.erasing then (b.1, { b.2 with closed := true }) else b)
    unsafeShutdowns := f.unsafeShutdowns + b2n f.shutdownOpen, lastIncomplete := f.shutdownOpen, shutdownOpen := false }

/-- The straps have levels that the next sampling finds (R3, R534, R541). -/
def withStraps (x : Straps) (s : State) : State :=
  { s with dev := { s.dev with board := { s.dev.board with straps := x } } }

/-- A cold reset begins: the management root powers up (R27, R511; log 71, DESIGN CHOICE; log 77, DEDUCED). -/
def coldStart (cause : Cause) (s : State) : State :=
  let s := dropWork s
  let s := { s with
    now := 0, counters := [], islands := [], smb := {}
    tenants := mapTbl s.tenants (fun _ t => t.stored)
    sec := { skipIndices s.sec with service := none }
    dev := { board := s.dev.board }
    log := s.log.restart
    pins := { s.pins with fault := false, alert := false }
    host := { s.host with conf := [], ports := mapTbl s.host.ports (fun _ p => { perst := p.perst }) }
    flash := s.flash.restart }
  if startupStops s then
    { s with dev := { s.dev with stage := .stopped, cause }, pins := { s.pins with fault := true } }
  else sampleStraps cause s

/-- The islands that an engine reset powers up: all but the ports. -/
def engineIslands (c : ClockId) : Bool := c.toNat / 4096 < 8 || c.toNat / 4096 = 9

/-- An engine reset begins: the management root runs on, the links stay in L0 (R511). -/
def engineStart (s : State) : State :=
  let s := dropWork s
  let scope := match s.sec.service with | some v => v.scope | none => []
  let kept := s.islands.filter (fun i => !engineIslands i.1)
  let up := ([0, 1, 2, 3, 4, 6].flatMap islandsOf).map (fun c =>
    (c, ({ startedAt := s.now, away := scope.contains c } : Island)))
  let s := { s with
    islands := kept ++ up
    counters := s.counters.filter (fun c => !engineIslands c.1.1)
    flash := s.flash.restart
    dev := { board := s.dev.board, latch := s.dev.latch, quoinMismatch := s.dev.quoinMismatch } }
  if startupStops s then
    { s with dev := { s.dev with stage := .stopped, cause := .engine }, pins := { s.pins with fault := true } }
  else sampleStraps .engine s

/-! ## Start-up: the LPDDR6 tier (R348, R351, R352) -/

/-- The channels of a course that pass a rate, `bad` excepted. -/
def passing (s : State) (bad : List (Fin 96)) (rate c : Nat) : List (Fin 96) :=
  (List.finRange 96).filter (fun h => h.val / 24 == c && rate < codesPassed s.dev.board h && !bad.contains h)

/-- The rate that the device runs at: the highest at which each course has its channels; otherwise that of the most
channels, the higher one on a tie (R351). -/
def chooseRate (s : State) : Nat × Bool :=
  let n := 24 - s.dev.cfg.mem.spares
  let rates := (List.range (s.dev.cfg.mem.maxRate + 1)).reverse
  let total := fun r => sumBy (fun c => (passing s [] r c).length) (List.range 4)
  match rates.find? (fun r => (List.range 4).all (fun c => n ≤ (passing s [] r c).length)) with
  | some r => (r, true)
  | none => (rates.foldl (fun a r => if total a < total r then r else a) s.dev.cfg.mem.maxRate, false)

/-- The channels of a course with their roles: failing ones RETIRED, the positions without a channel taken in ascending
order, each by the highest-numbered spare still free (R348). -/
def courseChannels (good : List (Fin 96)) (spares rate c : Nat) : List (Fin 96 × Channel) × List Nat :=
  let n := 24 - spares
  let nominal := (List.range n).map (fun i => c * 24 + i)
  let pool := good.filter (fun h => n ≤ h.val % 24)
  let lacking := nominal.filter (fun p => !good.any (fun h => h.val == p))
  let taken := lacking.zip pool.reverse
  let chans := (List.finRange 96).filter (fun h => h.val / 24 == c)
  let role := fun (h : Fin 96) =>
    if !good.contains h then ({ role := .retired, rate } : Channel)
    else if h.val % 24 < n then { role := .active, position := some h.val, rate }
    else match taken.find? (fun t => t.2 == h) with
      | some t => { role := .active, position := some t.1, rate }
      | none => { role := .spare, rate }
  (chans.map (fun h => (h, role h)), lacking.drop pool.length)

/-- The LPDDR6 tier after training and the self-test; absent positions are logged where no rate gave every course its
channels. -/
def startChannels (failed : List (Fin 96)) (s : State) : State :=
  let rate := (chooseRate s).1
  let full := (chooseRate s).2
  let per := (List.range 4).map (fun c => courseChannels (passing s failed rate c) s.dev.cfg.mem.spares rate c)
  let s := { s with eng := { s.eng with channels := per.flatMap (·.1) } }
  let s := foldS (fun s ch => if ch.2.role = .retired then retire (channelClk ch.1) s else s) (per.flatMap (·.1)) s
  if full then s
  else foldS (fun s p => logFault (clockId 4 (p / 24) (p % 24)) 7 0 p 1 s) (per.flatMap (·.2)) s

/-! ## Start-up: the flash tier (R378, R546) -/

/-- Blocks whose map lines the free LPDDR6 holds. -/
def mapRoom (s : State) : Nat :=
  let total := (positions s).length
  let each := (List.range 4).filterMap (fun c =>
    if positionsIn s c = 0 then none else some (freeBytes s c / positionsIn s c * total / 64 * 12))
  each.foldl min (2 ^ 64)

/-- The division where no namespace exists, and the swap area. -/
def startFlash (s : State) : State :=
  let f := if s.flash.namespaces.isEmpty then divide s.dev.board s.dev.cfg.flash s.flash else s.flash
  let s := { s with flash := { f with swap := 0 } }
  let wanted := s.dev.cfg.mem.swapGb * 1000000000 / 4096
  let left := f.logical - sumBy (fun n => n.2.nsze) f.namespaces
  issueFlash { s with flash := { s.flash with swap := min wanted (min left (mapRoom s)) } }

/-! ## STARTUP_READY, NAMESPACE_MAP_REBUILT (R397, R515, R518) -/

/-- The islands that fail their self-test leave service; the device is ready, in P0 (log 84, DEDUCED). -/
def becomeReady (failed : List ClockId) (s : State) : State :=
  let failed := failed.filter (fun c => match islandName c with
    | none | some .root => false
    | some _ => true)
  let chans := failed.filterMap (fun c => match islandName c with
    | some (.channel ch) => some ch
    | _ => none)
  let s := startFlash (startChannels chans s)
  let s := { s with dev := { s.dev with
    stage := .service, ready := true, selfTestRetired := failed.eraseDups.length % 256 } }
  foldS (fun s c => match islandName c with
    | some (.channel _) => logFault c 5 3 0 1 s
    | _ => autoRetire c s) failed.eraseDups s

def execStartupReady (failed : List ClockId) (s : State) : Host.Outcome State Fault Refusal :=
  .next (if s.dev.stage = .startup then becomeReady failed s else s)

def execNamespaceMapRebuilt (s : State) : Host.Outcome State Fault Refusal :=
  .next (if s.dev.stage = .service then { s with dev := { s.dev with mapReady := true } } else s)

/-! ## HOLD (R420, R500, R502) -/

/-- HOLD is entered: the sequence of R420 runs, and everything homed in LPDDR6 is lost. -/
def enterHold (cause : Option Cause) (s : State) : State :=
  let s := logFault mgmtClk 9 0 0 1 (dropWork (cleanFlash s))
  { s with
    sec := { s.sec with service := none }
    dev := { s.dev with
      stage := .hold, ready := false, gated := false, asleep := false, drowsy := false, pendingReset := none
      stopFetch := false, holdCause := cause, holdReset := false, mapReady := false }
    pins := { s.pins with fault := s.pins.fault || cause.isSome }
    host := { s.host with ports := mapTbl s.host.ports (fun _ p => { p with link := false }) } }

/-- The device is powered and out of HOLD. -/
def running (s : State) : Bool := [Stage.startup, .stopped, .service].contains s.dev.stage

/-- See log 76, DEDUCED. -/
def execPfailAssert (s : State) : Host.Outcome State Fault Refusal :=
  .next (if s.pins.pfailN then
      let s := { s with pins := { s.pins with pfailN := false } }
      if running s then enterHold none s else s
    else s)

/-- The cause that a cold reset out of HOLD reports (log 75, DEDUCED). -/
def holdExitCause (s : State) : Cause := s.dev.holdCause.getD (if s.dev.holdReset then .sysReset else .holdExit)

/-- PFAIL_N is released for 10 ms: a cold reset, once SYS_RESET_N is released too (R502, R541). -/
def releasePfail (s : State) : State :=
  let s := { s with pins := { s.pins with pfailN := true } }
  if !s.pins.sysResetN then s
  else match s.dev.stage with
  | .hold => if s.dev.holdCause.isNone || s.dev.holdReset then coldStart (holdExitCause s) s else s
  | .off => if s.pins.pwrOk then coldStart .sysReset s else s
  | _ => s

def execHoldExit (straps : Straps) (s : State) : Host.Outcome State Fault Refusal :=
  .next (if s.pins.pfailN then s else releasePfail (withStraps straps s))

/-- P4: nothing is powered, and the outputs are not driven (R501, R532). -/
def powerOff (s : State) : State :=
  let s := dropWork s
  { s with
    dev := { board := s.dev.board, stage := .off }
    sec := { s.sec with service := none }
    pins := { s.pins with pwrOk := false, fault := false, alert := false }
    host := { s.host with ports := mapTbl s.host.ports (fun _ p => { p with link := false }) } }

def execSupplyFall (s : State) : Host.Outcome State Fault Refusal :=
  .next (if s.dev.stage = .hold then powerOff s else s)

/-- PWR_OK falls: a loss of power while PFAIL_N is high, P4 otherwise (R531, R541). -/
def execPwrOkLoss (s : State) : Host.Outcome State Fault Refusal :=
  .next (if !s.pins.pwrOk then s
    else if running s && s.pins.pfailN then powerOff (lossyFlash s)
    else powerOff s)

/-- POWER_ON: PWR_OK rises on a board (R515); start-up waits while SYS_RESET_N is low (log 74, DEDUCED). -/
def execPowerOn (board : Board) (s : State) : Host.Outcome State Fault Refusal :=
  .next (if s.dev.stage = .off ∧ !s.pins.pwrOk then
      let s := { s with
        pins := { s.pins with pwrOk := true, pfailN := true, reference := board.reference }
        dev := { s.dev with board }
        host := { s.host with ports := [] } }
      if s.pins.sysResetN then coldStart .powerOn s else s
    else s)

/-! ## SYS_RESET_N (R533, R541) -/

def execSysReset (s : State) : Host.Outcome State Fault Refusal :=
  .next (if !s.pins.sysResetN then s
    else
      let s := { s with pins := { s.pins with sysResetN := false } }
      if s.dev.stage = .hold then { s with dev := { s.dev with holdReset := true } }
      else if running s then
        let s := powerOff (cleanFlash s)
        { s with pins := { s.pins with pwrOk := true } }
      else s)

def execSysResetRelease (straps : Straps) (s : State) : Host.Outcome State Fault Refusal :=
  .next (if s.pins.sysResetN then s
    else
      let s := withStraps straps { s with pins := { s.pins with sysResetN := true } }
      if !s.pins.pfailN then s
      else match s.dev.stage with
      | .hold => if s.dev.holdReset then coldStart (holdExitCause s) s else s
      | .off => if s.pins.pwrOk then coldStart .sysReset s else s
      | _ => s)

/-! ## REFERENCE_LOST (R500) -/

def execReferenceLost (s : State) : Host.Outcome State Fault Refusal :=
  .next (if !s.pins.reference then s
    else
      let s := { s with pins := { s.pins with reference := false }
                        dev := { s.dev with board := { s.dev.board with reference := false } } }
      if running s then enterHold (some .reference) s else s)

/-! ## RESET_START (R512) -/

/-- 100 µs after the DEVICE_RESET completion the reset begins. -/
def execResetStart (straps : Straps) (s : State) : Host.Outcome State Fault Refusal :=
  .next (match s.dev.pendingReset with
    | none => s
    | some (k, t) =>
      if s.dev.stage = .service ∧ t + 100000 ≤ s.now then
        match k with
        | .cold => coldStart .cold (withStraps straps (cleanFlash s))
        | .engine => engineStart (withStraps straps (cleanFlash s))
      else s)

/-! ## QUOIN_LOCKSTEP_MISMATCH (R465) -/

/-- The Quoin restarts; a second mismatch within 1 s resets the device (log 125, DESIGN CHOICE). -/
def quoinMismatch (straps : Straps) (s : State) : State :=
  let again : Bool := match s.dev.quoinMismatch with
    | some t => s.now - t < 1000000000
    | none => false
  let s := logFault mgmtClk 4 2 0 1 s
  if again then coldStart .quoin (withStraps straps (cleanFlash s))
  else count 0x0A20 1 { s with dev := { s.dev with quoinMismatch := some s.now } }

def execQuoinLockstepMismatch (straps : Straps) (s : State) : Host.Outcome State Fault Refusal :=
  .next (if inService s then quoinMismatch straps s else s)

/-! ## Resets of a port and of a function (R513, R514) -/

/-- A port island reset: the link goes down, the port's configuration space returns to its defaults, its NVMe controller
is reset; outstanding commands stay, and BAR0 keeps its values (R11, R513, R542; log 50, DEDUCED). -/
def resetPort (p : Fin 2) (s : State) : State :=
  let s := setPort p (fun x => { x with perst := true }) s
  let s := if (look s.host.ports p).link then linkDown p s else s
  resetCtrl p { s with host := { s.host with conf := s.host.conf.filter (fun f => f.1.1 != p) } }

def execPerst (port : Fin 2) (s : State) : Host.Outcome State Fault Refusal :=
  .next (if (look s.host.ports port).retired then s else resetPort port s)

def execPerstRelease (port : Fin 2) (s : State) : Host.Outcome State Fault Refusal :=
  .next (setPort port (fun x => { x with perst := false }) s)

/-- FLR_PF0: PF0 and each of its virtual functions (R513, R542). -/
def execFlrPf0 (port : Fin 2) (s : State) : Host.Outcome State Fault Refusal :=
  .next (if reached s port then foldS (fun s fn => flrFn port fn s) (usedFns s port) s else s)

/-- FLR_VF (R513, R542). -/
def execFlrVf (port : Fin 2) (vf : Nat) (s : State) : Host.Outcome State Fault Refusal :=
  .next (if reached s port ∧ 1 ≤ vf ∧ vf < 256 then flrFn port vf s else s)

end Sys2Proof.Machine
end

