-- ==== Sys2Proof/Machine/Governor.lean ====
section
/-! DEFINITION. The governor: power samples and windows, the course ladders, the island clocks, pause duty (R499, R505
to R510, R549), the sensors of the sideband (R538, R539), and what one management clock cycle counts (R519). -/

namespace Sys2Proof.Machine

/-! ## Ladders (R499, R507, R508) -/

/-- 100 MHz steps from the array maximum to its floor, those of the fabric, which falls furthest of its kind, and the
highest pause duty in eighths. -/
def arrayFloor : Nat := 17
def tileFloor : Nat := 12
def dutyFloor : Nat := 6

/-- The next step of a ladder, in the order of R507; none at every floor. -/
def ladderStep (l : Ladder) : Option Ladder :=
  if l.arraySteps < arrayFloor then some { l with arraySteps := l.arraySteps + 1, taken := .array :: l.taken }
  else if l.tileSteps < tileFloor then some { l with tileSteps := l.tileSteps + 1, taken := .tile :: l.taken }
  else if l.duty < dutyFloor then some { l with duty := l.duty + 1, taken := .duty :: l.taken }
  else none

/-- The last step undone (R508). -/
def undoStep (l : Ladder) : Ladder :=
  match l.taken with
  | [] => l
  | .array :: t => { l with arraySteps := l.arraySteps - 1, taken := t }
  | .tile :: t => { l with tileSteps := l.tileSteps - 1, taken := t }
  | .duty :: t => { l with duty := l.duty - 1, taken := t }
  | .jump n :: t => { l with duty := n, taken := t }

def ladderOf (s : State) (c : Nat) : Ladder := look s.gov.courses (Fin.ofNat 4 c)

/-- Steps in force on a course: the lower clocks of the two ladders, the higher duty (R509). -/
def arraySteps (s : State) (c : Nat) : Nat := max s.gov.ladder.arraySteps (ladderOf s c).arraySteps
def tileSteps (s : State) (c : Nat) : Nat := max s.gov.ladder.tileSteps (ladderOf s c).tileSteps
def dutyOf (s : State) (c : Nat) : Nat := max s.gov.ladder.duty (ladderOf s c).duty

/-! ## Clocks (R23, R351, R389, R499) -/

/-- The present clock of an island in MHz. -/
def islandMHz (s : State) (clk : ClockId) : Nat :=
  let c := clk.toNat / 256 % 16
  match islandName clk with
  | some (.array a) => (look s.eng.arrays a).clockMhz
  | some (.tile _) => max 1200 (2200 - 100 * tileSteps s c)
  | some (.store _) => max 1200 (2000 - 100 * tileSteps s c)
  | some (.fabric _) => max 1200 (2400 - 100 * tileSteps s c)
  | some (.channel ch) => channelMHz s ch
  | some (.flash f) => ([200, 300, 400, 600, 800, 900][flashRate s f]?).getD 900
  | _ => 1000

/-! ## Sensors (R538, R539, R540) -/

/-- The limit of the ordering suffix, in degrees. -/
def tjMax (s : State) : Int := if s.dev.board.suffixX then 105 else 95

def maxTemp (s : State) (clks : List ClockId) : Int :=
  clks.foldl (fun a c => max a (look s.islands c).temp) (-4096)

/-- The highest junction temperature of a course, in 1/16 of a degree. -/
def courseTemp (s : State) (c : Fin 4) : Int := maxTemp s (courseIslands c)

/-- The islands of the I/O-and-security die. -/
def ioIslands : List ClockId := islandsOf 5 ++ islandsOf 6 ++ [mgmtClk]

def newestSeq (s : State) : Nat := ((s.log.entries.getLast?).map (·.seq)).getD 0

/-- The PLDM sensors. -/
def sensor (s : State) (n : Nat) : Option Int :=
  match n with
  | 1 => some s.gov.average
  | 2 | 3 | 4 | 5 => some (courseTemp s (Fin.ofNat 4 (n - 2)) / 16)
  | 6 => some (maxTemp s ioIslands / 16)
  | 7 => some (if s.dev.stage = .hold then 4 else powerCode s)
  | 8 => some (lifecycleValue s)
  | 9 => some (b2n s.dev.ready + 2 * b2n s.pins.fault)
  | 10 => some (newestSeq s)
  | _ => none

/-- Whether a reading has crossed a threshold, in either direction (log 80, DEDUCED). -/
def crossed (old new threshold : Int) : Bool := decide (old < threshold) != decide (new < threshold)

/-- A threshold that has been crossed between two states asserts ALERT_N. -/
def watchThresholds (old new : State) : State :=
  if new.smb.thresholds.any (fun t => match sensor old t.1, sensor new t.1 with
    | some a, some b => crossed a b t.2
    | _, _ => false) then { new with pins := { new.pins with alert := true } }
  else new

/-! ## GOVERNOR_SAMPLE (R506, R507) -/

/-- The clock of an array that the ladders order. -/
def orderedMhz (s : State) (a : Fin 16) : Nat := 3300 - 100 * arraySteps s (a.val / 4)

/-- The islands whose clocks the ladders order. -/
def ladderIslands : List ClockId :=
  (List.finRange 16).map arrayClk ++ (List.finRange 64).map tileClk ++ (List.finRange 4).map storeClk
    ++ (List.finRange 4).map fabricClk

/-- A change of the ladders from those of another state reaches the clocks: an island whose frequency changes pauses, relocks
for 2 µs, an array with its staging buffer, and goes on; one that is powered down takes the frequency at its next power-up
(R107, R507; log 168, DESIGN CHOICE). -/
def relock (old s : State) : State :=
  let t := { s with eng := { s.eng with arrays := (List.finRange 16).foldl (fun t a =>
    if (look t a).clockMhz = orderedMhz s a then t else upd t a (fun r => { r with clockMhz := orderedMhz s a })) s.eng.arrays } }
  foldS (fun t clk =>
    if islandMHz old clk = islandMHz t clk ∨ !islandUp t clk ∨ (t.dev.gated ∧ clk.toNat / 4096 = 0) then t
    else { t with islands := upd t.islands clk (fun i => { i with relockEnd := t.now + 2000 }) }) ladderIslands t

def setLadder (l : Ladder) (s : State) : State := relock s { s with gov := { s.gov with ladder := l } }

/-- A sample above 1.15 × the cap raises the duty to 4/8 at once; the window begins anew after a step. -/
def takeSample (watts : Nat) (s : State) : State :=
  if 100 * watts > 115 * s.gov.cap ∧ s.gov.ladder.duty < 4 then
    let l := s.gov.ladder
    let s := count 0x0B22 1 (setLadder { l with duty := 4, taken := .jump l.duty :: l.taken } s)
    { s with gov := { s.gov with samples := [] } }
  else { s with gov := { s.gov with samples := s.gov.samples ++ [watts] } }

/-- GOVERNOR_SAMPLE (R506; its period: log 85, DESIGN CHOICE). -/
def execGovernorSample (watts : Nat) (s : State) : Host.Outcome State Fault Refusal :=
  .next (if inService s && s.gov.samples.length < 20 then takeSample watts s else s)

/-! ## GOVERNOR_WINDOW (R506 to R509) -/

/-- The governor's own ladder at the end of a window of sum `sum`. -/
def judgeWindow (sum : Nat) (s : State) : State :=
  if 20 * s.gov.cap < sum then
    let s := { s with gov := { s.gov with below := 0 } }
    match ladderStep s.gov.ladder with
    | none => s
    | some l => count 0x0B22 1 (setLadder l s)
  else if sum + 300 < 20 * s.gov.cap then
    if s.gov.below + 1 < 10 then { s with gov := { s.gov with below := s.gov.below + 1 } }
    else setLadder (undoStep s.gov.ladder) { s with gov := { s.gov with below := 0 } }
  else { s with gov := { s.gov with below := 0 } }

def setCourseLadder (c : Fin 4) (l : Ladder) (s : State) : State :=
  relock s { s with gov := { s.gov with courses := put s.gov.courses c l } }

/-- A course ladder that runs takes one step in each window in which an island of the course is at Tj_max - 5 °C (log
78, DEDUCED). -/
def stepCourse (c : Fin 4) (s : State) : State :=
  let l := look s.gov.courses c
  if l.running && (tjMax s - 5) * 16 ≤ courseTemp s c then
    match ladderStep l with
    | none => s
    | some l => count 0x0B22 1 (setCourseLadder c l s)
  else s

def endWindow (s : State) : State :=
  let sum := s.gov.samples.foldl (· + ·) 0
  let s := { s with gov := { s.gov with average := sum / 20, samples := [] } }
  foldS (fun s c => stepCourse c s) (List.finRange 4) (judgeWindow sum s)

def execGovernorWindow (s : State) : Host.Outcome State Fault Refusal :=
  .next (if inService s && s.gov.samples.length = 20 then watchThresholds s (endWindow s) else s)

/-! ## THROTTLE_PAUSE, THROTTLE_RESUME (R106) -/

/-- Islands that a throttle order can pause: those of the courses, the channels and the flash channels (R106, R507; log
188, DESIGN CHOICE). -/
def pausable (s : State) (clk : ClockId) : Bool :=
  islandUp s clk && match islandName clk with
    | none | some .root | some (.port _) => false
    | _ => true

/-- THROTTLE_PAUSE: the island pauses; it abandons and reorders nothing. -/
def execThrottlePause (island : ClockId) (s : State) : Host.Outcome State Fault Refusal :=
  .next (if !pausable s island || (look s.islands island).paused then s
    else { s with islands := upd s.islands island (fun i => { i with paused := true, pausedAt := s.now }) })

/-- Array cycles since a pause began are counted (R115). -/
def countPaused (clk : ClockId) (s : State) : State :=
  let i := look s.islands clk
  match islandName clk with
  | some (.array _) => bump clk 0x0006
      (cyclesOf s clk - (if i.pausedAt ≤ i.startedAt then 0 else Config.islandCycles clk i.startedAt i.pausedAt)) s
  | _ => s

/-- THROTTLE_RESUME: the island goes on from where it stopped; a flash channel issues what has waited (R425). -/
def execThrottleResume (island : ClockId) (s : State) : Host.Outcome State Fault Refusal :=
  .next (if !(look s.islands island).paused then s
    else issueFlash { countPaused island s with
      islands := upd s.islands island (fun i => { i with paused := false }) })

/-! ## PAUSE_DUTY_INTERVAL (R507) -/

/-- Array cycles paused in 100 µs. -/
def pausedCycles (s : State) (a : Fin 16) : Nat :=
  100 * islandMHz s (arrayClk a) * dutyOf s (a.val / 4) / 8

/-- An array pauses for the duty's part of an interval that begins, and then goes on where it stopped. -/
def pauseFor (a : Fin 16) (s : State) : State :=
  if arrayUp s a && pausedCycles s a ≠ 0 then
    let t := s.now + 12500 * dutyOf s (a.val / 4)
    bump (arrayClk a) 0x0006 (pausedCycles s a) { s with
      islands := upd s.islands (arrayClk a) (fun i => { i with relockEnd := max i.relockEnd t }) }
  else s

/-- The next interval of 100 µs begins. -/
def execPauseDutyInterval (s : State) : Host.Outcome State Fault Refusal :=
  .next (if awake s && !s.dev.gated && s.gov.dutyAt.all (fun t => t + 100000 ≤ s.now) then
      foldS (fun s a => pauseFor a s) (List.finRange 16) { s with gov := { s.gov with dutyAt := some s.now } }
    else s)

/-! ## THERMAL_REPORT (R509) -/

/-- A course ladder starts. -/
def startLadder (c : Fin 4) (l : Ladder) (s : State) : State :=
  count 0x0B23 1 (setCourseLadder c { l with running := true }
    { s with pins := { s.pins with alert := true } })

/-- A course at a temperature: every floor, a ladder that starts, or one that ends after 10 ms of cool. -/
def heatCourse (c : Fin 4) (s : State) : State :=
  let l := look s.gov.courses c
  let hot := courseTemp s c
  let floors : Ladder := { arraySteps := arrayFloor, tileSteps := tileFloor, duty := dutyFloor, running := true }
  if tjMax s * 16 ≤ hot then
    if l.running then setCourseLadder c floors s else startLadder c floors s
  else if (tjMax s - 5) * 16 ≤ hot ∧ !l.running then startLadder c ((ladderStep {}).getD {}) s
  else if l.running ∧ hot < (tjMax s - 8) * 16 then
    match l.coolSince with
    | none => setCourseLadder c { l with coolSince := some s.now } s
    | some t => if t + 10000000 ≤ s.now then setCourseLadder c {} s else s
  else if l.running then setCourseLadder c { l with coolSince := none } s
  else s

/-- The latest temperature of an island, in 1/16 of a degree. -/
def takeTemp (clk : ClockId) (temp : Int) (s : State) : State :=
  let s := setIsland clk (fun i => { i with temp }) s
  if (tjMax s + 10) * 16 ≤ temp then enterHold (some .thermal) s
  else match (List.finRange 4).find? (fun c => (courseIslands c).contains clk) with
    | some c => heatCourse c s
    | none => s

def execThermalReport (clk : ClockId) (temp : Int) (s : State) : Host.Outcome State Fault Refusal :=
  .next (if running s && (islandName clk).isSome then watchThresholds s (takeTemp clk temp s) else s)

/-! ## REFRESH_TEMP_POLL (R357, R358, R510) -/

/-- REFRESH of CH_STATUS, and whether the channel is limited to half its slots (log 82, DESIGN CHOICE). -/
def refreshOf (r : RefreshRange) (k : Channel) : Channel :=
  match r with
  | .normal => { k with refresh := 0, halved := false }
  | .double => { k with refresh := 1, halved := false }
  | .quadruple => { k with refresh := 2, halved := false }
  | .over => { k with halved := true }

/-- The channels of a package (R23, R346). -/
def packageChannels (p : Fin 24) : List (Fin 96) := (List.finRange 96).filter (fun h => h.val / 4 == p.val)

def execRefreshTempPoll (package : Fin 24) (range : RefreshRange) (s : State) : Host.Outcome State Fault Refusal :=
  .next (if awake s then
      foldS (fun s ch => if channelAtRole s ch = .retired then s else setChannel ch (refreshOf range) s)
        (packageChannels package) s
    else s)

/-! ## A management clock cycle (R25, R27, R519) -/

/-- The time counters of P1 and P2 (R519). -/
def countPower (s : State) : State :=
  if s.dev.stage ≠ .service then s
  else match powerCode s with
  | 1 => count 0x0B20 1 s
  | 2 => count 0x0B21 1 s
  | _ => s

/-- One management clock cycle passes, while the management root is powered. -/
def tick (s : State) : State :=
  if s.dev.stage = .off then s else countPower { s with now := s.now + 1 }

end Sys2Proof.Machine
end

