-- ==== Sys2Proof/Machine/Power.lean ====
section
/-! DEFINITION. POWER_CAP, P2 and P3 (R502 to R505). -/

namespace Sys2Proof.Machine

/-- The cap takes effect at the command's commit (R505; log 136, DEDUCED). -/
def setCap (c : Cmd) (s : State) : State := { s with gov := { s.gov with cap := c.arg 0 2 } }

/-- POWER_CAP with state request 0 (R505). -/
def execPowerCap (cmd : Nat) (s : State) : Host.Outcome State Fault Refusal :=
  .next (runCmd cmd 0x0F09 (fun c s => if c.imm = 0 then finish c {} (setCap c s) else s) s)

/-! ## P3 is entered (R503) -/

/-- Steps 2 and 3 have ended: no lane has a step in flight, no Hod unit is in flight. -/
def drained (s : State) : Bool :=
  (List.finRange 4).all (fun c => (courseOf s c).generation.step.isNone && (courseOf s c).retrieval.step.isNone)
    && !s.eng.moves.any (fun m => m.2.unit.isSome) && !s.obj.tables.any (fun t => !t.2.migrations.isEmpty)

/-- Steps 4 to 6: staged writes and the journal are programmed, and the domains power down. -/
def fallAsleep (c : Cmd) (s : State) : State :=
  let s := flushJournal (foldS (fun s x => programDone x.nsid x.lba s) s.flash.staging s)
  finish c {} (setCap c { s with dev := { s.dev with asleep := true, drowsy := false, gated := true } })

/-- Step 1 waits for an evacuation or a firmware update; the rest of the order follows. -/
def enterP3 (c : Cmd) (s : State) : State :=
  if s.dev.asleep then finish c {} (setCap c s)
  else if !c.begun && (s.sec.update.isSome || !s.eng.evacuations.isEmpty) then s
  else
    let s := setCmd c.id (fun x => { x with begun := true }) { s with dev := { s.dev with drowsy := true } }
    if drained s then fallAsleep { c with begun := true } s else s

/-- POWER_CAP with state request 1 (R503). -/
def execPowerEnterP3 (cmd : Nat) (s : State) : Host.Outcome State Fault Refusal :=
  .next (if inService s then runCmd cmd 0x0F09 (fun c s => if c.imm = 1 then enterP3 c s else s) s else s)

/-! ## P3 is left (R504) -/

/-- The islands that P3 powers down. -/
def sleepers (s : State) : List ClockId := ([0, 1, 4, 6].flatMap islandsOf).filter (islandUp s)

/-- The domains power up; channels retune, flash channels calibrate; the governor starts without a step (log 81,
DEDUCED). -/
def wake (s : State) : State :=
  let s := powerUp (sleepers s) { s with
    dev := { s.dev with asleep := false, drowsy := false, gated := false }
    gov := { s.gov with ladder := {}, samples := [], below := 0, lastChain := s.now } }
  let s := foldS (fun s ch => if trained (channelAtRole s ch) && islandUp s (channelClk ch) then
      bump (channelClk ch) 0x060A 1 s else s) (List.finRange 96) s
  let cal := (List.range 16).map (fun f => (f, s.now))
  openAll (count 0x0B24 1 { s with flash := { s.flash with calAt := cal } })

/-- Whether a command is held. -/
def holdsWork (s : State) : Bool := s.cmds.any (fun c => gate s c.op c.tenant == .held)

/-- POWER_CAP with state request 2, or a held command while WAKE_ON_WORK is 1 (R502, R504). -/
def execPowerLeaveP3 (cmd : Option Nat) (s : State) : Host.Outcome State Fault Refusal :=
  .next (match cmd with
    | none => if inService s && s.dev.asleep && s.dev.cfg.sys.wakeOnWork && holdsWork s then wake s else s
    | some n => runCmd n 0x0F09 (fun c s =>
        if c.imm = 2 then finish c {} (setCap c (if s.dev.asleep then wake s else s)) else s) s)

/-! ## P2 (R502) -/

/-- Whether an array has a pass to run (log 83, DEDUCED). -/
def chainRuns (s : State) : Bool := s.eng.arrays.any (fun a => !a.2.generation.isEmpty || !a.2.retrieval.isEmpty)

/-- IDLE_TIMEOUT: no array chain in any course for IDLE_MS; the array domains are off. -/
def execIdleTimeout (s : State) : Host.Outcome State Fault Refusal :=
  .next (if awake s && !s.dev.gated && !chainRuns s && s.gov.lastChain + s.dev.cfg.sys.idleMs * 1000000 ≤ s.now then
      { s with dev := { s.dev with gated := true } }
    else s)

end Sys2Proof.Machine
end

