-- ==== Sys2Proof/Machine/Manage.lean ====
section
/-! DEFINITION. Management status, epoch markers, telemetry, and the resets and self-tests that DEVICE_RESET orders (R4,
R29, R64, R115, R116, R187 to R189, R238, R260, R298, R322, R340 to R342, R384, R385, R422, R423, R455, R493, R512,
R519). -/

namespace Sys2Proof.Machine

/-! ## MGMT_STATUS (R4, R64) -/

/-- What the rules say the management status reports: compatibility mode, HOLD_S, the count of absent positions, mixed
densities, the swap area and its parameter, dies beyond the last row, dies excluded, the logical capacity (R2, R4, R71, R348, R351,
R352, R378, R389, R391, R423, R546). -/
def statusValues (s : State) : List Nat :=
  [b2n (compatMode s), s.dev.cfg.sys.holdS, 4 * (24 - s.dev.cfg.mem.spares) - (positions s).length,
   b2n (s.dev.board.density.any (fun d => d.2 ≠ density s)), s.flash.swap, s.dev.cfg.mem.swapGb,
   sumBy (diesOn s.dev.board) (List.finRange 16) - 16 * s.flash.dieRows, sumBy (·.2) s.dev.board.excluded, s.flash.logical]

/-- What an island reports beside its registers: the management clock count of its last power-up, and its epoch latch, the
marker and its own count, or that the latch is absent (R27, R29). -/
def islandReport (s : State) (clk : ClockId) : List Nat :=
  let i := look s.islands clk
  i.startedAt :: (match i.latch with
    | some (marker, n) => [1, marker.toNat, n]
    | none => [0, 0, 0])

/-- Every island but the management root. -/
def allIslands : List ClockId := [0, 1, 2, 3, 4, 5, 6].flatMap islandsOf

/-- The Quoin's epoch latch. -/
def rootReport (s : State) : List Nat :=
  match s.dev.latch with
  | some (marker, n) => [1, marker.toNat, n]
  | none => [0, 0, 0]

/-- MGMT_STATUS (R64); no selector names the islands' reports, and the model puts them into the status record (log 185,
DESIGN CHOICE). -/
def execMgmtStatus (cmd : Nat) (s : State) : Host.Outcome State Fault Refusal :=
  .next (runCmd cmd 0x0F00 (fun c s => withRecord c (Config.statusRecord s.fresh
    (statusValues s ++ rootReport s ++ allIslands.flatMap (islandReport s))) {} s.draw) s)

/-! ## EPOCH_MARKER (R29) -/

/-- Whether an island is powered: in service, and not in a domain that P2 or P3 powers down. -/
def powered (s : State) (clk : ClockId) : Bool :=
  let cls := clk.toNat / 4096
  islandUp s clk && !(s.dev.asleep && [0, 1, 4, 9].contains cls) && !(s.dev.gated && cls == 0)

/-- An island latches the marker with its own count, no later than 2 µs after the Quoin's latch (log 57, DESIGN CHOICE).
-/
def latchIsland (marker : Word64) (clk : ClockId) (s : State) : State :=
  let late := Config.freeNat s.fresh % 2001
  let count := cyclesOf { s with now := s.now + late } clk
  setIsland clk (fun i => { i with latch := some (marker, count) }) s.draw

/-- The Quoin latches the marker, then each powered island does; an island that is powered down latches nothing, and
its latch is absent. -/
def mark (marker : Word64) (s : State) : State :=
  let s := { s with dev := { s.dev with latch := some (marker, s.now) } }
  foldS (fun s clk => if powered s clk then latchIsland marker clk s
    else setIsland clk (fun i => { i with latch := none }) s) allIslands s

/-- EPOCH_MARKER (R29, R64). -/
def execEpochMarker (cmd : Nat) (s : State) : Host.Outcome State Fault Refusal :=
  .next (runCmd cmd 0x0F01 (fun c s => finish c { value := s.now, detail := 0xFF00 } (mark c.hdr.imm s)) s)

/-! ## Telemetry -/

/-- A register's value: a number, or one that the model leaves free. -/
abbrev Reading := Option Nat

/-- A field of a register at a bit. -/
def at_ (bit v : Nat) : Nat := v * 2 ^ bit

def counterOf (s : State) (clk : ClockId) (sel : Nat) : Nat := look s.counters (clk, sel)

/-- Counters of what the model does not keep (log 51, DESIGN CHOICE): slot traffic, poisoned lines written, Hod bytes and
forwarded requests of a channel; pages, programs and suspends of a flash channel. -/
def uncounted : List (Nat × Nat) :=
  [(4, 0x0602), (4, 0x0603), (4, 0x0607), (4, 0x060C), (4, 0x060D), (4, 0x060E), (9, 0x0801), (9, 0x0802), (9, 0x0803), (9, 0x0809)]

/-- MG_SCHED registers (R187). -/
def schedRegister (p : SchedParams) (sel : Nat) : Nat :=
  match sel with
  | 0x0100 => p.fillWaitUs + at_ 16 p.fillGroups + at_ 24 p.starveSteps
  | 0x0101 => p.chunk + at_ 16 p.maxGroups + at_ 24 p.rlaneMaxReq
  | 0x0102 => p.rlaneArrayPct + at_ 8 p.rlanePoolPct + at_ 16 p.threadShift
  | _ => p.defaultWeight + at_ 16 p.defaultDepth

/-- DENSITY of CH_STATUS, read from the package (log 145, DEDUCED). -/
def packageDensity (s : State) (ch : Fin 96) : Nat :=
  ((s.dev.board.density.find? (fun d => d.1.val == ch.val / 4)).map (·.2)).getD 48

/-- CH_STATUS (R384). -/
def chStatus (s : State) (ch : Fin 96) : Nat :=
  let k := look s.eng.channels ch
  k.role.code + at_ 8 (k.position.getD 0xFF) + at_ 16 (ch.val / 4) + at_ 24 k.rate + at_ 32 (packageDensity s ch)
    + at_ 40 k.refresh

/-- CH_FREE: the free 64 KiB extents of the position (R384; log 37, DESIGN CHOICE). -/
def chFree (s : State) (ch : Fin 96) : Nat :=
  if (look s.eng.channels ch).position.isSome then positionBytes s / 65536 - usedChunks s ch else 0

/-- FL_STATUS (R422). -/
def flStatus (s : State) (f : Fin 16) : Nat :=
  diesOn s.dev.board f + at_ 8 ((s.flash.failedDies.filter (fun d => d / 16 == f.val)).length) + at_ 16 (flashRate s f)

/-- A register of an island. -/
def islandRegister (s : State) (clk : ClockId) (sel : Nat) : Reading :=
  if uncounted.contains (clk.toNat / 4096, sel) then none
  else match islandName clk with
  | some (.fabric c) =>
    if sel < 0x0200 then some (schedRegister s.dev.cfg.sched sel)
    else if sel = 0x020E then some (pagePool s c.val / 65536)
    else some (counterOf s clk sel)
  | some (.channel ch) =>
    if sel = 0x0600 then some (chStatus s ch)
    else if sel = 0x0601 then some (chFree s ch)
    else some (counterOf s clk sel)
  | some (.flash f) => if sel = 0x0800 then some (flStatus s f) else some (counterOf s clk sel)
  | _ => some (counterOf s clk sel)

/-- A per-tenant value (R189): EU in units of 2⁻¹⁴, dispatches, BUSY_RETRY completions, queue depth, weight. -/
def tenantRegister (s : State) (t sel : Nat) : Nat :=
  let r := look s.tenants t
  match sel with
  | 0x0300 => (r.eu * 16384).floor.toNat
  | 0x0301 => r.dispatched
  | 0x0302 => r.busyRetries
  | 0x0303 => (queued s t).length
  | _ => weightOf s t

/-- Parameters of the embedding tables, the LPDDR6 tier and the flash tier (R340, R385, R423). -/
def tierRegister (s : State) (sel : Nat) : Nat :=
  let e := s.dev.cfg.emb
  let m := s.dev.cfg.mem
  let f := s.dev.cfg.flash
  match sel with
  | 0x0500 => e.intervalMs + at_ 16 e.migrateRatio
  | 0x0501 => e.migrateMax + at_ 16 e.spareShift
  | 0x0610 => m.spares + at_ 4 m.maxRate + at_ 8 m.movePct + at_ 16 m.calIntervalMs
  | 0x0611 => m.scrubHours + at_ 16 m.retrainCe
  | 0x0612 => m.swapGb
  | 0x0613 => s.flash.swap
  | 0x0810 => f.opPct + at_ 8 f.onebitBlocks + at_ 16 f.foldPct + at_ 24 f.maxRate
  | 0x0811 => f.gcStart + at_ 16 f.gcUrgent + at_ 32 f.wearGap
  | _ => f.flushMs

/-- Security counters and default quotas (R455). -/
def securityRegister (s : State) (sel : Nat) : Nat :=
  let q := s.dev.cfg.quota
  match sel with
  | 0x0923 => s.sec.attNext + at_ 32 s.sec.attSerial
  | 0x0925 => s.sec.serviceCounter.toNat
  | 0x0930 => q.sessions + at_ 8 q.sequences + at_ 24 q.adapters + at_ 40 q.indices + at_ 48 q.tables
  | 0x0931 => q.lpddr6
  | 0x0932 => q.flash
  | 0x0933 => q.functions.toNat % 2 ^ 64
  | 0x0934 => q.functions.toNat / 2 ^ 64 % 2 ^ 64
  | 0x0935 => q.functions.toNat / 2 ^ 128 % 2 ^ 64
  | 0x0936 => q.functions.toNat / 2 ^ 192 % 2 ^ 64
  | _ => counterOf s mgmtClk sel

/-- Reset causes (R519). -/
def Cause.code : Cause → Nat
  | .powerOn => 0 | .sysReset => 1 | .cold => 2 | .engine => 3 | .holdExit => 4 | .thermal => 5 | .quoin => 6
  | .reference => 7

/-- A register of a check-value unit (R493). Units 0 to 3 check Hod's copies and images; what they have checked is not
kept (log 51, DESIGN CHOICE). -/
def unitRegister (s : State) (sel : Nat) : Reading :=
  let e := (sel - 0x0A00) / 4
  if sel % 4 = 3 then some (counterOf s mgmtClk sel)
  else if e < 4 then none
  else if sel % 4 = 0 then some (contextsBusy s (Fin.ofNat 4 (e - 4)) + at_ 8 1)
  else some (counterOf s mgmtClk sel)

/-- Power and start-up registers (R519). -/
def powerRegister (s : State) (sel : Nat) : Nat :=
  match sel with
  | 0x0B00 => powerCode s + at_ 8 s.gov.ladder.arraySteps + at_ 16 s.gov.ladder.duty + at_ 32 s.gov.cap + at_ 48 s.gov.average
  | 0x0B01 => s.dev.cfg.sys.powerCapW + at_ 16 s.dev.cfg.sys.idleMs + at_ 24 (b2n s.dev.cfg.sys.wakeOnWork)
  | 0x0B30 => b2n s.dev.usedB + at_ 1 (b2n s.dev.factory) + at_ 2 (b2n s.dev.straps.bootSlotPref) + at_ 3 (b2n s.dev.straps.compat)
      + at_ 4 (b2n s.dev.straps.mgmtPrimary) + at_ 5 (b2n s.dev.cfg.sys.compatImage) + at_ 8 s.dev.cause.code
      + at_ 16 s.dev.selfTestRetired
  | _ => counterOf s mgmtClk sel

/-- MG_PWR_ISLAND; the present clock of an island that is powered down is not stated. -/
def powerIsland (s : State) (clk : ClockId) : Reading :=
  if powered s clk then
    some (islandMHz s clk + at_ 16 (islandMHz s clk) + at_ 32 ((look s.islands clk).temp % 65536).toNat)
  else none

/-- A register of the management clock (log 56, DEDUCED). -/
def rootRegister (s : State) (sel : Nat) : Reading :=
  let low := sel % 65536
  let high := sel / 65536
  if between 0x0300 low 0x0304 then some (tenantRegister s high low)
  else if low = 0x0B10 then powerIsland s (BitVec.ofNat 16 high)
  else if between 0x0A40 low 0x0A43 then
    some (counterOf s (BitVec.ofNat 16 high) low)
  else if low < 0x0900 then some (tierRegister s low)
  else if low < 0x0A00 then some (securityRegister s low)
  else if low < 0x0A20 then unitRegister s low
  else if low < 0x0B00 then match low with
    | 0x0A30 => some (s.dev.cfg.sys.scanPct + at_ 8 s.dev.cfg.sys.sramScrubMs + at_ 24 s.dev.cfg.sys.mgmtPort)
    | 0x0A31 => some s.dev.cfg.sys.holdS
    | _ => some (counterOf s mgmtClk low)
  else some (powerRegister s low)

/-- The register that a clock identifier and a selector name. -/
def register (s : State) (clk sel : Nat) : Reading :=
  if clk = 0xFF00 then rootRegister s sel else islandRegister s (BitVec.ofNat 16 clk) sel

def readTelemetry (c : Cmd) (s : State) : State :=
  match telemetryFaults c with
  | o :: _ => badField c o 0 s
  | [] => match register s (c.arg 0 2) (c.arg 8 8) with
    | some v => finish c { value := v } s
    | none => finish c { value := Config.freeNat s.fresh } s.draw

/-- TELEMETRY_READ (R115, R116). -/
def execTelemetryRead (cmd : Nat) (s : State) : Host.Outcome State Fault Refusal :=
  .next (runCmd cmd 0x0F0A readTelemetry s)

/-! ## DEVICE_RESET (R512) -/

/-- Fetched writes go on, and staged blocks are programmed, until none waits. -/
def drainWrites : Nat → State → State
  | 0, s => s
  | n + 1, s =>
    if s.flash.waiting.isEmpty then s
    else drainWrites n (admitAll (foldS (fun s x => programDone x.nsid x.lba s) s.flash.staging s))

/-- Rounds that waiting writes can take. -/
def waitingBlocks (s : State) : Nat := sumBy (fun w => w.blocks.length + 1) s.flash.waiting

/-- Steps 1 to 3 (log 61, DEDUCED). -/
def stopWork (c : Cmd) (s : State) : State :=
  let s := { s with dev := { s.dev with stopFetch := true } }
  let s := flushJournal (drainWrites (waitingBlocks s) s)
  let s := setCmd c.id (fun x => { x with begun := true }) s
  cancelAll ((s.cmds.filter (fun t => t.id != c.id)).map (·.id)) s

/-- A reset of kind 0 or 1: once every other command has completed, its own completion follows, and the reset 100 µs
later. -/
def orderReset (k : ResetKind) (c : Cmd) (s : State) : State :=
  if !c.begun && s.sec.update.isSome then conflictDevice c s
  else
    let s := if c.begun then s else stopWork c s
    if s.cmds.all (fun t => t.id == c.id || t.phase == .committed) then
      finish c {} { s with dev := { s.dev with pendingReset := some (k, s.now) } }
    else s

/-- DEVICE_RESET kind 0 (R512). -/
def execDeviceResetCold (cmd : Nat) (s : State) : Host.Outcome State Fault Refusal :=
  .next (runCmd cmd 0x0F0D (fun c s => if c.arg 0 1 = 0 then orderReset .cold c s else s) s)

/-- DEVICE_RESET kind 1 (R512). -/
def execDeviceResetEngine (cmd : Nat) (s : State) : Host.Outcome State Fault Refusal :=
  .next (runCmd cmd 0x0F0D (fun c s => if c.arg 0 1 = 1 then orderReset .engine c s else s) s)

/-- Whether the scope of SERVICE holds an island (R450). -/
def inScope (v : Service) (clk : Nat) : Bool :=
  islandClock clk && (v.scope.isEmpty || v.scope.contains (BitVec.ofNat 16 clk))

/-- A self-test of an island, with the number of the first test that fails; it is held in P3 (R454; log 62, DEDUCED). -/
def testIsland (failing : Option Nat) (c : Cmd) (s : State) : State :=
  match s.sec.service with
  | none => conflictDevice c s
  | some v =>
    if s.dev.asleep || s.dev.drowsy then s
    else if !inScope v c.imm then badField c 56 0 s
    else match failing with
    | none => finish c {} s
    | some n => finish c { status := .selfTestFailed, detail := n } s

/-- DEVICE_RESET kind 2 (R452, R512). -/
def execIslandTest (cmd : Nat) (failing : Option Nat) (s : State) : Host.Outcome State Fault Refusal :=
  .next (runCmd cmd 0x0F0D (fun c s => if c.arg 0 1 = 2 then testIsland failing c s else s) s)

end Sys2Proof.Machine
end

