-- ==== Sys2Proof/Machine/Service.lean ====
section
/-! DEFINITION. SERVICE: the token, the islands in its scope that leave and come back, the whole device (R450 to R452).
-/

namespace Sys2Proof.Machine

/-! ## The token (R450) -/

def tokenSigned : Nat := 160
def tokenLength : Nat := 5765

/-- The island identifiers of a token's scope. -/
def tokenScope (t : List Byte) : List Nat := (List.range (field t 28 2)).map (fun i => field t (32 + 2 * i) 2)

/-- Whether the device accepts a token: its length, its layout, its device, its counter and its signature (log 53,
DEDUCED). -/
def tokenOk (s : State) (t : List Byte) : Bool :=
  t.length == tokenLength && field t 0 4 == 0x4B535646 && zeroAt t 4 4 && zeroAt t 30 2
    && field t 8 16 == Config.uniqueId.toNat && field t 24 4 == s.sec.serviceCounter.toNat
    && field t 28 2 ≤ 64 && (tokenScope t).all islandClock
    && zeroAt t (32 + 2 * field t 28 2) (128 - 2 * field t 28 2)
    && Config.sigValid 2 Config.serviceKey (t.take tokenSigned) (t.drop tokenSigned)

/-! ## Step 2: an island leaves (R451, R481 to R484) -/

/-- Channels of a course in scope that hold homes, and spares out of scope that can take them. -/
def scopeActive (s : State) (scope : List ClockId) (c : Nat) : List (Fin 96) :=
  (List.finRange 96).filter (fun h => h.val / 24 == c && scope.contains (channelClk h) && channelAtRole s h == .active)

def sparesLeft (s : State) (scope : List ClockId) (c : Nat) : List (Fin 96) :=
  (List.finRange 96).filter (fun h => h.val / 24 == c && !scope.contains (channelClk h)
    && channelAtRole s h == .spare && islandUp s (channelClk h))

/-- Why a scope cannot leave: too few spares, a course left without arrays or without tiles. -/
def scopeFault (s : State) (scope : List ClockId) : Option Status :=
  if (List.range 4).any (fun c => (sparesLeft s scope c).length < (scopeActive s scope c).length) then some .noSpare
  else if (List.finRange 4).any (fun c => !scope.contains (fabricClk c) &&
      (!(arraysUp s c).isEmpty && (arraysUp s c).all (fun a => scope.contains (arrayClk a))
        || !(tilesUp s c).isEmpty && (tilesUp s c).all (fun t => scope.contains (tileClk t)))) then some .lastInCourse
  else none

/-- An island begins to leave at its next step boundary, for a SERVICE_ENTER. -/
def stepAside (clk : ClockId) (c : Cmd) (s : State) : State :=
  setIsland clk (fun i => { i with leaving := true, leaver := some c.id }) s

/-- A course whose fabric island is in scope: drained as for retirement, and free of homes. -/
def fabricAside (co : Fin 4) (c : Cmd) (s : State) : Except Status State :=
  if (otherCourses s co).isEmpty then .error .islandInUse
  else
    let s := stepAside (fabricClk co) c s
    if courseBusy s co then .ok s
    else match (if islandUp s (storeClk co) then moveStore co s else some s) with
    | none => .error .moveNoRoom
    | some s => if (homedOn s co).size ≠ 0 then .error .islandInUse else .ok (standAside (fabricClk co) (rehome co s))

/-- One event of an island on its way out of service; an error where it cannot leave (log 58, DEDUCED). -/
def takeAside (c : Cmd) (clk : ClockId) (s : State) : Except Status State :=
  if !islandUp s clk then .ok s
  else match islandName clk with
  | none | some .root => .ok s
  | some (.array a) => .ok (leaveIslands (courseOfArray a) (stepAside clk c s))
  | some (.tile t) => .ok (leaveIslands (courseOfTile t) (stepAside clk c s))
  | some (.store co) => match moveStore co s with
    | none => .error .moveNoRoom
    | some s => .ok (standAside clk s)
  | some (.fabric co) => fabricAside co c s
  | some (.channel ch) => match channelAtRole s ch with
    | .spare => .ok (standAside clk s)
    | .active =>
      if (evacuatingIn s (ch.val / 24)).isSome then .ok s
      else match spareOf s (ch.val / 24) with
      | none => .error .noSpare
      | some r => .ok (startEvacuation ch r 3 none s)
    | _ => .ok s
  | some (.port p) =>
    let o := look s.host.ports (otherPort p)
    let leave := fun (s : State) => standAside clk (if (look s.host.ports p).link then linkDown p s else s)
    if p ≠ s.host.primary then .ok (leave s)
    else if o.link && !o.retired then .ok (leave (failover s))
    else .error .islandInUse
  | some (.flash f) =>
    if drainFits s (flashDies s f 0) then .ok (standAside clk (drainDies (flashDies s f 0) s)) else .error .moveNoRoom

/-- Spares in scope go first, so that no channel is evacuated to them. -/
def scopeOrder (s : State) (scope : List ClockId) : List ClockId :=
  let spare := fun (clk : ClockId) => match islandName clk with
    | some (.channel ch) => channelAtRole s ch == .spare
    | _ => false
  scope.filter spare ++ scope.filter (fun k => !spare k)

def takeAll (c : Cmd) : List ClockId → State → Except Status State
  | [], s => .ok s
  | k :: ks, s => match takeAside c k s with
    | .error e => .error e
    | .ok s => takeAll c ks s

/-! ## Step 3: what the islands hold becomes zero -/

/-- Accumulators, staging, tile SRAM, query slots of islands. -/
def clearIsland (clk : ClockId) (s : State) : State :=
  match islandName clk with
  | some (.array a) => setArray a (fun r => dropGrid { r with staged := [], window := [] }) s
  | some (.tile t) => { s with eng := { s.eng with tiles := adj s.eng.tiles t (fun r => { r with masks := [] }) } }
  | some (.channel ch) => { s with eng := { s.eng with slots := s.eng.slots.filter (fun q => q.1.1 != 64 + ch.val) } }
  | some (.store c) => { s with eng := { s.eng with slots := s.eng.slots.filter (fun q => q.1.1 != 160 + c.val) } }
  | _ => s

def clearScope (scope : List ClockId) (s : State) : State := foldS (fun s k => clearIsland k s) scope s

/-! ## Entry of a scope of islands -/

/-- The entry ends without SERVICE: islands that had left come back. -/
def giveUp (c : Cmd) (st : Status) (s : State) : State := fail c st 0 (returnIslands s)

/-- Islands leave; when the last has left, they are cleared, and SERVICE begins. -/
def enterScope (c : Cmd) (s : State) : State :=
  match takeAll c (scopeOrder s c.scope) s with
  | .error st => giveUp c st s
  | .ok s =>
    if c.scope.any (islandUp s) then s
    else finish c {} { clearScope c.scope s with sec := { s.sec with service := some { scope := c.scope } } }

/-! ## Entry of the whole device -/

/-- Every session but the command's closes, and every other command of its session ends. -/
def closeOthers (c : Cmd) (s : State) : State :=
  let s := foldS (fun s x => if x.1 = c.sid ∨ x.2.state = .closing then s else beginClose x.1 (some c.id) s) s.sessions s
  cancelAll ((s.cmds.filter (fun t => t.id != c.id && t.sid == c.sid)).map (·.id)) s

/-- On-chip SRAM and LPDDR6 are cleared; no object is left. Data keys are unloaded while SERVICE lasts. -/
def clearDevice (s : State) : State :=
  let s := flushJournal (drainWrites (waitingBlocks s) s)
  { s with obj := {}, eng := { channels := s.eng.channels } }

/-- SERVICE begins when no other session and no other command is left (log 59, DEDUCED). -/
def enterWhole (c : Cmd) (s : State) : State :=
  if s.sessions.all (fun x => x.1 == c.sid) && s.cmds.all (fun t => t.id == c.id) then
    let s := clearDevice s
    finish c {} { s with sec := { s.sec with service := some {} } }
  else s

/-! ## SERVICE_ENTER (R450, R451) -/

/-- A token that is accepted: its counter, then its scope. -/
def acceptToken (t : List Byte) (c : Cmd) (s : State) : State :=
  let bytes := slice t 32 (2 * field t 28 2)
  let c := { c with begun := true, template := bytes }
  let s := setCmd c.id (fun x => { x with begun := true, template := bytes })
    { s with sec := { s.sec with serviceCounter := s.sec.serviceCounter + 1 } }
  if c.scope.isEmpty then enterWhole c (closeOthers c s)
  else match scopeFault s c.scope with
  | some st => giveUp c st s
  | none => enterScope c s

def enterService (token : Input) (c : Cmd) (s : State) : State :=
  if c.begun then (if c.scope.isEmpty then enterWhole c s else enterScope c s)
  else if s.sec.service.isSome || s.cmds.any (fun t => t.op == 0x0F0C && t.begun) then conflictDevice c s
  else withInput c token (fun t s => if c.bdLen 0 = tokenLength ∧ tokenOk s t then acceptToken t c s else fail c .tokenRejected 0 s) s

/-- SERVICE_ENTER with a token. -/
def execServiceEnter (cmd : Nat) (token : Input) (s : State) : Host.Outcome State Fault Refusal :=
  .next (runCmd cmd 0x0F0C (fun c s => if c.bdLen 0 = 0 then s else enterService token c s) s)

/-! ## SERVICE_LEAVE (R452) -/

/-- Islands are cleared again and serve; the whole device is reset. -/
def leaveService (c : Cmd) (s : State) : State :=
  match s.sec.service with
  | none => conflictDevice c s
  | some v =>
    if v.scope.isEmpty then
      let s := finish c {} (cancelAll ((s.cmds.filter (fun t => t.id != c.id)).map (·.id)) s)
      { s with dev := { s.dev with pendingReset := some (.cold, s.now), stopFetch := true } }
    else
      let s := returnIslands (clearScope v.scope s)
      finish c {} (openAll { s with sec := { s.sec with service := none } })

/-- SERVICE_ENTER with a token of length 0. -/
def execServiceLeave (cmd : Nat) (s : State) : Host.Outcome State Fault Refusal :=
  .next (runCmd cmd 0x0F0C (fun c s => if c.bdLen 0 = 0 then leaveService c s else s) s)

end Sys2Proof.Machine
end

