-- ==== Sys2Proof/Machine/Sideband.lean ====
section
/-! DEFINITION. The SMBus endpoint: MCTP control, PLDM sensors, alert response (R538, R539). -/

namespace Sys2Proof.Machine

/-- The endpoint answers while the management root is powered: in start-up, stopped, in service and in HOLD. -/
def answers (s : State) : Bool := s.dev.stage != .off

/-- A reply on the SMBus: the message's kind and its values (log 51, DESIGN CHOICE). -/
def reply (kind : Nat) (vs : List Int) (s : State) : State := { s with out := s.out ++ [.smbus (Config.smbusReply kind vs)] }

/-! ## MCTP_CONTROL -/

/-- The bus owner assigns the endpoint identifier. -/
def assignEid (eid : Byte) (s : State) : State := reply 0 [eid.toNat] { s with smb := { s.smb with eid } }

def execMctpControl (eid : Byte) (s : State) : Host.Outcome State Fault Refusal :=
  .next (if answers s then assignEid eid s else s)

/-! ## PLDM_MESSAGE -/

/-- Discovery, a sensor's value, a threshold, the event receiver; any other message is discarded. -/
def pldm (m : Pldm) (s : State) : State :=
  match m with
  | .discover => reply 1 [] s
  | .readSensor n => match sensor s n with
    | some v => reply 2 [n, v] s
    | none => reply 3 [n] s
  | .setThreshold n v =>
    if (sensor s n).isSome then reply 4 [n, v] { s with smb := { s.smb with thresholds := put s.smb.thresholds n v } }
    else reply 3 [n] s
  | .setReceiver e => reply 5 [e.toNat] { s with smb := { s.smb with receiver := some e } }
  | .other => s

def execPldmMessage (message : Pldm) (s : State) : Host.Outcome State Fault Refusal :=
  .next (if answers s then pldm message s else s)

/-! ## ALERT_RESPONSE -/

/-- The device's 7-bit SMBus address. -/
def smbAddress (s : State) : Nat := 0x58 + s.dev.straps.smbAddr.toNat

/-- While ALERT_N is asserted, the Alert Response Address returns this device's address, and ALERT_N clears. -/
def alertResponse (s : State) : State :=
  reply 6 [smbAddress s] { s with pins := { s.pins with alert := false } }

def execAlertResponse (s : State) : Host.Outcome State Fault Refusal :=
  .next (if answers s && s.pins.alert then alertResponse s else s)

end Sys2Proof.Machine
end

