-- ==== Sys2Proof/Machine/Dispatch.lean ====
section
/-! DEFINITION. One arm per command: its meaning over everything but the queue. -/

namespace Sys2Proof.Machine

def exec (i : Instr) (s : State) : Host.Outcome State Fault Refusal :=
  match i with
  | .registerWrite port fn offset wide value => Sys2Proof.Machine.execRegisterWrite port fn offset wide value s
  | .functionEnable port fn value => Sys2Proof.Machine.execFunctionEnable port fn value s
  | .quiesce port fn value => Sys2Proof.Machine.execQuiesce port fn value s
  | .pfEventClear port fn bits => Sys2Proof.Machine.execPfEventClear port fn bits s
  | .ringEnable port fn ring sqLog2 cqLog2 vector => Sys2Proof.Machine.execRingEnable port fn ring sqLog2 cqLog2 vector s
  | .ringDisable port fn ring => Sys2Proof.Machine.execRingDisable port fn ring s
  | .ringIdle port fn ring => Sys2Proof.Machine.execRingIdle port fn ring s
  | .pfSqTail port fn ring tail => Sys2Proof.Machine.execPfSqTail port fn ring tail s
  | .pfCqHead port fn ring head => Sys2Proof.Machine.execPfCqHead port fn ring head s
  | .commandFetch port fn ring slots lists => Sys2Proof.Machine.execCommandFetch port fn ring slots lists s
  | .admissionDispatch course => Sys2Proof.Machine.execAdmissionDispatch course s
  | .interruptCoalesceTimer port fn ring => Sys2Proof.Machine.execInterruptCoalesceTimer port fn ring s
  | .outputWriteFailed target => Sys2Proof.Machine.execOutputWriteFailed target s
  | .nop cmd => Sys2Proof.Machine.execNop cmd s
  | .sessionChallenge cmd => Sys2Proof.Machine.execSessionChallenge cmd s
  | .adoptionChallenge cmd => Sys2Proof.Machine.execAdoptionChallenge cmd s
  | .sessionOpen cmd => Sys2Proof.Machine.execSessionOpen cmd s
  | .sessionClose cmd => Sys2Proof.Machine.execSessionClose cmd s
  | .sessionCloseFinish sid => Sys2Proof.Machine.execSessionCloseFinish sid s
  | .sessionAdopt cmd => Sys2Proof.Machine.execSessionAdopt cmd s
  | .stateQuery cmd => Sys2Proof.Machine.execStateQuery cmd s
  | .cancelCommand cmd => Sys2Proof.Machine.execCancelCommand cmd s
  | .cancelObject cmd => Sys2Proof.Machine.execCancelObject cmd s
  | .nonceExpiry sid => Sys2Proof.Machine.execNonceExpiry sid s
  | .portLinkDown port => Sys2Proof.Machine.execPortLinkDown port s
  | .portLinkUp port => Sys2Proof.Machine.execPortLinkUp port s
  | .sessionHoldExpiry sid => Sys2Proof.Machine.execSessionHoldExpiry sid s
  | .mgmtFailover => Sys2Proof.Machine.execMgmtFailover s
  | .modelLoad cmd image => Sys2Proof.Machine.execModelLoad cmd image s
  | .modelUnload cmd => Sys2Proof.Machine.execModelUnload cmd s
  | .adapterLoad cmd image => Sys2Proof.Machine.execAdapterLoad cmd image s
  | .adapterRetire cmd => Sys2Proof.Machine.execAdapterRetire cmd s
  | .modelQuery cmd => Sys2Proof.Machine.execModelQuery cmd s
  | .seqCreate cmd course stops => Sys2Proof.Machine.execSeqCreate cmd course stops s
  | .seqAppend cmd input => Sys2Proof.Machine.execSeqAppend cmd input s
  | .seqGenerate cmd => Sys2Proof.Machine.execSeqGenerate cmd s
  | .carryFlushDone entry => Sys2Proof.Machine.execCarryFlushDone entry s
  | .seqRebind cmd => Sys2Proof.Machine.execSeqRebind cmd s
  | .seqSwapOut cmd => Sys2Proof.Machine.execSeqSwapOut cmd s
  | .seqRelease cmd => Sys2Proof.Machine.execSeqRelease cmd s
  | .seqQuery cmd => Sys2Proof.Machine.execSeqQuery cmd s
  | .retrieve cmd => Sys2Proof.Machine.execRetrieve cmd s
  | .rerank cmd set => Sys2Proof.Machine.execRerank cmd set s
  | .pack cmd set => Sys2Proof.Machine.execPack cmd set s
  | .retrieveRerankPack cmd => Sys2Proof.Machine.execRetrieveRerankPack cmd s
  | .templateLoad cmd image => Sys2Proof.Machine.execTemplateLoad cmd image s
  | .templateReplace cmd image => Sys2Proof.Machine.execTemplateReplace cmd image s
  | .templateFree cmd => Sys2Proof.Machine.execTemplateFree cmd s
  | .profileSet cmd => Sys2Proof.Machine.execProfileSet cmd s
  | .indexCreate cmd config => Sys2Proof.Machine.execIndexCreate cmd config s
  | .indexInsert cmd records => Sys2Proof.Machine.execIndexInsert cmd records s
  | .indexCommit cmd => Sys2Proof.Machine.execIndexCommit cmd s
  | .indexDelete cmd identifiers => Sys2Proof.Machine.execIndexDelete cmd identifiers s
  | .indexRepairStart cmd => Sys2Proof.Machine.execIndexRepairStart cmd s
  | .indexRepairStatus cmd => Sys2Proof.Machine.execIndexRepairStatus cmd s
  | .indexQuery cmd => Sys2Proof.Machine.execIndexQuery cmd s
  | .indexDrop cmd => Sys2Proof.Machine.execIndexDrop cmd s
  | .repairAutoStart slot => Sys2Proof.Machine.execRepairAutoStart slot s
  | .repairSweepEnd slot => Sys2Proof.Machine.execRepairSweepEnd slot s
  | .nodeDrainFree slot => Sys2Proof.Machine.execNodeDrainFree slot s
  | .regionPlacement slot region => Sys2Proof.Machine.execRegionPlacement slot region s
  | .corpusWrite cmd records => Sys2Proof.Machine.execCorpusWrite cmd records s
  | .corpusRead cmd identifiers => Sys2Proof.Machine.execCorpusRead cmd identifiers s
  | .corpusDelete cmd identifiers => Sys2Proof.Machine.execCorpusDelete cmd identifiers s
  | .tierMove cmd => Sys2Proof.Machine.execTierMove cmd s
  | .moveQuery cmd => Sys2Proof.Machine.execMoveQuery cmd s
  | .tableCreate cmd => Sys2Proof.Machine.execTableCreate cmd s
  | .rowsWrite cmd records => Sys2Proof.Machine.execRowsWrite cmd records s
  | .lookup cmd indices weights bags => Sys2Proof.Machine.execLookup cmd indices weights bags s
  | .tableQuery cmd => Sys2Proof.Machine.execTableQuery cmd s
  | .tableDrop cmd => Sys2Proof.Machine.execTableDrop cmd s
  | .vocabLoad cmd image => Sys2Proof.Machine.execVocabLoad cmd image s
  | .vocabUnload cmd => Sys2Proof.Machine.execVocabUnload cmd s
  | .grammarLoad cmd image => Sys2Proof.Machine.execGrammarLoad cmd image s
  | .grammarUnload cmd => Sys2Proof.Machine.execGrammarUnload cmd s
  | .tokenize cmd text => Sys2Proof.Machine.execTokenize cmd text s
  | .detokenize cmd tokens => Sys2Proof.Machine.execDetokenize cmd tokens s
  | .scanStart cmd => Sys2Proof.Machine.execScanStart cmd s
  | .scanSuspend cmd bytes => Sys2Proof.Machine.execScanSuspend cmd bytes s
  | .scanResume cmd => Sys2Proof.Machine.execScanResume cmd s
  | .scanQuery cmd => Sys2Proof.Machine.execScanQuery cmd s
  | .scanContextGrant handle unit => Sys2Proof.Machine.execScanContextGrant handle unit s
  | .scanEnd handle bytes bad => Sys2Proof.Machine.execScanEnd handle bytes bad s
  | .mgmtStatus cmd => Sys2Proof.Machine.execMgmtStatus cmd s
  | .epochMarker cmd => Sys2Proof.Machine.execEpochMarker cmd s
  | .tenantSet cmd key quotas => Sys2Proof.Machine.execTenantSet cmd key quotas s
  | .tenantRevoke cmd => Sys2Proof.Machine.execTenantRevoke cmd s
  | .tenantRevokeFinish tenant => Sys2Proof.Machine.execTenantRevokeFinish tenant s
  | .attest cmd => Sys2Proof.Machine.execAttest cmd s
  | .attestKeyGenerate => Sys2Proof.Machine.execAttestKeyGenerate s
  | .imageWrite cmd image => Sys2Proof.Machine.execImageWrite cmd image s
  | .imageActivate cmd => Sys2Proof.Machine.execImageActivate cmd s
  | .firmwareUpdate cmd image => Sys2Proof.Machine.execFirmwareUpdate cmd image s
  | .islandFirmwareLoaded clk pass => Sys2Proof.Machine.execIslandFirmwareLoaded clk pass s
  | .islandRetire cmd => Sys2Proof.Machine.execIslandRetire cmd s
  | .channelRetrain cmd => Sys2Proof.Machine.execChannelRetrain cmd s
  | .channelActivateSpare cmd => Sys2Proof.Machine.execChannelActivateSpare cmd s
  | .powerCap cmd => Sys2Proof.Machine.execPowerCap cmd s
  | .powerEnterP3 cmd => Sys2Proof.Machine.execPowerEnterP3 cmd s
  | .powerLeaveP3 cmd => Sys2Proof.Machine.execPowerLeaveP3 cmd s
  | .telemetryRead cmd => Sys2Proof.Machine.execTelemetryRead cmd s
  | .faultLogRead cmd => Sys2Proof.Machine.execFaultLogRead cmd s
  | .serviceEnter cmd token => Sys2Proof.Machine.execServiceEnter cmd token s
  | .serviceLeave cmd => Sys2Proof.Machine.execServiceLeave cmd s
  | .deviceResetCold cmd => Sys2Proof.Machine.execDeviceResetCold cmd s
  | .deviceResetEngine cmd => Sys2Proof.Machine.execDeviceResetEngine cmd s
  | .islandTest cmd failing => Sys2Proof.Machine.execIslandTest cmd failing s
  | .resetStart straps => Sys2Proof.Machine.execResetStart straps s
  | .stepBuild course lane jobs => Sys2Proof.Machine.execStepBuild course lane jobs s
  | .fillWaitExpiry course lane jobs => Sys2Proof.Machine.execFillWaitExpiry course lane jobs s
  | .stepCommit course lane data => Sys2Proof.Machine.execStepCommit course lane data s
  | .maskJobDone tile => Sys2Proof.Machine.execMaskJobDone tile s
  | .passCommit array busy => Sys2Proof.Machine.execPassCommit array busy s
  | .arrayFault array kind => Sys2Proof.Machine.execArrayFault array kind s
  | .selectionUnitFault tile => Sys2Proof.Machine.execSelectionUnitFault tile s
  | .throttlePause island => Sys2Proof.Machine.execThrottlePause island s
  | .throttleResume island => Sys2Proof.Machine.execThrottleResume island s
  | .sequenceRestore entry course => Sys2Proof.Machine.execSequenceRestore entry course s
  | .sequenceEvict course => Sys2Proof.Machine.execSequenceEvict course s
  | .sequenceRelocate entry course => Sys2Proof.Machine.execSequenceRelocate entry course s
  | .slotLoad msg => Sys2Proof.Machine.execSlotLoad msg s
  | .hopReq msg => Sys2Proof.Machine.execHopReq msg s
  | .hopAck msg => Sys2Proof.Machine.execHopAck msg s
  | .hopFwd msg => Sys2Proof.Machine.execHopFwd msg s
  | .pair msg => Sys2Proof.Machine.execPair msg s
  | .resolve msg => Sys2Proof.Machine.execResolve msg s
  | .entry msg => Sys2Proof.Machine.execEntry msg s
  | .slotFree msg => Sys2Proof.Machine.execSlotFree msg s
  | .coldBatchExpiry slot page lost => Sys2Proof.Machine.execColdBatchExpiry slot page lost s
  | .migrationInterval => Sys2Proof.Machine.execMigrationInterval s
  | .moveStart slot row crcOk => Sys2Proof.Machine.execMoveStart slot row crcOk s
  | .rowDone slot row forwarded => Sys2Proof.Machine.execRowDone slot row forwarded s
  | .moveUnitStart move => Sys2Proof.Machine.execMoveUnitStart move s
  | .moveUnitVerify move result => Sys2Proof.Machine.execMoveUnitVerify move result s
  | .moveOldHomeRelease move => Sys2Proof.Machine.execMoveOldHomeRelease move s
  | .evacuationMapSwitch course => Sys2Proof.Machine.execEvacuationMapSwitch course s
  | .evacuationDrainDone course => Sys2Proof.Machine.execEvacuationDrainDone course s
  | .channelTrainingDone channel pass => Sys2Proof.Machine.execChannelTrainingDone channel pass s
  | .channelTestDone channel pass => Sys2Proof.Machine.execChannelTestDone channel pass s
  | .autoRetrain channel => Sys2Proof.Machine.execAutoRetrain channel s
  | .lpddr6PatrolScrub channel found => Sys2Proof.Machine.execLpddr6PatrolScrub channel found s
  | .channelCalibration channel driftPs retuneOk => Sys2Proof.Machine.execChannelCalibration channel driftPs retuneOk s
  | .refreshTempPoll package range => Sys2Proof.Machine.execRefreshTempPoll package range s
  | .sramPatrol clk corrected poisoned => Sys2Proof.Machine.execSramPatrol clk corrected poisoned s
  | .nvmeDeleteIoSq ctrl cid qid => Sys2Proof.Machine.execNvmeDeleteIoSq ctrl cid qid s
  | .nvmeDeleteIoCq ctrl cid qid => Sys2Proof.Machine.execNvmeDeleteIoCq ctrl cid qid s
  | .nvmeCreateIoSq ctrl cid qid size cqid => Sys2Proof.Machine.execNvmeCreateIoSq ctrl cid qid size cqid s
  | .nvmeCreateIoCq ctrl cid qid size vector => Sys2Proof.Machine.execNvmeCreateIoCq ctrl cid qid size vector s
  | .nvmeGetLogPage ctrl cid page nsid => Sys2Proof.Machine.execNvmeGetLogPage ctrl cid page nsid s
  | .nvmeIdentify ctrl cid cns nsid => Sys2Proof.Machine.execNvmeIdentify ctrl cid cns nsid s
  | .nvmeAbort ctrl cid sqid target inQueue => Sys2Proof.Machine.execNvmeAbort ctrl cid sqid target inQueue s
  | .nvmeSetFeatures ctrl cid feature value => Sys2Proof.Machine.execNvmeSetFeatures ctrl cid feature value s
  | .nvmeGetFeatures ctrl cid feature => Sys2Proof.Machine.execNvmeGetFeatures ctrl cid feature s
  | .nvmeAsyncEventRequest ctrl cid => Sys2Proof.Machine.execNvmeAsyncEventRequest ctrl cid s
  | .namespaceCreate ctrl cid request => Sys2Proof.Machine.execNamespaceCreate ctrl cid request s
  | .namespaceDelete ctrl cid nsid => Sys2Proof.Machine.execNamespaceDelete ctrl cid nsid s
  | .namespaceAttachment ctrl cid nsid attach controllers => Sys2Proof.Machine.execNamespaceAttachment ctrl cid nsid attach controllers s
  | .formatNvm ctrl cid nsid ses => Sys2Proof.Machine.execFormatNvm ctrl cid nsid ses s
  | .getLbaStatus ctrl cid nsid slba => Sys2Proof.Machine.execGetLbaStatus ctrl cid nsid slba s
  | .nvmeFlush ctrl sq cid nsid => Sys2Proof.Machine.execNvmeFlush ctrl sq cid nsid s
  | .nvmeWrite ctrl sq cid nsid slba blocks poisoned => Sys2Proof.Machine.execNvmeWrite ctrl sq cid nsid slba blocks poisoned s
  | .nvmeRead ctrl sq cid nsid slba count => Sys2Proof.Machine.execNvmeRead ctrl sq cid nsid slba count s
  | .writeZeroes ctrl sq cid nsid slba count => Sys2Proof.Machine.execWriteZeroes ctrl sq cid nsid slba count s
  | .datasetManagement ctrl sq cid nsid ranges => Sys2Proof.Machine.execDatasetManagement ctrl sq cid nsid ranges s
  | .nvmeVerify ctrl sq cid nsid slba count => Sys2Proof.Machine.execNvmeVerify ctrl sq cid nsid slba count s
  | .nvmeControllerReset ctrl => Sys2Proof.Machine.execNvmeControllerReset ctrl s
  | .stagingAdmit => Sys2Proof.Machine.execStagingAdmit s
  | .flashProgramDone nsid lba failed => Sys2Proof.Machine.execFlashProgramDone nsid lba failed s
  | .bandCloseVerify band failing => Sys2Proof.Machine.execBandCloseVerify band failing s
  | .foldStart => Sys2Proof.Machine.execFoldStart s
  | .gcStart => Sys2Proof.Machine.execGcStart s
  | .journalFlush => Sys2Proof.Machine.execJournalFlush s
  | .closedBandRead band soft => Sys2Proof.Machine.execClosedBandRead band soft s
  | .flashDieFail die => Sys2Proof.Machine.execFlashDieFail die s
  | .mapScanDone => Sys2Proof.Machine.execMapScanDone s
  | .flashCalibration channel => Sys2Proof.Machine.execFlashCalibration channel s
  | .pfailAssert => Sys2Proof.Machine.execPfailAssert s
  | .holdExit straps => Sys2Proof.Machine.execHoldExit straps s
  | .supplyFall => Sys2Proof.Machine.execSupplyFall s
  | .powerOn board => Sys2Proof.Machine.execPowerOn board s
  | .startupReady failed => Sys2Proof.Machine.execStartupReady failed s
  | .namespaceMapRebuilt => Sys2Proof.Machine.execNamespaceMapRebuilt s
  | .pwrOkLoss => Sys2Proof.Machine.execPwrOkLoss s
  | .sysReset => Sys2Proof.Machine.execSysReset s
  | .referenceLost => Sys2Proof.Machine.execReferenceLost s
  | .perst port => Sys2Proof.Machine.execPerst port s
  | .flrPf0 port => Sys2Proof.Machine.execFlrPf0 port s
  | .flrVf port vf => Sys2Proof.Machine.execFlrVf port vf s
  | .governorSample watts => Sys2Proof.Machine.execGovernorSample watts s
  | .governorWindow => Sys2Proof.Machine.execGovernorWindow s
  | .pauseDutyInterval => Sys2Proof.Machine.execPauseDutyInterval s
  | .thermalReport clk temp => Sys2Proof.Machine.execThermalReport clk temp s
  | .idleTimeout => Sys2Proof.Machine.execIdleTimeout s
  | .quoinLockstepMismatch straps => Sys2Proof.Machine.execQuoinLockstepMismatch straps s
  | .supervisorLockstepMismatch course => Sys2Proof.Machine.execSupervisorLockstepMismatch course s
  | .heartbeatMiss clk => Sys2Proof.Machine.execHeartbeatMiss clk s
  | .islandFaultReport clk report => Sys2Proof.Machine.execIslandFaultReport clk report s
  | .faultLogSave => Sys2Proof.Machine.execFaultLogSave s
  | .mctpControl eid => Sys2Proof.Machine.execMctpControl eid s
  | .pldmMessage message => Sys2Proof.Machine.execPldmMessage message s
  | .alertResponse => Sys2Proof.Machine.execAlertResponse s
  | .perstRelease port => Sys2Proof.Machine.execPerstRelease port s
  | .sysResetRelease straps => Sys2Proof.Machine.execSysResetRelease straps s
  | .nvmeSqTailDoorbell ctrl qid tail => Sys2Proof.Machine.execNvmeSqTailDoorbell ctrl qid tail s
  | .nvmeCqHeadDoorbell ctrl qid head => Sys2Proof.Machine.execNvmeCqHeadDoorbell ctrl qid head s
  | .nvmeControllerEnable ctrl asqs acqs => Sys2Proof.Machine.execNvmeControllerEnable ctrl asqs acqs s
  | .flashEraseDone band failed => Sys2Proof.Machine.execFlashEraseDone band failed s
  | .flashReadDone nsid lba outcome => Sys2Proof.Machine.execFlashReadDone nsid lba outcome s

end Sys2Proof.Machine
end

