-- ==== Sys2Proof/Safety.lean ====
section
/-! DEFINITION. What a good state of the block is, in the terms that the claims use. -/

namespace Sys2Proof.Machine

/-- A step of the machine answers a next state. -/
def Next (o : Host.Outcome State Fault Refusal) (t : State) : Prop := o = .next t

/-! ## Parameters in their ranges -/

/-- The scheduler parameters lie in the ranges of R187. -/
def schedInRange (p : SchedParams) : Prop :=
  p.fillWaitUs ≤ 10000 ∧ p.fillGroups ≤ 64 ∧ 1 ≤ p.starveSteps ∧ p.starveSteps ≤ 255 ∧ 32 ≤ p.chunk ∧ p.chunk ≤ 2048
    ∧ p.chunk % 32 = 0 ∧ 1 ≤ p.maxGroups ∧ p.maxGroups ≤ 128 ∧ 1 ≤ p.rlaneMaxReq ∧ p.rlaneMaxReq ≤ 64
    ∧ 10 ≤ p.rlaneArrayPct ∧ p.rlaneArrayPct ≤ 90 ∧ 10 ≤ p.rlanePoolPct ∧ p.rlanePoolPct ≤ 50
    ∧ 6 ≤ p.threadShift ∧ p.threadShift ≤ 14 ∧ 1 ≤ p.defaultWeight ∧ p.defaultWeight ≤ 65535
    ∧ 16 ≤ p.defaultDepth ∧ p.defaultDepth ≤ 4096

/-- The migration parameters lie in the ranges of R340. -/
def embInRange (p : EmbParams) : Prop :=
  10 ≤ p.intervalMs ∧ p.intervalMs ≤ 10000 ∧ 11 ≤ p.migrateRatio ∧ p.migrateRatio ≤ 100 ∧ p.migrateMax ≤ 65535
    ∧ 4 ≤ p.spareShift ∧ p.spareShift ≤ 10

/-- The LPDDR6 tier's parameters lie in the ranges of R385. -/
def memInRange (p : MemParams) : Prop :=
  p.spares ≤ 2 ∧ p.maxRate ≤ 3 ∧ 5 ≤ p.movePct ∧ p.movePct ≤ 50 ∧ 16 ≤ p.calIntervalMs ∧ p.calIntervalMs ≤ 255
    ∧ 1 ≤ p.scrubHours ∧ p.scrubHours ≤ 168 ∧ p.retrainCe ≤ 65535 ∧ p.swapGb ≤ 65535

/-- The flash tier's parameters lie in the ranges of R423. -/
def flashInRange (p : FlashParams) : Prop :=
  7 ≤ p.opPct ∧ p.opPct ≤ 28 ∧ 8 ≤ p.onebitBlocks ∧ p.onebitBlocks ≤ 64 ∧ 10 ≤ p.foldPct ∧ p.foldPct ≤ 90
    ∧ p.maxRate ≤ 5 ∧ 64 ≤ p.gcStart ∧ p.gcStart ≤ 4096 ∧ 16 ≤ p.gcUrgent ∧ p.gcUrgent ≤ 1024
    ∧ 50 ≤ p.wearGap ∧ p.wearGap ≤ 2000 ∧ 1 ≤ p.flushMs ∧ p.flushMs ≤ 100

/-- The default quotas lie in the ranges of R455. -/
def quotasInRange (q : Quotas) : Prop :=
  1 ≤ q.sessions ∧ q.sessions ≤ 64 ∧ q.sequences ≤ 16384 ∧ q.adapters ≤ 4096 ∧ q.indices ≤ 64 ∧ q.tables ≤ 256
    ∧ q.lpddr6 < 2 ^ 64 ∧ q.flash < 2 ^ 64

/-- The parameters of R493 and R519 lie in their ranges. -/
def sysInRange (p : SysParams) : Prop :=
  1 ≤ p.scanPct ∧ p.scanPct ≤ 50 ∧ 100 ≤ p.sramScrubMs ∧ p.sramScrubMs ≤ 10000 ∧ p.mgmtPort ≤ 2
    ∧ 1 ≤ p.holdS ∧ p.holdS ≤ 600 ∧ 300 ≤ p.powerCapW ∧ p.powerCapW ≤ 620 ∧ 1 ≤ p.idleMs ∧ p.idleMs ≤ 255

/-- The host parameters lie in the ranges of their registers (R44, R45). -/
def hostInRange (p : HostParams) : Prop := p.signal ≤ 15 ∧ p.intCount ≤ 65535 ∧ p.intTimeUs ≤ 65535

/-- Every parameter that the Heleri image sets lies in its range. -/
def paramsInRange (p : Params) : Prop :=
  schedInRange p.sched ∧ embInRange p.emb ∧ memInRange p.mem ∧ flashInRange p.flash ∧ quotasInRange p.quota
    ∧ sysInRange p.sys ∧ hostInRange p.host

/-! ## What only pins, resets and the sideband change -/

/-- The queue, the time, the input pins, the sideband's settings, the state of start-up, and what start-up sampled and
loaded: straps, board, images, parameters. -/
structure Fixed where
  pending : List Instr
  now : Nat
  inputs : Bool × Bool × Bool × Bool
  smb : Sideband
  stage : Stage
  ready : Bool
  cfg : Params
  board : Board
  straps : Straps
  boot : Bool × Bool × Cause × Nat

/-- The same from a device's fields. -/
def fixedDev (q : List Instr) (now : Nat) (i : Bool × Bool × Bool × Bool) (m : Sideband) (stage : Stage) (ready : Bool)
    (cfg : Params) (board : Board) (straps : Straps) (e f : Bool) (g : Cause) (h : Nat) : Fixed :=
  ⟨q, now, i, m, stage, ready, cfg, board, straps, (e, f, g, h)⟩

/-- The input pins. -/
def inputsOf (p : Pins) : Bool × Bool × Bool × Bool := (p.pwrOk, p.sysResetN, p.pfailN, p.reference)

/-- The same from a state's parts. -/
def fixedOf (q : List Instr) (now : Nat) (i : Bool × Bool × Bool × Bool) (m : Sideband) (d : Device) : Fixed :=
  fixedDev q now i m d.stage d.ready d.cfg d.board d.straps d.usedB d.factory d.cause
    d.selfTestRetired

/-- What only pins, resets and the sideband change. -/
def State.fixed (s : State) : Fixed := fixedOf s.pending s.now (inputsOf s.pins) s.smb s.dev

/-! ## Running commands -/

/-- Command `c` of opcode `op`, numbered `id`, runs: it is outstanding in RUNNING, no result of it waits for a commit
point, and no cancel of it is latched (R74, R75). -/
abbrev Runs (s : State) (id op : Nat) (c : Cmd) : Prop :=
  findCmd s id = some c ∧ c.op = op ∧ c.phase = .running ∧ c.result.isNone = true ∧ c.cancel = false

/-- The state but for what a report of a command changes: the trace, the list of outstanding commands, and the
function, ring and vector registers of BAR0. -/
def State.unreported (s : State) : State :=
  { s with out := [], cmds := [], host := { s.host with funcs := [], pairs := [], vecs := [] } }

/-- A ring pair that can take a completion at once: enabled, its port's link in L0, no completion waiting, and room in
the ring (R49). -/
abbrev Takes (s : State) (k : PairKey) : Prop :=
  (pairOf s k).enable = true ∧ (look s.host.ports k.1).link = true
    ∧ (pairOf s k).held.isEmpty = true ∧ hasRoom (pairOf s k) = true

/-! ## The invariant that every step keeps -/

/-- Every parameter lies in its range (R44, R45, R187, R340, R385, R423, R455, R493, R519); READY stands in service and nowhere
else (R44, R501, R515); outside P4 the supplies are good, and outside P4 and HOLD neither reset nor PFAIL_N is asserted
(R502, R531, R533); the reference is there in start-up and in service, and the board's record of it is the pin's (R500,
R517). -/
def InvOf (f : Fixed) : Prop :=
  paramsInRange f.cfg
  ∧ (f.ready = true ↔ f.stage = .service)
  ∧ (f.stage ≠ .off → f.inputs.1 = true)
  ∧ (f.stage = .startup ∨ f.stage = .stopped ∨ f.stage = .service → f.inputs.2.1 = true ∧ f.inputs.2.2.1 = true)
  ∧ f.inputs.2.2.2 = f.board.reference
  ∧ (f.stage = .startup ∨ f.stage = .service → f.board.reference = true)

/-- The invariant of a state. -/
def State.Inv (s : State) : Prop := InvOf s.fixed

/-- The rows that begin or end start-up, HOLD, P4 or a reset, or set what the bus owner of the sideband sets. -/
def changesFixed (i : Instr) : Bool :=
  match i with
  | .powerOn _ | .startupReady _ | .resetStart _ | .pfailAssert | .holdExit _ | .supplyFall | .pwrOkLoss | .sysReset
  | .sysResetRelease _ | .referenceLost | .quoinLockstepMismatch _ | .thermalReport _ _ | .mctpControl _
  | .pldmMessage _ => true
  | _ => false

end Sys2Proof.Machine
end

