-- ==== Sys2Proof/Certificates/Slice0/Obligations.lean ====
section
/-! DEFINITION. The statements about the model, for every state and operand of the kinds that they name. `Runs s id op c`
says that the command numbered `id` is `c`, of opcode `op`, and runs (R74). -/

open Sys2Proof Sys2Proof.Machine

/-- A step takes the command at the front of the queue and runs it on the state with the rest of the queue. -/
def Obligations.StepRunsFrontCommand : Prop :=
  ∀ (c : Instr) (rest : List Instr) (s : State),
    step { s with pending := c :: rest } = exec c { s with pending := rest }

/-- With no command waiting, one cycle of the management clock passes while the device is powered, and nothing else
happens but the count of time in power states (the model's choice, log 3). -/
def Obligations.EmptyQueueTicks : Prop :=
  ∀ s : State, s.pending = [] →
    ∃ t, step s = .next t ∧ (s.dev.stage = .off → t = s)
      ∧ (s.dev.stage ≠ .off → t.now = s.now + 1 ∧ { t with now := s.now, counters := s.counters } = s)

/-- The operation that every KCP row shares leaves the state as it is when its command is not outstanding, waits in
its admission queue, is of another opcode, or has a result that waits for its commit point (log 2). A cancel latched
before the commit point wins (R74, R75). -/
def Obligations.RowsOfRunningCommands : Prop :=
  ∀ (s : State) (id op : Nat) (body : Cmd → State → State),
    (findCmd s id = none → runCmd id op body s = s)
    ∧ (∀ c, findCmd s id = some c →
        (c.phase ≠ .running ∨ c.op ≠ op ∨ c.result.isSome = true) → runCmd id op body s = s)
    ∧ (∀ c, findCmd s id = some c → c.op = op → c.phase = .running → c.result.isNone = true → c.cancel = true →
        ∃ t, runCmd id op body s = t ∧ t = finish c { status := .cancelled, effect := .none } (letGo c s)
          ∧ { t.unreported with obj := s.obj } = s.unreported ∧ (c.holds = false → t.unreported = s.unreported))

/-- The end of a command (R49, R58, R74): its bytes, then the final completion with the fields of R58; it is no longer
outstanding, and nothing else changes but what a report changes. -/
def Obligations.EndOfCommandReports : Prop :=
  ∀ (s : State) (c : Cmd) (r : Result), Takes s c.pairKey → c.failed = none → c.discard = false →
    let p := pairOf s c.pairKey
    let t := finish c r s
    (∃ d more, t.out = (writeAll c r.writes s).out
        ++ .completion c.pairKey.1 c.pairKey.2.1 c.pairKey.2.2 p.cqTail.toNat p.sqHead p.phase d :: more
      ∧ d.commandId = c.hdr.commandId ∧ d.tenant = c.hdr.tenant ∧ d.ring = BitVec.ofNat 16 c.ring ∧ d.final = true
      ∧ d.status = r.status ∧ d.effect = r.effect ∧ d.count = BitVec.ofNat 32 r.count
      ∧ d.value = BitVec.ofNat 64 r.value ∧ d.detail = BitVec.ofNat 32 r.detail)
    ∧ findCmd t c.id = none ∧ t.unreported = s.unreported

/-- Writes of the function registers (R43, R44): each row answers a next state in which only the named bits of that
function have changed. -/
def Obligations.FunctionRegisterWrites : Prop :=
  ∀ (s : State) (port : Fin 2) (fn : Nat), (look s.host.ports port).link = true → fn < 256 →
    fnPresent s port fn = true →
    let f := funcOf s port fn
    let with_ := fun (g : Func) => { s with host := { s.host with funcs := put s.host.funcs (port, fn) g } }
    (∀ e, exec (.functionEnable port fn e) s = .next (with_ { f with enable := e }))
    ∧ (∀ q, exec (.quiesce port fn q) s = .next (with_ { f with quiesce := q }))
    ∧ (∀ bits, exec (.pfEventClear port fn bits) s = .next (with_ { f with event := f.event &&& ~~~bits }))
    ∧ (∀ v : Word64, exec (.registerWrite port fn 0x10 true v) s
        = .next (with_ { f with enable := v.getLsbD 0, quiesce := v.getLsbD 1 }))
    ∧ (∀ v : Word64, exec (.registerWrite port fn 0x20 true v) s
        = .next (with_ { f with event := f.event &&& ~~~(v.truncate 4) }))

/-- A write that arrives over a link out of L0 did not happen (log 55). -/
def Obligations.DownLinkDiscardsWrites : Prop :=
  ∀ (s : State) (port : Fin 2) (fn ring : Nat), (look s.host.ports port).link = false →
    (∀ off w v, exec (.registerWrite port fn off w v) s = .next s)
    ∧ (∀ e, exec (.functionEnable port fn e) s = .next s) ∧ (∀ e, exec (.quiesce port fn e) s = .next s)
    ∧ (∀ b, exec (.pfEventClear port fn b) s = .next s) ∧ (∀ a b c, exec (.ringEnable port fn ring a b c) s = .next s)
    ∧ exec (.ringDisable port fn ring) s = .next s ∧ (∀ t, exec (.pfSqTail port fn ring t) s = .next s)
    ∧ (∀ h, exec (.pfCqHead port fn ring h) s = .next s)

/-- Writes of a ring pair's registers and doorbells through their BAR0 offsets (R42, R43, R45, R46). -/
def Obligations.RingPairRegisterWrites : Prop :=
  ∀ (s : State) (port : Fin 2) (fn ring : Nat) (v : Word64), (look s.host.ports port).link = true → fn < 256 →
    fnPresent s port fn = true → ring < ringPairs fn →
    let p := pairOf s (port, fn, ring)
    let base := 0x1000 + 0x40 * ring
    let bell := (if fn = 0 then 0x10000 else 0x4000) + 8 * ring
    (p.enable = false →
      exec (.registerWrite port fn base true v) s = .next (setPair (port, fn, ring) { p with sqBase := v &&& ~~~0xFFF#64 } s)
      ∧ exec (.registerWrite port fn (base + 8) true v) s
        = .next (setPair (port, fn, ring) { p with cqBase := v &&& ~~~0xFFF#64 } s))
    ∧ (p.enable = true → exec (.registerWrite port fn base true v) s = .next s
      ∧ exec (.registerWrite port fn (base + 8) true v) s = .next s)
    ∧ exec (.registerWrite port fn (base + 0x18) true v) s = .next s
    ∧ exec (.registerWrite port fn (base + 0x20) true v) s
        = .next (if p.enable = true ∧ p.unsignalled ≠ 0
              ∧ ((v >>> 16).truncate 16 = (0 : BitVec 16) ∨ max 1 (v.truncate 16 : BitVec 16).toNat ≤ p.unsignalled)
            then raiseMsix port fn p.vector.toNat (setPair (port, fn, ring)
              { p with count := v.truncate 16, timeUs := (v >>> 16).truncate 16, unsignalled := 0 } s)
            else setPair (port, fn, ring) { p with count := v.truncate 16, timeUs := (v >>> 16).truncate 16 } s)
    ∧ exec (.registerWrite port fn bell true v) s = .next s
    ∧ exec (.registerWrite port fn bell false v) s = exec (.pfSqTail port fn ring (v.truncate 16)) s
    ∧ exec (.registerWrite port fn (bell + 4) false v) s = exec (.pfCqHead port fn ring (v.truncate 16)) s

/-- Enabling and disabling a ring pair (R45, R50, R51). -/
def Obligations.RingEnableAndDisable : Prop :=
  ∀ (s : State) (port : Fin 2) (fn ring sq cq vec : Nat), fn < 256 → fnPresent s port fn = true →
    ring < ringPairs fn →
    let k : PairKey := (port, fn, ring)
    let p := pairOf s k
    let fits := 4 ≤ sq ∧ sq ≤ 16 ∧ 4 ≤ cq ∧ cq ≤ 16 ∧ 1 ≤ vec ∧ vec < (if fn = 0 then 128 else 17)
    ((look s.host.ports port).link = true →
      (p.enable = false → p.idle = true → fits → ∃ q, exec (.ringEnable port fn ring sq cq vec) s = .next (setPair k q s)
        ∧ q.enable = true ∧ q.sqLog2 = BitVec.ofNat 5 sq ∧ q.cqLog2 = BitVec.ofNat 5 cq ∧ q.vector = BitVec.ofNat 12 vec
        ∧ q.error = false ∧ q.errorCode = 0 ∧ q.cqHold = false ∧ q.sqHead = 0 ∧ q.cqTail = 0 ∧ q.phase = true
        ∧ q.sqBase = p.sqBase ∧ q.cqBase = p.cqBase ∧ q.count = p.count ∧ q.timeUs = p.timeUs)
      ∧ (p.enable = true ∨ p.idle = false ∨ ¬ fits → exec (.ringEnable port fn ring sq cq vec) s = .next s)
      ∧ (p.enable = true →
        let off := setPair k { p with enable := false, cqHold := false, unsignalled := 0 } s
        exec (.ringDisable port fn ring) s = .next (cancelPair k (discardHeld k off))
        ∧ (pairQuiet s k = true → p.held = [] → (∀ c ∈ s.cmds, c.op ≠ 6) → exec (.ringDisable port fn ring) s = .next
            (setPair k { p with enable := false, held := [], cqHold := false, unsignalled := 0 } off))))
    ∧ (p.enable = false → pairQuiet s k = true →
        exec (.ringIdle port fn ring) s = .next (setPair k { p with idle := true } s))

/-- Doorbells (R46, R47, R49) and the coalescing timer (R52). -/
def Obligations.DoorbellsAndTimer : Prop :=
  ∀ (s : State) (port : Fin 2) (fn ring : Nat), fn < 256 → fnPresent s port fn = true → ring < ringPairs fn →
    let k : PairKey := (port, fn, ring)
    let p := pairOf s k
    ((look s.host.ports port).link = true →
      (∀ t, p.enable = true → p.error = false → t.toNat < 2 ^ p.sqLog2.toNat →
        exec (.pfSqTail port fn ring t) s = .next (setPair k { p with tail := t } s))
      ∧ (∀ t, p.enable = true → p.error = false → 2 ^ p.sqLog2.toNat ≤ t.toNat →
        exec (.pfSqTail port fn ring t) s
          = .next (raiseEvent port fn 1 (setPair k { p with error := true, errorCode := 0x01 } s)))
      ∧ (∀ t, p.enable = false ∨ p.error = true → exec (.pfSqTail port fn ring t) s = .next s)
      ∧ (∀ h, p.enable = false → exec (.pfCqHead port fn ring h) s = .next s)
      ∧ (∀ h, p.enable = true → headFault p h = none →
        exec (.pfCqHead port fn ring h) s = .next (drain k (setPair k { p with head := h } s)))
      ∧ (∀ h, p.enable = true → 2 ^ p.cqLog2.toNat ≤ h.toNat → exec (.pfCqHead port fn ring h) s = .next
          (if p.error then s else raiseEvent port fn 1 (setPair k { p with error := true, errorCode := 0x02 } s))))
    ∧ (p.enable = true → p.unsignalled ≠ 0 → p.timeUs ≠ 0 → p.unsignalledAt + p.timeUs.toNat * 1000 ≤ s.now →
        exec (.interruptCoalesceTimer port fn ring) s
          = .next (raiseMsix port fn p.vector.toNat (setPair k { p with unsignalled := 0 } s)))

/-- COMMAND_FETCH, ADMISSION_DISPATCH and OUTPUT_WRITE_FAILED (R45, R47, R62, R74, R78, R173, R544). -/
def Obligations.FetchAndDispatch : Prop :=
  ∀ (s : State) (port : Fin 2) (fn ring : Nat), fn < 256 → ring < ringPairs fn →
    let k : PairKey := (port, fn, ring)
    let p := pairOf s k
    (mayFetch s k = true → slotsReady p ≠ 0 →
      (∀ lists, exec (.commandFetch port fn ring none lists) s
        = .next (raiseEvent port fn 1 (setPair k { p with error := true, errorCode := 0x04 } s)))
      ∧ (∀ b lists, (readHeader s b).flags.getLsbD 0 = true → pairBusy s k = true →
        exec (.commandFetch port fn ring (some b) lists) s = .next s)
      ∧ (∀ b lists, slotsOf b ≤ slotsReady p → ((readHeader s b).flags.getLsbD 0 = false ∨ pairBusy s k = false) →
        let moved := setPair k { p with
          sqHead := BitVec.ofNat 16 ((p.sqHead.toNat + slotsOf (padTo (64 * slotsOf b) b)) % 2 ^ p.sqLog2.toNat) } s
        let c := cmdOf moved port fn ring (padTo (64 * slotsOf b) b)
        c.id = s.nextCmd
        ∧ (c.phase = if c.op / 256 = 0 ∨ c.op / 256 = 0x0F then .running else .queued)
        ∧ (checks moved c lists = none → ∃ t, exec (.commandFetch port fn ring (some b) lists) s = .next t
            ∧ t.cmds = s.cmds ++ [c] ∧ t.nextCmd = s.nextCmd + 1 ∧ t.host = moved.host ∧ t.obj = s.obj)
        ∧ (∀ r, checks moved c lists = some r → r.status ≠ .busyRetry →
            exec (.commandFetch port fn ring (some b) lists) s
              = .next (post k (completionOf moved c true
                  { status := r.status, effect := .none, value := r.value, detail := r.detail }) moved))))
    ∧ (∀ course c, awake s = true → nextDispatch s course = some c →
        let d := dispatch c course s
        (∀ r, admitRefusal d c = some r → exec (.admissionDispatch course) s = .next (finish c r d))
        ∧ (admitRefusal d c = none → ∃ t, exec (.admissionDispatch course) s = .next t
          ∧ (∀ x, findCmd s c.id = some x → ∃ y, findCmd t c.id = some y ∧ y.phase = .running ∧ y.hdr = x.hdr
              ∧ y.params = x.params)
          ∧ (look t.tenants c.tenant).dispatched = (look s.tenants c.tenant).dispatched + 1
          ∧ t.host = s.host ∧ t.eng = s.eng ∧ (takesObject c = false → t.obj = s.obj)))
    ∧ (∀ id o n c, findCmd s id = some c → c.failed = none →
        ∃ t, exec (.outputWriteFailed (.buffer id o n)) s = .next t
          ∧ findCmd t id = some { c with failed := some (o, n) })
    ∧ (p.enable = true → p.error = false → exec (.outputWriteFailed (.completion port fn ring)) s
        = .next (raiseEvent port fn 1 (setPair k { p with error := true, errorCode := 0x05 } s)))

/-- NOP and the opening of sessions (R64, R71, R72, R438). -/
def Obligations.SessionOpening : Prop :=
  ∀ (s : State) (id : Nat) (c : Cmd),
    (Runs s id 0x0000 c → exec (.nop id) s = .next (finish c {} s))
    ∧ (Runs s id 0x0001 c → c.sid = 0 → tenantUsable s c.tenant = true → proofLimited s c.tenant = false →
        sessionsOf s c.tenant < (quotasOf s c.tenant).sessions → sessionsOf s c.tenant < 64 → s.sessions.length < 8192 →
        ∃ u, exec (.sessionChallenge id) s = .next (finish c
            { count := 32, value := s.nextSession, writes := [(outputOffset s, leBytes 32 (Config.nonce s.fresh).toNat)] } u)
          ∧ (∃ x, find? u.sessions s.nextSession = some x ∧ x.state = .challenged ∧ x.tenant = c.tenant
              ∧ x.port = c.port ∧ x.nonce = Config.nonce s.fresh ∧ x.nonceAt = s.now)
          ∧ (∀ n, n ≠ s.nextSession → find? u.sessions n = find? s.sessions n)
          ∧ { u with sessions := s.sessions, nextSession := s.nextSession, fresh := s.fresh } = s)
    ∧ (∀ x, Runs s id 0x0001 c → c.sid ≠ 0 → find? s.sessions c.sid = some x → x.tenant = c.tenant → x.port ≠ c.port →
        (x.state = .opened ∨ x.state = .detached) → tenantUsable s c.tenant = true → proofLimited s c.tenant = false →
        ∃ u, exec (.adoptionChallenge id) s = .next (finish c
            { count := 32, value := c.sid, writes := [(outputOffset s, leBytes 32 (Config.nonce s.fresh).toNat)] } u)
          ∧ find? u.sessions c.sid = some { x with adoption := some (Config.nonce s.fresh, c.port, s.now) }
          ∧ { u with sessions := s.sessions, fresh := s.fresh } = s)
    ∧ (∀ x, Runs s id 0x0002 c → find? s.sessions c.sid = some x → x.tenant = c.tenant → x.state = .challenged →
        (proofValid s c x.nonce x.nonceAt "KCP open" = true →
          let tag := tagOf (tenantKey s c.tenant) x.nonce (paramResponse c)
          ∃ u, exec (.sessionOpen id) s
              = .next (finish c { count := 16, writes := [(outputOffset s, leBytes 16 tag.toNat)] } u)
            ∧ find? u.sessions c.sid = some { x with state := .opened, port := c.port, tag, fns := [c.fn] }
            ∧ { u with sessions := s.sessions } = s)
        ∧ (proofValid s c x.nonce x.nonceAt "KCP open" = false →
          ∃ u, exec (.sessionOpen id) s = .next (fail c .notAuthorized 2 u)
            ∧ find? u.sessions c.sid = none
            ∧ (look u.tenants c.tenant).badProofs = recentBad s c.tenant ++ [s.now]))

/-- SESSION_ADOPT where no other command of the session is outstanding (R72, R73). -/
def Obligations.SessionAdoption : Prop :=
  ∀ (s : State) (id : Nat) (c : Cmd) (x : Session), Runs s id 0x0004 c → find? s.sessions c.sid = some x →
    x.tenant = c.tenant → (x.state = .opened ∨ x.state = .detached) → tenantUsable s c.tenant = true →
    adoptedCmds s c x.port = [] →
    let tag := tagOf (tenantKey s c.tenant) (paramNonce c) (paramResponse c)
    (∀ n m, x.adoption = some (n, c.port, m) → proofValid s c n m "KCP adopt" = true → ∃ u, exec (.sessionAdopt id) s
          = .next (finish c { count := 16, writes := [(outputOffset u, leBytes 16 tag.toNat)] } u)
        ∧ u = foldS (fun s fn => raiseEvent x.port fn 4 s) x.fns (setSession c.sid
            (fun y => { y with state := .opened, port := c.port, tag, adoption := none, fns := [c.fn] }) s))
    ∧ ((∀ n m, x.adoption = some (n, c.port, m) → proofValid s c n m "KCP adopt" = false) → ∃ u, exec (.sessionAdopt id) s = .next (fail c .notAuthorized 2 u)
        ∧ u.sessions = s.sessions)

/-- The closing of sessions and STATE_QUERY (R64, R71, R72, R488). -/
def Obligations.SessionClosing : Prop :=
  ∀ (s : State) (id : Nat) (c : Cmd) (x : Session) (sid : Nat),
    (Runs s id 0x0003 c → c.begun = false → find? s.sessions c.sid = some x → (∀ d ∈ s.cmds, d.sid = c.sid → d.id = c.id) →
      ∃ t, exec (.sessionClose id) s = .next t
        ∧ t.sessions = adj s.sessions c.sid (fun y => { y with state := .closing })
        ∧ t.cmds = s.cmds.map (fun d => if d.id == c.id then { d with begun := true } else d)
        ∧ { t with sessions := s.sessions, cmds := s.cmds } = s)
    ∧ (find? s.sessions sid = some x → x.state = .closing → sessionDrained s sid = true → sessionMoving s sid = false →
        ∃ u, exec (.sessionCloseFinish sid) s = .next (foldS (fun s c => finish c {} s)
            (s.cmds.filter (fun t => t.sid == sid && t.op == 3 && t.begun && t.phase == .running)) u)
          ∧ find? u.sessions sid = none
          ∧ u.obj.seqs = s.obj.seqs.filter (fun q => q.2.session != sid)
          ∧ u.obj.scans = s.obj.scans.filter (fun q => q.2.session != sid)
          ∧ u.obj.templates = s.obj.templates.filter (fun q => q.2.session != sid)
          ∧ u.obj.tables = s.obj.tables.filter (fun q => q.2.session != sid)
          ∧ u.obj.grammars = s.obj.grammars.filter (fun q => q.2.session != sid))
    ∧ (find? s.sessions sid = some x → x.state = .closing → sessionDrained s sid = true → sessionMoving s sid = true →
        exec (.sessionCloseFinish sid) s = .next { s with obj := { s.obj with tables := mapTbl s.obj.tables (fun _ t =>
          if t.session = sid then { t with dropping := true, queue := [] } else t) } })
    ∧ (find? s.sessions sid = some x → x.state = .challenged → 10000000000 < s.now - x.nonceAt →
        exec (.nonceExpiry sid) s = .next { s with sessions := del s.sessions sid })
    ∧ (find? s.sessions sid = some x → x.state = .detached → s.dev.cfg.sys.holdS * 1000000000 ≤ s.now - x.holdAt →
        (∀ d ∈ s.cmds, d.sid ≠ sid) →
        exec (.sessionHoldExpiry sid) s
          = .next { s with sessions := adj s.sessions sid (fun y => { y with state := .closing }) })
    ∧ (∀ k st, Runs s id 0x0005 c → (objOf s c.sid c.handle).bind (objState s) = some (k, st) →
        exec (.stateQuery id) s = .next (finish c { value := k + 256 * st } s))

/-- CANCEL (R64, R74, R75) where it has no target, and where its only target is QUEUED. -/
def Obligations.CancelRows : Prop :=
  ∀ (s : State) (id : Nat) (c : Cmd), Runs s id 0x0006 c → c.begun = false →
    let one := s.cmds.filter (fun t => t.port == c.port && t.fn == c.fn && t.ring == c.arg 4 2
      && t.hdr.commandId.toNat == c.arg 0 4 && t.sid == c.sid && t.id != c.id && cancellable s t)
    let named := s.cmds.filter (fun t => t.port == c.port && t.sid == c.sid && t.handle == c.handle
      && t.id != c.id && cancellable s t)
    let waiting := fun (d : Cmd) => setCmd c.id (fun x => { x with waits := [d.id], begun := true }) s
    (c.arg 6 1 = 0 →
      (one = [] → exec (.cancelCommand id) s = .next (fail c .alreadyComplete 0 s))
      ∧ (∀ d, one = [d] → findCmd s d.id = some d → d.phase = .queued →
          exec (.cancelCommand id) s = .next (fail d .cancelled 0 (waiting d))))
    ∧ (c.arg 6 1 = 1 → (objOf s c.sid c.handle).isSome = true →
      (named = [] → exec (.cancelObject id) s = .next (fail c .alreadyComplete 0 s))
      ∧ (∀ d, named = [d] → findCmd s d.id = some d → d.phase = .queued →
          exec (.cancelObject id) s = .next (fail d .cancelled 0 (waiting d))))

/-- The port links (R72, R489, R490). -/
def Obligations.PortLinks : Prop :=
  ∀ (s : State) (port : Fin 2),
    let p := look s.host.ports port
    let q := look s.host.ports (otherPort s.host.primary)
    (p.link = true → ∃ t, exec (.portLinkDown port) s = .next t
      ∧ look t.host.ports port = { p with link := false, downSince := s.now }
      ∧ t.sessions = mapTbl s.sessions (fun _ x =>
          if x.port = port ∧ x.state = .opened then { x with state := .detached, holdAt := s.now } else x))
    ∧ (p.link = false → p.retired = false → islandUp s (portClk port) = true → p.perst = false → 10000000 ≤ s.now →
        (s.dev.stage = .startup ∨ s.dev.stage = .service) → ∃ t, exec (.portLinkUp port) s = .next t
      ∧ look t.host.ports port = { p with link := true }
      ∧ t.sessions = mapTbl s.sessions (fun _ x => if x.port = port ∧ x.state = .detached
          ∧ s.now - x.holdAt < s.dev.cfg.sys.holdS * 1000000000 then { x with state := .opened } else x))
    ∧ (s.dev.stage = .service → (look s.host.ports s.host.primary).link = false →
        1000000000 ≤ s.now - (look s.host.ports s.host.primary).downSince → q.link = true → q.retired = false →
        ∃ t, exec .mgmtFailover s = .next t ∧ t.host.primary = otherPort s.host.primary
          ∧ (funcOf t (otherPort s.host.primary) 0).event = (funcOf s (otherPort s.host.primary) 0).event ||| 8)

/-- Loading, unloading and querying a model (R130 to R135). -/
def Obligations.ModelCommands : Prop :=
  ∀ (s : State) (id : Nat) (c : Cmd) (slot : Nat),
    (∀ b, Runs s id 0x0100 c → baseImageFault b = none → firstFree s.obj.models 0 64 = some slot →
      tenantLpddr6 s c.tenant + weightBytes b ≤ (quotasOf s c.tenant).lpddr6 →
      homeFits s (homeOf s c.imm) (weightBytes b) (reserveWith s b) = true →
      let reuse := (look s.obj.modelReuse slot + 1) % 2 ^ 32
      let m : Model := { reuse, session := c.sid, tenant := c.tenant, state := .ready, home := homeOf s c.imm, image := b }
      exec (.modelLoad id (.data b)) s = .next (if imageCheckOk b then finish c { value := mkHandle slot reuse }
          { s with obj := { s.obj with
            models := put s.obj.models slot m, modelReuse := put s.obj.modelReuse slot reuse
            adapterTop := s.obj.adapterTop.filter (fun a => a.1.1 != slot) } }
        else finish c { status := .checkMismatch, effect := .none, value := 104, detail := 64 } s))
    ∧ (∀ m, Runs s id 0x0101 c → modelOf s c.sid c.handle = some (slot, m) →
      (c.holds = true ∨ (m.state = .ready ∧ bindingsBefore s slot c.id = 0) ∨ m.state = .cold →
        exec (.modelUnload id) s = .next (finish c {} { s with
          eng := { s.eng with moves := s.eng.moves.filter (fun x => !movesOfModel slot x.2.obj) }
          obj := { s.obj with
            models := del s.obj.models slot
            adapters := s.obj.adapters.filter (fun a => a.1.1 != slot)
            adapterTop := s.obj.adapterTop.filter (fun a => a.1.1 != slot) } }))
      ∧ (c.holds = false →
        (m.state = .ready ∧ bindingsBefore s slot c.id ≠ 0) ∨ m.state = .moving ∨ m.state = .unloading →
        exec (.modelUnload id) s = .next (fail c .stateConflict (3 + 256 * m.state.code) s)))
    ∧ (∀ m, Runs s id 0x0104 c → modelOf s c.sid c.handle = some (slot, m) →
      let r := modelRecord s slot m
      exec (.modelQuery id) s = .next (finish c (c.answer.getD (if c.outLen < r.length
        then { status := .partialDone, effect := .none, count := r.length }
        else { count := r.length, writes := [(outputOffset s, r)] })) s))

/-- Loading and retiring an adapter version (R147, R148). -/
def Obligations.AdapterCommands : Prop :=
  ∀ (s : State) (id : Nat) (c : Cmd) (slot : Nat) (m : Model), modelOf s c.sid c.handle = some (slot, m) →
    (∀ b, Runs s id 0x0102 c → m.state = .ready → adapterFault m.image b = none →
      (s.obj.adapters.filter (fun a => a.2.tenant == c.tenant)).length < (quotasOf s c.tenant).adapters →
      s.obj.adapters.length < 4096 → tenantLpddr6 s c.tenant + weightBytes b ≤ (quotasOf s c.tenant).lpddr6 →
      homeFits s m.home (weightBytes b) (reserveBytes s) = true →
      let ad := c.arg 0 4
      let ver := look s.obj.adapterTop (slot, ad) + 1
      exec (.adapterLoad id (.data b)) s = .next (if imageCheckOk b then finish c { value := ver }
          (reapAdapters { s with obj := { s.obj with
            seqs := mapTbl s.obj.seqs (fun _ q =>
              if q.model = slot ∧ q.rebindOnReplace ∧ q.adapter.any (fun a => a.1 == ad) then { q with replaced := true }
              else q)
            adapters := s.obj.adapters.map (fun a =>
              if a.1.1 == slot && a.1.2.1 == ad && a.2.state == .current then (a.1, { a.2 with state := .superseded })
              else a) ++ [((slot, ad, ver), { state := .current, tenant := c.tenant, image := b })]
            adapterTop := put s.obj.adapterTop (slot, ad) ver } })
        else finish c { status := .checkMismatch, effect := .none, value := 104, detail := 72 } s))
    ∧ (∀ a, Runs s id 0x0103 c → look s.obj.adapterTop (slot, c.arg 0 4) ≠ 0 → c.arg 4 4 ≠ 0 →
      find? s.obj.adapters (slot, c.arg 0 4, c.arg 4 4) = some a → a.state ≠ .retiring →
      exec (.adapterRetire id) s = .next (finish c {} (reapAdapters { s with obj := { s.obj with
        adapters := adj s.obj.adapters (slot, c.arg 0 4, c.arg 4 4) (fun a => { a with state := .retiring }) } })))

/-- SEQ_CREATE (R65, R156 to R158). -/
def Obligations.SequenceCreation : Prop :=
  ∀ (s : State) (id : Nat) (c : Cmd) (course : Fin 4) (b : List Byte) (slot e : Nat) (m : Model)
    (ss : List (List Byte)) (ad : Option (Nat × Nat)),
    Runs s id 0x0200 c → createFault s c = none → modelOf s c.sid (c.arg 0 8) = some (slot, m) →
    stopStrings (c.arg 18 2) 0 b = .ok ss → placeable s m course = true →
    ceilDiv (imgContext m.image) 16 * imgLayers m.image * pageBytes m.image ≤ pagePool s course.val →
    4 * tableEntries m.image + (if c.arg 24 8 = 0 then 0 else 520) ≤ pagePool s course.val →
    bindAdapter s slot (c.arg 8 4) (c.arg 12 4) = .ok ad → firstFree s.obj.seqs (course.val * 4096) 4096 = some e →
    let reuse := (look s.obj.seqReuse e + 1) % 2 ^ 32
    ∃ q : Seq, exec (.seqCreate id course (.data b)) s = .next (finish c { value := mkHandle e reuse }
        { s with obj := { s.obj with seqs := put s.obj.seqs e q, seqReuse := put s.obj.seqReuse e reuse } })
      ∧ q.state = .blockedHost ∧ q.reuse = reuse ∧ q.session = c.sid ∧ q.tenant = c.tenant ∧ q.course = course
      ∧ q.model = slot ∧ q.adapter = ad ∧ q.vocab = c.arg 16 1 ∧ q.stops = ss ∧ q.maxNew = c.arg 20 4
      ∧ q.temperature = BitVec.ofNat 16 (c.arg 32 2) ∧ q.topP = BitVec.ofNat 16 (c.arg 34 2) ∧ q.topK = c.arg 36 2
      ∧ q.seed = c.arg 48 8 ∧ q.tokens = [] ∧ q.input = [] ∧ q.carry = [] ∧ q.spans = 0 ∧ q.run = none
      ∧ q.inFlash = false

/-- SEQ_APPEND and the carry flush (R158, R205, R210, R548). -/
def Obligations.SequenceInput : Prop :=
  ∀ (s : State) (id : Nat) (c : Cmd) (e : Nat) (q : Seq) (row : Row),
    (Runs s id 0x0201 c → seqOf s c.sid c.handle = some (e, q) → stranded s = false → takesInput q = true →
      appendRow s c q = some row →
      let u := startJob (.command c.id) q.course .generation (coreNumber row.tile row.core) s
      (onThread u (.command c.id) = false ∨ stopped u (tileClk row.tile) = true →
        ∀ b, exec (.seqAppend id b) s = .next u)
      ∧ (onThread u (.command c.id) = true → stopped u (tileClk row.tile) = false →
        (∀ b, c.arg 16 1 ≠ 0 → (∀ t ∈ tokenList b, t < vocTokens (seqVocab s q)) →
          let r : Result := if overflows u q (tokenList b) then { status := .contextFull, effect := .none }
            else { act := .append e (tokenList b) [] }
          exec (.seqAppend id (.data b)) s = .next (runJobs (setCmd c.id (fun x => { x with result := some r }) u)))
        ∧ (∀ b, c.arg 16 1 = 0 → exec (.seqAppend id (.data b)) s
            = .next (runJobs (setCmd c.id (fun x => { x with result := some (appendText u e q b).1 })
                (countTokens row.tile b.length (appendText u e q b).2.1 (appendText u e q b).2.2 0 u))))))
    ∧ (find? s.obj.seqs e = some q → q.carry ≠ [] → q.run = none → flushWaits s e = true →
        let ts := (flushCarry (seqVocab s q) (ruleOf s (seqVocab s q)) q.carry).1
        ∃ t, exec (.carryFlushDone e) s = .next t
          ∧ find? t.obj.seqs e
              = some { q with carry := [], input := q.input ++ bosFor s q ts ++ ts, started := q.started || !ts.isEmpty })

/-- SEQ_GENERATE at its dispatch (R158, R191, R548). -/
def Obligations.GenerationStart : Prop :=
  ∀ (s : State) (id : Nat) (c : Cmd) (e : Nat) (q : Seq),
    Runs s id 0x0202 c → seqOf s c.sid c.handle = some (e, q) → stranded s = false → q.run = none → takesInput q = true →
    let run : Run := { cmd := c.id, interval := c.arg 0 2, maxNew := if c.arg 4 4 = 0 then q.maxNew else c.arg 4 4 }
    (q.carry ≠ [] → ∃ t, exec (.seqGenerate id) s = .next t
      ∧ find? t.obj.seqs e = some { q with run := some { run with flushing := true }, stopReason := 0 })
    ∧ (q.carry = [] → q.state = .swapped ∨ (q.swap ≠ .none ∧ nothingYet q = false) → ∃ t, exec (.seqGenerate id) s = .next t
      ∧ find? t.obj.seqs e
          = some { q with run := some run, stopReason := 0, runnable := true, runnableAt := s.now })
    ∧ (q.carry = [] → q.state = .blockedHost → q.swap = .none → q.undelivered = [] → q.heldStop = none →
        q.grammar = none → outputBroken s c = false → c.id = id → (q.input ≠ [] ∨ q.tokens ≠ []) →
        ∃ t x, exec (.seqGenerate id) s = .next t ∧ find? t.obj.seqs e = some x
          ∧ (x.state = if q.input ≠ [] then .prefill else .decode)
          ∧ x.runnable = true ∧ x.run = some run ∧ x.tokens = q.tokens ∧ x.input = q.input)

/-- SEQ_REBIND, SEQ_SWAP_OUT, SEQ_RELEASE and SEQ_QUERY (R148, R149, R155, R158, R182). -/
def Obligations.SequenceManagement : Prop :=
  ∀ (s : State) (id : Nat) (c : Cmd) (e : Nat) (q : Seq), seqOf s c.sid c.handle = some (e, q) →
    (∀ ad v, Runs s id 0x0203 c → q.state ≠ .finishing → q.state ≠ .done → q.adapter = some ad →
      pickVersion s q.model ad.1 (c.arg 0 4) 64 64 = .found v →
      ∃ u, exec (.seqRebind id) s = .next (finish c {} u) ∧ find? u.obj.seqs e = some { q with rebind := some v, replaced := false }
        ∧ (∀ n, n ≠ e → find? u.obj.seqs n = find? s.obj.seqs n))
    ∧ (Runs s id 0x0204 c → c.begun = false → q.state = .blockedHost → moveOf s (.seq e) = none →
      flashReadOnly s = false → swapFits s q = true →
      ∃ t, exec (.seqSwapOut id) s = .next t ∧ find? t.obj.seqs e = some { q with swap := .evicting (some c.id) }
        ∧ t.eng.moves = s.eng.moves.filter (fun x => !(x.2.obj == .seq e && !moveRuns x.2))
            ++ [(s.eng.nextMove, { obj := .seq e, toFlash := true, device := false, units := 1, cmd := some c.id })])
    ∧ (Runs s id 0x0205 c →
      (q.state = .blockedHost ∨ q.state = .swapped ∨ q.state = .done →
        ∃ u, exec (.seqRelease id) s = .next (finish c {} u) ∧ find? u.obj.seqs e = none)
      ∧ (q.state = .prefill ∨ q.state = .decode ∨ q.state = .blockedRetrieval ∨ q.state = .finishing → stranded s = false →
        exec (.seqRelease id) s = .next (fail c .stateConflict (2 + 256 * q.state.code) s)))
    ∧ (Runs s id 0x0206 c → exec (.seqQuery id) s = .next (finish c (c.answer.getD (if c.outLen < (seqRecord s e q).length
        then { status := .partialDone, effect := .none, count := (seqRecord s e q).length }
        else { value := q.state.code, count := (seqRecord s e q).length,
               writes := [(outputOffset s, seqRecord s e q)] })) s))

/-- Vocabularies and grammars (R195 to R201, R215, R216). -/
def Obligations.VocabularyAndGrammarCommands : Prop :=
  ∀ (s : State) (id : Nat) (c : Cmd) (slot : Nat) (ex : List Nat),
    (∀ v, Runs s id 0x0700 c → c.holds = false → vocHeaderFault v = none →
      slot = c.arg 16 1 + (if vocClass v = 0 then 0 else 8) →
      c.arg 16 1 < (if vocClass v = 0 then 8 else 4) → (look s.obj.vocabs slot).state = .empty →
      takeExtents s (extents (vocFootprint v)) = some ex →
      exec (.vocabLoad id (.data v)) s = .next (setCmd c.id (fun x => { x with holds := true }) { s with obj := { s.obj with
        vocabs := put s.obj.vocabs slot { state := .loading, tenant := c.tenant, session := c.sid, image := v
                                          extents := ex, worker := some c.id } } }))
    ∧ (∀ i x, Runs s id 0x0700 c → c.holds = true →
      s.obj.vocabs.find? (fun x => x.2.state == .loading && x.2.worker == some c.id) = some (slot, x) →
      let emptied := { s with obj := { s.obj with vocabs := del s.obj.vocabs slot } }
      exec (.vocabLoad id i) s = .next
        (if trailerOk x.image = false then finish c { status := .checkMismatch, effect := .none, value := x.image.length - 8
                                                      detail := detailOffset s 64 } emptied
        else match vocEntryFault x.image with
          | some o => finish c { status := .invalidField, effect := .none, value := o, detail := detailOffset s 64 } emptied
          | none => finish c { value := vocFootprint x.image } { s with obj := { s.obj with
              vocabs := put s.obj.vocabs slot { x with state := .ready, worker := none } } }))
    ∧ (Runs s id 0x0701 c → slot = c.arg 1 1 + (if c.arg 0 1 = 0 then 0 else 8) →
      (look s.obj.vocabs slot).worker = some c.id →
      exec (.vocabUnload id) s = .next (finish c {} { s with obj := { s.obj with vocabs := del s.obj.vocabs slot } }))
    ∧ (Runs s id 0x0701 c → slot = c.arg 1 1 + (if c.arg 0 1 = 0 then 0 else 8) → (look s.obj.vocabs slot).state = .ready →
      ((c.tenant = (look s.obj.vocabs slot).tenant ∨ c.tenant = 0) → vocabBound s slot = false →
        exec (.vocabUnload id) s = .next (finish c {} { s with obj := { s.obj with vocabs := del s.obj.vocabs slot } }))
      ∧ (c.tenant ≠ (look s.obj.vocabs slot).tenant → c.tenant ≠ 0 → (look s.obj.vocabs slot).worker ≠ some c.id →
        exec (.vocabUnload id) s = .next (fail c .notAuthorized 3 s)))
    ∧ (∀ g, Runs s id 0x0702 c → gramHeaderFault g = none → firstFree s.obj.grammars 0 256 = some slot →
      takeExtents s (extents (gramFootprint g)) = some ex →
      let reuse := (look s.obj.grammarReuse slot + 1) % 2 ^ 32
      exec (.grammarLoad id (.data g)) s = .next
        (if trailerOk g = false then
          finish c { status := .checkMismatch, effect := .none, value := g.length - 8, detail := detailOffset s 64 } s
        else match gramEntryFault g with
          | some o => finish c { status := .invalidField, effect := .none, value := o, detail := detailOffset s 64 } s
          | none => finish c { value := mkHandle slot reuse } { s with obj := { s.obj with
              grammars := put s.obj.grammars slot { reuse, session := c.sid, tenant := c.tenant, image := g, extents := ex }
              grammarReuse := put s.obj.grammarReuse slot reuse } }))
    ∧ (∀ g, Runs s id 0x0703 c → grammarOf s c.sid c.handle = some (slot, g) →
      (c.holds = true ∨ (g.unloading = false ∧ ∀ q ∈ s.obj.seqs, q.2.grammar ≠ some slot) → exec (.grammarUnload id) s
        = .next (finish c {} { s with obj := { s.obj with grammars := del s.obj.grammars slot } }))
      ∧ (c.holds = false → g.unloading = false → (∃ q ∈ s.obj.seqs, q.2.grammar = some slot) →
        exec (.grammarUnload id) s = .next (fail c .stateConflict (8 + 256 * 1) s)))

/-- TOKENIZE and DETOKENIZE (R235, R236). -/
def Obligations.TokenizeAndDetokenize : Prop :=
  ∀ (s : State) (id : Nat) (c : Cmd) (slot : Nat) (row : Row) (b : List Byte), laneRow s c = some row → row.fate = none →
    let v := look s.obj.vocabs slot
    let u := startJob (.command c.id) (c.course.getD 0) .retrieval (coreNumber row.tile row.core) s
    onThread u (.command c.id) = true → stopped u (tileClk row.tile) = false →
    let held := fun (r : Result) (w : State) => runJobs (setCmd c.id (fun x => { x with result := some r }) w)
    (Runs s id 0x0704 c → slot = c.arg 17 1 + (if c.arg 16 1 = 0 then 0 else 8) →
      (∀ ts cy bad, tokenizeFinal v.image (ruleOf u v.image) b = .ok ts cy bad → exec (.tokenize id (.data b)) s
        = .next (held (outResult u c (ts.flatMap (leBytes 4)) { value := ts.length })
            (countTokens row.tile b.length ts.length bad 0 u)))
      ∧ (∀ o, tokenizeFinal v.image (ruleOf u v.image) b = .reject o → exec (.tokenize id (.data b)) s
        = .next (held { status := .invalidField, effect := .none, value := o, detail := detailOffset u 64 }
            (countTokens row.tile b.length 0 1 0 u))))
    ∧ (Runs s id 0x0705 c → slot = c.arg 16 1 →
      let ts := tokenList b
      ((∀ t ∈ ts, t < vocTokens v.image) → exec (.detokenize id (.data b)) s
        = .next (held (outResult u c (detokenize v.image none ts) { value := ts.length })
            (bump (tileClk row.tile) 0x0704 (detokenize v.image none ts).length u)))
      ∧ (∀ i, ts.findIdx? (fun t => decide (vocTokens v.image ≤ t)) = some i → exec (.detokenize id (.data b)) s
        = .next (held { status := .invalidField, effect := .none, value := i, detail := detailOffset u 64 } u)))

/-- Templates (R314) and profiles (R311). -/
def Obligations.TemplateAndProfileCommands : Prop :=
  ∀ (s : State) (id : Nat) (c : Cmd) (slot : Nat),
    (∀ b, Runs s id 0x0304 c → c.imm = 0 → tplHeaderFault b = none → firstFree s.obj.templates 0 4096 = some slot →
      templatesOfSession s c.sid < 16 →
      let reuse := (look s.obj.templateReuse slot + 1) % 2 ^ 32
      let new : Template := { reuse, session := c.sid, tenant := c.tenant, image := b }
      (templateBodyFault b = none → exec (.templateLoad id (.data b)) s = .next (finish c { value := mkHandle slot reuse }
        { s with obj := { s.obj with
          templates := put s.obj.templates slot new, templateReuse := put s.obj.templateReuse slot reuse } }))
      ∧ (∀ st o, templateBodyFault b = some (st, o) → exec (.templateLoad id (.data b)) s
        = .next (finish c { status := st, effect := .none, value := o, detail := detailOffset s 64 } s)))
    ∧ (∀ b x, Runs s id 0x0304 c → c.imm ≠ 0 → templateOf s c.sid c.imm = some (slot, x) →
      (c.bdLen 0 ≠ 0 → tplHeaderFault b = none → templateBodyFault b = none →
        exec (.templateReplace id (.data b)) s = .next (finish c { value := c.imm } { s with obj := { s.obj with
          templates := adj s.obj.templates slot (fun x => { x with image := b }) } }))
      ∧ (c.bdLen 0 = 0 → exec (.templateFree id) s
        = .next (finish c {} { s with obj := { s.obj with templates := del s.obj.templates slot } })))
    ∧ (Runs s id 0x0305 c →
      let n := c.arg 0 4 % 16
      let b := slice c.params 64 64
      ∃ u, exec (.profileSet id) s = .next (finish c {} u)
        ∧ (∀ t, t ≠ c.tenant → look u.tenants t = look s.tenants t)
        ∧ (c.arg 0 4 < 2 ^ 31 → find? (look u.tenants c.tenant).retrievalProfiles n
              = (if leNat (storedProfile true b) = 0 then none else some (storedProfile true b))
            ∧ (look u.tenants c.tenant).featureProfiles = (look s.tenants c.tenant).featureProfiles)
        ∧ (2 ^ 31 ≤ c.arg 0 4 → find? (look u.tenants c.tenant).featureProfiles n = (if leNat b = 0 then none else some b)
            ∧ (look u.tenants c.tenant).retrievalProfiles = (look s.tenants c.tenant).retrievalProfiles)
        ∧ { u with tenants := s.tenants } = s)

/-- The commands of the retrieval lane in their step (R159, R283 to R286, R303, R304, R309, R316, R320). `u` is the
state with the thread of the job taken. -/
def Obligations.RetrievalLaneCommands : Prop :=
  ∀ (s : State) (id : Nat) (c : Cmd) (row : Row), laneRow s c = some row →
    (∀ st, row.fate = some st → Runs s id 0x0300 c → exec (.retrieve id) s
      = .next (startWaiting (setCmd c.id (fun x => { x with result := some { status := st, effect := .none } }) s)))
    ∧ (row.fate = none →
    let u := startJob (.command c.id) (c.course.getD 0) .retrieval (coreNumber row.tile row.core) s
    onThread u (.command c.id) = true → stopped u (tileClk row.tile) = false →
    let keep := fun (r : Result) (w : State) =>
      Host.Outcome.next (startWaiting (runJobs (setCmd c.id (fun x => { x with result := some r }) w)))
    let req := reqOfCmd c
    (Runs s id 0x0300 c → walksEnded u (c.course.getD 0) = true →
      exec (.retrieve id) s = keep (outResult u c (if compatMode u then searchRecord1 u req else searchRecord u req)
          { value := (mergedWalk u req).length, detail := boundEpoch u req })
        (countMerge row.tile (resolvedOf u req) req.k 0 u))
    ∧ (∀ b, Runs s id 0x0301 c → crossDone u (c.course.getD 0) = true → featuresRun u req = true →
      setFault u c.sid false b = none → rerankRefusal u c b = none →
      let k := corpusOf u (handleSlot (setIndexHandle b))
      let cs := (setEntries b).map (fun e => fetchCand k e.1 0)
      let read := cs.filter (·.reason == 0)
      let w := lookupFeatures row.tile req (read.filterMap (fun x => (find? k x.ident).map (·.bytes)))
        (countFetches row.tile k cs u)
      let ranked := rank cs (scoresOf w row read.length)
      let n := scoredCount ranked
      let best := (ranked.filter (·.reason == 0)).take (c.arg 20 2)
      let bytes := best.flatMap rerankEntry ++ (List.replicate (c.arg 20 2 - best.length) rerankFill).flatten
      exec (.rerank id (.data b)) s = keep (outResult w c bytes (match unreadStatus cs with
          | some st => { status := st, effect := .part, value := best.length + n * 65536 }
          | none => { value := best.length + n * 65536 }))
        (countMerge row.tile n (c.arg 20 2) (ranked.countP (·.reason == 3)) (bump (tileClk row.tile) 0x0400 n w)))
    ∧ (∀ b, Runs s id 0x0302 c → crossDone u (c.course.getD 0) = true → setFault u c.sid true b = none →
      let v := look u.obj.vocabs (tplVocab row.template)
      let k := corpusOf u (handleSlot (setIndexHandle b))
      let cs := (setEntries b).map (fun e => fetchCand k e.1 e.2)
      let w := countFetches row.tile k cs u
      (∀ a, packAll (packerFor w row.template v.image (c.arg 24 2) (c.arg 26 2)) cs = some a →
        exec (.pack id (.data b)) s = keep (packResult w c cs row.template a none 0) (countPack row.tile a w))
      ∧ (packAll (packerFor w row.template v.image (c.arg 24 2) (c.arg 26 2)) cs = none →
        exec (.pack id (.data b)) s = keep (badResult w 88 0) w))
    ∧ (Runs s id 0x0303 c → walked u false c.id = true → crossDone u (c.course.getD 0) = true →
      featuresRun u req = true →
      let w := (rankWalk row req u).1
      let cs := (rankWalk row req u).2
      let vocab := if req.splice then ((seqOf w c.sid c.handle).map (fun q => seqVocab w q.2)).getD []
        else (look w.obj.vocabs (tplVocab row.template)).image
      (∀ a, packAll (packerFor w row.template vocab req.budget req.maxPassages) cs = some a →
        exec (.retrieveRerankPack id) s = keep (if req.splice then spliceResult w c cs a (boundEpoch u req)
          else packResult w c cs row.template a (some 64) (boundEpoch u req)) (countPack row.tile a w))
      ∧ (packAll (packerFor w row.template vocab req.budget req.maxPassages) cs = none →
        exec (.retrieveRerankPack id) s = keep (badResult w 118 0) w)))

/-- The answers of the hop engines (R31, R276, R277, R279, R280). The statement names each message by its walk,
source, destination, contents, node and tag; message numbers are chosen by the model. `done` is what follows any
message: threads that ended jobs leave, the next stage of the step, walkers that waited. -/
def Obligations.HopEngineMessages : Prop :=
  ∀ (s : State) (m : HopMsg) (w : Walk), s.eng.net.find? (·.id == m.id) = some m → arrives s m = true →
    walkOf s m.walk = some w →
    let got := countPoison m { s with eng := { s.eng with net := s.eng.net.filter (·.id != m.id) } }
    let done := fun (t : State) => Host.Outcome.next (startWaiting (crossStage w.course (runJobs t)))
    (pathUp s (endpointCourse m.src) (endpointCourse m.dst) = false →
      (m.kind = .req → exec (.hopReq m.id) s = done (stopQuery .resourceRetired w got))
      ∧ (∀ ns, m.kind = .fwd ns → exec (.hopFwd m.id) s = done (stopQuery .resourceRetired w got))
      ∧ (∀ ns, m.kind = .resolve ns → exec (.resolve m.id) s = done (stopQuery .resourceRetired w got)))
    ∧ (pathUp s (endpointCourse m.src) (endpointCourse m.dst) = true →
    let say := fun (m : HopMsg) => (m.walk, m.src, m.dst, m.kind, m.node, m.tag)
    let rest := (s.eng.net.filter (·.id != m.id)).map say
    let pairOf := fun (x : Index) (e n : Nat) =>
      let bad := (if 160 ≤ e then (nodeOf x n).badUpper else (nodeOf x n).badCode) || m.poisoned
      (w.id, e, w.tile, HopKind.pair n (if bad then 0xFFFF else hamming w.code (nodeOf x n).code) (coldNode x n) bad,
        n, m.tag)
    let ack := fun (n : Nat) (bad : Bool) => (w.id, m.dst, w.tile, HopKind.ack n bad, m.node, m.tag)
    let same := fun (t : State) =>
      { t with counters := s.counters, eng := { t.eng with net := s.eng.net, nextMsg := s.eng.nextMsg } } = s
    (∀ ns, m.kind = .fwd ns → ∃ t, exec (.hopFwd m.id) s = done t
        ∧ t.eng.net.map say = rest ++ ns.map (pairOf (indexAt s w.index) m.dst) ∧ same t)
    ∧ (m.kind = .req → 160 ≤ m.dst →
      let x := indexAt s w.index
      let v := nodeOf x m.node
      ∃ t, exec (.hopReq m.id) s = done t
        ∧ t.eng.net.map say = rest ++ (if v.badUpper = true ∨ m.poisoned = true then [ack 0 true] else
            ack ((v.upper[w.layer - 1]?).getD []).length false :: ((v.upper[w.layer - 1]?).getD []).map (pairOf x m.dst))
        ∧ same t)
    ∧ (m.kind = .req → m.dst < 160 → coldNode (indexAt (countRegion w m.node got) w.index) m.node = false →
      let x := indexAt (countRegion w m.node got) w.index
      let v := nodeOf x m.node
      let near := v.neighbours.filter (fun n => samePackage (homeEngine s x n) m.dst)
      let far := v.neighbours.filter (fun n => !samePackage (homeEngine s x n) m.dst)
      ∃ t, exec (.hopReq m.id) s = done t
        ∧ t.eng.net.map say = rest ++ (if v.badSlot = true ∨ m.poisoned = true then [ack 0 true] else
            ack v.neighbours.length false :: near.map (fun n => pairOf x (homeEngine s x n) n)
              ++ (firstMet (far.map (homeEngine s x))).map (fun e => (w.id, m.dst, e,
                HopKind.fwd (far.filter (fun n => homeEngine s x n == e)), m.node, m.tag)))
        ∧ { t with counters := s.counters, obj := s.obj, eng := { t.eng with net := s.eng.net, nextMsg := s.eng.nextMsg } } = s
        ∧ t.obj = (countRegion w m.node s).obj)
    ∧ (∀ ns, m.kind = .resolve ns → m.poisoned = false → (∀ n ∈ ns, coldNode (indexAt s w.index) n = false) →
      ∃ t, exec (.resolve m.id) s = done t
        ∧ t.eng.net.map say = rest ++ ns.map (fun n =>
            let v := nodeOf (indexAt s w.index) n
            (w.id, m.dst, w.tile, HopKind.entry
              (if v.badIdent ∨ v.state ≠ .live ∨ w.epoch < v.epoch then nullIdent else v.ident) (hamming w.code v.code) false,
              n, 0))
        ∧ same t))

/-- Cold batches (R295) and SLOT_FREE (R278, R279). A hop counts toward its region (R294). -/
def Obligations.ColdBatches : Prop :=
  ∀ (s : State) (m : HopMsg) (w : Walk),
    let got := countPoison m { s with eng := { s.eng with net := s.eng.net.filter (·.id != m.id) } }
    (s.eng.net.find? (·.id == m.id) = some m → arrives s m = true → walkOf s m.walk = some w → m.dst < 160 →
      m.poisoned = false → pathUp s (endpointCourse m.src) (endpointCourse m.dst) = true →
      let done := fun (t : State) => Host.Outcome.next (startWaiting (crossStage w.course (runJobs t)))
      let join := fun (m : HopMsg) (l : List ColdBatch) =>
        if l.any (fun b => b.index == w.index && b.page == coldPage m.node)
        then l.map (fun b => if b.index == w.index && b.page == coldPage m.node then { b with msgs := b.msgs ++ [m] } else b)
        else l ++ [{ index := w.index, page := coldPage m.node, since := s.now, msgs := [m] }]
      (∀ ns, m.kind = .resolve ns → (∀ n ∈ ns, coldNode (indexAt s w.index) n = true) →
        exec (.resolve m.id) s = done { got with eng := { got.eng with
          cold := ns.foldl (fun l n => join { m with node := n, kind := .resolve [n] } l) got.eng.cold } })
      ∧ (m.kind = .req → coldNode (indexAt (countRegion w m.node got) w.index) m.node = true →
        exec (.hopReq m.id) s = done { countRegion w m.node got with eng := { got.eng with cold := join m got.eng.cold } }))
    ∧ (∀ b lost, s.eng.cold.find? (fun y => y.index == b.index && y.page == b.page) = some b →
      (s.now < b.since + idxBatchUs (indexAt s b.index) * 1000 → exec (.coldBatchExpiry b.index b.page lost) s = .next s)
      ∧ (b.since + idxBatchUs (indexAt s b.index) * 1000 ≤ s.now → dieHeld s (Config.pageDie b.index b.page) = false →
        (∀ m ∈ b.msgs, islandRuns s (endpointClk m.dst) = true) →
        let clk := (b.msgs.head?.map (fun m => endpointClk m.dst)).getD 0
        let u := bump clk 0x0304 1 (bump clk 0x0303 b.msgs.length
          { s with eng := { s.eng with cold := s.eng.cold.filter (fun y => !(y.index == b.index && y.page == b.page)) } })
        exec (.coldBatchExpiry b.index b.page lost) s = .next
          (foldS (fun t m => ((walkOf t m.walk).map (fun w => serve lost m w t)).getD t) b.msgs u)))
    ∧ (s.eng.net.find? (fun y => y.id == m.id && y.kind == .free) = some m → arrives s m = true →
      ∃ t, exec (.slotFree m.id) s = .next t
        ∧ (∀ q, q ∈ t.eng.slots ↔ q ∈ s.eng.slots ∧ ¬ (q.1.1 = m.dst ∧ q.2.walk = m.walk))
        ∧ (∀ y, y ∈ t.eng.net ↔ y ∈ s.eng.net ∧ y.id ≠ m.id)
        ∧ { t with eng := s.eng, counters := s.counters } = s)

/-- The messages of the walker (R273, R276, R279, R280, R304). `goOn` sends the further hops and ends a layer (R273);
`crossStage` builds the next stage of the step when the walk stage has ended (R304); of a poisoned message `safe` is
what is used (log 186). -/
def Obligations.WalkerMessages : Prop :=
  ∀ (s : State) (m : HopMsg) (w : Walk), s.eng.net.find? (·.id == m.id) = some m → arrives s m = true →
    walkOf s m.walk = some w → pathUp s (endpointCourse m.src) (endpointCourse m.dst) = true →
    let got := countPoison m { s with eng := { s.eng with net := s.eng.net.filter (·.id != m.id) } }
    let done := fun (t : State) => Host.Outcome.next (startWaiting (crossStage w.course (runJobs t)))
    (m.kind = .load → encodersDone s w.course = true →
      let u := bump (endpointClk m.dst) 0x0302 1 got
      exec (.slotLoad m.id) s = .next (crossStage w.course (runJobs
        (if m.poisoned = true then stopQuery .uncorrectable w u
         else if w.done = true ∨ u.eng.net.any (fun y => y.walk == w.id && y.kind == .load) = true then u
         else beginWalk w.id (startWalk w.id) u))))
    ∧ (∀ n bad, isAck m.kind = true → m.safe.kind = .ack n bad →
      exec (.hopAck m.id) s = done (goOn w.id (setWalk w.id (fun w => { w with
        unreadable := w.unreadable + (if bad then 1 else 0)
        out := w.out.map (fun h => if h.tag == m.tag then { h with expected := some n } else h) }) got)))
    ∧ (∀ n d cold bad, isPair m.kind = true → m.safe.kind = .pair n d cold bad →
      let counted := fun (w : Walk) =>
        { w with out := w.out.map (fun h => if h.tag == m.tag then { h with got := h.got + 1 } else h) }
      exec (.pair m.id) s = done (goOn w.id (setWalk w.id (fun x =>
        if bad then { counted x with unreadable := x.unreadable + 1 }
        else if 2 ≤ x.layer then { counted x with cand := place (d, n) x.cand }
        else takePair (queueSize (indexAt s w.index) w) (d, n) (counted x)) got)))
    ∧ (∀ ident d cold, isEntry m.kind = true → m.safe.kind = .entry ident d cold →
      exec (.entry m.id) s = done (setWalk w.id (fun w => { w with
        owed := w.owed - 1
        done := w.owed ≤ 1
        nulled := w.nulled + (if ident = nullIdent then 1 else 0)
        result := if ident = nullIdent then w.result else w.result ++ [(ident, d, cold)] }) got))

/-- Creation (R270, R271) and inserts (R289, R290). -/
def Obligations.IndexCreationAndInput : Prop :=
  ∀ (s : State) (id : Nat) (c : Cmd) (slot : Nat) (x : Index) (b : List Byte),
    (Runs s id 0x0400 c →
      (∀ o, configFault (c.arg 16 1) b = some o → exec (.indexCreate id (.data b)) s
        = .next (finish c { status := .invalidField, effect := .none, value := o, detail := 64 } s))
      ∧ (configFault (c.arg 16 1) b = none → firstFree s.obj.indices 0 64 = some slot →
        let reuse := (look s.obj.indexReuse slot + 1) % 2 ^ 32
        let new : Index := { reuse, session := c.sid, tenant := c.tenant, extended := c.arg 16 1 == 1, config := b
                             quarter := upperQuarter s (field b 8 1), epoch := 1 }
        hotRegionsOk s new = true → createLimit s c new = none →
        exec (.indexCreate id (.data b)) s = .next (finish c { value := mkHandle slot reuse } { s with obj := { s.obj with
          indices := put s.obj.indices slot new, indexReuse := put s.obj.indexReuse slot reuse } })))
    ∧ (Runs s id 0x0401 c → indexOf s c.sid c.handle = some (slot, x) → (x.extended && flashReadOnly s) = false →
      (16777216 < countState x .pending + (chunksOf 48 b).length →
        exec (.indexInsert id (.data b)) s = .next (fail c .pendingFull 0 s))
      ∧ (countState x .pending + (chunksOf 48 b).length ≤ 16777216 →
        (∃ u d r first st eff, exec (.indexInsert id (.data b)) s
            = .next (finish c { status := st, effect := eff, value := d + r * 2 ^ 32, detail := first } u)
          ∧ eff = (if r = 0 then Effect.full else if d = 0 then .none else .part)
          ∧ d + r = (chunksOf 48 b).length ∧ (st = .ok ↔ r = 0) ∧ (st = .ok ∨ st = .indexFull ∨ st = .partialDone))
        ∧ (∀ r, chunksOf 48 b = [r] → field r 0 8 = nullIdent ∨ (nodesOf x (field r 0 8) ≠ [] ∧ bitOf (field r 8 8) 0 = false) →
          exec (.indexInsert id (.data b)) s
            = .next (finish c { status := .partialDone, effect := .none, value := 2 ^ 32 } s))
        ∧ (∀ r sh, chunksOf 48 b = [r] → field r 0 8 ≠ nullIdent → x.badIdents = [] → x.nodes = [] → x.entry = none →
          x.replaced = [] → shardFor s x [] = some sh → layersOf x (field r 0 8) = 0 →
          exec (.indexInsert id (.data b)) s = .next (finish c { value := 1 } (setIndex slot (fun _ => { x with
            nodes := [(sh * 2 ^ 33, { code := BitVec.ofNat 256 (field r 16 32), ident := field r 0 8, epoch := x.epoch + 1
                                      state := .pending })]
            entry := some (sh * 2 ^ 33) }) (foldS (fun s e => bump (endpointClk e) 0x0302 1 s) (enginesOf s x) s))))))

/-- Epochs and deletes (R291, R292). Identifiers whose directory line is uncorrectable are not found (R461). -/
def Obligations.IndexCommitAndDelete : Prop :=
  ∀ (s : State) (id : Nat) (c : Cmd) (slot : Nat) (x : Index), indexOf s c.sid c.handle = some (slot, x) →
    (Runs s id 0x0402 c → x.epoch = 0xFFFFFFFF → exec (.indexCommit id) s = .next (fail c .epochLimit 0 s))
    ∧ (Runs s id 0x0402 c → x.epoch ≠ 0xFFFFFFFF →
      ∃ u y, exec (.indexCommit id) s = .next (finish c { value := x.epoch + 1 } u)
        ∧ find? u.obj.indices slot = some y ∧ y.epoch = x.epoch + 1
        ∧ (∀ n v, find? x.nodes n = some v → find? y.nodes n = some
          (if n ∈ x.replaced ∧ (v.state = .live ∨ v.state = .pending) then
            { v with state := .tombstoned, deadEpoch := some (x.epoch + 1) }
          else if v.state = .pending then { v with state := .live } else v))
        ∧ (∀ j, j ≠ slot → find? u.obj.indices j = find? s.obj.indices j) ∧ { u with obj := s.obj } = s)
    ∧ (∀ b, Runs s id 0x0403 c →
      ∃ u y d miss st eff, (coursesUsing s slot = [] →
          exec (.indexDelete id (.data b)) s = .next (finish c { status := st, effect := eff, value := d + miss * 2 ^ 32 } u))
        ∧ (coursesUsing s slot ≠ [] → exec (.indexDelete id (.data b)) s = .next (setCmd c.id (fun k => { k with result := some { status := st, effect := eff, value := d + miss * 2 ^ 32 }, begun := true }) u))
        ∧ d + miss = (idents b).length ∧ (miss = 0 → st = .ok ∧ eff = .full) ∧ (miss ≠ 0 → st = .partialDone ∧ eff ≠ .full)
        ∧ find? u.obj.indices slot = some y ∧ y.epoch = x.epoch
        ∧ (∀ n v, find? x.nodes n = some v → find? y.nodes n = some
          (if v.ident ∈ idents b ∧ v.ident ∉ x.badIdents ∧ (v.state = .live ∨ v.state = .pending) then
            { v with state := .tombstoned, deadEpoch := some x.epoch } else v))
        ∧ (∀ j, j ≠ slot → find? u.obj.indices j = find? s.obj.indices j) ∧ { u with obj := s.obj } = s)

/-- Repair (R272, R293). The progress of a running pass is a free value of the model (log 32). -/
def Obligations.IndexRepair : Prop :=
  ∀ (s : State) (id : Nat) (c : Cmd) (slot : Nat) (x : Index),
    (indexOf s c.sid c.handle = some (slot, x) → Runs s id 0x0404 c →
      (c.arg 0 1 = 0 → x.state = .ready →
        exec (.indexRepairStart id) s = .next (finish c { value := countState x .tombstoned } (setIndex slot (fun x => { x with
          state := .repairing
          repair := { covered := (x.nodes.filter (fun n => n.2.state == .tombstoned)).map (·.1), running := true } }) s)))
      ∧ (c.arg 0 1 = 0 → x.state ≠ .ready → exec (.indexRepairStart id) s
          = .next (fail c .stateConflict (5 + 256 * x.state.code) s))
      ∧ (c.arg 0 1 = 1 → ∃ p, exec (.indexRepairStatus id) s = .next (finish c
          (c.answer.getD { value := p + countState x .detached * 65536, detail := if x.repair.running then 1 else 0 }) s.draw)
          ∧ (x.repair.running = true → p ≤ 1000) ∧ (x.repair.running = false → p = x.repair.progress)))
    ∧ (find? s.obj.indices slot = some x →
      (repairDue x = true → exec (.repairAutoStart slot) s = .next (setIndex slot (fun x => { x with
          state := .repairing
          repair := { covered := (x.nodes.filter (fun n => n.2.state == .tombstoned)).map (·.1), running := true } }) s))
      ∧ (x.repair.running = true → ∃ t y, exec (.repairSweepEnd slot) s = .next t
        ∧ find? t.obj.indices slot = some y ∧ y.state = .ready ∧ y.repair.running = false ∧ y.epoch = x.epoch
        ∧ (∀ n v, find? x.nodes n = some v → ∃ v', find? y.nodes n = some v'
          ∧ v'.code = v.code ∧ v'.ident = v.ident ∧ v'.epoch = v.epoch
          ∧ (n ∈ x.repair.covered → v'.state = .detached ∧ v'.draining = coursesUsing s slot ∧ v'.upper = [])
          ∧ (n ∉ x.repair.covered → v'.state = v.state ∧ ∀ l ∈ v'.upper, ∀ m ∈ l, m ∉ x.repair.covered))
        ∧ (∀ j, j ≠ slot → find? t.obj.indices j = find? s.obj.indices j))
      ∧ (∃ t y, exec (.nodeDrainFree slot) s = .next t ∧ find? t.obj.indices slot = some y
        ∧ (∀ n, n ∈ y.nodes ↔ n ∈ x.nodes ∧ ¬ (n.2.state = .detached ∧ n.2.draining = []))
        ∧ { y with nodes := x.nodes } = x ∧ { t with obj := s.obj } = s))

/-- INDEX_QUERY (R297), INDEX_DROP (R272), REGION_PLACEMENT (R294). -/
def Obligations.IndexQueryDropAndPlacement : Prop :=
  ∀ (s : State) (id : Nat) (c : Cmd) (slot : Nat) (x : Index),
    (indexOf s c.sid c.handle = some (slot, x) →
      (Runs s id 0x0405 c → (indexRecord s slot x).length = 64 ∧ exec (.indexQuery id) s = .next (finish c (c.answer.getD
          (if c.outLen < 64 then { status := .partialDone, effect := .none, count := 64 }
           else { count := 64, writes := [(outputOffset s, indexRecord s slot x)] })) s.draw))
      ∧ (Runs s id 0x0406 c → c.holds = true ∨ (x.state = .ready ∧ indexBound s c slot c.handle = false) →
        ∃ u, exec (.indexDrop id) s = .next (finish c {} u) ∧ find? u.obj.indices slot = none
          ∧ find? u.obj.corpora slot = none ∧ (∀ j, j ≠ slot → find? u.obj.indices j = find? s.obj.indices j)
          ∧ (∀ m ∈ u.eng.moves, m.2.obj ≠ .region slot ∧ m.2.obj ≠ .corpus slot))
      ∧ (Runs s id 0x0406 c → c.holds = false → x.state ≠ .ready ∨ indexBound s c slot c.handle = true →
        exec (.indexDrop id) s = .next (fail c .stateConflict (5 + 256 * x.state.code) s)))
    ∧ (∀ region, find? s.obj.indices slot = some x → x.extended = true →
      let r := regionAt x region
      let recent := s.eng.regionMoves.filter (fun t => s.now - t < 1000000000)
      r.pinned = false → r.moving = false → region / 65536 < (shards s (idxCourses x)).length →
      region % 65536 < shardRegions s x → recent.length < 16 → wantedHot s x region ≠ r.hot →
      (∀ m ∈ s.eng.moves, ¬ (m.2.obj = .region slot ∧ m.2.state ≠ .idle)) →
      (wantedHot s x region = true → hotCount x < idxHotRegions x) →
      ∃ t, exec (.regionPlacement slot region) s = .next t
        ∧ t.eng.moves = s.eng.moves.filter (fun m => m.2.obj != .region slot) ++ [(s.eng.nextMove,
            { obj := .region slot, toFlash := !wantedHot s x region, device := true, first := region, units := 1 })]
        ∧ t.eng.regionMoves = recent ++ [s.now] ∧ { t with obj := s.obj, eng := s.eng } = s)

/-- The corpus commands (R302). What CORPUS_READ answers for an unreadable record follows R305 (log 34); a record
whose home is moving waits (R367). -/
def Obligations.CorpusCommands : Prop :=
  ∀ (s : State) (id : Nat) (c : Cmd) (slot : Nat) (x : Index) (b : List Byte), indexOf s c.sid c.handle = some (slot, x) →
    (Runs s id 0x0500 c → splitRecords (b.length / 64 + 1) b = none →
      exec (.corpusWrite id (.data b)) s = .next (badField c 72 0 s))
    ∧ (∀ rs, Runs s id 0x0500 c → splitRecords (b.length / 64 + 1) b = some rs → rs.length ≤ 1048576 →
      (∀ r ∈ rs, unitMoving s (.corpus slot) (recIdent r) = false) →
      (c.imm = 1 → s.flash.writesHeld = true → exec (.corpusWrite id (.data b)) s = .next s)
      ∧ (c.imm ≠ 1 ∨ s.flash.writesHeld = false →
      (∃ u d r st eff first, exec (.corpusWrite id (.data b)) s
            = .next (finish c { status := st, effect := eff, value := d + r * 2 ^ 32, detail := first } u)
        ∧ d + r ≤ rs.length ∧ (st = .ok ∨ st = .partialDone → d + r = rs.length) ∧ (st = .ok → r = 0)
        ∧ (eff = .full ↔ d = rs.length)
        ∧ (∀ j, j ≠ slot → find? u.obj.corpora j = find? s.obj.corpora j)
        ∧ { u with obj := { u.obj with corpora := s.obj.corpora }, flash := { u.flash with bytesIn := s.flash.bytesIn } } = s)
      ∧ (∀ r, rs = [r] → recordOk r = true → writeStop s c slot x (c.imm = 1) r = none →
        let u := { s with obj := { s.obj with corpora := upd s.obj.corpora slot (fun k =>
          put k (recIdent r) { bytes := r, check := crc64 (recText r), inFlash := c.imm = 1 }) } }
        exec (.corpusWrite id (.data b)) s
          = .next (finish c { value := 1 } (if c.imm = 1 then countIn r.length u else u)))
      ∧ (∀ r, rs = [r] → recordOk r = false → exec (.corpusWrite id (.data b)) s
          = .next (finish c { status := .partialDone, effect := .none, value := 2 ^ 32 } (if c.imm = 1 then countIn 0 s else s)))))
    ∧ (Runs s id 0x0501 c →
      let k := corpusOf s slot
      let bytes := (idents b).flatMap (recordOut k)
      exec (.corpusRead id (.data b)) s = .next (
        finish c (if c.outLen < bytes.length then { status := .partialDone, effect := .none, count := bytes.length }
        else
          let w := [(outputOffset s, bytes)]
          match (unreadables k (idents b)).head? with
            | none => { count := bytes.length, writes := w }
            | some r => { status := if r.inFlash then .dataLost else .uncorrectable, effect := .part, count := bytes.length, writes := w }) s))
    ∧ (Runs s id 0x0502 c → (∀ i ∈ idents b, unitMoving s (.corpus slot) i = false) →
      ∃ u d miss st eff, exec (.corpusDelete id (.data b)) s
          = .next (finish c { status := st, effect := eff, value := d + miss * 2 ^ 32 } u)
        ∧ d + miss = (idents b).length ∧ (miss = 0 → st = .ok) ∧ (miss ≠ 0 → st = .partialDone)
        ∧ (∀ i, find? (corpusOf u slot) i = if i ∈ idents b then none else find? (corpusOf s slot) i)
        ∧ (∀ j, j ≠ slot → find? u.obj.corpora j = find? s.obj.corpora j)
        ∧ { u with obj := { u.obj with corpora := s.obj.corpora } } = s)

/-- Table commands (R325, R328, R329, R343) and writes held by a migration's lock (R338). -/
def Obligations.TableCommands : Prop :=
  ∀ (s : State) (id : Nat) (c : Cmd) (slot : Nat),
    (Runs s id 0x0600 c → firstFree s.obj.tables 0 256 = some slot →
      let reuse := (look s.obj.tableReuse slot + 1) % 2 ^ 32
      let new : Table := { reuse, session := c.sid, tenant := c.tenant, rows := if c.arg 0 4 = 0 then 4294967296 else c.arg 0 4
                           width := c.arg 4 2, pooling := c.arg 6 1, courses := if c.imm = 0 then 15 else c.imm }
      tenantLpddr6 s c.tenant + (shards s new.courses).length * shardBytes s new ≤ (quotasOf s c.tenant).lpddr6 →
      shards s new.courses ≠ [] → tableFits s new = true →
      exec (.tableCreate id) s = .next (finish c { value := mkHandle slot reuse } { s with obj := { s.obj with
        tables := put s.obj.tables slot new, tableReuse := put s.obj.tableReuse slot reuse } }))
    ∧ (∀ t, tableOf s c.sid c.handle = some (slot, t) →
      (Runs s id 0x0603 c → exec (.tableQuery id) s = .next (finish c (c.answer.getD
        (if c.outLen < (tableRecord s slot t).length
          then { status := .partialDone, effect := .none, count := (tableRecord s slot t).length }
          else { count := (tableRecord s slot t).length, writes := [(outputOffset s, tableRecord s slot t)] })) s))
      ∧ (Runs s id 0x0604 c → c.begun = false →
        (c.holds = false → t.dropping = true → exec (.tableDrop id) s = .next (fail c .stateConflict (6 + 256 * 2) s))
        ∧ (c.holds = false → t.dropping = false → tableBound s c = true → exec (.tableDrop id) s = .next (fail c .stateConflict (6 + 256 * 1) s))
        ∧ (c.holds = true ∨ (t.dropping = false ∧ tableBound s c = false) → t.migrations ≠ [] → ∃ u t', exec (.tableDrop id) s = .next u
          ∧ find? u.obj.tables slot = some t' ∧ t'.dropping = true ∧ t'.queue = [] ∧ t'.dropCmd = some c.id
          ∧ findCmd u id = some { c with begun := true })
        ∧ (c.holds = true ∨ (t.dropping = false ∧ tableBound s c = false) → t.migrations = [] →
          ∃ u, exec (.tableDrop id) s = .next (finish { c with begun := true } {} u)
            ∧ find? u.obj.tables slot = none ∧ (∀ j, j ≠ slot → find? u.obj.tables j = find? s.obj.tables j)))
      ∧ (∀ b, Runs s id 0x0601 c → t.dropping = false →
        (∃ u d r st eff first, (heldWrites u c.id = false → exec (.rowsWrite id (.data b)) s
              = .next (finish c { status := st, effect := eff, value := d + r * 2 ^ 32, detail := first } u))
          ∧ (heldWrites u c.id = true → exec (.rowsWrite id (.data b)) s = .next (setCmd c.id (fun k => { k with
              result := some { status := st, effect := eff, value := d + r * 2 ^ 32, detail := first }, begun := true }) u))
          ∧ d + r = (chunksOf (rowRecord t.width) b).length ∧ (r = 0 → st = .ok ∧ eff = .full) ∧ (r ≠ 0 → st = .partialDone))
        ∧ (∀ r, chunksOf (rowRecord t.width) b = [r] →
          let data := if bitOf (field r 4 1) 0 then [] else slice r 8 (2 * t.width)
          (rowRecordOk t r = true → locked t (field r 0 4) = false → heldWrites (setTable slot (writeRow (field r 0 4) data) s) c.id = false →
            exec (.rowsWrite id (.data b)) s = .next (finish c { value := 1 } (setTable slot (fun t => { t with
              poisoned := t.poisoned.filter (· != field r 0 4)
              data := if data = [] then del t.data (field r 0 4) else put t.data (field r 0 4) data }) s)))
          ∧ (rowRecordOk t r = false → heldWrites s c.id = false → exec (.rowsWrite id (.data b)) s
              = .next (finish c { status := .partialDone, effect := .none, value := 2 ^ 32 } s)))))

/-- LOOKUP (R331 to R335). -/
def Obligations.LookupInItsStep : Prop :=
  ∀ (s : State) (id : Nat) (c : Cmd) (slot : Nat) (t : Table) (row : Row) (i w b : List Byte), Runs s id 0x0602 c →
    tableOf s c.sid c.handle = some (slot, t) → t.dropping = false → tableRuns s t = true →
    laneRow s c = some row → row.fate = none →
    let v := startJob (.command c.id) (c.course.getD 0) .retrieval (coreNumber row.tile row.core) s
    onThread v (.command c.id) = true → stopped v (tileClk row.tile) = false →
    let keep := fun (r : Result) (u : State) => runJobs (setCmd c.id (fun x => { x with result := some r }) u)
    let rows := words i
    let bags := if c.bdLen 32 = 0 then [0] else words b
    let ws := if c.bdLen 16 = 0 then rows.map (fun _ => oneF32) else (words w).map (BitVec.ofNat 32)
    let occ := (rows.zip ws).zipIdx.map (fun p => (p.2, p.1.1, p.1.2))
    let pooling := if c.arg 48 1 = 0xFF then (if compatMode v then t.pooling else 0) else c.arg 48 1
    let outs := ((bagRanges rows.length bags).flatMap (fun r => reduceBag t pooling ((occ.drop r.1).take (r.2 - r.1)))).map
      (outElem (c.arg 49 1))
    let value := (bagRanges rows.length bags).length + (firstMet rows).length * 2 ^ 32
    (∀ n, rows.findIdx? (fun r => t.rows ≤ r) = some n → exec (.lookup id (.data i) (.data w) (.data b)) s
      = .next (keep { status := .invalidField, effect := .none, value := n, detail := detailOffset v 64 } v))
    ∧ (∀ n, rows.findIdx? (fun r => t.rows ≤ r) = none → badBag rows.length 0 0 bags = some n →
      exec (.lookup id (.data i) (.data w) (.data b)) s
        = .next (keep { status := .invalidField, effect := .none, value := n, detail := detailOffset v 96 } v))
    ∧ (rows.findIdx? (fun r => t.rows ≤ r) = none → badBag rows.length 0 0 bags = none →
      let bad := (bagRanges rows.length bags).findIdx? (fun r => ((rows.drop r.1).take (r.2 - r.1)).any (t.poisoned.contains ·))
      ∃ u r, exec (.lookup id (.data i) (.data w) (.data b)) s = .next (keep (outResult u c (outs.flatMap (·.1)) r) u)
        ∧ r.value = value ∧ (bad = none → r.status = .ok)
        ∧ (∀ k, bad = some k → r.status = .uncorrectable ∧ r.effect = .part ∧ r.detail = k))

/-- Row migration (R336 to R339). -/
def Obligations.RowMigration : Prop :=
  ∀ (s : State),
    (awake s = true →
      (s.eng.lastInterval + s.dev.cfg.emb.intervalMs * 1000000 ≤ s.now → ∃ u, exec .migrationInterval s = .next u
        ∧ u.eng.topRows = [] ∧ u.eng.lastInterval = s.now
        ∧ (∀ slot t, find? s.obj.tables slot = some t → ∃ t', find? u.obj.tables slot = some t' ∧ t'.shardCounts = []
          ∧ t'.lastCounts = t.shardCounts ∧ t'.data = t.data ∧ t'.homes = t.homes))
      ∧ (s.now < s.eng.lastInterval + s.dev.cfg.emb.intervalMs * 1000000 → exec .migrationInterval s = .next s))
    ∧ (∀ slot row t m, find? s.obj.tables slot = some t → migrationOf t row = some m → tableRuns s t = true →
      (∀ good, m.switched = false → m.row = row → t.ending = false → ∃ u t', exec (.moveStart slot row good) s = .next u
        ∧ find? u.obj.tables slot = some t'
        ∧ t'.homes = (if good then
            if (m.new, m.newSlot) = (initialShard s t row, initialSlot s t row) then del t.homes row
            else put t.homes row (m.new, m.newSlot)
          else t.homes)
        ∧ t'.data = (m.held.foldl (fun t h => writeRow row h.2 t) t).data)
      ∧ (∀ fwd,
        let served := if fwd = true ∧ m.switched = true then
            bump (tableClk s t m.old) 0x0504 1 (serveRow slot row m.new s)
          else serveRow slot row m.old s
        (m.draining = 1 → m.switched = true → m.row = row → exec (.rowDone slot row fwd) s
          = .next (endDrop slot (openAll (setTable slot (fun t =>
              { t with migrations := t.migrations.filter (fun m => m.row != row) }) served))))
        ∧ (m.draining ≠ 0 → ¬ (m.draining = 1 ∧ m.switched = true) → m.row = row → exec (.rowDone slot row fwd) s
          = .next (setTable slot (fun t => { t with migrations := t.migrations.map (fun m =>
              if m.row == row then { m with draining := m.draining - 1 } else m) }) served))))

/-- Passes, throttle and array faults (R100, R102, R106, R109 to R112). -/
def Obligations.ArrayPasses : Prop :=
  ∀ (s : State) (a : Fin 16) (busy : List (Nat × Nat)),
    let c : Fin 4 := Fin.ofNat 4 (a.val / 4)
    let u := turnWindow a s
    (islandRuns s (arrayClk a) = false → exec (.passCommit a busy) s = .next s)
    ∧ (islandRuns s (arrayClk a) = true → runningPass u a = none → exec (.passCommit a busy) s = .next u)
    ∧ (∀ l p, islandRuns s (arrayClk a) = true → runningPass u a = some (l, p) →
      (homeBad u l a p = true → exec (.passCommit a busy) s = .next (logFault (arrayClk a) 2 4 0 1 (dropGroup c l p u)))
      ∧ (homeBad u l a p = false → streamPass a l p busy u = none → exec (.passCommit a busy) s = .next u)
      ∧ (∀ t x, homeBad u l a p = false → streamPass a l p busy u = some (t, x) →
        ∃ v, exec (.passCommit a busy) s = .next (advanceStep c l v) ∧ v.obj = s.obj
          ∧ (laneStep v c l).map (·.acts) = (laneStep t c l).map (fun st =>
            let img := (look t.obj.models p.model).image
            let r := ((layerRecs img)[p.record]?).getD default
            let sc := drainScales img r p
            let outs := (p.rows.zipIdx).map (fun row => (row.1, drainRow p sc.1 sc.2.1 sc.2.2
              ((List.range (colsOf img r t p)).map (sumAt x.1 row.2))))
            (st.acts.zipIdx).map (fun act => outs.foldl (fun act o => if o.1.1 = act.2 then
              ({ act.1 with outs := put act.1.outs (outKey p o.1.2) (outValues p o.2.1) }, act.2) else act) act |>.1))
          ∧ laneChain l (look v.eng.arrays a) = (laneChain l (look t.eng.arrays a)).erase p
          ∧ (∀ m, m ≠ l → laneChain m (look v.eng.arrays a) = laneChain m (look t.eng.arrays a))
          ∧ (look v.eng.arrays a).staged = (look t.eng.arrays a).staged.drop 1 ∧ (look v.eng.arrays a).attempts = 0
          ∧ (∀ b, b ≠ a → look v.eng.arrays b = look t.eng.arrays b)))
    ∧ (∀ clk, pausable s clk = true → (look s.islands clk).paused = false → exec (.throttlePause clk) s
        = .next { s with islands := upd s.islands clk (fun i => { i with paused := true, pausedAt := s.now }) })
    ∧ (∀ clk, (look s.islands clk).paused = true → exec (.throttleResume clk) s = .next (issueFlash
        { countPaused clk s with islands := upd s.islands clk (fun i => { i with paused := false }) }))
    ∧ (∀ l p, arrayUp s a = true → runningPass s a = some (l, p) →
      let n := (look s.eng.arrays a).generation.length + (look s.eng.arrays a).retrieval.length
      let v := bump (arrayClk a) 0x0009 1 (bump (arrayClk a) 0x0008 n
        (setStep c l (fun st => { st with faulted := true }) s))
      let again := fun (w : State) => setArray a (fun x => { x with attempts := x.attempts + 1 }) w
      let clear := fun (w : State) => setArray a (fun x => { x with grid := {}, staged := [] }) w
      (∀ kind, kind = .residue ∨ kind = .parity →
        ((look s.eng.arrays a).attempts < 2 → exec (.arrayFault a kind) s = .next (again (clear v)))
        ∧ (2 ≤ (look s.eng.arrays a).attempts → exec (.arrayFault a kind) s = .next (withdraw a (clear v))))
      ∧ ((look s.eng.arrays a).attempts < 2 → exec (.arrayFault a .poison) s
          = .next (again (clear (bump (arrayClk a) 0x0A42 1 v))))
      ∧ (2 ≤ (look s.eng.arrays a).attempts → exec (.arrayFault a .poison) s
          = .next (withdraw a (clear (bump (arrayClk a) 0x0A42 1 v))))
      ∧ ((look s.eng.arrays a).attempts < 2 → exec (.arrayFault a (.window false)) s
          = .next (turnWindow a (setArray a (fun r => { r with window := r.window.drop 1 }) (again (clear v)))))
      ∧ (2 ≤ (look s.eng.arrays a).attempts → exec (.arrayFault a (.window false)) s = .next (withdraw a (clear v)))
      ∧ exec (.arrayFault a (.window true)) s = .next (logFault (arrayClk a) 2 4 0 1
          (dropGroup c l p (setArray a (fun x => { x with attempts := 0 }) (clear v))))
      ∧ exec (.arrayFault a .stepOutput) s = .next (replayStep c l false (clear v)))

/-- Selection faults (R258, R259) and mask jobs (R223). -/
def Obligations.TileFaultsAndMasks : Prop :=
  ∀ (s : State) (t : Fin 64), tileUp s t = true →
    let c : Fin 4 := Fin.ofNat 4 (t.val / 16)
    ((look s.eng.tiles t).selRetired = false → ∃ u, exec (.selectionUnitFault t) s = .next u
      ∧ (look u.eng.tiles t).selFaults = (look s.eng.tiles t).selFaults + 1
      ∧ (look u.eng.tiles t).masks = (look s.eng.tiles t).masks
      ∧ ((look s.eng.tiles t).selFaults = 0 → (look u.eng.tiles t).selRetired = false ∧ u.log = s.log
        ∧ (courseOf u c).recovery = (courseOf s c).recovery)
      ∧ (1 ≤ (look s.eng.tiles t).selFaults → (look u.eng.tiles t).selRetired = true ∧ (courseOf u c).recovery = true
        ∧ (courseOf u c).clean = 0)
      ∧ (∀ x, x ≠ t → look u.eng.tiles x = look s.eng.tiles x) ∧ u.obj = s.obj)
    ∧ (16 ≤ masksHeld s t ∨ stopped s (tileClk t) = true → exec (.maskJobDone t) s = .next s)
    ∧ (∀ e rest q g, (look s.eng.tiles t).masks = e :: rest → masksHeld s t < 16 → stopped s (tileClk t) = false →
      find? s.obj.seqs e = some q →
      seqGrammar s q = some g → ∃ u, exec (.maskJobDone t) s = .next u ∧ (look u.eng.tiles t).masks = rest
        ∧ find? u.obj.seqs e = some { q with maskReady := true }
        ∧ (∀ n, n ≠ e → find? u.obj.seqs n = find? s.obj.seqs n))

/-- The start of a step (R162, R166, R172). -/
def Obligations.StepBuilds : Prop :=
  ∀ (s : State) (c : Fin 4) (lane : Lane) (jobs : List Job),
    ((laneOf s c lane).step ≠ none ∨ courseActive s c = false ∨ stopped s (fabricClk c) = true →
      exec (.stepBuild c lane jobs) s = .next s ∧ exec (.fillWaitExpiry c lane jobs) s = .next s)
    ∧ ((laneOf s c lane).step = none → courseActive s c = true → stopped s (fabricClk c) = false →
      let u := atBoundary c lane s
      let xs := candidatesOf u c lane
      (xs = [] → exec (.stepBuild c lane jobs) s = .next u ∧ exec (.fillWaitExpiry c lane jobs) s = .next u)
      ∧ (xs ≠ [] → filled u lane xs = true → exec (.stepBuild c lane jobs) s = .next (buildStep c lane jobs false u))
      ∧ (xs ≠ [] → waited u c lane xs = true →
        exec (.stepBuild c lane jobs) s = .next (buildStep c lane jobs (!filled u lane xs) u)
        ∧ exec (.fillWaitExpiry c lane jobs) s = .next (buildStep c lane jobs (!filled u lane xs) u))
      ∧ (filled u lane xs = false → waited u c lane xs = false →
        exec (.stepBuild c lane jobs) s = .next u ∧ exec (.fillWaitExpiry c lane jobs) s = .next u)
      ∧ (waited u c lane xs = false → exec (.fillWaitExpiry c lane jobs) s = .next u))
    ∧ (∀ expired, let b := (buildGeneration s c jobs (newDeficits s (laneOf s c .generation)
          (firstMet ((candidatesOf s c .generation).map (·.tenant))))).1
      (b.rows = [] → buildStep c .generation jobs expired s = s)
      ∧ (b.rows ≠ [] → ((laneOf (buildStep c .generation jobs expired s) c .generation).step.map (·.rows)) = some b.rows
        ∧ (laneOf (buildStep c .generation jobs expired s) c .generation).deficits = b.deficits))

/-- The commit point and the release of a step (R159, R160, R172). -/
def Obligations.StepRelease : Prop :=
  ∀ (s : State) (c : Fin 4) (lane : Lane) (d : CommitData),
    ((laneOf s c lane).step = none ∨ courseActive s c = false ∨ stopped s (fabricClk c) = true ∨ chainsEmpty s c lane = false →
      exec (.stepCommit c lane d) s = .next s)
    ∧ (∀ st, (laneOf s c lane).step = some st →
      ((∃ r ∈ st.rows, rowEnded s r = false ∨ rowRuns s r = false) ∨ (lane = .retrieval ∧ st.crossed = false) →
        exec (.stepCommit c lane d) s = .next s)
      ∧ (courseActive s c = true → stopped s (fabricClk c) = false → chainsEmpty s c lane = true →
        (∀ r ∈ st.rows, rowEnded s r = true ∧ rowRuns s r = true) →
        (lane = .generation → exec (.stepCommit c lane d) s = .next
          (let w := commitAdoptions c (commitCancels c (foldS (fun s r => commitRow c st d r s) st.rows s))
          releaseStep c .generation (countClean c st.faulted (bump (fabricClk c) 0x0200 1 (settle c .generation st d w)))))
        ∧ (lane = .retrieval → st.crossed = true → exec (.stepCommit c lane d) s = .next
          (let w := foldS (fun s r => if r.kind = some .inLoop then commitLoop c r s else commitCommand r s) st.rows s
          releaseStep c .retrieval (bump (fabricClk c) 0x0201 1 (settle c .retrieval st d
            (if (courseOf w c).generation.step.isNone then commitAdoptions c w else w)))))))
    ∧ (∀ u, (laneOf (releaseStep c lane u) c lane).step = none ∧ (laneOf (releaseStep c lane u) c lane).lastRelease = u.now)

/-- The commit of a token (R160): shared by decode rows and the last chunk of a prefill. -/
def Obligations.TokenCommits : Prop :=
  ∀ (s : State) (row : Row) (fallback : Bool) (logits : List F32) (e : Nat) (q : Seq), find? s.obj.seqs e = some q →
    let x := selectToken (selectParams s e q fallback) (rowMask s q) logits q.tokens.length
    let t := commitToken row fallback logits e s
    (∃ q', find? t.obj.seqs e = some q' ∧ q'.tokens = q.tokens ++ [x.token] ∧ q'.generated = q.generated + 1
      ∧ (seqGrammar s q = none ∨ trigger? q = some x.token → q'.ctx = q.ctx)
      ∧ (∀ g, seqGrammar s q = some g → trigger? q ≠ some x.token → q'.ctx = advanceGrammar g q.ctx x.token))
    ∧ (look t.tenants q.tenant).tokensCommitted = (look s.tenants q.tenant).tokensCommitted + 1
    ∧ (∀ n, n ≠ q.tenant → look t.tenants n = look s.tenants n)

/-- Moves of sequences that the device orders (R178 to R181, R486). -/
def Obligations.SequenceMovesByDevice : Prop :=
  ∀ (s : State), awake s = true →
    (∀ e q c, find? s.obj.seqs e = some q → waitsRestore q = true → restoreFirst s e q = true → seqFits s q c = true →
      (c = q.course ∨ seqFits s q q.course = false) →
      exec (.sequenceRestore e c) s = .next (setSeq e (fun q => { q with swap := .restoring c })
        (orderMove { obj := .seq e, toFlash := false, device := true, units := 1 } s)))
    ∧ (∀ c, (courseOf s c).lost = false → islandUp s (fabricClk c) = true →
      (rowsLackPages s c = true ∨ restoreLacksPages s = true) →
      (∀ q ∈ s.obj.seqs, ¬ (q.2.course = c ∧ holdsSwap q.2 = true ∧ q.2.inFlash = false)) →
      let l := evictOrder s c
      let skipped := (l.takeWhile (fun q => !swapFits s q.2)).length
      let u := bump (fabricClk c) 0x0207 skipped s
      (∀ q, l[skipped]? = some q → exec (.sequenceEvict c) s = .next (setSeq q.1 (fun q => { q with swap := .evicting none })
        (orderMove { obj := .seq q.1, toFlash := true, device := true, units := 1 } u)))
      ∧ (l[skipped]? = none → exec (.sequenceEvict c) s = .next u))
    ∧ (∀ e q c, find? s.obj.seqs e = some q → leavesCourse s q.course = true → q.inFlash = false → q.state ≠ .done →
      q.swap = .none → atStepBoundary s e q = true → c ≠ q.course → seqFits s q c = true → leavesCourse s c = false →
      exec (.sequenceRelocate e c) s = .next (setSeq e (fun q => { q with swap := .relocating c })
        (orderMove { obj := .seq e, toFlash := false, device := true, units := 1 } s)))

/-- TIER_MOVE, MOVE_QUERY and the move protocol of Hod (R366 to R376), for moves that a command orders. -/
def Obligations.TierMoves : Prop :=
  ∀ s : State,
    (∀ (id : Nat) (c : Cmd) (slot : Nat) (x : Index), Runs s id 0x0503 c → c.begun = false → c.arg 0 1 = 1 →
      indexOf s c.sid c.handle = some (slot, x) →
      ∀ (flash : Bool) (m : Move), flash = (c.arg 1 1 == 1) →
      m = { obj := .corpus slot, toFlash := flash, first := c.arg 8 8, units := c.arg 16 8 } →
      let left := unitsLeft s m
      let before := (recordsIn s slot m.first m.units).length - left.length
      let bytes := sumBy (fun n => n) (left.map (unitBytes s m.obj))
      let blocks := sumBy blocksOf (left.map (unitBytes s m.obj))
      let room := if flash then decide (blocks ≤ flashFree s) && mapFits s blocks else spreadFits s (idxCourses x) bytes
      (left = [] → exec (.tierMove id) s = .next (finish c { value := before % 2 ^ 32 * 2 ^ 32 } s))
      ∧ (left ≠ [] → ∀ q, quotaStops s c.tenant flash bytes = some q →
          exec (.tierMove id) s = .next (fail c .quotaExceeded q (letGo c s)))
      ∧ (left ≠ [] → quotaStops s c.tenant flash bytes = none → flash = true → flashReadOnly s = true →
          exec (.tierMove id) s = .next (fail c .flashReadOnly 0 (letGo c s)))
      ∧ (left ≠ [] → quotaStops s c.tenant flash bytes = none → (flash && flashReadOnly s) = false → room = false →
          exec (.tierMove id) s = .next (fail c .moveNoRoom 0 (letGo c s)))
      ∧ (left ≠ [] → quotaStops s c.tenant flash bytes = none → (flash && flashReadOnly s) = false → room = true →
          exec (.tierMove id) s = .next (setCmd c.id (fun x => { x with begun := true })
            (orderMove { m with ordered := left.length, already := before, cmd := some c.id } s))))
    ∧ (∀ (id : Nat) (c : Cmd) (slot : Nat) (m : Model), Runs s id 0x0503 c → c.begun = false → c.arg 0 1 = 0 →
      modelOf s c.sid c.handle = some (slot, m) →
      let ok := if c.arg 1 1 = 1 then m.state = .ready ∧ bindingsBefore s slot c.id = 0 else m.state = .cold
      (c.holds = false → ¬ ok → exec (.tierMove id) s = .next (fail c .stateConflict (3 + 256 * m.state.code) s))
      ∧ (c.holds = true ∨ ok → quotaStops s c.tenant (c.arg 1 1 == 1) (modelUnit s slot) = none → flashReadOnly s = false →
          (if c.arg 1 1 = 1 then flashFits s (modelUnit s slot)
            else homeFits s m.home (modelUnit s slot) (reserveWith s m.image)) = true →
          ∃ t, exec (.tierMove id) s = .next t ∧ (find? t.obj.models slot).map (·.state) = (find? s.obj.models slot).map (fun _ => .moving)
            ∧ find? t.eng.moves s.eng.nextMove = find? (s.eng.moves.filter (fun x => !(x.2.obj == .model slot && !moveRuns x.2))
                ++ [(s.eng.nextMove, { obj := .model slot, toFlash := c.arg 1 1 == 1, units := 1, cmd := some c.id })]) s.eng.nextMove))
    ∧ (∀ (id : Nat) (c : Cmd), Runs s id 0x0504 c →
      (∀ slot, objOf s c.sid c.handle = some (.model slot) →
        exec (.moveQuery id) s = .next (finish c (c.answer.getD (recordResult s c (moveRecord c.handle 0 (latestMove s (.model slot))) {})) s))
      ∧ (∀ slot, objOf s c.sid c.handle = some (.index slot) →
        exec (.moveQuery id) s = .next (finish c (c.answer.getD (recordResult s c (moveRecord c.handle 0 (latestOfIndex s slot)) {})) s))
      ∧ (∀ e, objOf s c.sid c.handle = some (.seq e) →
        exec (.moveQuery id) s = .next (finish c (c.answer.getD (recordResult s c (moveRecord c.handle 3 (latestMove s (.seq e))) {})) s)))
    ∧ (∀ (h k : Nat) (m : Option Move), (moveRecord h k m).length = 48)
    ∧ (∀ (k slot u : Nat) (m : Move), find? s.eng.moves k = some m → m.obj = .corpus slot →
      (m.unit = none → awake s = true → (unitsLeft s m).head? = some u → mayStart s k m = true →
        let f := hodDone s (unitBytes s m.obj u)
        let v := setMove k (fun x => { x with ready := max (s.now + unitTime s m.obj u) f })
          { s with flash := { s.flash with hodFree := f } }
        exec (.moveUnitStart k) s = .next (setMove k (fun x =>
          reserveUnit v u { x with state := .copying, unit := some u, attempts := 0 }) v))
      ∧ (m.unit = some u → s.now < m.ready ∨ unitRuns s m.obj u = false → ∀ r, exec (.moveUnitVerify k r) s = .next s)
      ∧ (m.unit = some u → m.ready ≤ s.now → unitRuns s m.obj u = true → swapCancelled s m = none →
        ∃ t, exec (.moveUnitVerify k .ok) s = .next t
          ∧ find? (corpusOf t slot) u = (find? (corpusOf s slot) u).map (fun r => { r with inFlash := m.toFlash })
          ∧ (∀ i, i ≠ u → find? (corpusOf t slot) i = find? (corpusOf s slot) i)
          ∧ ∃ m', find? t.eng.moves k = some m' ∧ m'.unit = none ∧ m'.committed = m.committed + 1
            ∧ m'.bytes = m.bytes + unitBytes s m.obj u ∧ m'.abandoned = m.abandoned ∧ m'.cursor = u + 1)
      ∧ (m.unit = some u → m.ready ≤ s.now → unitRuns s m.obj u = true → m.attempts = 0 →
        let w := setMove k (fun m => { m with attempts := 1 }) s
        ∃ t, exec (.moveUnitVerify k .mismatch) s = .next t ∧ t.obj = s.obj
          ∧ find? t.eng.moves k = some { m with
              attempts := 1
              ready := max (w.now + unitTime w m.obj u) (hodDone w (unitBytes w m.obj u)) })
      ∧ (m.unit = some u → m.ready ≤ s.now → unitRuns s m.obj u = true → m.attempts ≠ 0 →
        ∃ t, exec (.moveUnitVerify k .mismatch) s = .next t ∧ t.obj = s.obj
          ∧ ∃ m', find? t.eng.moves k = some m' ∧ m'.unit = none ∧ m'.abandoned = m.abandoned + 1 ∧ m'.committed = m.committed))
    ∧ (∀ (k : Nat) (m : Move), find? s.eng.moves k = some m → ∃ t m', exec (.moveOldHomeRelease k) s = .next t
        ∧ find? t.eng.moves k = some m' ∧ m'.heldLp = [] ∧ m'.heldFlash = 0 ∧ m'.heldSwap = 0
        ∧ (m.state = .draining → m'.state = .idle) ∧ t.obj = s.obj)

/-- LPDDR6 channels (R359 to R361, R380, R381). That AUTO_RETRAIN logs a course without a spare as class 1 follows
R361 by inference (log 42). -/
def Obligations.ChannelEvacuation : Prop :=
  ∀ s : State,
    (∀ (id : Nat) (c : Cmd) (i : Instr) (action : Nat) (ch : Fin 96),
      (i = .channelRetrain id ∧ action = 0 ∨ i = .channelActivateSpare id ∧ action = 1) → Runs s id 0x0F08 c →
      c.begun = false → c.arg 1 1 = action → ch = Fin.ofNat 96 (c.arg 0 1) →
      (channelAtRole s ch ≠ .active → exec i s = .next (fail c .channelNotActive (channelAtRole s ch).code s))
      ∧ (channelAtRole s ch = .active → spareOf s (ch.val / 24) = none → exec i s = .next (fail c .noSpare 0 s))
      ∧ (∀ r, channelAtRole s ch = .active → spareOf s (ch.val / 24) = some r →
        (∀ k e, evacuatingIn s (ch.val / 24) = some (k, e) →
          exec i s = .next (fail c .stateConflict (0x0C + 256 * evacState e) s))
        ∧ (evacuatingIn s (ch.val / 24) = none →
          r.val / 24 = ch.val / 24 ∧ channelAtRole s r = .spare
          ∧ (∀ x : Fin 96, x.val / 24 = ch.val / 24 → channelAtRole s x = .spare →
              islandUp s (channelClk x) = true → x ≤ r)
          ∧ ∃ t, exec i s = .next t ∧ channelAtRole t ch = .evacuating ∧ channelAtRole t r = .receiving
            ∧ (∀ x, x ≠ ch → x ≠ r → look t.eng.channels x = look s.eng.channels x)
            ∧ find? t.eng.evacuations ch = some { receiver := r, action, cmd := some c.id }
            ∧ t.cmds = s.cmds.map (fun x => if x.id == c.id then { x with begun := true } else x)
            ∧ (∃ n, (s.eng.nextMove, ({ obj := .evacuation ch, device := true, units := n, ordered := n } : Move)) ∈ t.eng.moves)
            ∧ t.obj = s.obj ∧ t.islands = s.islands)))
    ∧ (∀ (course : Fin 4) (ch : Fin 96) (e : Evacuation) (p : Nat), evacuatingIn s course.val = some (ch, e) →
      find? s.eng.evacuations ch = some e → e.switched = false → awake s = true →
      (look s.eng.channels ch).position = some p → migratesAt s p = false → allCopied s ch = true → e.receiver ≠ ch →
      ∃ t, exec (.evacuationMapSwitch course) s = .next t
        ∧ look t.eng.channels e.receiver = { look s.eng.channels e.receiver with role := .active, position := some p }
        ∧ look t.eng.channels ch = { look s.eng.channels ch with position := none }
        ∧ (∀ x, x ≠ ch → x ≠ e.receiver → look t.eng.channels x = look s.eng.channels x)
        ∧ ∃ e', find? t.eng.evacuations ch = some e' ∧ e'.switched = true ∧ e'.bytes = copiedBytes s ch
          ∧ e'.action = e.action ∧ e'.cmd = e.cmd)
    ∧ (∀ (course : Fin 4) (ch : Fin 96) (e : Evacuation), evacuatingIn s course.val = some (ch, e) →
      e.switched = true → s.eng.walks.any (fun w => e.walks.contains w.id) = false →
      (e.action = 0 → ∃ t, exec (.evacuationDrainDone course) s = .next t ∧ channelAtRole t ch = .training
        ∧ t.eng.evacuations = s.eng.evacuations)
      ∧ (e.action = 1 ∨ e.action = 2 → ∃ t, exec (.evacuationDrainDone course) s = .next t
        ∧ channelAtRole t ch = .retired ∧ (look t.islands (channelClk ch)).retired = true
        ∧ find? t.eng.evacuations ch = none)
      ∧ (e.action = 3 → ∃ t, exec (.evacuationDrainDone course) s = .next t ∧ channelAtRole t ch = .spare
        ∧ find? t.eng.evacuations ch = none))
    ∧ (∀ ch : Fin 96, channelAtRole s ch = .training →
      (∃ t, exec (.channelTrainingDone ch true) s = .next t ∧ channelAtRole t ch = .testing
        ∧ look t.counters (channelClk ch, 0x060B) = (look s.counters (channelClk ch, 0x060B) + 1) % 2 ^ 64)
      ∧ ∃ t, exec (.channelTrainingDone ch false) s = .next t ∧ channelAtRole t ch = .retired
        ∧ (look t.islands (channelClk ch)).retired = true ∧ find? t.eng.evacuations ch = none)
    ∧ (∀ (ch : Fin 96) (e : Evacuation) (c : Cmd), channelAtRole s ch = .testing → find? s.eng.evacuations ch = some e →
      e.cmd.bind (findCmd s) = some c →
      exec (.channelTestDone ch true) s = .next (finish c { value := e.bytes, detail := Role.spare.code }
          { s with eng := { s.eng with
            channels := upd s.eng.channels ch (fun k => { k with role := .spare })
            evacuations := del s.eng.evacuations ch
            moves := s.eng.moves.filter (fun m => !(m.2.obj == .evacuation ch)) } })
      ∧ ∃ t, exec (.channelTestDone ch false) s = .next t ∧ channelAtRole t ch = .retired
        ∧ (look t.islands (channelClk ch)).retired = true ∧ find? t.eng.evacuations ch = none)
    ∧ (∀ ch : Fin 96, awake s = true → needsRetrain s (look s.eng.channels ch) = true →
      let done := upd s.eng.channels ch (fun k => { k with retuneFailed := false, corrected := [] })
      (spareOf s (ch.val / 24) = none → exec (.autoRetrain ch) s
        = .next (logFault (channelClk ch) 1 0 0 1 { s with eng := { s.eng with channels := done } }))
      ∧ (∀ r, spareOf s (ch.val / 24) = some r → evacuatingIn s (ch.val / 24) = none →
        ∃ t, exec (.autoRetrain ch) s = .next t ∧ channelAtRole t ch = .evacuating ∧ channelAtRole t r = .receiving
          ∧ find? t.eng.evacuations ch = some { receiver := r, action := 0, cmd := none }))
    ∧ (∀ (ch : Fin 96) (drift : Nat) (ok : Bool), awake s = true → trained (channelAtRole s ch) = true →
      islandUp s (channelClk ch) = true → calDue s ch = true →
      ∃ t, exec (.channelCalibration ch drift ok) s = .next t
        ∧ look t.eng.channels ch = { look s.eng.channels ch with
            lastCal := some s.now
            retuneFailed := (look s.eng.channels ch).retuneFailed || (decide (4 < drift) && !ok) }
        ∧ look t.counters (channelClk ch, 0x0609) = (look s.counters (channelClk ch, 0x0609) + 1) % 2 ^ 64
        ∧ (look t.islands (channelClk ch)).relockEnd
          = max (look s.islands (channelClk ch)).relockEnd (s.now + calHold s ch drift)
        ∧ look t.counters (channelClk ch, 0x060A)
          = if 4 < drift then (look s.counters (channelClk ch, 0x060A) + 1) % 2 ^ 64
            else look s.counters (channelClk ch, 0x060A))

/-- ISLAND_RETIRE (R481 to R485). The drain of R482 and the move of R483 end within one event (logs 47 and 48). -/
def Obligations.IslandRetirement : Prop :=
  ∀ (s : State) (id : Nat) (c : Cmd) (clk : ClockId), Runs s id 0x0F07 c → clk = BitVec.ofNat 16 (c.arg 0 2) →
    ((look s.islands clk).retired = true → exec (.islandRetire id) s = .next (finish c {} s))
    ∧ ((look s.islands clk).retired = false →
      (∀ a, islandName clk = some (.array a) → (look s.islands clk).leaving = false →
        (arraysUp s (courseOfArray a) = [a] → exec (.islandRetire id) s = .next (fail c .lastInCourse 0 s))
        ∧ (arraysUp s (courseOfArray a) ≠ [a] → exec (.islandRetire id) s = .next (leaveIslands (courseOfArray a)
            { s with
              cmds := s.cmds.map (fun x => if x.id == c.id then { x with begun := true } else x)
              islands := upd s.islands clk (fun i => { i with leaving := true, leaver := some c.id }) })))
      ∧ (∀ a, islandName clk = some (.tile a) → (look s.islands clk).leaving = false →
        (tilesUp s (courseOfTile a) = [a] → exec (.islandRetire id) s = .next (fail c .lastInCourse 0 s))
        ∧ (tilesUp s (courseOfTile a) ≠ [a] → exec (.islandRetire id) s = .next (leaveIslands (courseOfTile a)
            { s with
              cmds := s.cmds.map (fun x => if x.id == c.id then { x with begun := true } else x)
              islands := upd s.islands clk (fun i => { i with leaving := true, leaver := some c.id }) })))
      ∧ (∀ q, islandName clk = some (.store q) →
        (moveStore q s = none → exec (.islandRetire id) s = .next (fail c .moveNoRoom 0 s))
        ∧ (∀ s', moveStore q s = some s' → ∃ u, exec (.islandRetire id) s = .next (finish c {} u)
            ∧ (look u.islands (storeClk q)).retired = true ∧ u.obj = s'.obj))
      ∧ (∀ q, islandName clk = some (.fabric q) →
        (otherCourses s q = [] → exec (.islandRetire id) s = .next (fail c .islandInUse 0 s))
        ∧ (otherCourses s q ≠ [] → (look s.islands (fabricClk q)).leaver = none → courseBusy s q = true →
          ∃ t moved, exec (.islandRetire id) s = .next t
            ∧ t = { s with
                cmds := s.cmds.map (fun x => if x.id == c.id then { x with begun := true, moved } else x)
                islands := upd s.islands (fabricClk q) (fun i => { i with leaving := true, leaver := some c.id }) }))
      ∧ (∀ ch, islandName clk = some (.channel ch) → c.begun = false →
        exec (.islandRetire id) s = .next (orderEvacuation c ch 2 s))
      ∧ (∀ p, islandName clk = some (.port p) →
        let o := look s.host.ports (otherPort p)
        (p ≠ s.host.primary → ∃ t, exec (.islandRetire id) s = .next t ∧ t = leavePort p (finish c {} s)
          ∧ (look t.islands (portClk p)).retired = true)
        ∧ (p = s.host.primary → (o.link && !o.retired) = false →
          exec (.islandRetire id) s = .next (fail c .islandInUse 0 s))
        ∧ (p = s.host.primary → (o.link && !o.retired) = true →
          ∃ t, exec (.islandRetire id) s = .next t ∧ t = leavePort p (finish c {} (failover s))
            ∧ (look t.islands (portClk p)).retired = true))
      ∧ (∀ f, islandName clk = some (.flash f) →
        (drainFits s (flashDies s f c.imm) = false → exec (.islandRetire id) s = .next (fail c .moveNoRoom 0 s))
        ∧ (drainFits s (flashDies s f c.imm) = true → bitOf c.imm 4 = true →
          exec (.islandRetire id) s = .next (finish c {} (drainDies (flashDies s f c.imm) s)))
        ∧ (drainFits s (flashDies s f c.imm) = true → bitOf c.imm 4 = false →
          ∃ u, exec (.islandRetire id) s = .next (finish c {} u)
            ∧ u = leaveNow (flashClk f) (drainDies (flashDies s f c.imm) s)
            ∧ (look u.islands (flashClk f)).retired = true)))

/-- Faults (R461 to R467), patrols (R354, R356, R459), refresh (R357, R358) and the fault log (R463). -/
def Obligations.FaultsAndPatrols : Prop :=
  ∀ s : State,
    (∀ (clk : ClockId) (r : FaultReport), s.dev.stage = .service → (islandName clk).isSome = true → islandUp s clk = true →
      let t := channelErrors clk r (bump clk 0x0A43 r.count s)
      (r.cls = 1 → exec (.islandFaultReport clk r) s = .next (bump clk 0x0A40 r.count t))
      ∧ (r.cls = 2 → exec (.islandFaultReport clk r) s = .next (uncorrectable clk r.addr r.count (reach r.datum t)))
      ∧ (r.cls = 3 → exec (.islandFaultReport clk r) s = .next (logFault clk 3 1 r.addr r.count t))
      ∧ (4 ≤ r.cls → r.cls ≤ 9 → exec (.islandFaultReport clk r) s = .next (logFault clk r.cls 0 r.addr r.count t))
      ∧ (∀ ch u, islandName clk = some (.channel ch) →
        (r.cls = 1 → channelErrors clk r u = correctedWords ch r.count u)
        ∧ (r.cls = 2 → channelErrors clk r u = bump clk (if r.tag then 0x0606 else 0x0605) r.count u)))
    ∧ (∀ (clk : ClockId) (addr n : Nat), 0 < n →
      let errors := recentErrors s clk ++ List.replicate (min n 16) s.now
      (errors.length < 16 → uncorrectable clk addr n s = { logFault clk 2 4 addr n (bump clk 0x0A41 n s) with
          islands := upd s.islands clk (fun i => { i with errors }) })
      ∧ (16 ≤ errors.length → uncorrectable clk addr n s = autoRetire clk
          { logFault clk 2 4 addr n (bump clk 0x0A41 n s) with islands := upd s.islands clk (fun i => { i with errors }) }))
    ∧ (∀ (clk : ClockId) (cls action addr n : Nat), s.log.entries.length ≤ 65536 →
      let t := logFault clk cls action addr n s
      t.log.entries.length ≤ 65536
      ∧ t.log.entries.getLast? = some { seq := s.log.next, time := s.now, clk, cls, action, addr, count := n }
      ∧ (s.log.entries.length < 65536 → t.log.entries = s.log.entries
          ++ [{ seq := s.log.next, time := s.now, clk, cls, action, addr, count := n }])
      ∧ (t.pins.alert = true ↔ s.pins.alert = true ∨ 5 ≤ cls) ∧ { t with log := s.log, pins := s.pins } = s)
    ∧ (∀ clk : ClockId, s.dev.stage = .service → (islandName clk).isSome = true → islandUp s clk = true →
      let i := look s.islands clk
      let n := if i.misses ≠ 0 ∧ s.now - i.missAt ≤ 100000 then i.misses + 1 else 1
      let counted := upd s.islands clk (fun i => { i with misses := n, missAt := s.now })
      (n < 3 → exec (.heartbeatMiss clk) s
          = .next { s with islands := counted })
      ∧ (3 ≤ n → exec (.heartbeatMiss clk) s = .next (autoRetire clk
          { s with islands := upd counted clk (fun i => { i with misses := 0 }) })))
    ∧ (∀ (clk : ClockId) (corrected : Nat), s.dev.stage = .service → (islandName clk).isSome = true →
      islandUp s clk = true → stopped s clk = false → (look s.islands clk).patrolAt = none →
      exec (.sramPatrol clk corrected 0) s = .next { s with
        islands := upd s.islands clk (fun i => { i with patrolAt := some s.now })
        counters := upd s.counters (clk, 0x0A40) (fun v => (v + corrected) % 2 ^ 64) })
    ∧ (∀ (ch : Fin 96) (d : ScrubData), awake s = true → islandUp s (channelClk ch) = true → scrubDue s ch = true →
      (channelAtRole s ch = .active ∨ channelAtRole s ch = .evacuating ∨ channelAtRole s ch = .receiving →
        d.doubleErrors = 0 → d.tagErrors = 0 → ∃ t, exec (.lpddr6PatrolScrub ch d) s = .next t
          ∧ look t.counters (channelClk ch, 0x0608) = (look s.counters (channelClk ch, 0x0608) + d.slots) % 2 ^ 64
          ∧ look t.counters (channelClk ch, 0x0604) = (look s.counters (channelClk ch, 0x0604) + d.corrected) % 2 ^ 64
          ∧ (look t.eng.channels ch).scrubAt = some s.now ∧ channelAtRole t ch = channelAtRole s ch ∧ t.islands = s.islands)
      ∧ (channelAtRole s ch = .spare → d.patternOk = true → exec (.lpddr6PatrolScrub ch d) s = .next { s with
          eng := { s.eng with channels := upd s.eng.channels ch (fun k => { k with scrubAt := some s.now }) } })
      ∧ (channelAtRole s ch = .spare → d.patternOk = false → ∃ t, exec (.lpddr6PatrolScrub ch d) s = .next t
          ∧ channelAtRole t ch = .retired ∧ (look t.islands (channelClk ch)).retired = true))
    ∧ (∀ (p : Fin 24) (r : RefreshRange), awake s = true →
      ∃ t, exec (.refreshTempPoll p r) s = .next t
        ∧ (∀ ch : Fin 96, ch.val / 4 = p.val → channelAtRole s ch ≠ .retired →
            look t.eng.channels ch = refreshOf r (look s.eng.channels ch))
        ∧ (∀ ch : Fin 96, ch.val / 4 ≠ p.val ∨ channelAtRole s ch = .retired →
            look t.eng.channels ch = look s.eng.channels ch))
    ∧ (∀ c : Fin 4, s.dev.stage = .service → (courseOf s c).lost = false → islandUp s (fabricClk c) = true →
      let u := { s with dev := { s.dev with supervisorMismatch := put s.dev.supervisorMismatch c s.now } }
      (find? s.dev.supervisorMismatch c = none → exec (.supervisorLockstepMismatch c) s = .next
        (replayStep c .retrieval true (replayStep c .generation true (count 0x0A21 1 (logFault (fabricClk c) 4 2 0 1 u)))))
      ∧ (∀ t, find? s.dev.supervisorMismatch c = some t → s.now - t < 1000000000 →
        exec (.supervisorLockstepMismatch c) s = .next (loseCourse c (logFault (fabricClk c) 6 4 0 1 u))))
    ∧ (∀ (id : Nat) (c : Cmd), Runs s id 0x0F0B c → gate s c.op c.tenant ≠ .held →
      let es := ((visibleLog s).filter (fun e => c.arg 0 4 ≤ e.seq)).take (c.arg 4 4)
      let out := es.take (c.outLen / 32)
      let newest := ((s.log.entries.getLast?).map (·.seq)).getD 0
      let bytes := [(outputOffset s, out.flatMap FaultEntry.bytes)]
      (32 * c.arg 4 4 ≤ c.outLen → exec (.faultLogRead id) s = .next (finish c
          { count := 32 * out.length, value := out.length, detail := newest, writes := bytes } s))
      ∧ (c.outLen < 32 * c.arg 4 4 → exec (.faultLogRead id) s = .next (finish c
          { status := .partialDone, effect := if out.isEmpty then .none else .part, count := 32 * out.length
            value := out.length, detail := newest, writes := bytes } s)))
    ∧ (∀ e : FaultEntry, e.bytes.length = 32)
    ∧ (s.dev.stage = .service → 10000000000 ≤ s.now - s.log.savedAt → exec .faultLogSave s = .next { s with
        log := { s.log with nor := s.log.entries.drop (s.log.entries.length - 1024), savedAt := s.now } })

/-- The flash tier's own work (R392 to R407): folding, collection, erase, journal, calibration and reads of closed
bands keep every block's bytes; lost blocks come from failed reads and dies. -/
def Obligations.FlashMaintenance : Prop :=
  (∀ (v : BlockState) (lba : Nat) (n : Namespace), (blocksOk n.blocks = true → blocksOk (setBlock v lba n.blocks) = true)
      ∧ ∀ j, blockAt { n with blocks := setBlock v lba n.blocks } j = if j = lba then some v else blockAt n j)
  ∧ ∀ s : State,
    (∀ i : Instr, ((∃ nsid lba, i = .flashProgramDone nsid lba false) ∨ i = .foldStart ∨ i = .gcStart ∨ i = .journalFlush
        ∨ (∃ b, i = .bandCloseVerify b none) ∨ (∃ b f, i = .flashEraseDone b f) ∨ (∃ b soft, i = .closedBandRead b soft)
        ∨ (∃ c, i = .flashCalibration c)) →
      ∃ t, exec i s = .next t ∧ ∀ nsid lba,
        (find? t.flash.namespaces nsid).map (fun n => (blockAt n lba).map blockBytes)
          = (find? s.flash.namespaces nsid).map (fun n => (blockAt n lba).map blockBytes))
    ∧ (∀ (nsid lba : Nat) (x : Staged), s.flash.staging.find? (fun y => y.nsid == nsid && y.lba == lba) = some x →
        runsOnDie s (.program nsid lba) = true →
      exec (.flashProgramDone nsid lba false) s = .next (issueFlash
        (bump (flashClk (Fin.ofNat 16 (dieOf s.flash x.band x.idx / 16))) 0x080A 4096
          { s with flash := { s.flash with staging := s.flash.staging.filter (fun y => !(y.nsid == nsid && y.lba == lba)) } }))
      ∧ exec (.flashProgramDone nsid lba true) s = .next (issueFlash (retireDieBlock (dieOf s.flash x.band x.idx)
        (rewriteBlocks x.band (dieOf s.flash x.band x.idx)
          (restage (dieOf s.flash x.band x.idx) (some x.band) (closeBand x.band s))))))
    ∧ (∀ (nsid lba : Nat) (failed : Bool), s.flash.staging.find? (fun y => y.nsid == nsid && y.lba == lba) = none
        ∨ runsOnDie s (.program nsid lba) = false → exec (.flashProgramDone nsid lba failed) s = .next s)
    ∧ (∀ b : Nat, s.flash.folds.find? (fun f => f.dst == b) = none → bandFull s b = true →
      ∃ t, exec (.bandCloseVerify b none) s = .next t ∧ (look t.flash.bands b).closed = true ∧ t.flash.writeBand ≠ some b)
    ∧ (∀ (b ch : Nat) (f : Fold), s.flash.folds.find? (fun f => f.dst == b) = some f → ∃ t,
      exec (.bandCloseVerify b (some ch)) s = .next t ∧ t.flash.namespaces = s.flash.namespaces
        ∧ (look t.flash.bands b).erasing = true ∧ t.flash.folds = s.flash.folds.filter (fun f => f.dst != b)
        ∧ look t.flash.retired (ch % 16 * 16 + bandRow s.flash b) = look s.flash.retired (ch % 16 * 16 + bandRow s.flash b) + 1)
    ∧ (awake s = true → freeOneBit s * 100 < s.dev.cfg.flash.foldPct * oneBitBands s.flash →
      exec .foldStart s = .next (issueFlash (startFold false (foldSources s) s)))
    ∧ (∀ b, awake s = true → freeQlc s < s.dev.cfg.flash.gcStart → victim s = some b →
      exec .gcStart s = .next (issueFlash (startFold true [b] s)))
    ∧ (∀ (b : Nat) (failed : List Nat), (look s.flash.bands b).erasing = true → runsOnDie s (.erase b) = true →
      ∃ t, exec (.flashEraseDone b failed) s = .next t ∧ look t.flash.bands b = { look s.flash.bands b with
        erasing := false, free := true, closed := false, next := 0, worn := false
        erases := (look s.flash.bands b).erases + 1 })
    ∧ (s.dev.stage = .service → s.flash.journal ≠ 0 →
        s.dev.cfg.flash.flushMs * 1000000 ≤ s.now - s.flash.journalAt →
      ∃ t, exec .journalFlush s = .next t ∧ t.flash.journal = 0
        ∧ ∀ nsid, (find? t.flash.namespaces nsid).map (·.journalled) = (find? s.flash.namespaces nsid).map (·.blocks))
    ∧ (∀ (b : Nat) (soft : Bool) (r : Band), awake s = true → find? s.flash.bands b = some r → r.closed = true →
        r.erasing = false → r.readAt / aWeek < s.now / aWeek →
      exec (.closedBandRead b soft) s = .next { s with flash := { s.flash with
        bands := upd s.flash.bands b (fun r => { r with readAt := s.now, worn := r.worn || soft }) } })
    ∧ (∀ ch : Fin 16, awake s = true → islandUp s (flashClk ch) = true → look s.flash.calAt ch.val + 64000000 ≤ s.now →
      exec (.flashCalibration ch) s = .next { s with flash := { s.flash with calAt := put s.flash.calAt ch.val s.now } })
    ∧ (∀ (nsid lba : Nat) (n : Namespace) (bytes : List Byte) (b i : Nat), find? s.flash.namespaces nsid = some n →
        blockAt n lba = some (.mapped bytes b i) →
        s.flash.staging.any (fun x => x.nsid == nsid && x.lba == lba) = false →
      let die := dieOf s.flash b i
      exec (.flashReadDone nsid lba .decoded) s = .next s
      ∧ exec (.flashReadDone nsid lba .retried) s = .next (bumpDie die 0x0805 1 s)
      ∧ exec (.flashReadDone nsid lba .soft) s = .next (bumpDie die 0x0806 1 (bumpDie die 0x0805 1 s))
      ∧ exec (.flashReadDone nsid lba .lost) s = .next (dieError die (b * 2 ^ 32 + i / 4)
          (setNamespace nsid (fun n => { n with blocks := setBlock .lost lba n.blocks })
            (bumpDie die 0x0808 1 (bumpDie die 0x0806 1 (bumpDie die 0x0805 1 s))))))
    ∧ (∀ die : Fin 256, s.dev.stage = .service → die.val ∉ s.flash.failedDies → die.val % 16 < s.flash.dieRows →
        s.flash.folds = [] → s.flash.bands.all (fun b => b.2.closed || b.2.free) = true →
        s.flash.staging.all (fun x => dieOf s.flash x.band x.idx != die.val) = true →
      ∃ t, exec (.flashDieFail die) s = .next t ∧ t.flash.failedDies = s.flash.failedDies ++ [die.val]
        ∧ t.flash.scans = s.flash.scans ++ [die.val] ∧ t.flash.scanAt = max s.flash.scanAt s.now + scanTime s ∧ t.flash.namespaces = s.flash.namespaces
        ∧ t.log.next = (s.log.next + 1) % 2 ^ 32)
    ∧ (s.dev.stage = .service → s.flash.scans ≠ [] → s.flash.scanAt ≤ s.now → ∃ t, exec .mapScanDone s = .next t ∧ t.flash.scans = []
      ∧ ∀ nsid, (find? t.flash.namespaces nsid).map (·.blocks) = (find? s.flash.namespaces nsid).map (fun n =>
          n.blocks.map (fun b => match b.2 with
            | .mapped _ k i =>
              if (look s.flash.bands k).closed && s.flash.scans.contains (dieOf s.flash k i) then (b.1, .lost) else b
            | .lost => b)))

/-- The NVMe controllers of PF1 (R410 to R417, R513). What the structures of Identify and of the standard log pages
hold is outside the spec (log 21). -/
def Obligations.NvmeAdmin : Prop :=
  ∀ (s : State) (c : Fin 2) (cid : Nat),
    (∀ a b, s.dev.stage = .service → nvmeAllowed s = true → (look s.host.ports c).link = true →
      (ctrlOf s c).enabled = false → 2 ≤ a → a ≤ 4096 → 2 ≤ b → b ≤ 4096 →
      exec (.nvmeControllerEnable c a b) s = .next { s with nvme := upd s.nvme c (fun _ =>
        { enabled := true, sqs := [(0, { size := a })], cqs := [(0, { size := b })] }) })
    ∧ ((look s.host.ports c).link = true → exec (.nvmeControllerReset c) s = .next { s with
        nvme := put s.nvme c {}
        flash := { s.flash with waiting := s.flash.waiting.filter (fun w => w.ctrl != c) } })
    ∧ (∀ q n k, (ctrlOf s c).enabled = true → (look s.host.ports c).link = true →
      (find? (ctrlOf s c).sqs q = some k → n < k.size → exec (.nvmeSqTailDoorbell c q n) s
        = .next { s with nvme := upd s.nvme c (fun x => { x with sqs := adj x.sqs q (fun y => { y with tail := n }) }) })
      ∧ (find? (ctrlOf s c).sqs q = some k → k.size ≤ n →
          exec (.nvmeSqTailDoorbell c q n) s = .next (nvmeEvent c evError s))
      ∧ (find? (ctrlOf s c).cqs q = some k → k.held = [] → n < k.size → exec (.nvmeCqHeadDoorbell c q n) s = .next
          { s with nvme := upd s.nvme c (fun x => { x with cqs := adj x.cqs q (fun y => { y with head := n, held := [] }) }) })
      ∧ (find? (ctrlOf s c).cqs q = some k → k.size ≤ n →
          exec (.nvmeCqHeadDoorbell c q n) s = .next (nvmeEvent c evError s)))
    ∧ (∀ q st data, (ctrlOf s c).refused.contains (q, cid) = true → complete c q cid st data s
        = complete c q cid .dataTransferError [] { s with nvme := upd s.nvme c (fun n => { n with
            refused := n.refused.filter (· != (q, cid)) }) })
    ∧ (∀ q k e st data, find? (ctrlOf s c).sqs q = some k → find? (ctrlOf s c).cqs k.target = some e →
        (ctrlOf s c).refused.contains (q, cid) = false →
      (qNext e e.tail = e.head → complete c q cid st data s = { s with nvme := upd s.nvme c (fun n => { n with
          cqs := adj n.cqs k.target (fun x => { x with held := x.held ++ [(q, cid, st, data)] }) }) })
      ∧ (qNext e e.tail ≠ e.head → ∃ more, (complete c q cid st data s).out = s.out ++ .nvme c q cid st data :: more
          ∧ find? (ctrlOf (complete c q cid st data s) c).cqs k.target = some { e with tail := qNext e e.tail }))
    ∧ (nvmeReady s c = true → sqWaiting s c 0 = true →
      let u := takeEntry c 0 s
      let done (st : NvmeStatus) (d : List Byte) (t : State) := Host.Outcome.next (complete c 0 cid st d t)
      let bad (st : NvmeStatus) := done st [] u
      let edit (f : Nvme → Nvme) : State := { u with nvme := upd u.nvme c f }
      (∀ q size v, (queueId q = false → exec (.nvmeCreateIoCq c cid q size v) s = bad .invalidQueue)
        ∧ (queueId q = true → find? (ctrlOf u c).cqs q = none → 2 ≤ size → size ≤ 65536 → 129 ≤ v →
            exec (.nvmeCreateIoCq c cid q size v) s = bad .invalidVector)
        ∧ (queueId q = true → find? (ctrlOf u c).cqs q = none → 2 ≤ size → size ≤ 65536 → v < 129 →
            exec (.nvmeCreateIoCq c cid q size v) s
              = done .success [] (edit (fun n => { n with cqs := put n.cqs q { size, target := v } })))
        ∧ (queueId q = true → find? (ctrlOf u c).sqs q = none → 2 ≤ size → size ≤ 65536 →
            (v = 0 ∨ find? (ctrlOf u c).cqs v = none) → exec (.nvmeCreateIoSq c cid q size v) s = bad .invalidCq)
        ∧ (queueId q = true → find? (ctrlOf u c).sqs q = none → 2 ≤ size → size ≤ 65536 → v ≠ 0 →
            (find? (ctrlOf u c).cqs v).isSome = true → exec (.nvmeCreateIoSq c cid q size v) s
              = done .success [] (edit (fun n => { n with sqs := put n.sqs q { size, target := v } }))))
      ∧ (∀ q, (q = 0 → exec (.nvmeDeleteIoSq c cid q) s = bad .invalidQueue)
        ∧ (q ≠ 0 → (find? (ctrlOf u c).sqs q).isSome = true →
            s.flash.waiting.all (fun w => !(w.ctrl == c && w.sq == q && !w.begun)) = true →
            exec (.nvmeDeleteIoSq c cid q) s = done .success [] (edit (fun n => { n with sqs := del n.sqs q })))
        ∧ (q ≠ 0 → (find? (ctrlOf u c).cqs q).isSome = true →
            (ctrlOf u c).sqs.any (fun x => x.2.target == q && x.1 != 0) = true →
            exec (.nvmeDeleteIoCq c cid q) s = bad .invalidQueueDeletion)
        ∧ (q ≠ 0 → (find? (ctrlOf u c).cqs q).isSome = true →
            (ctrlOf u c).sqs.any (fun x => x.2.target == q && x.1 != 0) = false →
            exec (.nvmeDeleteIoCq c cid q) s = done .success [] (edit (fun n => { n with cqs := del n.cqs q }))))
      ∧ (∀ cns nsid, (cns = 1 ∨ cns = 2 ∨ cns = 3 → exec (.nvmeIdentify c cid cns nsid) s
            = done .success (Config.nvmeIdentify cns (identifyFacts u c nsid)) u)
        ∧ (0x14 ≤ cns → exec (.nvmeIdentify c cid cns nsid) s = bad .invalidField))
      ∧ (∀ nsid, exec (.nvmeGetLogPage c cid 0xC0 nsid) s = done .success (tierPage u) u
        ∧ exec (.nvmeGetLogPage c cid 0x04 nsid) s
            = done .success (Config.nvmeLog 0x04 (ctrlOf u c).changed) (edit (fun n => { n with changed := [] }))
        ∧ exec (.nvmeGetLogPage c cid 0xFF nsid) s = bad .invalidLogPage)
      ∧ (∀ f v, (f = 7 → exec (.nvmeSetFeatures c cid f v) s = done .success queueCount u
            ∧ exec (.nvmeGetFeatures c cid f) s = done .success queueCount u)
        ∧ (f ≠ 7 → featureKnown f = true → featureTakes f v = true → exec (.nvmeSetFeatures c cid f v) s
            = done .success [] (edit (fun n => { n with features := put n.features f (if f = 1 then v % 8 else v) })))
        ∧ (featureKnown f = false → exec (.nvmeSetFeatures c cid f v) s = bad .invalidField
            ∧ exec (.nvmeGetFeatures c cid f) s = bad .invalidField)
        ∧ (f ≠ 7 → featureKnown f = true → exec (.nvmeGetFeatures c cid f) s
            = done .success (leBytes 4 (look (ctrlOf u c).features f)) u))
      ∧ (8 ≤ (ctrlOf u c).aers.length → exec (.nvmeAsyncEventRequest c cid) s = bad .aerLimit)
      ∧ ((ctrlOf u c).aers.length < 8 → (ctrlOf u c).events = [] → exec (.nvmeAsyncEventRequest c cid) s
          = .next (edit (fun n => { n with aers := n.aers ++ [cid] })))
      ∧ (∀ q x, (∃ w ∈ s.flash.waiting, w.ctrl = c ∧ w.sq = q ∧ w.cid = x ∧ w.begun = false) → ∃ t,
          exec (.nvmeAbort c cid q x false) s = done .success (leBytes 4 0) (complete c q x .abortedByRequest [] t)
          ∧ t.flash.waiting = s.flash.waiting.filter (fun w => !(w.ctrl == c && w.sq == q && w.cid == x && !w.begun)))
      ∧ (∀ q x, s.flash.waiting.all (fun w => !(w.ctrl == c && w.sq == q && w.cid == x && !w.begun)) = true →
          exec (.nvmeAbort c cid q x false) s = done .success (leBytes 4 1) u)
      ∧ (∀ r nsid attach cs ses, c ≠ s.host.primary → exec (.namespaceCreate c cid r) s = bad .invalidOpcode
        ∧ exec (.namespaceDelete c cid nsid) s = bad .invalidOpcode
        ∧ exec (.namespaceAttachment c cid nsid attach cs) s = bad .invalidOpcode
        ∧ exec (.formatNvm c cid nsid ses) s = bad .invalidOpcode)
      ∧ (∀ r nsid, c = s.host.primary → r.tenant < 1024 → (look u.tenants r.tenant).state = .active → r.kind ≤ 1 →
          r.nsze = r.ncap → r.flbas = 0 → r.dps = 0 → r.nsze ≤ flashFree u → mapFits u r.nsze = true →
          tenantFlash u r.tenant + r.nsze * 4096 ≤ (quotasOf u r.tenant).flash →
          firstFree u.flash.namespaces 1 1024 = some nsid → exec (.namespaceCreate c cid r) s
            = done .success (leBytes 4 nsid) (journal 1 { u with flash := { u.flash with
                namespaces := put u.flash.namespaces nsid { nsze := r.nsze, tenant := r.tenant, kind := r.kind } } }))
      ∧ (∀ nsid, c = s.host.primary → nsid ≠ 0xFFFFFFFF → (find? s.flash.namespaces nsid).isSome = true →
          kind2Reads s nsid = false →
          exec (.namespaceDelete c cid nsid) s = done .success [] (removeNamespace nsid u))
      ∧ (∀ nsid n cs, c = s.host.primary → find? s.flash.namespaces nsid = some n → cs ≠ [] →
          cs.any n.attached.contains = false → exec (.namespaceAttachment c cid nsid true cs) s = done .success []
            (tellChanged nsid cs (journal 1 (setNamespace nsid (fun n => { n with attached := n.attached ++ cs.dedup }) u))))
      ∧ (∀ nsid ses, c = s.host.primary → 2 ≤ ses → exec (.formatNvm c cid nsid ses) s = bad .invalidField)
      ∧ (∀ nsid ses, c = s.host.primary → ses ≤ 1 → nsid ≠ 0xFFFFFFFF → (find? s.flash.namespaces nsid).isSome = true →
          ∃ t, exec (.formatNvm c cid nsid ses) s = done .success [] t
            ∧ ∀ lba, (find? t.flash.namespaces nsid).map (fun n => blockAt n lba) = some none)
      ∧ (∀ nsid slba n, find? s.flash.namespaces nsid = some n → n.attached.contains c = true → slba < n.nsze →
          exec (.getLbaStatus c cid nsid slba) s = done .success (Config.nvmeLbaStatus (lostRuns n slba)) u))

/-- The I/O commands of PF1 (R399, R400, R403, R407, R413) and the staging buffer. -/
def Obligations.NvmeBlocks : Prop :=
  ∀ (s : State) (c : Fin 2) (sq cid : Nat),
    (nvmeReady s c = true → sqWaiting s c sq = true →
      let u := takeEntry c sq s
      let done (st : NvmeStatus) (d : List Byte) := Host.Outcome.next (complete c sq cid st d u)
      exec (.nvmeFlush c sq cid 0xFFFFFFFF) s = done .success []
      ∧ (∀ nsid, nsid ≠ 0xFFFFFFFF → rangeFault u c nsid 0 0 = none → exec (.nvmeFlush c sq cid nsid) s = done .success [])
      ∧ (∀ nsid slba count, overlapsWaiting s nsid slba count = true →
          exec (.nvmeRead c sq cid nsid slba count) s = .next s ∧ exec (.nvmeVerify c sq cid nsid slba count) s = .next s)
      ∧ (∀ nsid slba count, overlapsWaiting s nsid slba count = false → 0 < count →
          (∀ st, count ≤ 512 → rangeFault u c nsid slba count = some st →
            exec (.nvmeRead c sq cid nsid slba count) s = done st []
            ∧ exec (.nvmeVerify c sq cid nsid slba count) s = done st [])
          ∧ (rangeFault u c nsid slba count = none →
            (readRange u nsid (look u.flash.namespaces nsid) slba count = none →
              (count ≤ 512 → exec (.nvmeRead c sq cid nsid slba count) s = done .unrecoveredRead [])
              ∧ exec (.nvmeVerify c sq cid nsid slba count) s = done .unrecoveredRead [])
            ∧ (∀ b, readRange u nsid (look u.flash.namespaces nsid) slba count = some b →
              (count ≤ 512 → exec (.nvmeRead c sq cid nsid slba count) s = done .success b)
              ∧ exec (.nvmeVerify c sq cid nsid slba count) s = done .success [])))
      ∧ (∀ nsid slba bs, exec (.nvmeWrite c sq cid nsid slba bs true) s = done .dataTransferError [])
      ∧ (∀ nsid slba bs, (bs = [] ∨ 512 < bs.length → exec (.nvmeWrite c sq cid nsid slba bs false) s = done .invalidField [])
        ∧ (bs ≠ [] → bs.length ≤ 512 → ∀ st, rangeFault u c nsid slba bs.length = some st →
            exec (.nvmeWrite c sq cid nsid slba bs false) s = done st [])
        ∧ (bs ≠ [] → bs.length ≤ 512 → rangeFault u c nsid slba bs.length = none → flashReadOnly u = true →
            exec (.nvmeWrite c sq cid nsid slba bs false) s = done .writeFault []))
      ∧ (∀ nsid slba b n, rangeFault u c nsid slba 1 = none → flashReadOnly u = false → s.flash.waiting = [] →
          find? s.flash.namespaces nsid = some n → n.kind ≠ 1 → (look s.tenants n.tenant).dataKey.isNone = false →
        let w : WaitingWrite := { ctrl := c, sq, cid, nsid, slba, blocks := [padTo 4096 b] }
        let v := { u with flash := { u.flash with waiting := [w] } }
        (mayStage v 1 = false → exec (.nvmeWrite c sq cid nsid slba [b] false) s = .next (issueFlash (countIn 0 v)))
        ∧ (mayStage v 1 = true → (place? v).isSome = true → ∃ t n',
            exec (.nvmeWrite c sq cid nsid slba [b] false) s = .next (issueFlash (complete c sq cid .success [] t))
            ∧ find? t.flash.namespaces nsid = some n' ∧ readBlock t nsid slba n' = some (padTo 4096 b)
            ∧ (∀ j, j ≠ slba → blockAt n' j = blockAt n j)
            ∧ (∀ k, k ≠ nsid → find? t.flash.namespaces k = find? s.flash.namespaces k)
            ∧ t.flash.waiting = [] ∧ t.flash.bytesIn = s.flash.bytesIn + 4096))
      ∧ (∀ nsid slba count n, rangeFault u c nsid slba count = none → overlapsWaiting s nsid slba count = false →
          find? s.flash.namespaces nsid = some n →
        (flashReadOnly u = false → ∃ t n', exec (.writeZeroes c sq cid nsid slba count) s
              = .next (complete c sq cid .success [] t)
            ∧ find? t.flash.namespaces nsid = some n'
            ∧ ∀ j, blockAt n' j = if slba ≤ j ∧ j < slba + count then none else blockAt n j)
        ∧ (flashReadOnly u = true → exec (.writeZeroes c sq cid nsid slba count) s = done .writeFault []))
      ∧ (∀ nsid rs n, rs ≠ [] → rs.length ≤ 256 → (∀ r ∈ rs, rangeFault u c nsid r.1 r.2 = none) →
          rs.any (fun r => overlapsWaiting s nsid r.1 r.2) = false → find? s.flash.namespaces nsid = some n →
        ∃ t n', exec (.datasetManagement c sq cid nsid rs) s = .next (complete c sq cid .success [] t)
          ∧ find? t.flash.namespaces nsid = some n'
          ∧ ∀ j, blockAt n' j = if inRanges rs j = true then none else blockAt n j))
    ∧ (s.dev.stage = .service → s.dev.asleep = false → exec .stagingAdmit s = .next (admitAll s)
        ∧ (s.flash.waiting = [] → exec .stagingAdmit s = .next (issueFlash s)))

/-- R470 whole: the CRC of a scan, and that a scan which starts from a saved running value gives the result of the
unbroken one. -/
def Obligations.ScanCheckValue : Prop :=
  (∀ (w poly reg : Nat) (reflect : Bool) (b : Byte), scanRun w poly reflect reg [b]
      = (if reflect then [0, 1, 2, 3, 4, 5, 6, 7] else [7, 6, 5, 4, 3, 2, 1, 0]).foldl (fun x i =>
          if x.testBit (w - 1) != b.toNat.testBit i then Nat.xor (x * 2 % 2 ^ w) poly else x * 2 % 2 ^ w) reg)
  ∧ (∀ (w poly reg : Nat) (reflect : Bool) (a b : List Byte), scanRun w poly reflect reg [] = reg
      ∧ scanRun w poly reflect reg (a ++ b) = scanRun w poly reflect (scanRun w poly reflect reg a) b)
  ∧ (∀ (w xor reg i : Nat), i < w →
      (scanFinal w true xor reg).testBit i = (reg.testBit (w - 1 - i) ^^ xor.testBit i)
      ∧ (scanFinal w false xor reg).testBit i = (reg.testBit i ^^ xor.testBit i))
  ∧ (∀ (s : State) (id : Nat) (c : Cmd), Runs s id 0x0800 c → c.begun = false →
      find? s.obj.scans (scanHandle c) = none → scanFaults s c = [] →
      ∃ t x, exec (.scanStart id) s = .next t ∧ find? t.obj.scans (scanHandle c) = some x
        ∧ x.running = c.arg 8 8 ∧ x.done = 0 ∧ x.width = c.arg 32 1 ∧ x.poly = c.arg 0 8 ∧ x.reflect = c.arg 33 1
        ∧ x.finalXor = c.arg 16 8 ∧ x.state = .queued)
  ∧ (∀ (s : State) (h : Nat) (x : Scan) (c : Cmd) (bytes : List Byte), awake s = true → find? s.obj.scans h = some x →
      x.state = .running → scanReached s x bytes.length = true → x.done + bytes.length = x.length →
        findCmd s x.cmd = some c → c.cancel = false →
      ∃ u r, exec (.scanEnd h bytes false) s = .next (finish c r u) ∧ find? u.obj.scans h = none
        ∧ r.value = scanFinal x.width (bitOf x.reflect 1) x.finalXor
            (scanRun x.width x.poly (bitOf x.reflect 0) x.running bytes)
        ∧ (r.value = x.expected → r.status = .ok ∧ r.effect = .full)
        ∧ (r.value ≠ x.expected → r.status = .checkMismatch ∧ r.effect = .none ∧ r.urgent = true))

/-- The commands of check-value scans (R471 to R476). How far a RUNNING scan has come is a free value (log 54), so
nothing is said of a SCAN_QUERY's numbers while it runs. -/
def Obligations.ScanCommands : Prop :=
  ∀ (s : State) (id : Nat) (c : Cmd),
    (Runs s id 0x0800 c → c.begun = false → find? s.obj.scans (scanHandle c) = none →
      (∀ o os, scanFaults s c = o :: os → exec (.scanStart id) s = .next (badField c o 0 s))
      ∧ (scanFaults s c = [] → exec (.scanStart id) s = .next (setCmd c.id (fun x => { x with begun := true })
          { s with obj := { s.obj with scans := put s.obj.scans (scanHandle c) (newScan c) } })))
    ∧ (∀ bytes, scanOf s c.sid c.handle = none →
      (Runs s id 0x0801 c → exec (.scanSuspend id bytes) s = .next (badField c 32 0 s))
      ∧ (Runs s id 0x0802 c → exec (.scanResume id) s = .next (badField c 32 0 s))
      ∧ (Runs s id 0x0803 c → exec (.scanQuery id) s = .next (finish c (c.answer.getD (badResult s 32 0)) s.draw.draw)))
    ∧ (∀ h x, scanOf s c.sid c.handle = some (h, x) →
      (∀ bytes, Runs s id 0x0801 c →
        (x.state = .suspended → exec (.scanSuspend id bytes) s = .next (fail c .stateConflict (9 + 256 * 3) s))
        ∧ (x.state = .queued → exec (.scanSuspend id bytes) s = .next (finish c { value := x.running }
            { s with obj := { s.obj with scans := adj s.obj.scans h (fun x => { x with state := .suspended }) } }))
        ∧ (x.state = .running → (x.take bytes).atBoundary = true → scanReached s x bytes.length = true → ∃ t, exec (.scanSuspend id bytes) s
            = .next (finish c { value := (x.take bytes).running } t)
          ∧ find? t.obj.scans h = some { x.take bytes with state := .suspended, unit := none }))
      ∧ (Runs s id 0x0802 c →
        (2 ^ x.width ≤ c.imm → exec (.scanResume id) s = .next (badField c 56 0 s))
        ∧ (c.imm < 2 ^ x.width → x.state ≠ .suspended →
            exec (.scanResume id) s = .next (fail c .stateConflict (9 + 256 * x.state.code) s))
        ∧ (c.imm < 2 ^ x.width → x.state = .suspended → x.orphan = false →
            exec (.scanResume id) s = .next (finish c {} { s with obj := { s.obj with
              scans := adj s.obj.scans h (fun x => { x with state := .queued, running := c.imm }) } })))
      ∧ (Runs s id 0x0803 c →
        (x.state ≠ .running → exec (.scanQuery id) s = .next (finish c (c.answer.getD
            { count := x.left / 2 ^ 32 % 16, value := x.running, detail := x.left % 2 ^ 32 }) s.draw.draw))
        ∧ (x.state = .running → ∃ t r, exec (.scanQuery id) s = .next (finish c (c.answer.getD r) t) ∧ t.obj = s.obj ∧ r.status = .ok)))
    ∧ (∀ h x u, find? s.obj.scans h = some x → awake s = true →
      (x.state = .queued → contextsBusy s u < 16 → exec (.scanContextGrant h u) s = .next { s with obj := { s.obj with
          scans := adj s.obj.scans h (fun x => { x with state := .running, unit := some u, since := s.now }) } })
      ∧ (x.state = .queued → 16 ≤ contextsBusy s u → exec (.scanContextGrant h u) s = .next s)
      ∧ (∀ bytes k, x.state = .running → scanReached s x bytes.length = true → (x.take bytes).atBoundary = true →
          findCmd s x.cmd = some k → k.cancel = false →
          ∃ t r, exec (.scanEnd h bytes true) s = .next (finish k r t) ∧ find? t.obj.scans h = none
            ∧ r.status = (if x.space = 1 then .dataLost else .uncorrectable) ∧ r.effect = .none
            ∧ r.value = (x.take bytes).running)
      ∧ (∀ bytes k, x.state = .running → scanReached s x bytes.length = true → x.done + bytes.length = x.length →
          findCmd s x.cmd = some k → k.cancel = true →
          ∃ t, exec (.scanEnd h bytes false) s = .next (cancelled k t) ∧ find? t.obj.scans h = none))

/-- Tenants (R434 to R437), attestation (R442 to R446) and Heleri images (R447 to R449). Signatures, keys and digests
are uninterpreted (log 6). -/
def Obligations.TenantsImagesAttestation : Prop :=
  ∀ (s : State) (id : Nat) (c : Cmd),
    (∀ (key quotas : List Byte), Runs s id 0x0F02 c → c.imm = 0 →
      let t := c.arg 0 2
      let old := look s.tenants t
      let set (r : Tenant) : State := { s with tenants := put s.tenants t r, fresh := s.fresh + 1 }
      let base : Tenant := if old.state = .unset
        then { state := .active, dataKey := some (Config.dataKey s.fresh), badProofs := old.badProofs } else old
      let full : Tenant := { base with weight := some (c.arg 2 2), depth := some (c.arg 4 2) }
      (old.state = .revoking → c.bdLen 8 = 0 → c.bdLen 24 = 0 →
        exec (.tenantSet id (.data key) (.data quotas)) s = .next (fail c .stateConflict (0x0A + 256 * 2) s))
      ∧ (old.state ≠ .revoking → c.bdLen 8 = 0 → c.bdLen 24 = 0 →
        exec (.tenantSet id (.data key) (.data quotas)) s = .next (finish c {} (set full)))
      ∧ (old.state ≠ .revoking → c.bdLen 8 ≠ 0 → c.bdLen 24 = 0 →
        (Config.keyUnwrap (wrapKey s c.sid) key = none →
          exec (.tenantSet id (.data key) (.data quotas)) s = .next (badField c 72 0 s))
        ∧ (∀ k, Config.keyUnwrap (wrapKey s c.sid) key = some k →
          exec (.tenantSet id (.data key) (.data quotas)) s = .next (finish c {} (set { full with key := k }))))
      ∧ (old.state ≠ .revoking → c.bdLen 8 = 0 → c.bdLen 24 ≠ 0 →
        (∀ st o, firstFail (quotaChecks quotas) = some (st, o) →
          exec (.tenantSet id (.data key) (.data quotas)) s = .next (badField c 88 o s))
        ∧ (firstFail (quotaChecks quotas) = none → exec (.tenantSet id (.data key) (.data quotas)) s
            = .next (finish c {} (set { full with quotas := some (quotasFrom quotas) })))))
    ∧ (Runs s id 0x0F02 c → c.imm = 1 →
      ((look s.tenants (c.arg 0 2)).state ≠ .active → exec (.tenantRevoke id) s
        = .next (fail c .stateConflict (0x0A + 256 * (look s.tenants (c.arg 0 2)).state.code) s))
      ∧ ((look s.tenants (c.arg 0 2)).state = .active → ∃ u, exec (.tenantRevoke id) s
          = .next (finish c {} (closeTenant (c.arg 0 2) u))
        ∧ (look u.tenants (c.arg 0 2)).state = .revoking ∧ (look u.tenants (c.arg 0 2)).dataKey = none
        ∧ ∀ nsid, (find? u.flash.namespaces nsid).map (·.blocks) = (find? s.flash.namespaces nsid).map (fun n =>
            if n.tenant = c.arg 0 2 then n.blocks.map (fun b => (b.1, .lost)) else n.blocks)))
    ∧ (∀ t, (look s.tenants t).state = .revoking → s.sessions.any (fun x => x.2.tenant == t) = false →
      ∃ u, exec (.tenantRevokeFinish t) s = .next u ∧ find? u.tenants t = none
        ∧ ∀ k, k ≠ t → find? u.tenants k = find? s.tenants k)
    ∧ (Runs s id 0x0F03 c →
      (s.sec.lifecycle = .quarantine ∨ s.sec.attOk = false → exec (.attest id) s = .next (fail c .attestUnavailable 0 s))
      ∧ (s.sec.lifecycle ≠ .quarantine → s.sec.attOk = true → c.outLen < 11661 → exec (.attest id) s
          = .next (finish c { status := .partialDone, effect := .none, count := 11661 } s))
      ∧ (s.sec.lifecycle ≠ .quarantine → s.sec.attOk = true → 11661 ≤ c.outLen → s.sec.attNext < 2 ^ 20 → ∃ u,
          exec (.attest id) s = .next (finish c { count := 11661, writes := [(outputOffset s, attestOutput s c)] } u)
          ∧ u.sec.attSerial * 2 ^ 20 + u.sec.attNext = s.sec.attSerial * 2 ^ 20 + s.sec.attNext + 1
          ∧ (s.sec.attNext ≠ s.sec.attEnd → s.sec.attNext + 1 < 2 ^ 20 → u.sec.attEnd = s.sec.attEnd)
          ∧ (s.sec.attNext = s.sec.attEnd → s.sec.attNext + 1 < 2 ^ 20 → u.sec.attEnd = s.sec.attEnd + 16)
          ∧ (u.sec.attOk = true → u.sec.attNext < 2 ^ 20)))
    ∧ (s.dev.stage = .service → s.sec.attNextReady = false → 2 ^ 20 ≤ 131072 + s.sec.attNext →
      (s.sec.attOk = true → exec .attestKeyGenerate s = .next { s with sec := { s.sec with attNextReady := true } })
      ∧ (s.sec.attOk = false → exec .attestKeyGenerate s = .next { s with sec := { s.sec with
          attSerial := s.sec.attSerial + 1, attNext := 0, attEnd := 0, attOk := true } }))
    ∧ (∀ img, Runs s id 0x0F04 c →
      let b := decide (c.arg 16 1 = 1)
      let counted := count 0x0924 1 s
      (s.dev.factory = false → s.dev.usedB = b → exec (.imageWrite id (.data img)) s = .next (badField c 80 0 s))
      ∧ (s.dev.factory = true ∨ s.dev.usedB ≠ b →
        (∀ st o, envelopeFault img = some (st, o) → exec (.imageWrite id (.data img)) s
          = .next (finish c { status := st, effect := .none, value := o, detail := 64 } s))
        ∧ (envelopeFault img = none → envKind img = 1 → envVersion img < s.sec.heleriFloor →
          exec (.imageWrite id (.data img)) s = .next (fail c .imageRollback 0 counted))
        ∧ (envelopeFault img = none → envKind img = 1 → s.sec.heleriFloor ≤ envVersion img →
          (imageVerifies s img = true → exec (.imageWrite id (.data img)) s = .next (finish c {} (setSlot b img s)))
          ∧ (imageVerifies s img = false → exec (.imageWrite id (.data img)) s
              = .next (fail c .imageRejected 0 (count 0x0924 1 (setSlot b [] s)))))))
    ∧ (Runs s id 0x0F05 c →
      let b := decide (c.arg 0 1 = 1)
      let img := slotImage s b
      (img = [] → exec (.imageActivate id) s = .next (fail c .stateConflict (0x0B + 256 * lifecycleValue s) s))
      ∧ (img ≠ [] → imageVerifies s img = false →
        exec (.imageActivate id) s = .next (fail c .imageRejected 0 (count 0x0924 1 s)))
      ∧ (img ≠ [] → imageVerifies s img = true →
        (envKind img = 2 → s.sec.lifecycle = .factory → exec (.imageActivate id) s
          = .next (finish c {} { s with sec := { s.sec with lifecycle := .unowned } }))
        ∧ (envKind img = 1 → envVersion img < s.sec.heleriFloor →
          exec (.imageActivate id) s = .next (fail c .imageRollback 0 (count 0x0924 1 s)))
        ∧ (envKind img = 1 → s.sec.heleriFloor ≤ envVersion img → envClaim img = true → s.sec.lifecycle = .unowned →
          c.tenant = 0 → ∃ u, exec (.imageActivate id) s = .next (finish c {} u) ∧ u.sec.lifecycle = .owned
            ∧ u.sec.ownerKeys = keysOf (ownerSectionOf img) ∧ (look u.tenants 0).state = .active)
        ∧ (envKind img = 1 → s.sec.heleriFloor ≤ envVersion img → envClaim img = false → envRelease img = false →
          ∃ u, exec (.imageActivate id) s = .next (finish c {} u) ∧ u.sec.activeB = b
            ∧ u.sec.heleriFloor = envVersion img ∧ u.sec.lifecycle = s.sec.lifecycle)))

/-- Management (R4, R29, R115), DEVICE_RESET (R512), firmware updates (R477 to R480) and SERVICE (R450 to R454). What
MGMT_STATUS's record looks like is free (log 13), as are readings that the model does not keep (log 51). -/
def Obligations.ManagementCommands : Prop :=
  ∀ (s : State) (id : Nat) (c : Cmd),
    (Runs s id 0x0F00 c → exec (.mgmtStatus id) s
      = .next (withRecord c (Config.statusRecord s.fresh (statusValues s ++ rootReport s ++ allIslands.flatMap (islandReport s))) {} s.draw))
    ∧ (Runs s id 0x0F01 c → ∃ u, exec (.epochMarker id) s = .next (finish c { value := s.now, detail := 0xFF00 } u)
        ∧ u.dev.latch = some (c.hdr.imm, s.now)
        ∧ ∀ clk ∈ allIslands, (powered s clk = false → (look u.islands clk).latch = none)
          ∧ (powered s clk = true → ∃ n, (look u.islands clk).latch = some (c.hdr.imm, n)))
    ∧ (Runs s id 0x0F0A c →
      (∀ o os, telemetryFaults c = o :: os → exec (.telemetryRead id) s = .next (badField c o 0 s))
      ∧ (telemetryFaults c = [] → (∀ v, register s (c.arg 0 2) (c.arg 8 8) = some v →
            exec (.telemetryRead id) s = .next (finish c { value := v } s))
          ∧ (register s (c.arg 0 2) (c.arg 8 8) = none → ∃ v, exec (.telemetryRead id) s
              = .next (finish c { value := v } s.draw))))
    ∧ (∀ (k : ResetKind) (i : Instr), (k = .cold ∧ i = .deviceResetCold id ∧ c.arg 0 1 = 0
        ∨ k = .engine ∧ i = .deviceResetEngine id ∧ c.arg 0 1 = 1) → Runs s id 0x0F0D c →
      (c.begun = false → s.sec.update.isSome = true →
        exec i s = .next (fail c .stateConflict (0x0B + 256 * lifecycleValue s) s))
      ∧ (c.begun = false → s.sec.update = none → ∃ t, exec i s = .next t
          ∧ t = (if (stopWork c s).cmds.all (fun t => t.id == c.id || t.phase == .committed) then finish c {}
              { stopWork c s with dev := { (stopWork c s).dev with pendingReset := some (k, (stopWork c s).now) } }
            else stopWork c s))
      ∧ (c.begun = true → s.cmds.all (fun t => t.id == c.id || t.phase == .committed) = true →
          exec i s = .next (finish c {} { s with dev := { s.dev with pendingReset := some (k, s.now) } }))
      ∧ (c.begun = true → s.cmds.all (fun t => t.id == c.id || t.phase == .committed) = false → exec i s = .next s))
    ∧ (∀ failing, Runs s id 0x0F0D c → c.arg 0 1 = 2 →
      (s.sec.service = none →
        exec (.islandTest id failing) s = .next (fail c .stateConflict (0x0B + 256 * lifecycleValue s) s))
      ∧ (∀ v, s.sec.service = some v → s.dev.asleep = false → s.dev.drowsy = false →
        (inScope v c.imm = false → exec (.islandTest id failing) s = .next (badField c 56 0 s))
        ∧ (inScope v c.imm = true → failing = none → exec (.islandTest id failing) s = .next (finish c {} s))
        ∧ (∀ n, inScope v c.imm = true → failing = some n → exec (.islandTest id failing) s
            = .next (finish c { status := .selfTestFailed, detail := n } s))))
    ∧ (∀ img, Runs s id 0x0F06 c → c.begun = false →
      let cls := c.arg 16 1
      let f := look s.sec.firmware cls
      (s.sec.update.isSome = true → exec (.firmwareUpdate id (.data img)) s
        = .next (fail c .stateConflict (0x0B + 256 * lifecycleValue s) s))
      ∧ (s.sec.update = none → c.bdLen 0 = 0 → slotVerifies s f (!f.activeB) = true →
        exec (.firmwareUpdate id (.data img)) s = .next (beginUpdate cls c s))
      ∧ (s.sec.update = none → c.bdLen 0 = 0 → slotVerifies s f (!f.activeB) = false →
        exec (.firmwareUpdate id (.data img)) s = .next (fail c .imageRejected 0 (count 0x0924 1 s)))
      ∧ (s.sec.update = none → c.bdLen 0 ≠ 0 → envelopeFault img ≠ none → ∃ u,
        exec (.firmwareUpdate id (.data img)) s = .next (fail c .imageRejected 0 u)
          ∧ (look u.sec.firmware cls).activeB = f.activeB ∧ slotVerifies u (look u.sec.firmware cls) (!f.activeB) = false))
    ∧ (∀ (u : Update) (clk : ClockId), s.sec.update = some u → s.dev.stage = .service → clk ∈ leftToLoad s u →
      loadTurn s u clk = true → loadable s clk = true →
      (∀ k ks, (leftToLoad s u).filter (· != clk) = k :: ks → exec (.islandFirmwareLoaded clk true) s
        = .next { count 0x0A23 1 s with sec := { s.sec with
            update := some { u with left := k :: ks, loaded := u.loaded + 1 } } })
      ∧ ((leftToLoad s u).filter (· != clk) = [] → ∃ t, exec (.islandFirmwareLoaded clk true) s = .next t
        ∧ t.sec.update = none ∧ (look t.sec.firmware u.cls).activeB = !(look s.sec.firmware u.cls).activeB)
      ∧ (∀ k, findCmd s u.cmd = some k → exec (.islandFirmwareLoaded clk false) s
        = .next (autoRetire clk (fail k .updateFailed 0 { s with sec := { s.sec with update := none } })))
      ∧ (findCmd s u.cmd = none → exec (.islandFirmwareLoaded clk false) s
        = .next (autoRetire clk (logFault mgmtClk 8 0 u.cls u.loaded { s with sec := { s.sec with update := none } }))))
    ∧ (∀ token, Runs s id 0x0F0C c → c.bdLen 0 ≠ 0 →
      (c.begun = false → (s.sec.service.isSome || s.cmds.any (fun t => t.op == 0x0F0C && t.begun)) = true →
        exec (.serviceEnter id (.data token)) s = .next (fail c .stateConflict (0x0B + 256 * lifecycleValue s) s))
      ∧ (c.begun = false → (s.sec.service.isSome || s.cmds.any (fun t => t.op == 0x0F0C && t.begun)) = false →
        tokenOk s token = false → exec (.serviceEnter id (.data token)) s = .next (fail c .tokenRejected 0 s))
      ∧ (c.begun = true → c.scope = [] → s.sessions.all (fun x => x.1 == c.sid) = true →
        s.cmds.all (fun t => t.id == c.id) = true → ∃ u, exec (.serviceEnter id (.data token)) s = .next (finish c {} u)
          ∧ u.sec.service = some {} ∧ u.obj = {} ∧ u.eng = { channels := u.eng.channels }))
    ∧ (Runs s id 0x0F0C c → c.bdLen 0 = 0 →
      (s.sec.service = none →
        exec (.serviceLeave id) s = .next (fail c .stateConflict (0x0B + 256 * lifecycleValue s) s))
      ∧ (∀ v, s.sec.service = some v → v.scope = [] → ∃ u t, exec (.serviceLeave id) s = .next t
          ∧ t = { finish c {} u with dev := { (finish c {} u).dev with
                    pendingReset := some (.cold, (finish c {} u).now), stopFetch := true } })
      ∧ (∀ v, s.sec.service = some v → v.scope ≠ [] → ∃ u, exec (.serviceLeave id) s = .next (finish c {} (openAll u))
          ∧ u.sec.service = none))

/-- Only one FIRMWARE_UPDATE runs at a time; a second one completes with STATE_CONFLICT, object kind 0x0B (R480). -/
def Obligations.OneFirmwareUpdateAtATime : Prop :=
  ∀ (s : State) (id : Nat) (c : Cmd) (image : Input) (u : Update),
    Runs s id 0x0F06 c → c.begun = false → s.sec.update = some u →
    ∃ t detail, exec (.firmwareUpdate id image) s = .next t
      ∧ t = finish c { status := .stateConflict, effect := .none, detail } s ∧ detail % 256 = 0x0B
      ∧ t.unreported = s.unreported ∧ t.sec.update = some u

/-- Power states and the governor (R502 to R509). -/
def Obligations.PowerAndGovernor : Prop :=
  ∀ s : State,
    (∀ (id : Nat) (c : Cmd), Runs s id 0x0F09 c →
      let capped : State := { s with gov := { s.gov with cap := c.arg 0 2 } }
      (c.imm = 0 → exec (.powerCap id) s = .next (finish c {} capped))
      ∧ (c.imm = 1 → s.dev.stage = .service → s.dev.asleep = true →
          exec (.powerEnterP3 id) s = .next (finish c {} capped))
      ∧ (c.imm = 1 → s.dev.stage = .service → s.dev.asleep = false → c.begun = false →
          (s.sec.update.isSome = true ∨ s.eng.evacuations ≠ []) → exec (.powerEnterP3 id) s = .next s)
      ∧ (c.imm = 1 → s.dev.stage = .service → s.dev.asleep = false → s.sec.update = none → s.eng.evacuations = [] →
          (drained s = false → ∃ t, exec (.powerEnterP3 id) s = .next t ∧ t.dev = { s.dev with drowsy := true })
          ∧ (drained s = true → ∃ u k, exec (.powerEnterP3 id) s = .next (finish k {} u) ∧ k.id = c.id
            ∧ u.dev = { s.dev with asleep := true, drowsy := false, gated := true } ∧ u.gov.cap = c.arg 0 2
            ∧ u.flash.journal = 0))
      ∧ (c.imm = 2 → s.dev.asleep = false → exec (.powerLeaveP3 (some id)) s = .next (finish c {} capped))
      ∧ (c.imm = 2 → s.dev.asleep = true → ∃ u, exec (.powerLeaveP3 (some id)) s = .next (finish c {} (setCap c u))
          ∧ u = wake s))
    ∧ (s.dev.stage = .service → s.dev.asleep = true → s.dev.cfg.sys.wakeOnWork = true → holdsWork s = true →
        exec (.powerLeaveP3 none) s = .next (wake s))
    ∧ (awake s = true → s.dev.gated = false → chainRuns s = false →
        s.gov.lastChain + s.dev.cfg.sys.idleMs * 1000000 ≤ s.now →
        exec .idleTimeout s = .next { s with dev := { s.dev with gated := true } })
    ∧ (∀ w, s.dev.stage = .service → s.gov.samples.length < 20 →
      (115 * s.gov.cap < 100 * w → s.gov.ladder.duty < 4 → ∃ t, exec (.governorSample w) s = .next t
        ∧ t.gov.ladder.duty = 4 ∧ t.gov.ladder.arraySteps = s.gov.ladder.arraySteps ∧ t.gov.samples = []
        ∧ (undoStep t.gov.ladder).duty = s.gov.ladder.duty)
      ∧ (100 * w ≤ 115 * s.gov.cap ∨ 4 ≤ s.gov.ladder.duty → exec (.governorSample w) s
          = .next { s with gov := { s.gov with samples := s.gov.samples ++ [w] } }))
    ∧ (∀ n, s.dev.stage = .service → s.gov.samples.length = 20 → s.gov.samples.foldl (· + ·) 0 = n →
      ∃ t, exec .governorWindow s = .next t ∧ t.gov.average = n / 20 ∧ t.gov.samples = []
        ∧ (20 * s.gov.cap < n → t.gov.ladder = (ladderStep s.gov.ladder).getD s.gov.ladder ∧ t.gov.below = 0)
        ∧ (n + 300 < 20 * s.gov.cap → s.gov.below < 9 → t.gov.ladder = s.gov.ladder ∧ t.gov.below = s.gov.below + 1)
        ∧ (n + 300 < 20 * s.gov.cap → 9 ≤ s.gov.below → t.gov.ladder = undoStep s.gov.ladder ∧ t.gov.below = 0)
        ∧ (n ≤ 20 * s.gov.cap → 20 * s.gov.cap ≤ n + 300 → t.gov.ladder = s.gov.ladder ∧ t.gov.below = 0))
    ∧ (∀ l : Ladder, (l.arraySteps < 17 → ladderStep l
          = some { l with arraySteps := l.arraySteps + 1, taken := .array :: l.taken })
      ∧ (17 ≤ l.arraySteps → l.tileSteps < 12 → ladderStep l
          = some { l with tileSteps := l.tileSteps + 1, taken := .tile :: l.taken })
      ∧ (17 ≤ l.arraySteps → 12 ≤ l.tileSteps → l.duty < 6 → ladderStep l
          = some { l with duty := l.duty + 1, taken := .duty :: l.taken })
      ∧ (17 ≤ l.arraySteps → 12 ≤ l.tileSteps → 6 ≤ l.duty → ladderStep l = none)
      ∧ ∀ l', ladderStep l = some l' → undoStep l' = l)
    ∧ (awake s = true → s.dev.gated = false → s.gov.dutyAt.all (fun t => t + 100000 ≤ s.now) = false →
        exec .pauseDutyInterval s = .next s)
    ∧ (awake s = true → s.dev.gated = false → s.gov.dutyAt.all (fun t => t + 100000 ≤ s.now) = true →
      ∃ t, exec .pauseDutyInterval s = .next t
      ∧ ∀ a : Fin 16, look t.counters (arrayClk a, 6) = if arrayUp s a = true ∧ pausedCycles s a ≠ 0
          then (look s.counters (arrayClk a, 6) + pausedCycles s a) % 2 ^ 64 else look s.counters (arrayClk a, 6))
    ∧ (∀ (clk : ClockId) (temp : Int), running s = true → (islandName clk).isSome = true →
      ((tjMax s + 10) * 16 ≤ temp → ∃ t, exec (.thermalReport clk temp) s = .next t ∧ t.dev.stage = .hold
        ∧ t.dev.holdCause = some .thermal ∧ t.pins.fault = true)
      ∧ (∀ c : Fin 4, temp < (tjMax s + 10) * 16 → tjMax s * 16 ≤ temp →
        (List.finRange 4).find? (fun k => (courseIslands k).contains clk) = some c →
        ∃ t, exec (.thermalReport clk temp) s = .next t ∧ t.dev.stage = s.dev.stage ∧ (look t.gov.courses c).arraySteps = 17
          ∧ (look t.gov.courses c).tileSteps = 12 ∧ (look t.gov.courses c).duty = 6))

/-- Start-up, HOLD, P4 and resets (R420, R421, R465, R500, R502, R511 to R518, R531, R533, R541, R542). -/
def Obligations.ResetsAndStartUp : Prop :=
  ∀ s : State,
    let gone := fun t : State => t.cmds = [] ∧ t.sessions = [] ∧ t.obj = {} ∧ t.host.funcs = [] ∧ t.host.pairs = []
      ∧ t.host.vecs = [] ∧ t.nvme = [] ∧ t.dev.ready = false ∧ t.flash.staging = []
      ∧ t.flash.namespaces = s.flash.namespaces
    let cold := fun (cause : Cause) (t : State) =>
      gone t ∧ t.now = 0 ∧ t.counters = [] ∧ t.smb = {} ∧ t.tenants = mapTbl s.tenants (fun _ x => x.stored)
      ∧ (∀ p, (look t.host.ports p).link = false) ∧ t.dev.cause = cause ∧ t.dev.board = s.dev.board
      ∧ (startupStops s = true → t.dev.stage = .stopped ∧ t.pins.fault = true)
      ∧ (startupStops s = false → t.dev.stage = .startup ∧ t.pins.fault = false
        ∧ t.dev.straps = s.dev.board.straps
        ∧ t.gov.cap = t.dev.cfg.sys.powerCapW
        ∧ (s.sec.lifecycle = .factory ∨ s.sec.lifecycle = .unowned → t.dev.cfg = Params.factory))
    let held := fun (cause : Option Cause) (t : State) =>
      t.dev.stage = .hold ∧ t.dev.ready = false ∧ t.dev.holdCause = cause ∧ t.cmds = [] ∧ t.sessions = []
      ∧ t.obj = {} ∧ t.host.pairs = [] ∧ t.nvme = [] ∧ t.flash.staging = [] ∧ t.flash.waiting = []
      ∧ t.flash.journal = 0 ∧ t.flash.shutdownOpen = false ∧ t.pins.fault = (s.pins.fault || cause.isSome)
      ∧ (∀ p, (look t.host.ports p).link = false) ∧ ∃ e, t.log.entries.getLast? = some e ∧ e.cls = 9
    let off := fun t : State => t.dev.stage = .off ∧ t.dev.ready = false ∧ t.cmds = [] ∧ t.sessions = [] ∧ t.obj = {}
      ∧ t.pins.fault = false ∧ t.pins.alert = false ∧ ∀ p, (look t.host.ports p).link = false
    (∀ cause, cold cause (coldStart cause s))
    ∧ (gone (engineStart s) ∧ (engineStart s).now = s.now ∧ (engineStart s).smb = s.smb
      ∧ (engineStart s).tenants = s.tenants ∧ (engineStart s).host.ports = s.host.ports
      ∧ (engineStart s).dev.cause = .engine ∧ (engineStart s).dev.board = s.dev.board
      ∧ (startupStops s = true → (engineStart s).dev.stage = .stopped ∧ (engineStart s).pins.fault = true)
      ∧ (startupStops s = false → (engineStart s).dev.stage = .startup))
    ∧ (∀ k d (x : Straps), s.dev.pendingReset = some (k, d) → s.dev.stage = .service →
      (d + 100000 ≤ s.now → exec (.resetStart x) s = .next (match k with
          | .cold => coldStart .cold (withStraps x (cleanFlash s))
          | .engine => engineStart (withStraps x (cleanFlash s))))
      ∧ (s.now < d + 100000 → exec (.resetStart x) s = .next s))
    ∧ (∀ x, (withStraps x s).dev.board.straps = x)
    ∧ (s.pins.pfailN = true → running s = true → ∃ t, exec .pfailAssert s = .next t ∧ held none t
        ∧ t.pins.pfailN = false)
    ∧ (s.pins.pfailN = false → s.dev.stage = .hold → s.pins.sysResetN = true →
      ∀ x : Straps,
      let high : State := withStraps x { s with pins := { s.pins with pfailN := true } }
      (s.dev.holdCause = none → exec (.holdExit x) s
        = .next (coldStart (if s.dev.holdReset then .sysReset else .holdExit) high))
      ∧ (s.dev.holdCause.isSome = true → s.dev.holdReset = false → exec (.holdExit x) s = .next high))
    ∧ (s.dev.stage = .hold → ∃ t, exec .supplyFall s = .next t ∧ off t ∧ t.pins.pwrOk = false ∧ t.flash = s.flash)
    ∧ (∀ b, s.dev.stage = .off → s.pins.pwrOk = false →
      let up : State := { s with
        pins := { s.pins with pwrOk := true, pfailN := true, reference := b.reference }
        dev := { s.dev with board := b }
        host := { s.host with ports := [] } }
      (s.pins.sysResetN = true → exec (.powerOn b) s = .next (coldStart .powerOn up))
      ∧ (s.pins.sysResetN = false → exec (.powerOn b) s = .next up))
    ∧ (∀ l, s.dev.stage = .startup → exec (.startupReady l) s = .next (becomeReady l s)
      ∧ (becomeReady [] s).dev.stage = .service ∧ (becomeReady [] s).dev.ready = true
      ∧ (becomeReady [] s).dev.selfTestRetired = 0)
    ∧ (s.dev.stage = .service → exec .namespaceMapRebuilt s
        = .next { s with dev := { s.dev with mapReady := true } })
    ∧ (s.pins.pwrOk = true →
      (running s = true → s.pins.pfailN = true → ∃ t, exec .pwrOkLoss s = .next t ∧ off t ∧ t.flash.staging = []
        ∧ t.flash.journal = 0 ∧ t.flash.shutdownOpen = s.flash.shutdownOpen
        ∧ (s.flash.shutdownOpen = false → t.flash.namespaces = s.flash.namespaces))
      ∧ (s.dev.stage = .hold → ∃ t, exec .pwrOkLoss s = .next t ∧ off t ∧ t.flash = s.flash))
    ∧ (s.pins.sysResetN = true →
      (s.dev.stage = .hold → exec .sysReset s
        = .next { s with pins := { s.pins with sysResetN := false }, dev := { s.dev with holdReset := true } })
      ∧ (running s = true → ∃ t, exec .sysReset s = .next t ∧ off t ∧ t.pins.sysResetN = false ∧ t.flash.staging = []
        ∧ t.flash.journal = 0 ∧ t.flash.shutdownOpen = false))
    ∧ (s.pins.sysResetN = false → s.pins.pfailN = true →
      ∀ x : Straps,
      let high : State := withStraps x { s with pins := { s.pins with sysResetN := true } }
      (s.dev.stage = .off → s.pins.pwrOk = true → exec (.sysResetRelease x) s = .next (coldStart .sysReset high))
      ∧ (s.dev.stage = .hold → s.dev.holdReset = true → exec (.sysResetRelease x) s
        = .next (coldStart (s.dev.holdCause.getD .sysReset) high)))
    ∧ (s.pins.reference = true → running s = true → ∃ t, exec .referenceLost s = .next t ∧ held (some .reference) t
        ∧ t.pins.reference = false)
    ∧ (s.dev.stage = .service →
      (∀ y : Straps, (∀ x, s.dev.quoinMismatch = some x → 1000000000 ≤ s.now - x) →
        ∃ t, exec (.quoinLockstepMismatch y) s = .next t ∧ t.dev = { s.dev with quoinMismatch := some s.now }
          ∧ t.cmds = s.cmds ∧ t.eng = s.eng)
      ∧ (∀ x (y : Straps), s.dev.quoinMismatch = some x → s.now - x < 1000000000 → exec (.quoinLockstepMismatch y) s
        = .next (coldStart .quoin (withStraps y (cleanFlash (logFault mgmtClk 4 2 0 1 s))))))
    ∧ (∀ p : Fin 2,
      ((look s.host.ports p).retired = false → ∃ t, exec (.perst p) s = .next t
        ∧ (look t.host.ports p).link = false ∧ (look t.host.ports p).perst = true ∧ look t.nvme p = {}
        ∧ t.host.funcs = s.host.funcs ∧ t.host.pairs = s.host.pairs ∧ t.host.vecs = s.host.vecs
        ∧ t.host.conf = s.host.conf.filter (fun f => f.1.1 != p) ∧ t.cmds = s.cmds ∧ t.obj = s.obj
        ∧ ((look s.host.ports p).link = true → t.sessions = mapTbl s.sessions (fun _ x =>
            if x.port = p ∧ x.state = .opened then { x with state := .detached, holdAt := s.now } else x)))
      ∧ (let q := upd s.host.ports p (fun x => { x with perst := false })
        exec (.perstRelease p) s = .next { s with host := { s.host with ports := q } })
      ∧ ((look s.host.ports p).link = true →
        (∀ vf, 1 ≤ vf → vf < 256 → exec (.flrVf p vf) s = .next (flrFn p vf s))
        ∧ exec (.flrPf0 p) s = .next (foldS (fun u fn => flrFn p fn u) (usedFns s p) s)
        ∧ ∀ fn, find? (flrFn p fn s).host.funcs (p, fn) = none
          ∧ (∀ f ∈ (flrFn p fn s).host.pairs, ¬ (f.1.1 = p ∧ f.1.2.1 = fn))
          ∧ ∀ f ∈ (flrFn p fn s).host.vecs, ¬ (f.1.1 = p ∧ f.1.2.1 = fn)))

/-- The SMBus endpoint (R538, R539, R541). The bytes of a reply are free values (log 51). -/
def Obligations.SidebandMessages : Prop :=
  ∀ s : State,
    (s.dev.stage ≠ .off →
      (∀ e, exec (.mctpControl e) s = .next { s with smb := { s.smb with eid := e }, out := s.out ++ [.smbus (Config.smbusReply 0 [(e.toNat : Int)])] })
      ∧ exec (.pldmMessage .discover) s = .next { s with out := s.out ++ [.smbus (Config.smbusReply 1 [])] }
      ∧ (∀ n v, sensor s n = some v → exec (.pldmMessage (.readSensor n)) s
          = .next { s with out := s.out ++ [.smbus (Config.smbusReply 2 [n, v])] })
      ∧ (∀ n v, (sensor s n).isSome = true → ∃ t, exec (.pldmMessage (.setThreshold n v)) s = .next t
          ∧ find? t.smb.thresholds n = some v ∧ t.smb.eid = s.smb.eid ∧ t.smb.receiver = s.smb.receiver
          ∧ ∀ k, k ≠ n → find? t.smb.thresholds k = find? s.smb.thresholds k)
      ∧ (∀ n v, sensor s n = none → exec (.pldmMessage (.setThreshold n v)) s
          = .next { s with out := s.out ++ [.smbus (Config.smbusReply 3 [(n : Int)])] })
      ∧ (∀ e, exec (.pldmMessage (.setReceiver e)) s = .next { s with smb := { s.smb with receiver := some e }, out := s.out ++ [.smbus (Config.smbusReply 5 [(e.toNat : Int)])] })
      ∧ exec (.pldmMessage .other) s = .next s
      ∧ (∀ m t, exec (.pldmMessage m) s = .next t → { t with smb := s.smb, out := s.out } = s)
      ∧ (s.pins.alert = true → exec .alertResponse s
          = .next { s with pins := { s.pins with alert := false }, out := s.out ++ [.smbus (Config.smbusReply 6 [((0x58 + s.dev.straps.smbAddr.toNat : Nat) : Int)])] })
      ∧ (s.pins.alert = false → exec .alertResponse s = .next s))
    ∧ (s.dev.stage = .off → (∀ e, exec (.mctpControl e) s = .next s) ∧ (∀ m, exec (.pldmMessage m) s = .next s)
      ∧ exec .alertResponse s = .next s)
    ∧ sensor s 1 = some (s.gov.average : Int) ∧ (∀ c : Fin 4, sensor s (2 + c.val) = some (courseTemp s c / 16))
    ∧ sensor s 6 = some (maxTemp s ioIslands / 16)
    ∧ sensor s 7 = some (if s.dev.stage = .hold then (4 : Int) else (powerCode s : Int))
    ∧ sensor s 8 = some (lifecycleValue s : Int) ∧ sensor s 9 = some ((b2n s.dev.ready : Int) + 2 * (b2n s.pins.fault : Int))
    ∧ sensor s 10 = some (newestSeq s : Int) ∧ sensor s 0 = none ∧ ∀ n, 10 < n → sensor s n = none

/-- The state after reset (R10, R44, R45, R511, R515, R542); that it is this point of start-up of a new part is the
model's choice (log 5). -/
def Obligations.ResetState : Prop :=
  let s := State.reset
  s.pending = [] ∧ s.cmds = [] ∧ s.sessions = [] ∧ s.obj = {} ∧ s.flash.namespaces = [] ∧ s.nvme = []
    ∧ (∀ k : PairKey, (look s.host.pairs k).enable = false ∧ (look s.host.pairs k).idle = true)
    ∧ (∀ k : Fin 2 × Nat × Nat, (look s.host.vecs k).masked = true)
    ∧ (∀ p : Fin 2, (look s.host.ports p).link = false)
    ∧ s.dev.ready = false ∧ s.dev.stage = .startup ∧ s.dev.cfg = Params.factory ∧ s.now = 0 ∧ s.counters = []
    ∧ s.pins.fault = false ∧ s.pins.alert = false ∧ s.log.entries = [] ∧ s.sec.lifecycle = .unowned ∧ State.Inv s

/-- The invariant of Safety.lean holds after every step from a state in which it holds, whatever the queue holds. -/
def Obligations.StepKeepsInvariant : Prop :=
  ∀ s t : State, State.Inv s → step s = .next t → State.Inv t

/-- The compatibility mode is fixed at start-up (R3): a row after which the device is in service or in HOLD keeps
straps and parameters; every row but the named ones keeps all of `State.fixed`. -/
def Obligations.CompatibilityModeIsFixedAtStartUp : Prop :=
  (∀ (i : Instr) (s t : State), exec i s = .next t → t.dev.stage = .service ∨ t.dev.stage = .hold →
      t.dev.straps = s.dev.straps ∧ t.dev.cfg.sys.compatImage = s.dev.cfg.sys.compatImage
      ∧ compatMode t = compatMode s ∧ t.dev.cfg = s.dev.cfg)
    ∧ (∀ (i : Instr) (s t : State), changesFixed i = false → exec i s = .next t → t.fixed = s.fixed)
end

