-- ==== Sys2Proof/Laws/State.lean ====
section
/-! SUPPORT. What each named update of the state leaves: one law per field it does not touch. -/

open Sys2Proof
namespace Sys2Proof.Machine

@[simp] theorem State.draw_pending (s : State) : (State.draw s).pending = s.pending := rfl
@[simp] theorem State.draw_out (s : State) : (State.draw s).out = s.out := rfl
@[simp] theorem State.draw_now (s : State) : (State.draw s).now = s.now := rfl
@[simp] theorem State.draw_cmds (s : State) : (State.draw s).cmds = s.cmds := rfl
@[simp] theorem State.draw_nextCmd (s : State) : (State.draw s).nextCmd = s.nextCmd := rfl
@[simp] theorem State.draw_host (s : State) : (State.draw s).host = s.host := rfl
@[simp] theorem State.draw_sessions (s : State) : (State.draw s).sessions = s.sessions := rfl
@[simp] theorem State.draw_nextSession (s : State) : (State.draw s).nextSession = s.nextSession := rfl
@[simp] theorem State.draw_tenants (s : State) : (State.draw s).tenants = s.tenants := rfl
@[simp] theorem State.draw_sec (s : State) : (State.draw s).sec = s.sec := rfl
@[simp] theorem State.draw_dev (s : State) : (State.draw s).dev = s.dev := rfl
@[simp] theorem State.draw_islands (s : State) : (State.draw s).islands = s.islands := rfl
@[simp] theorem State.draw_counters (s : State) : (State.draw s).counters = s.counters := rfl
@[simp] theorem State.draw_gov (s : State) : (State.draw s).gov = s.gov := rfl
@[simp] theorem State.draw_pins (s : State) : (State.draw s).pins = s.pins := rfl
@[simp] theorem State.draw_smb (s : State) : (State.draw s).smb = s.smb := rfl
@[simp] theorem State.draw_log (s : State) : (State.draw s).log = s.log := rfl
@[simp] theorem State.draw_obj (s : State) : (State.draw s).obj = s.obj := rfl
@[simp] theorem State.draw_eng (s : State) : (State.draw s).eng = s.eng := rfl
@[simp] theorem State.draw_flash (s : State) : (State.draw s).flash = s.flash := rfl
@[simp] theorem State.draw_nvme (s : State) : (State.draw s).nvme = s.nvme := rfl
@[simp] theorem bump_pending (clk : ClockId) (sel n : Nat) (s : State) : (bump clk sel n s).pending = s.pending := rfl
@[simp] theorem bump_fresh (clk : ClockId) (sel n : Nat) (s : State) : (bump clk sel n s).fresh = s.fresh := rfl
@[simp] theorem bump_out (clk : ClockId) (sel n : Nat) (s : State) : (bump clk sel n s).out = s.out := rfl
@[simp] theorem bump_now (clk : ClockId) (sel n : Nat) (s : State) : (bump clk sel n s).now = s.now := rfl
@[simp] theorem bump_cmds (clk : ClockId) (sel n : Nat) (s : State) : (bump clk sel n s).cmds = s.cmds := rfl
@[simp] theorem bump_nextCmd (clk : ClockId) (sel n : Nat) (s : State) : (bump clk sel n s).nextCmd = s.nextCmd := rfl
@[simp] theorem bump_host (clk : ClockId) (sel n : Nat) (s : State) : (bump clk sel n s).host = s.host := rfl
@[simp] theorem bump_sessions (clk : ClockId) (sel n : Nat) (s : State) : (bump clk sel n s).sessions = s.sessions := rfl
@[simp] theorem bump_nextSession (clk : ClockId) (sel n : Nat) (s : State) : (bump clk sel n s).nextSession = s.nextSession := rfl
@[simp] theorem bump_tenants (clk : ClockId) (sel n : Nat) (s : State) : (bump clk sel n s).tenants = s.tenants := rfl
@[simp] theorem bump_sec (clk : ClockId) (sel n : Nat) (s : State) : (bump clk sel n s).sec = s.sec := rfl
@[simp] theorem bump_dev (clk : ClockId) (sel n : Nat) (s : State) : (bump clk sel n s).dev = s.dev := rfl
@[simp] theorem bump_islands (clk : ClockId) (sel n : Nat) (s : State) : (bump clk sel n s).islands = s.islands := rfl
@[simp] theorem bump_gov (clk : ClockId) (sel n : Nat) (s : State) : (bump clk sel n s).gov = s.gov := rfl
@[simp] theorem bump_pins (clk : ClockId) (sel n : Nat) (s : State) : (bump clk sel n s).pins = s.pins := rfl
@[simp] theorem bump_smb (clk : ClockId) (sel n : Nat) (s : State) : (bump clk sel n s).smb = s.smb := rfl
@[simp] theorem bump_log (clk : ClockId) (sel n : Nat) (s : State) : (bump clk sel n s).log = s.log := rfl
@[simp] theorem bump_obj (clk : ClockId) (sel n : Nat) (s : State) : (bump clk sel n s).obj = s.obj := rfl
@[simp] theorem bump_eng (clk : ClockId) (sel n : Nat) (s : State) : (bump clk sel n s).eng = s.eng := rfl
@[simp] theorem bump_flash (clk : ClockId) (sel n : Nat) (s : State) : (bump clk sel n s).flash = s.flash := rfl
@[simp] theorem bump_nvme (clk : ClockId) (sel n : Nat) (s : State) : (bump clk sel n s).nvme = s.nvme := rfl
@[simp] theorem count_pending (sel n : Nat) (s : State) : (count sel n s).pending = s.pending := rfl
@[simp] theorem count_fresh (sel n : Nat) (s : State) : (count sel n s).fresh = s.fresh := rfl
@[simp] theorem count_out (sel n : Nat) (s : State) : (count sel n s).out = s.out := rfl
@[simp] theorem count_now (sel n : Nat) (s : State) : (count sel n s).now = s.now := rfl
@[simp] theorem count_cmds (sel n : Nat) (s : State) : (count sel n s).cmds = s.cmds := rfl
@[simp] theorem count_nextCmd (sel n : Nat) (s : State) : (count sel n s).nextCmd = s.nextCmd := rfl
@[simp] theorem count_host (sel n : Nat) (s : State) : (count sel n s).host = s.host := rfl
@[simp] theorem count_sessions (sel n : Nat) (s : State) : (count sel n s).sessions = s.sessions := rfl
@[simp] theorem count_nextSession (sel n : Nat) (s : State) : (count sel n s).nextSession = s.nextSession := rfl
@[simp] theorem count_tenants (sel n : Nat) (s : State) : (count sel n s).tenants = s.tenants := rfl
@[simp] theorem count_sec (sel n : Nat) (s : State) : (count sel n s).sec = s.sec := rfl
@[simp] theorem count_dev (sel n : Nat) (s : State) : (count sel n s).dev = s.dev := rfl
@[simp] theorem count_islands (sel n : Nat) (s : State) : (count sel n s).islands = s.islands := rfl
@[simp] theorem count_gov (sel n : Nat) (s : State) : (count sel n s).gov = s.gov := rfl
@[simp] theorem count_pins (sel n : Nat) (s : State) : (count sel n s).pins = s.pins := rfl
@[simp] theorem count_smb (sel n : Nat) (s : State) : (count sel n s).smb = s.smb := rfl
@[simp] theorem count_log (sel n : Nat) (s : State) : (count sel n s).log = s.log := rfl
@[simp] theorem count_obj (sel n : Nat) (s : State) : (count sel n s).obj = s.obj := rfl
@[simp] theorem count_eng (sel n : Nat) (s : State) : (count sel n s).eng = s.eng := rfl
@[simp] theorem count_flash (sel n : Nat) (s : State) : (count sel n s).flash = s.flash := rfl
@[simp] theorem count_nvme (sel n : Nat) (s : State) : (count sel n s).nvme = s.nvme := rfl
@[simp] theorem setPair_pending (k : PairKey) (p : Pair) (s : State) : (setPair k p s).pending = s.pending := rfl
@[simp] theorem setPair_fresh (k : PairKey) (p : Pair) (s : State) : (setPair k p s).fresh = s.fresh := rfl
@[simp] theorem setPair_out (k : PairKey) (p : Pair) (s : State) : (setPair k p s).out = s.out := rfl
@[simp] theorem setPair_now (k : PairKey) (p : Pair) (s : State) : (setPair k p s).now = s.now := rfl
@[simp] theorem setPair_cmds (k : PairKey) (p : Pair) (s : State) : (setPair k p s).cmds = s.cmds := rfl
@[simp] theorem setPair_nextCmd (k : PairKey) (p : Pair) (s : State) : (setPair k p s).nextCmd = s.nextCmd := rfl
@[simp] theorem setPair_sessions (k : PairKey) (p : Pair) (s : State) : (setPair k p s).sessions = s.sessions := rfl
@[simp] theorem setPair_nextSession (k : PairKey) (p : Pair) (s : State) : (setPair k p s).nextSession = s.nextSession := rfl
@[simp] theorem setPair_tenants (k : PairKey) (p : Pair) (s : State) : (setPair k p s).tenants = s.tenants := rfl
@[simp] theorem setPair_sec (k : PairKey) (p : Pair) (s : State) : (setPair k p s).sec = s.sec := rfl
@[simp] theorem setPair_dev (k : PairKey) (p : Pair) (s : State) : (setPair k p s).dev = s.dev := rfl
@[simp] theorem setPair_islands (k : PairKey) (p : Pair) (s : State) : (setPair k p s).islands = s.islands := rfl
@[simp] theorem setPair_counters (k : PairKey) (p : Pair) (s : State) : (setPair k p s).counters = s.counters := rfl
@[simp] theorem setPair_gov (k : PairKey) (p : Pair) (s : State) : (setPair k p s).gov = s.gov := rfl
@[simp] theorem setPair_pins (k : PairKey) (p : Pair) (s : State) : (setPair k p s).pins = s.pins := rfl
@[simp] theorem setPair_smb (k : PairKey) (p : Pair) (s : State) : (setPair k p s).smb = s.smb := rfl
@[simp] theorem setPair_log (k : PairKey) (p : Pair) (s : State) : (setPair k p s).log = s.log := rfl
@[simp] theorem setPair_obj (k : PairKey) (p : Pair) (s : State) : (setPair k p s).obj = s.obj := rfl
@[simp] theorem setPair_eng (k : PairKey) (p : Pair) (s : State) : (setPair k p s).eng = s.eng := rfl
@[simp] theorem setPair_flash (k : PairKey) (p : Pair) (s : State) : (setPair k p s).flash = s.flash := rfl
@[simp] theorem setPair_nvme (k : PairKey) (p : Pair) (s : State) : (setPair k p s).nvme = s.nvme := rfl
@[simp] theorem logFault_pending (clk : ClockId) (cls action addr n : Nat) (s : State) : (logFault clk cls action addr n s).pending = s.pending := rfl
@[simp] theorem logFault_fresh (clk : ClockId) (cls action addr n : Nat) (s : State) : (logFault clk cls action addr n s).fresh = s.fresh := rfl
@[simp] theorem logFault_out (clk : ClockId) (cls action addr n : Nat) (s : State) : (logFault clk cls action addr n s).out = s.out := rfl
@[simp] theorem logFault_now (clk : ClockId) (cls action addr n : Nat) (s : State) : (logFault clk cls action addr n s).now = s.now := rfl
@[simp] theorem logFault_cmds (clk : ClockId) (cls action addr n : Nat) (s : State) : (logFault clk cls action addr n s).cmds = s.cmds := rfl
@[simp] theorem logFault_nextCmd (clk : ClockId) (cls action addr n : Nat) (s : State) : (logFault clk cls action addr n s).nextCmd = s.nextCmd := rfl
@[simp] theorem logFault_host (clk : ClockId) (cls action addr n : Nat) (s : State) : (logFault clk cls action addr n s).host = s.host := rfl
@[simp] theorem logFault_sessions (clk : ClockId) (cls action addr n : Nat) (s : State) : (logFault clk cls action addr n s).sessions = s.sessions := rfl
@[simp] theorem logFault_nextSession (clk : ClockId) (cls action addr n : Nat) (s : State) : (logFault clk cls action addr n s).nextSession = s.nextSession := rfl
@[simp] theorem logFault_tenants (clk : ClockId) (cls action addr n : Nat) (s : State) : (logFault clk cls action addr n s).tenants = s.tenants := rfl
@[simp] theorem logFault_sec (clk : ClockId) (cls action addr n : Nat) (s : State) : (logFault clk cls action addr n s).sec = s.sec := rfl
@[simp] theorem logFault_dev (clk : ClockId) (cls action addr n : Nat) (s : State) : (logFault clk cls action addr n s).dev = s.dev := rfl
@[simp] theorem logFault_islands (clk : ClockId) (cls action addr n : Nat) (s : State) : (logFault clk cls action addr n s).islands = s.islands := rfl
@[simp] theorem logFault_counters (clk : ClockId) (cls action addr n : Nat) (s : State) : (logFault clk cls action addr n s).counters = s.counters := rfl
@[simp] theorem logFault_gov (clk : ClockId) (cls action addr n : Nat) (s : State) : (logFault clk cls action addr n s).gov = s.gov := rfl
@[simp] theorem logFault_smb (clk : ClockId) (cls action addr n : Nat) (s : State) : (logFault clk cls action addr n s).smb = s.smb := rfl
@[simp] theorem logFault_obj (clk : ClockId) (cls action addr n : Nat) (s : State) : (logFault clk cls action addr n s).obj = s.obj := rfl
@[simp] theorem logFault_eng (clk : ClockId) (cls action addr n : Nat) (s : State) : (logFault clk cls action addr n s).eng = s.eng := rfl
@[simp] theorem logFault_flash (clk : ClockId) (cls action addr n : Nat) (s : State) : (logFault clk cls action addr n s).flash = s.flash := rfl
@[simp] theorem logFault_nvme (clk : ClockId) (cls action addr n : Nat) (s : State) : (logFault clk cls action addr n s).nvme = s.nvme := rfl
@[simp] theorem powerUp_pending (clks : List ClockId) (s : State) : (powerUp clks s).pending = s.pending := rfl
@[simp] theorem powerUp_fresh (clks : List ClockId) (s : State) : (powerUp clks s).fresh = s.fresh := rfl
@[simp] theorem powerUp_out (clks : List ClockId) (s : State) : (powerUp clks s).out = s.out := rfl
@[simp] theorem powerUp_now (clks : List ClockId) (s : State) : (powerUp clks s).now = s.now := rfl
@[simp] theorem powerUp_cmds (clks : List ClockId) (s : State) : (powerUp clks s).cmds = s.cmds := rfl
@[simp] theorem powerUp_nextCmd (clks : List ClockId) (s : State) : (powerUp clks s).nextCmd = s.nextCmd := rfl
@[simp] theorem powerUp_host (clks : List ClockId) (s : State) : (powerUp clks s).host = s.host := rfl
@[simp] theorem powerUp_sessions (clks : List ClockId) (s : State) : (powerUp clks s).sessions = s.sessions := rfl
@[simp] theorem powerUp_nextSession (clks : List ClockId) (s : State) : (powerUp clks s).nextSession = s.nextSession := rfl
@[simp] theorem powerUp_tenants (clks : List ClockId) (s : State) : (powerUp clks s).tenants = s.tenants := rfl
@[simp] theorem powerUp_sec (clks : List ClockId) (s : State) : (powerUp clks s).sec = s.sec := rfl
@[simp] theorem powerUp_dev (clks : List ClockId) (s : State) : (powerUp clks s).dev = s.dev := rfl
@[simp] theorem powerUp_gov (clks : List ClockId) (s : State) : (powerUp clks s).gov = s.gov := rfl
@[simp] theorem powerUp_pins (clks : List ClockId) (s : State) : (powerUp clks s).pins = s.pins := rfl
@[simp] theorem powerUp_smb (clks : List ClockId) (s : State) : (powerUp clks s).smb = s.smb := rfl
@[simp] theorem powerUp_log (clks : List ClockId) (s : State) : (powerUp clks s).log = s.log := rfl
@[simp] theorem powerUp_obj (clks : List ClockId) (s : State) : (powerUp clks s).obj = s.obj := rfl
@[simp] theorem powerUp_eng (clks : List ClockId) (s : State) : (powerUp clks s).eng = s.eng := rfl
@[simp] theorem powerUp_flash (clks : List ClockId) (s : State) : (powerUp clks s).flash = s.flash := rfl
@[simp] theorem powerUp_nvme (clks : List ClockId) (s : State) : (powerUp clks s).nvme = s.nvme := rfl
@[simp] theorem retire_pending (clk : ClockId) (s : State) : (retire clk s).pending = s.pending := rfl
@[simp] theorem retire_fresh (clk : ClockId) (s : State) : (retire clk s).fresh = s.fresh := rfl
@[simp] theorem retire_out (clk : ClockId) (s : State) : (retire clk s).out = s.out := rfl
@[simp] theorem retire_now (clk : ClockId) (s : State) : (retire clk s).now = s.now := rfl
@[simp] theorem retire_cmds (clk : ClockId) (s : State) : (retire clk s).cmds = s.cmds := rfl
@[simp] theorem retire_nextCmd (clk : ClockId) (s : State) : (retire clk s).nextCmd = s.nextCmd := rfl
@[simp] theorem retire_host (clk : ClockId) (s : State) : (retire clk s).host = s.host := rfl
@[simp] theorem retire_sessions (clk : ClockId) (s : State) : (retire clk s).sessions = s.sessions := rfl
@[simp] theorem retire_nextSession (clk : ClockId) (s : State) : (retire clk s).nextSession = s.nextSession := rfl
@[simp] theorem retire_tenants (clk : ClockId) (s : State) : (retire clk s).tenants = s.tenants := rfl
@[simp] theorem retire_sec (clk : ClockId) (s : State) : (retire clk s).sec = s.sec := rfl
@[simp] theorem retire_dev (clk : ClockId) (s : State) : (retire clk s).dev = s.dev := rfl
@[simp] theorem retire_gov (clk : ClockId) (s : State) : (retire clk s).gov = s.gov := rfl
@[simp] theorem retire_pins (clk : ClockId) (s : State) : (retire clk s).pins = s.pins := rfl
@[simp] theorem retire_smb (clk : ClockId) (s : State) : (retire clk s).smb = s.smb := rfl
@[simp] theorem retire_log (clk : ClockId) (s : State) : (retire clk s).log = s.log := rfl
@[simp] theorem retire_obj (clk : ClockId) (s : State) : (retire clk s).obj = s.obj := rfl
@[simp] theorem retire_eng (clk : ClockId) (s : State) : (retire clk s).eng = s.eng := rfl
@[simp] theorem retire_flash (clk : ClockId) (s : State) : (retire clk s).flash = s.flash := rfl
@[simp] theorem retire_nvme (clk : ClockId) (s : State) : (retire clk s).nvme = s.nvme := rfl
@[simp] theorem standAside_pending (clk : ClockId) (s : State) : (standAside clk s).pending = s.pending := rfl
@[simp] theorem standAside_fresh (clk : ClockId) (s : State) : (standAside clk s).fresh = s.fresh := rfl
@[simp] theorem standAside_out (clk : ClockId) (s : State) : (standAside clk s).out = s.out := rfl
@[simp] theorem standAside_now (clk : ClockId) (s : State) : (standAside clk s).now = s.now := rfl
@[simp] theorem standAside_cmds (clk : ClockId) (s : State) : (standAside clk s).cmds = s.cmds := rfl
@[simp] theorem standAside_nextCmd (clk : ClockId) (s : State) : (standAside clk s).nextCmd = s.nextCmd := rfl
@[simp] theorem standAside_host (clk : ClockId) (s : State) : (standAside clk s).host = s.host := rfl
@[simp] theorem standAside_sessions (clk : ClockId) (s : State) : (standAside clk s).sessions = s.sessions := rfl
@[simp] theorem standAside_nextSession (clk : ClockId) (s : State) : (standAside clk s).nextSession = s.nextSession := rfl
@[simp] theorem standAside_tenants (clk : ClockId) (s : State) : (standAside clk s).tenants = s.tenants := rfl
@[simp] theorem standAside_sec (clk : ClockId) (s : State) : (standAside clk s).sec = s.sec := rfl
@[simp] theorem standAside_dev (clk : ClockId) (s : State) : (standAside clk s).dev = s.dev := rfl
@[simp] theorem standAside_counters (clk : ClockId) (s : State) : (standAside clk s).counters = s.counters := rfl
@[simp] theorem standAside_gov (clk : ClockId) (s : State) : (standAside clk s).gov = s.gov := rfl
@[simp] theorem standAside_pins (clk : ClockId) (s : State) : (standAside clk s).pins = s.pins := rfl
@[simp] theorem standAside_smb (clk : ClockId) (s : State) : (standAside clk s).smb = s.smb := rfl
@[simp] theorem standAside_log (clk : ClockId) (s : State) : (standAside clk s).log = s.log := rfl
@[simp] theorem standAside_obj (clk : ClockId) (s : State) : (standAside clk s).obj = s.obj := rfl
@[simp] theorem standAside_eng (clk : ClockId) (s : State) : (standAside clk s).eng = s.eng := rfl
@[simp] theorem standAside_flash (clk : ClockId) (s : State) : (standAside clk s).flash = s.flash := rfl
@[simp] theorem standAside_nvme (clk : ClockId) (s : State) : (standAside clk s).nvme = s.nvme := rfl
@[simp] theorem setCmd_pending (id : Nat) (f : Cmd → Cmd) (s : State) : (setCmd id f s).pending = s.pending := rfl
@[simp] theorem setCmd_fresh (id : Nat) (f : Cmd → Cmd) (s : State) : (setCmd id f s).fresh = s.fresh := rfl
@[simp] theorem setCmd_out (id : Nat) (f : Cmd → Cmd) (s : State) : (setCmd id f s).out = s.out := rfl
@[simp] theorem setCmd_now (id : Nat) (f : Cmd → Cmd) (s : State) : (setCmd id f s).now = s.now := rfl
@[simp] theorem setCmd_nextCmd (id : Nat) (f : Cmd → Cmd) (s : State) : (setCmd id f s).nextCmd = s.nextCmd := rfl
@[simp] theorem setCmd_host (id : Nat) (f : Cmd → Cmd) (s : State) : (setCmd id f s).host = s.host := rfl
@[simp] theorem setCmd_sessions (id : Nat) (f : Cmd → Cmd) (s : State) : (setCmd id f s).sessions = s.sessions := rfl
@[simp] theorem setCmd_nextSession (id : Nat) (f : Cmd → Cmd) (s : State) : (setCmd id f s).nextSession = s.nextSession := rfl
@[simp] theorem setCmd_tenants (id : Nat) (f : Cmd → Cmd) (s : State) : (setCmd id f s).tenants = s.tenants := rfl
@[simp] theorem setCmd_sec (id : Nat) (f : Cmd → Cmd) (s : State) : (setCmd id f s).sec = s.sec := rfl
@[simp] theorem setCmd_dev (id : Nat) (f : Cmd → Cmd) (s : State) : (setCmd id f s).dev = s.dev := rfl
@[simp] theorem setCmd_islands (id : Nat) (f : Cmd → Cmd) (s : State) : (setCmd id f s).islands = s.islands := rfl
@[simp] theorem setCmd_counters (id : Nat) (f : Cmd → Cmd) (s : State) : (setCmd id f s).counters = s.counters := rfl
@[simp] theorem setCmd_gov (id : Nat) (f : Cmd → Cmd) (s : State) : (setCmd id f s).gov = s.gov := rfl
@[simp] theorem setCmd_pins (id : Nat) (f : Cmd → Cmd) (s : State) : (setCmd id f s).pins = s.pins := rfl
@[simp] theorem setCmd_smb (id : Nat) (f : Cmd → Cmd) (s : State) : (setCmd id f s).smb = s.smb := rfl
@[simp] theorem setCmd_log (id : Nat) (f : Cmd → Cmd) (s : State) : (setCmd id f s).log = s.log := rfl
@[simp] theorem setCmd_obj (id : Nat) (f : Cmd → Cmd) (s : State) : (setCmd id f s).obj = s.obj := rfl
@[simp] theorem setCmd_eng (id : Nat) (f : Cmd → Cmd) (s : State) : (setCmd id f s).eng = s.eng := rfl
@[simp] theorem setCmd_flash (id : Nat) (f : Cmd → Cmd) (s : State) : (setCmd id f s).flash = s.flash := rfl
@[simp] theorem setCmd_nvme (id : Nat) (f : Cmd → Cmd) (s : State) : (setCmd id f s).nvme = s.nvme := rfl
@[simp] theorem setTenant_pending (t : Nat) (f : Tenant → Tenant) (s : State) : (setTenant t f s).pending = s.pending := rfl
@[simp] theorem setTenant_fresh (t : Nat) (f : Tenant → Tenant) (s : State) : (setTenant t f s).fresh = s.fresh := rfl
@[simp] theorem setTenant_out (t : Nat) (f : Tenant → Tenant) (s : State) : (setTenant t f s).out = s.out := rfl
@[simp] theorem setTenant_now (t : Nat) (f : Tenant → Tenant) (s : State) : (setTenant t f s).now = s.now := rfl
@[simp] theorem setTenant_cmds (t : Nat) (f : Tenant → Tenant) (s : State) : (setTenant t f s).cmds = s.cmds := rfl
@[simp] theorem setTenant_nextCmd (t : Nat) (f : Tenant → Tenant) (s : State) : (setTenant t f s).nextCmd = s.nextCmd := rfl
@[simp] theorem setTenant_host (t : Nat) (f : Tenant → Tenant) (s : State) : (setTenant t f s).host = s.host := rfl
@[simp] theorem setTenant_sessions (t : Nat) (f : Tenant → Tenant) (s : State) : (setTenant t f s).sessions = s.sessions := rfl
@[simp] theorem setTenant_nextSession (t : Nat) (f : Tenant → Tenant) (s : State) : (setTenant t f s).nextSession = s.nextSession := rfl
@[simp] theorem setTenant_sec (t : Nat) (f : Tenant → Tenant) (s : State) : (setTenant t f s).sec = s.sec := rfl
@[simp] theorem setTenant_dev (t : Nat) (f : Tenant → Tenant) (s : State) : (setTenant t f s).dev = s.dev := rfl
@[simp] theorem setTenant_islands (t : Nat) (f : Tenant → Tenant) (s : State) : (setTenant t f s).islands = s.islands := rfl
@[simp] theorem setTenant_counters (t : Nat) (f : Tenant → Tenant) (s : State) : (setTenant t f s).counters = s.counters := rfl
@[simp] theorem setTenant_gov (t : Nat) (f : Tenant → Tenant) (s : State) : (setTenant t f s).gov = s.gov := rfl
@[simp] theorem setTenant_pins (t : Nat) (f : Tenant → Tenant) (s : State) : (setTenant t f s).pins = s.pins := rfl
@[simp] theorem setTenant_smb (t : Nat) (f : Tenant → Tenant) (s : State) : (setTenant t f s).smb = s.smb := rfl
@[simp] theorem setTenant_log (t : Nat) (f : Tenant → Tenant) (s : State) : (setTenant t f s).log = s.log := rfl
@[simp] theorem setTenant_obj (t : Nat) (f : Tenant → Tenant) (s : State) : (setTenant t f s).obj = s.obj := rfl
@[simp] theorem setTenant_eng (t : Nat) (f : Tenant → Tenant) (s : State) : (setTenant t f s).eng = s.eng := rfl
@[simp] theorem setTenant_flash (t : Nat) (f : Tenant → Tenant) (s : State) : (setTenant t f s).flash = s.flash := rfl
@[simp] theorem setTenant_nvme (t : Nat) (f : Tenant → Tenant) (s : State) : (setTenant t f s).nvme = s.nvme := rfl
@[simp] theorem setSeq_pending (e : Nat) (f : Seq → Seq) (s : State) : (setSeq e f s).pending = s.pending := rfl
@[simp] theorem setSeq_fresh (e : Nat) (f : Seq → Seq) (s : State) : (setSeq e f s).fresh = s.fresh := rfl
@[simp] theorem setSeq_out (e : Nat) (f : Seq → Seq) (s : State) : (setSeq e f s).out = s.out := rfl
@[simp] theorem setSeq_now (e : Nat) (f : Seq → Seq) (s : State) : (setSeq e f s).now = s.now := rfl
@[simp] theorem setSeq_cmds (e : Nat) (f : Seq → Seq) (s : State) : (setSeq e f s).cmds = s.cmds := rfl
@[simp] theorem setSeq_nextCmd (e : Nat) (f : Seq → Seq) (s : State) : (setSeq e f s).nextCmd = s.nextCmd := rfl
@[simp] theorem setSeq_host (e : Nat) (f : Seq → Seq) (s : State) : (setSeq e f s).host = s.host := rfl
@[simp] theorem setSeq_sessions (e : Nat) (f : Seq → Seq) (s : State) : (setSeq e f s).sessions = s.sessions := rfl
@[simp] theorem setSeq_nextSession (e : Nat) (f : Seq → Seq) (s : State) : (setSeq e f s).nextSession = s.nextSession := rfl
@[simp] theorem setSeq_tenants (e : Nat) (f : Seq → Seq) (s : State) : (setSeq e f s).tenants = s.tenants := rfl
@[simp] theorem setSeq_sec (e : Nat) (f : Seq → Seq) (s : State) : (setSeq e f s).sec = s.sec := rfl
@[simp] theorem setSeq_dev (e : Nat) (f : Seq → Seq) (s : State) : (setSeq e f s).dev = s.dev := rfl
@[simp] theorem setSeq_islands (e : Nat) (f : Seq → Seq) (s : State) : (setSeq e f s).islands = s.islands := rfl
@[simp] theorem setSeq_counters (e : Nat) (f : Seq → Seq) (s : State) : (setSeq e f s).counters = s.counters := rfl
@[simp] theorem setSeq_gov (e : Nat) (f : Seq → Seq) (s : State) : (setSeq e f s).gov = s.gov := rfl
@[simp] theorem setSeq_pins (e : Nat) (f : Seq → Seq) (s : State) : (setSeq e f s).pins = s.pins := rfl
@[simp] theorem setSeq_smb (e : Nat) (f : Seq → Seq) (s : State) : (setSeq e f s).smb = s.smb := rfl
@[simp] theorem setSeq_log (e : Nat) (f : Seq → Seq) (s : State) : (setSeq e f s).log = s.log := rfl
@[simp] theorem setSeq_eng (e : Nat) (f : Seq → Seq) (s : State) : (setSeq e f s).eng = s.eng := rfl
@[simp] theorem setSeq_flash (e : Nat) (f : Seq → Seq) (s : State) : (setSeq e f s).flash = s.flash := rfl
@[simp] theorem setSeq_nvme (e : Nat) (f : Seq → Seq) (s : State) : (setSeq e f s).nvme = s.nvme := rfl
@[simp] theorem setCourse_pending (c : Fin 4) (f : Course → Course) (s : State) : (setCourse c f s).pending = s.pending := rfl
@[simp] theorem setCourse_fresh (c : Fin 4) (f : Course → Course) (s : State) : (setCourse c f s).fresh = s.fresh := rfl
@[simp] theorem setCourse_out (c : Fin 4) (f : Course → Course) (s : State) : (setCourse c f s).out = s.out := rfl
@[simp] theorem setCourse_now (c : Fin 4) (f : Course → Course) (s : State) : (setCourse c f s).now = s.now := rfl
@[simp] theorem setCourse_cmds (c : Fin 4) (f : Course → Course) (s : State) : (setCourse c f s).cmds = s.cmds := rfl
@[simp] theorem setCourse_nextCmd (c : Fin 4) (f : Course → Course) (s : State) : (setCourse c f s).nextCmd = s.nextCmd := rfl
@[simp] theorem setCourse_host (c : Fin 4) (f : Course → Course) (s : State) : (setCourse c f s).host = s.host := rfl
@[simp] theorem setCourse_sessions (c : Fin 4) (f : Course → Course) (s : State) : (setCourse c f s).sessions = s.sessions := rfl
@[simp] theorem setCourse_nextSession (c : Fin 4) (f : Course → Course) (s : State) : (setCourse c f s).nextSession = s.nextSession := rfl
@[simp] theorem setCourse_tenants (c : Fin 4) (f : Course → Course) (s : State) : (setCourse c f s).tenants = s.tenants := rfl
@[simp] theorem setCourse_sec (c : Fin 4) (f : Course → Course) (s : State) : (setCourse c f s).sec = s.sec := rfl
@[simp] theorem setCourse_dev (c : Fin 4) (f : Course → Course) (s : State) : (setCourse c f s).dev = s.dev := rfl
@[simp] theorem setCourse_islands (c : Fin 4) (f : Course → Course) (s : State) : (setCourse c f s).islands = s.islands := rfl
@[simp] theorem setCourse_counters (c : Fin 4) (f : Course → Course) (s : State) : (setCourse c f s).counters = s.counters := rfl
@[simp] theorem setCourse_gov (c : Fin 4) (f : Course → Course) (s : State) : (setCourse c f s).gov = s.gov := rfl
@[simp] theorem setCourse_pins (c : Fin 4) (f : Course → Course) (s : State) : (setCourse c f s).pins = s.pins := rfl
@[simp] theorem setCourse_smb (c : Fin 4) (f : Course → Course) (s : State) : (setCourse c f s).smb = s.smb := rfl
@[simp] theorem setCourse_log (c : Fin 4) (f : Course → Course) (s : State) : (setCourse c f s).log = s.log := rfl
@[simp] theorem setCourse_obj (c : Fin 4) (f : Course → Course) (s : State) : (setCourse c f s).obj = s.obj := rfl
@[simp] theorem setCourse_flash (c : Fin 4) (f : Course → Course) (s : State) : (setCourse c f s).flash = s.flash := rfl
@[simp] theorem setCourse_nvme (c : Fin 4) (f : Course → Course) (s : State) : (setCourse c f s).nvme = s.nvme := rfl
@[simp] theorem setFunc_pending (port : Fin 2) (fn : Nat) (f : Func) (s : State) : (setFunc port fn f s).pending = s.pending := rfl
@[simp] theorem setFunc_fresh (port : Fin 2) (fn : Nat) (f : Func) (s : State) : (setFunc port fn f s).fresh = s.fresh := rfl
@[simp] theorem setFunc_out (port : Fin 2) (fn : Nat) (f : Func) (s : State) : (setFunc port fn f s).out = s.out := rfl
@[simp] theorem setFunc_now (port : Fin 2) (fn : Nat) (f : Func) (s : State) : (setFunc port fn f s).now = s.now := rfl
@[simp] theorem setFunc_cmds (port : Fin 2) (fn : Nat) (f : Func) (s : State) : (setFunc port fn f s).cmds = s.cmds := rfl
@[simp] theorem setFunc_nextCmd (port : Fin 2) (fn : Nat) (f : Func) (s : State) : (setFunc port fn f s).nextCmd = s.nextCmd := rfl
@[simp] theorem setFunc_sessions (port : Fin 2) (fn : Nat) (f : Func) (s : State) : (setFunc port fn f s).sessions = s.sessions := rfl
@[simp] theorem setFunc_nextSession (port : Fin 2) (fn : Nat) (f : Func) (s : State) : (setFunc port fn f s).nextSession = s.nextSession := rfl
@[simp] theorem setFunc_tenants (port : Fin 2) (fn : Nat) (f : Func) (s : State) : (setFunc port fn f s).tenants = s.tenants := rfl
@[simp] theorem setFunc_sec (port : Fin 2) (fn : Nat) (f : Func) (s : State) : (setFunc port fn f s).sec = s.sec := rfl
@[simp] theorem setFunc_dev (port : Fin 2) (fn : Nat) (f : Func) (s : State) : (setFunc port fn f s).dev = s.dev := rfl
@[simp] theorem setFunc_islands (port : Fin 2) (fn : Nat) (f : Func) (s : State) : (setFunc port fn f s).islands = s.islands := rfl
@[simp] theorem setFunc_counters (port : Fin 2) (fn : Nat) (f : Func) (s : State) : (setFunc port fn f s).counters = s.counters := rfl
@[simp] theorem setFunc_gov (port : Fin 2) (fn : Nat) (f : Func) (s : State) : (setFunc port fn f s).gov = s.gov := rfl
@[simp] theorem setFunc_pins (port : Fin 2) (fn : Nat) (f : Func) (s : State) : (setFunc port fn f s).pins = s.pins := rfl
@[simp] theorem setFunc_smb (port : Fin 2) (fn : Nat) (f : Func) (s : State) : (setFunc port fn f s).smb = s.smb := rfl
@[simp] theorem setFunc_log (port : Fin 2) (fn : Nat) (f : Func) (s : State) : (setFunc port fn f s).log = s.log := rfl
@[simp] theorem setFunc_obj (port : Fin 2) (fn : Nat) (f : Func) (s : State) : (setFunc port fn f s).obj = s.obj := rfl
@[simp] theorem setFunc_eng (port : Fin 2) (fn : Nat) (f : Func) (s : State) : (setFunc port fn f s).eng = s.eng := rfl
@[simp] theorem setFunc_flash (port : Fin 2) (fn : Nat) (f : Func) (s : State) : (setFunc port fn f s).flash = s.flash := rfl
@[simp] theorem setFunc_nvme (port : Fin 2) (fn : Nat) (f : Func) (s : State) : (setFunc port fn f s).nvme = s.nvme := rfl
@[simp] theorem setConf_pending (port : Fin 2) (fn : Nat) (f : ConfSpace) (s : State) : (setConf port fn f s).pending = s.pending := rfl
@[simp] theorem setConf_fresh (port : Fin 2) (fn : Nat) (f : ConfSpace) (s : State) : (setConf port fn f s).fresh = s.fresh := rfl
@[simp] theorem setConf_out (port : Fin 2) (fn : Nat) (f : ConfSpace) (s : State) : (setConf port fn f s).out = s.out := rfl
@[simp] theorem setConf_now (port : Fin 2) (fn : Nat) (f : ConfSpace) (s : State) : (setConf port fn f s).now = s.now := rfl
@[simp] theorem setConf_cmds (port : Fin 2) (fn : Nat) (f : ConfSpace) (s : State) : (setConf port fn f s).cmds = s.cmds := rfl
@[simp] theorem setConf_nextCmd (port : Fin 2) (fn : Nat) (f : ConfSpace) (s : State) : (setConf port fn f s).nextCmd = s.nextCmd := rfl
@[simp] theorem setConf_sessions (port : Fin 2) (fn : Nat) (f : ConfSpace) (s : State) : (setConf port fn f s).sessions = s.sessions := rfl
@[simp] theorem setConf_nextSession (port : Fin 2) (fn : Nat) (f : ConfSpace) (s : State) : (setConf port fn f s).nextSession = s.nextSession := rfl
@[simp] theorem setConf_tenants (port : Fin 2) (fn : Nat) (f : ConfSpace) (s : State) : (setConf port fn f s).tenants = s.tenants := rfl
@[simp] theorem setConf_sec (port : Fin 2) (fn : Nat) (f : ConfSpace) (s : State) : (setConf port fn f s).sec = s.sec := rfl
@[simp] theorem setConf_dev (port : Fin 2) (fn : Nat) (f : ConfSpace) (s : State) : (setConf port fn f s).dev = s.dev := rfl
@[simp] theorem setConf_islands (port : Fin 2) (fn : Nat) (f : ConfSpace) (s : State) : (setConf port fn f s).islands = s.islands := rfl
@[simp] theorem setConf_counters (port : Fin 2) (fn : Nat) (f : ConfSpace) (s : State) : (setConf port fn f s).counters = s.counters := rfl
@[simp] theorem setConf_gov (port : Fin 2) (fn : Nat) (f : ConfSpace) (s : State) : (setConf port fn f s).gov = s.gov := rfl
@[simp] theorem setConf_pins (port : Fin 2) (fn : Nat) (f : ConfSpace) (s : State) : (setConf port fn f s).pins = s.pins := rfl
@[simp] theorem setConf_smb (port : Fin 2) (fn : Nat) (f : ConfSpace) (s : State) : (setConf port fn f s).smb = s.smb := rfl
@[simp] theorem setConf_log (port : Fin 2) (fn : Nat) (f : ConfSpace) (s : State) : (setConf port fn f s).log = s.log := rfl
@[simp] theorem setConf_obj (port : Fin 2) (fn : Nat) (f : ConfSpace) (s : State) : (setConf port fn f s).obj = s.obj := rfl
@[simp] theorem setConf_eng (port : Fin 2) (fn : Nat) (f : ConfSpace) (s : State) : (setConf port fn f s).eng = s.eng := rfl
@[simp] theorem setConf_flash (port : Fin 2) (fn : Nat) (f : ConfSpace) (s : State) : (setConf port fn f s).flash = s.flash := rfl
@[simp] theorem setConf_nvme (port : Fin 2) (fn : Nat) (f : ConfSpace) (s : State) : (setConf port fn f s).nvme = s.nvme := rfl
@[simp] theorem setJobs_pending (f : List ThreadJob → List ThreadJob) (s : State) : (setJobs f s).pending = s.pending := rfl
@[simp] theorem setJobs_fresh (f : List ThreadJob → List ThreadJob) (s : State) : (setJobs f s).fresh = s.fresh := rfl
@[simp] theorem setJobs_out (f : List ThreadJob → List ThreadJob) (s : State) : (setJobs f s).out = s.out := rfl
@[simp] theorem setJobs_now (f : List ThreadJob → List ThreadJob) (s : State) : (setJobs f s).now = s.now := rfl
@[simp] theorem setJobs_cmds (f : List ThreadJob → List ThreadJob) (s : State) : (setJobs f s).cmds = s.cmds := rfl
@[simp] theorem setJobs_nextCmd (f : List ThreadJob → List ThreadJob) (s : State) : (setJobs f s).nextCmd = s.nextCmd := rfl
@[simp] theorem setJobs_host (f : List ThreadJob → List ThreadJob) (s : State) : (setJobs f s).host = s.host := rfl
@[simp] theorem setJobs_sessions (f : List ThreadJob → List ThreadJob) (s : State) : (setJobs f s).sessions = s.sessions := rfl
@[simp] theorem setJobs_nextSession (f : List ThreadJob → List ThreadJob) (s : State) : (setJobs f s).nextSession = s.nextSession := rfl
@[simp] theorem setJobs_tenants (f : List ThreadJob → List ThreadJob) (s : State) : (setJobs f s).tenants = s.tenants := rfl
@[simp] theorem setJobs_sec (f : List ThreadJob → List ThreadJob) (s : State) : (setJobs f s).sec = s.sec := rfl
@[simp] theorem setJobs_dev (f : List ThreadJob → List ThreadJob) (s : State) : (setJobs f s).dev = s.dev := rfl
@[simp] theorem setJobs_islands (f : List ThreadJob → List ThreadJob) (s : State) : (setJobs f s).islands = s.islands := rfl
@[simp] theorem setJobs_counters (f : List ThreadJob → List ThreadJob) (s : State) : (setJobs f s).counters = s.counters := rfl
@[simp] theorem setJobs_gov (f : List ThreadJob → List ThreadJob) (s : State) : (setJobs f s).gov = s.gov := rfl
@[simp] theorem setJobs_pins (f : List ThreadJob → List ThreadJob) (s : State) : (setJobs f s).pins = s.pins := rfl
@[simp] theorem setJobs_smb (f : List ThreadJob → List ThreadJob) (s : State) : (setJobs f s).smb = s.smb := rfl
@[simp] theorem setJobs_log (f : List ThreadJob → List ThreadJob) (s : State) : (setJobs f s).log = s.log := rfl
@[simp] theorem setJobs_obj (f : List ThreadJob → List ThreadJob) (s : State) : (setJobs f s).obj = s.obj := rfl
@[simp] theorem setJobs_flash (f : List ThreadJob → List ThreadJob) (s : State) : (setJobs f s).flash = s.flash := rfl
@[simp] theorem setJobs_nvme (f : List ThreadJob → List ThreadJob) (s : State) : (setJobs f s).nvme = s.nvme := rfl
@[simp] theorem setSession_pending (sid : Nat) (f : Session → Session) (s : State) : (setSession sid f s).pending = s.pending := rfl
@[simp] theorem setSession_fresh (sid : Nat) (f : Session → Session) (s : State) : (setSession sid f s).fresh = s.fresh := rfl
@[simp] theorem setSession_out (sid : Nat) (f : Session → Session) (s : State) : (setSession sid f s).out = s.out := rfl
@[simp] theorem setSession_now (sid : Nat) (f : Session → Session) (s : State) : (setSession sid f s).now = s.now := rfl
@[simp] theorem setSession_cmds (sid : Nat) (f : Session → Session) (s : State) : (setSession sid f s).cmds = s.cmds := rfl
@[simp] theorem setSession_nextCmd (sid : Nat) (f : Session → Session) (s : State) : (setSession sid f s).nextCmd = s.nextCmd := rfl
@[simp] theorem setSession_host (sid : Nat) (f : Session → Session) (s : State) : (setSession sid f s).host = s.host := rfl
@[simp] theorem setSession_nextSession (sid : Nat) (f : Session → Session) (s : State) : (setSession sid f s).nextSession = s.nextSession := rfl
@[simp] theorem setSession_tenants (sid : Nat) (f : Session → Session) (s : State) : (setSession sid f s).tenants = s.tenants := rfl
@[simp] theorem setSession_sec (sid : Nat) (f : Session → Session) (s : State) : (setSession sid f s).sec = s.sec := rfl
@[simp] theorem setSession_dev (sid : Nat) (f : Session → Session) (s : State) : (setSession sid f s).dev = s.dev := rfl
@[simp] theorem setSession_islands (sid : Nat) (f : Session → Session) (s : State) : (setSession sid f s).islands = s.islands := rfl
@[simp] theorem setSession_counters (sid : Nat) (f : Session → Session) (s : State) : (setSession sid f s).counters = s.counters := rfl
@[simp] theorem setSession_gov (sid : Nat) (f : Session → Session) (s : State) : (setSession sid f s).gov = s.gov := rfl
@[simp] theorem setSession_pins (sid : Nat) (f : Session → Session) (s : State) : (setSession sid f s).pins = s.pins := rfl
@[simp] theorem setSession_smb (sid : Nat) (f : Session → Session) (s : State) : (setSession sid f s).smb = s.smb := rfl
@[simp] theorem setSession_log (sid : Nat) (f : Session → Session) (s : State) : (setSession sid f s).log = s.log := rfl
@[simp] theorem setSession_obj (sid : Nat) (f : Session → Session) (s : State) : (setSession sid f s).obj = s.obj := rfl
@[simp] theorem setSession_eng (sid : Nat) (f : Session → Session) (s : State) : (setSession sid f s).eng = s.eng := rfl
@[simp] theorem setSession_flash (sid : Nat) (f : Session → Session) (s : State) : (setSession sid f s).flash = s.flash := rfl
@[simp] theorem setSession_nvme (sid : Nat) (f : Session → Session) (s : State) : (setSession sid f s).nvme = s.nvme := rfl
@[simp] theorem setPort_pending (p : Fin 2) (f : Port → Port) (s : State) : (setPort p f s).pending = s.pending := rfl
@[simp] theorem setPort_fresh (p : Fin 2) (f : Port → Port) (s : State) : (setPort p f s).fresh = s.fresh := rfl
@[simp] theorem setPort_out (p : Fin 2) (f : Port → Port) (s : State) : (setPort p f s).out = s.out := rfl
@[simp] theorem setPort_now (p : Fin 2) (f : Port → Port) (s : State) : (setPort p f s).now = s.now := rfl
@[simp] theorem setPort_cmds (p : Fin 2) (f : Port → Port) (s : State) : (setPort p f s).cmds = s.cmds := rfl
@[simp] theorem setPort_nextCmd (p : Fin 2) (f : Port → Port) (s : State) : (setPort p f s).nextCmd = s.nextCmd := rfl
@[simp] theorem setPort_sessions (p : Fin 2) (f : Port → Port) (s : State) : (setPort p f s).sessions = s.sessions := rfl
@[simp] theorem setPort_nextSession (p : Fin 2) (f : Port → Port) (s : State) : (setPort p f s).nextSession = s.nextSession := rfl
@[simp] theorem setPort_tenants (p : Fin 2) (f : Port → Port) (s : State) : (setPort p f s).tenants = s.tenants := rfl
@[simp] theorem setPort_sec (p : Fin 2) (f : Port → Port) (s : State) : (setPort p f s).sec = s.sec := rfl
@[simp] theorem setPort_dev (p : Fin 2) (f : Port → Port) (s : State) : (setPort p f s).dev = s.dev := rfl
@[simp] theorem setPort_islands (p : Fin 2) (f : Port → Port) (s : State) : (setPort p f s).islands = s.islands := rfl
@[simp] theorem setPort_counters (p : Fin 2) (f : Port → Port) (s : State) : (setPort p f s).counters = s.counters := rfl
@[simp] theorem setPort_gov (p : Fin 2) (f : Port → Port) (s : State) : (setPort p f s).gov = s.gov := rfl
@[simp] theorem setPort_pins (p : Fin 2) (f : Port → Port) (s : State) : (setPort p f s).pins = s.pins := rfl
@[simp] theorem setPort_smb (p : Fin 2) (f : Port → Port) (s : State) : (setPort p f s).smb = s.smb := rfl
@[simp] theorem setPort_log (p : Fin 2) (f : Port → Port) (s : State) : (setPort p f s).log = s.log := rfl
@[simp] theorem setPort_obj (p : Fin 2) (f : Port → Port) (s : State) : (setPort p f s).obj = s.obj := rfl
@[simp] theorem setPort_eng (p : Fin 2) (f : Port → Port) (s : State) : (setPort p f s).eng = s.eng := rfl
@[simp] theorem setPort_flash (p : Fin 2) (f : Port → Port) (s : State) : (setPort p f s).flash = s.flash := rfl
@[simp] theorem setPort_nvme (p : Fin 2) (f : Port → Port) (s : State) : (setPort p f s).nvme = s.nvme := rfl
@[simp] theorem setIndex_pending (slot : Nat) (f : Index → Index) (s : State) : (setIndex slot f s).pending = s.pending := rfl
@[simp] theorem setIndex_fresh (slot : Nat) (f : Index → Index) (s : State) : (setIndex slot f s).fresh = s.fresh := rfl
@[simp] theorem setIndex_out (slot : Nat) (f : Index → Index) (s : State) : (setIndex slot f s).out = s.out := rfl
@[simp] theorem setIndex_now (slot : Nat) (f : Index → Index) (s : State) : (setIndex slot f s).now = s.now := rfl
@[simp] theorem setIndex_cmds (slot : Nat) (f : Index → Index) (s : State) : (setIndex slot f s).cmds = s.cmds := rfl
@[simp] theorem setIndex_nextCmd (slot : Nat) (f : Index → Index) (s : State) : (setIndex slot f s).nextCmd = s.nextCmd := rfl
@[simp] theorem setIndex_host (slot : Nat) (f : Index → Index) (s : State) : (setIndex slot f s).host = s.host := rfl
@[simp] theorem setIndex_sessions (slot : Nat) (f : Index → Index) (s : State) : (setIndex slot f s).sessions = s.sessions := rfl
@[simp] theorem setIndex_nextSession (slot : Nat) (f : Index → Index) (s : State) : (setIndex slot f s).nextSession = s.nextSession := rfl
@[simp] theorem setIndex_tenants (slot : Nat) (f : Index → Index) (s : State) : (setIndex slot f s).tenants = s.tenants := rfl
@[simp] theorem setIndex_sec (slot : Nat) (f : Index → Index) (s : State) : (setIndex slot f s).sec = s.sec := rfl
@[simp] theorem setIndex_dev (slot : Nat) (f : Index → Index) (s : State) : (setIndex slot f s).dev = s.dev := rfl
@[simp] theorem setIndex_islands (slot : Nat) (f : Index → Index) (s : State) : (setIndex slot f s).islands = s.islands := rfl
@[simp] theorem setIndex_counters (slot : Nat) (f : Index → Index) (s : State) : (setIndex slot f s).counters = s.counters := rfl
@[simp] theorem setIndex_gov (slot : Nat) (f : Index → Index) (s : State) : (setIndex slot f s).gov = s.gov := rfl
@[simp] theorem setIndex_pins (slot : Nat) (f : Index → Index) (s : State) : (setIndex slot f s).pins = s.pins := rfl
@[simp] theorem setIndex_smb (slot : Nat) (f : Index → Index) (s : State) : (setIndex slot f s).smb = s.smb := rfl
@[simp] theorem setIndex_log (slot : Nat) (f : Index → Index) (s : State) : (setIndex slot f s).log = s.log := rfl
@[simp] theorem setIndex_eng (slot : Nat) (f : Index → Index) (s : State) : (setIndex slot f s).eng = s.eng := rfl
@[simp] theorem setIndex_flash (slot : Nat) (f : Index → Index) (s : State) : (setIndex slot f s).flash = s.flash := rfl
@[simp] theorem setIndex_nvme (slot : Nat) (f : Index → Index) (s : State) : (setIndex slot f s).nvme = s.nvme := rfl
@[simp] theorem setWalk_pending (id : Nat) (f : Walk → Walk) (s : State) : (setWalk id f s).pending = s.pending := rfl
@[simp] theorem setWalk_fresh (id : Nat) (f : Walk → Walk) (s : State) : (setWalk id f s).fresh = s.fresh := rfl
@[simp] theorem setWalk_out (id : Nat) (f : Walk → Walk) (s : State) : (setWalk id f s).out = s.out := rfl
@[simp] theorem setWalk_now (id : Nat) (f : Walk → Walk) (s : State) : (setWalk id f s).now = s.now := rfl
@[simp] theorem setWalk_cmds (id : Nat) (f : Walk → Walk) (s : State) : (setWalk id f s).cmds = s.cmds := rfl
@[simp] theorem setWalk_nextCmd (id : Nat) (f : Walk → Walk) (s : State) : (setWalk id f s).nextCmd = s.nextCmd := rfl
@[simp] theorem setWalk_host (id : Nat) (f : Walk → Walk) (s : State) : (setWalk id f s).host = s.host := rfl
@[simp] theorem setWalk_sessions (id : Nat) (f : Walk → Walk) (s : State) : (setWalk id f s).sessions = s.sessions := rfl
@[simp] theorem setWalk_nextSession (id : Nat) (f : Walk → Walk) (s : State) : (setWalk id f s).nextSession = s.nextSession := rfl
@[simp] theorem setWalk_tenants (id : Nat) (f : Walk → Walk) (s : State) : (setWalk id f s).tenants = s.tenants := rfl
@[simp] theorem setWalk_sec (id : Nat) (f : Walk → Walk) (s : State) : (setWalk id f s).sec = s.sec := rfl
@[simp] theorem setWalk_dev (id : Nat) (f : Walk → Walk) (s : State) : (setWalk id f s).dev = s.dev := rfl
@[simp] theorem setWalk_islands (id : Nat) (f : Walk → Walk) (s : State) : (setWalk id f s).islands = s.islands := rfl
@[simp] theorem setWalk_counters (id : Nat) (f : Walk → Walk) (s : State) : (setWalk id f s).counters = s.counters := rfl
@[simp] theorem setWalk_gov (id : Nat) (f : Walk → Walk) (s : State) : (setWalk id f s).gov = s.gov := rfl
@[simp] theorem setWalk_pins (id : Nat) (f : Walk → Walk) (s : State) : (setWalk id f s).pins = s.pins := rfl
@[simp] theorem setWalk_smb (id : Nat) (f : Walk → Walk) (s : State) : (setWalk id f s).smb = s.smb := rfl
@[simp] theorem setWalk_log (id : Nat) (f : Walk → Walk) (s : State) : (setWalk id f s).log = s.log := rfl
@[simp] theorem setWalk_obj (id : Nat) (f : Walk → Walk) (s : State) : (setWalk id f s).obj = s.obj := rfl
@[simp] theorem setWalk_flash (id : Nat) (f : Walk → Walk) (s : State) : (setWalk id f s).flash = s.flash := rfl
@[simp] theorem setWalk_nvme (id : Nat) (f : Walk → Walk) (s : State) : (setWalk id f s).nvme = s.nvme := rfl
@[simp] theorem setTable_pending (slot : Nat) (f : Table → Table) (s : State) : (setTable slot f s).pending = s.pending := rfl
@[simp] theorem setTable_fresh (slot : Nat) (f : Table → Table) (s : State) : (setTable slot f s).fresh = s.fresh := rfl
@[simp] theorem setTable_out (slot : Nat) (f : Table → Table) (s : State) : (setTable slot f s).out = s.out := rfl
@[simp] theorem setTable_now (slot : Nat) (f : Table → Table) (s : State) : (setTable slot f s).now = s.now := rfl
@[simp] theorem setTable_cmds (slot : Nat) (f : Table → Table) (s : State) : (setTable slot f s).cmds = s.cmds := rfl
@[simp] theorem setTable_nextCmd (slot : Nat) (f : Table → Table) (s : State) : (setTable slot f s).nextCmd = s.nextCmd := rfl
@[simp] theorem setTable_host (slot : Nat) (f : Table → Table) (s : State) : (setTable slot f s).host = s.host := rfl
@[simp] theorem setTable_sessions (slot : Nat) (f : Table → Table) (s : State) : (setTable slot f s).sessions = s.sessions := rfl
@[simp] theorem setTable_nextSession (slot : Nat) (f : Table → Table) (s : State) : (setTable slot f s).nextSession = s.nextSession := rfl
@[simp] theorem setTable_tenants (slot : Nat) (f : Table → Table) (s : State) : (setTable slot f s).tenants = s.tenants := rfl
@[simp] theorem setTable_sec (slot : Nat) (f : Table → Table) (s : State) : (setTable slot f s).sec = s.sec := rfl
@[simp] theorem setTable_dev (slot : Nat) (f : Table → Table) (s : State) : (setTable slot f s).dev = s.dev := rfl
@[simp] theorem setTable_islands (slot : Nat) (f : Table → Table) (s : State) : (setTable slot f s).islands = s.islands := rfl
@[simp] theorem setTable_counters (slot : Nat) (f : Table → Table) (s : State) : (setTable slot f s).counters = s.counters := rfl
@[simp] theorem setTable_gov (slot : Nat) (f : Table → Table) (s : State) : (setTable slot f s).gov = s.gov := rfl
@[simp] theorem setTable_pins (slot : Nat) (f : Table → Table) (s : State) : (setTable slot f s).pins = s.pins := rfl
@[simp] theorem setTable_smb (slot : Nat) (f : Table → Table) (s : State) : (setTable slot f s).smb = s.smb := rfl
@[simp] theorem setTable_log (slot : Nat) (f : Table → Table) (s : State) : (setTable slot f s).log = s.log := rfl
@[simp] theorem setTable_eng (slot : Nat) (f : Table → Table) (s : State) : (setTable slot f s).eng = s.eng := rfl
@[simp] theorem setTable_flash (slot : Nat) (f : Table → Table) (s : State) : (setTable slot f s).flash = s.flash := rfl
@[simp] theorem setTable_nvme (slot : Nat) (f : Table → Table) (s : State) : (setTable slot f s).nvme = s.nvme := rfl
@[simp] theorem setArray_pending (a : Fin 16) (f : ArrayRec → ArrayRec) (s : State) : (setArray a f s).pending = s.pending := rfl
@[simp] theorem setArray_fresh (a : Fin 16) (f : ArrayRec → ArrayRec) (s : State) : (setArray a f s).fresh = s.fresh := rfl
@[simp] theorem setArray_out (a : Fin 16) (f : ArrayRec → ArrayRec) (s : State) : (setArray a f s).out = s.out := rfl
@[simp] theorem setArray_now (a : Fin 16) (f : ArrayRec → ArrayRec) (s : State) : (setArray a f s).now = s.now := rfl
@[simp] theorem setArray_cmds (a : Fin 16) (f : ArrayRec → ArrayRec) (s : State) : (setArray a f s).cmds = s.cmds := rfl
@[simp] theorem setArray_nextCmd (a : Fin 16) (f : ArrayRec → ArrayRec) (s : State) : (setArray a f s).nextCmd = s.nextCmd := rfl
@[simp] theorem setArray_host (a : Fin 16) (f : ArrayRec → ArrayRec) (s : State) : (setArray a f s).host = s.host := rfl
@[simp] theorem setArray_sessions (a : Fin 16) (f : ArrayRec → ArrayRec) (s : State) : (setArray a f s).sessions = s.sessions := rfl
@[simp] theorem setArray_nextSession (a : Fin 16) (f : ArrayRec → ArrayRec) (s : State) : (setArray a f s).nextSession = s.nextSession := rfl
@[simp] theorem setArray_tenants (a : Fin 16) (f : ArrayRec → ArrayRec) (s : State) : (setArray a f s).tenants = s.tenants := rfl
@[simp] theorem setArray_sec (a : Fin 16) (f : ArrayRec → ArrayRec) (s : State) : (setArray a f s).sec = s.sec := rfl
@[simp] theorem setArray_dev (a : Fin 16) (f : ArrayRec → ArrayRec) (s : State) : (setArray a f s).dev = s.dev := rfl
@[simp] theorem setArray_islands (a : Fin 16) (f : ArrayRec → ArrayRec) (s : State) : (setArray a f s).islands = s.islands := rfl
@[simp] theorem setArray_counters (a : Fin 16) (f : ArrayRec → ArrayRec) (s : State) : (setArray a f s).counters = s.counters := rfl
@[simp] theorem setArray_gov (a : Fin 16) (f : ArrayRec → ArrayRec) (s : State) : (setArray a f s).gov = s.gov := rfl
@[simp] theorem setArray_pins (a : Fin 16) (f : ArrayRec → ArrayRec) (s : State) : (setArray a f s).pins = s.pins := rfl
@[simp] theorem setArray_smb (a : Fin 16) (f : ArrayRec → ArrayRec) (s : State) : (setArray a f s).smb = s.smb := rfl
@[simp] theorem setArray_log (a : Fin 16) (f : ArrayRec → ArrayRec) (s : State) : (setArray a f s).log = s.log := rfl
@[simp] theorem setArray_obj (a : Fin 16) (f : ArrayRec → ArrayRec) (s : State) : (setArray a f s).obj = s.obj := rfl
@[simp] theorem setArray_flash (a : Fin 16) (f : ArrayRec → ArrayRec) (s : State) : (setArray a f s).flash = s.flash := rfl
@[simp] theorem setArray_nvme (a : Fin 16) (f : ArrayRec → ArrayRec) (s : State) : (setArray a f s).nvme = s.nvme := rfl
@[simp] theorem setLaneStep_pending (c : Fin 4) (lane : Lane) (f : StepRec → StepRec) (s : State) : (setLaneStep c lane f s).pending = s.pending := rfl
@[simp] theorem setLaneStep_fresh (c : Fin 4) (lane : Lane) (f : StepRec → StepRec) (s : State) : (setLaneStep c lane f s).fresh = s.fresh := rfl
@[simp] theorem setLaneStep_out (c : Fin 4) (lane : Lane) (f : StepRec → StepRec) (s : State) : (setLaneStep c lane f s).out = s.out := rfl
@[simp] theorem setLaneStep_now (c : Fin 4) (lane : Lane) (f : StepRec → StepRec) (s : State) : (setLaneStep c lane f s).now = s.now := rfl
@[simp] theorem setLaneStep_cmds (c : Fin 4) (lane : Lane) (f : StepRec → StepRec) (s : State) : (setLaneStep c lane f s).cmds = s.cmds := rfl
@[simp] theorem setLaneStep_nextCmd (c : Fin 4) (lane : Lane) (f : StepRec → StepRec) (s : State) : (setLaneStep c lane f s).nextCmd = s.nextCmd := rfl
@[simp] theorem setLaneStep_host (c : Fin 4) (lane : Lane) (f : StepRec → StepRec) (s : State) : (setLaneStep c lane f s).host = s.host := rfl
@[simp] theorem setLaneStep_sessions (c : Fin 4) (lane : Lane) (f : StepRec → StepRec) (s : State) : (setLaneStep c lane f s).sessions = s.sessions := rfl
@[simp] theorem setLaneStep_nextSession (c : Fin 4) (lane : Lane) (f : StepRec → StepRec) (s : State) : (setLaneStep c lane f s).nextSession = s.nextSession := rfl
@[simp] theorem setLaneStep_tenants (c : Fin 4) (lane : Lane) (f : StepRec → StepRec) (s : State) : (setLaneStep c lane f s).tenants = s.tenants := rfl
@[simp] theorem setLaneStep_sec (c : Fin 4) (lane : Lane) (f : StepRec → StepRec) (s : State) : (setLaneStep c lane f s).sec = s.sec := rfl
@[simp] theorem setLaneStep_dev (c : Fin 4) (lane : Lane) (f : StepRec → StepRec) (s : State) : (setLaneStep c lane f s).dev = s.dev := rfl
@[simp] theorem setLaneStep_islands (c : Fin 4) (lane : Lane) (f : StepRec → StepRec) (s : State) : (setLaneStep c lane f s).islands = s.islands := rfl
@[simp] theorem setLaneStep_counters (c : Fin 4) (lane : Lane) (f : StepRec → StepRec) (s : State) : (setLaneStep c lane f s).counters = s.counters := rfl
@[simp] theorem setLaneStep_gov (c : Fin 4) (lane : Lane) (f : StepRec → StepRec) (s : State) : (setLaneStep c lane f s).gov = s.gov := rfl
@[simp] theorem setLaneStep_pins (c : Fin 4) (lane : Lane) (f : StepRec → StepRec) (s : State) : (setLaneStep c lane f s).pins = s.pins := rfl
@[simp] theorem setLaneStep_smb (c : Fin 4) (lane : Lane) (f : StepRec → StepRec) (s : State) : (setLaneStep c lane f s).smb = s.smb := rfl
@[simp] theorem setLaneStep_log (c : Fin 4) (lane : Lane) (f : StepRec → StepRec) (s : State) : (setLaneStep c lane f s).log = s.log := rfl
@[simp] theorem setLaneStep_obj (c : Fin 4) (lane : Lane) (f : StepRec → StepRec) (s : State) : (setLaneStep c lane f s).obj = s.obj := rfl
@[simp] theorem setLaneStep_flash (c : Fin 4) (lane : Lane) (f : StepRec → StepRec) (s : State) : (setLaneStep c lane f s).flash = s.flash := rfl
@[simp] theorem setLaneStep_nvme (c : Fin 4) (lane : Lane) (f : StepRec → StepRec) (s : State) : (setLaneStep c lane f s).nvme = s.nvme := rfl
@[simp] theorem setChannel_pending (ch : Fin 96) (f : Channel → Channel) (s : State) : (setChannel ch f s).pending = s.pending := rfl
@[simp] theorem setChannel_fresh (ch : Fin 96) (f : Channel → Channel) (s : State) : (setChannel ch f s).fresh = s.fresh := rfl
@[simp] theorem setChannel_out (ch : Fin 96) (f : Channel → Channel) (s : State) : (setChannel ch f s).out = s.out := rfl
@[simp] theorem setChannel_now (ch : Fin 96) (f : Channel → Channel) (s : State) : (setChannel ch f s).now = s.now := rfl
@[simp] theorem setChannel_cmds (ch : Fin 96) (f : Channel → Channel) (s : State) : (setChannel ch f s).cmds = s.cmds := rfl
@[simp] theorem setChannel_nextCmd (ch : Fin 96) (f : Channel → Channel) (s : State) : (setChannel ch f s).nextCmd = s.nextCmd := rfl
@[simp] theorem setChannel_host (ch : Fin 96) (f : Channel → Channel) (s : State) : (setChannel ch f s).host = s.host := rfl
@[simp] theorem setChannel_sessions (ch : Fin 96) (f : Channel → Channel) (s : State) : (setChannel ch f s).sessions = s.sessions := rfl
@[simp] theorem setChannel_nextSession (ch : Fin 96) (f : Channel → Channel) (s : State) : (setChannel ch f s).nextSession = s.nextSession := rfl
@[simp] theorem setChannel_tenants (ch : Fin 96) (f : Channel → Channel) (s : State) : (setChannel ch f s).tenants = s.tenants := rfl
@[simp] theorem setChannel_sec (ch : Fin 96) (f : Channel → Channel) (s : State) : (setChannel ch f s).sec = s.sec := rfl
@[simp] theorem setChannel_dev (ch : Fin 96) (f : Channel → Channel) (s : State) : (setChannel ch f s).dev = s.dev := rfl
@[simp] theorem setChannel_islands (ch : Fin 96) (f : Channel → Channel) (s : State) : (setChannel ch f s).islands = s.islands := rfl
@[simp] theorem setChannel_counters (ch : Fin 96) (f : Channel → Channel) (s : State) : (setChannel ch f s).counters = s.counters := rfl
@[simp] theorem setChannel_gov (ch : Fin 96) (f : Channel → Channel) (s : State) : (setChannel ch f s).gov = s.gov := rfl
@[simp] theorem setChannel_pins (ch : Fin 96) (f : Channel → Channel) (s : State) : (setChannel ch f s).pins = s.pins := rfl
@[simp] theorem setChannel_smb (ch : Fin 96) (f : Channel → Channel) (s : State) : (setChannel ch f s).smb = s.smb := rfl
@[simp] theorem setChannel_log (ch : Fin 96) (f : Channel → Channel) (s : State) : (setChannel ch f s).log = s.log := rfl
@[simp] theorem setChannel_obj (ch : Fin 96) (f : Channel → Channel) (s : State) : (setChannel ch f s).obj = s.obj := rfl
@[simp] theorem setChannel_flash (ch : Fin 96) (f : Channel → Channel) (s : State) : (setChannel ch f s).flash = s.flash := rfl
@[simp] theorem setChannel_nvme (ch : Fin 96) (f : Channel → Channel) (s : State) : (setChannel ch f s).nvme = s.nvme := rfl
@[simp] theorem setEvacuation_pending (ch : Fin 96) (f : Evacuation → Evacuation) (s : State) : (setEvacuation ch f s).pending = s.pending := rfl
@[simp] theorem setEvacuation_fresh (ch : Fin 96) (f : Evacuation → Evacuation) (s : State) : (setEvacuation ch f s).fresh = s.fresh := rfl
@[simp] theorem setEvacuation_out (ch : Fin 96) (f : Evacuation → Evacuation) (s : State) : (setEvacuation ch f s).out = s.out := rfl
@[simp] theorem setEvacuation_now (ch : Fin 96) (f : Evacuation → Evacuation) (s : State) : (setEvacuation ch f s).now = s.now := rfl
@[simp] theorem setEvacuation_cmds (ch : Fin 96) (f : Evacuation → Evacuation) (s : State) : (setEvacuation ch f s).cmds = s.cmds := rfl
@[simp] theorem setEvacuation_nextCmd (ch : Fin 96) (f : Evacuation → Evacuation) (s : State) : (setEvacuation ch f s).nextCmd = s.nextCmd := rfl
@[simp] theorem setEvacuation_host (ch : Fin 96) (f : Evacuation → Evacuation) (s : State) : (setEvacuation ch f s).host = s.host := rfl
@[simp] theorem setEvacuation_sessions (ch : Fin 96) (f : Evacuation → Evacuation) (s : State) : (setEvacuation ch f s).sessions = s.sessions := rfl
@[simp] theorem setEvacuation_nextSession (ch : Fin 96) (f : Evacuation → Evacuation) (s : State) : (setEvacuation ch f s).nextSession = s.nextSession := rfl
@[simp] theorem setEvacuation_tenants (ch : Fin 96) (f : Evacuation → Evacuation) (s : State) : (setEvacuation ch f s).tenants = s.tenants := rfl
@[simp] theorem setEvacuation_sec (ch : Fin 96) (f : Evacuation → Evacuation) (s : State) : (setEvacuation ch f s).sec = s.sec := rfl
@[simp] theorem setEvacuation_dev (ch : Fin 96) (f : Evacuation → Evacuation) (s : State) : (setEvacuation ch f s).dev = s.dev := rfl
@[simp] theorem setEvacuation_islands (ch : Fin 96) (f : Evacuation → Evacuation) (s : State) : (setEvacuation ch f s).islands = s.islands := rfl
@[simp] theorem setEvacuation_counters (ch : Fin 96) (f : Evacuation → Evacuation) (s : State) : (setEvacuation ch f s).counters = s.counters := rfl
@[simp] theorem setEvacuation_gov (ch : Fin 96) (f : Evacuation → Evacuation) (s : State) : (setEvacuation ch f s).gov = s.gov := rfl
@[simp] theorem setEvacuation_pins (ch : Fin 96) (f : Evacuation → Evacuation) (s : State) : (setEvacuation ch f s).pins = s.pins := rfl
@[simp] theorem setEvacuation_smb (ch : Fin 96) (f : Evacuation → Evacuation) (s : State) : (setEvacuation ch f s).smb = s.smb := rfl
@[simp] theorem setEvacuation_log (ch : Fin 96) (f : Evacuation → Evacuation) (s : State) : (setEvacuation ch f s).log = s.log := rfl
@[simp] theorem setEvacuation_obj (ch : Fin 96) (f : Evacuation → Evacuation) (s : State) : (setEvacuation ch f s).obj = s.obj := rfl
@[simp] theorem setEvacuation_flash (ch : Fin 96) (f : Evacuation → Evacuation) (s : State) : (setEvacuation ch f s).flash = s.flash := rfl
@[simp] theorem setEvacuation_nvme (ch : Fin 96) (f : Evacuation → Evacuation) (s : State) : (setEvacuation ch f s).nvme = s.nvme := rfl
@[simp] theorem setMove_pending (k : Nat) (f : Move → Move) (s : State) : (setMove k f s).pending = s.pending := rfl
@[simp] theorem setMove_fresh (k : Nat) (f : Move → Move) (s : State) : (setMove k f s).fresh = s.fresh := rfl
@[simp] theorem setMove_out (k : Nat) (f : Move → Move) (s : State) : (setMove k f s).out = s.out := rfl
@[simp] theorem setMove_now (k : Nat) (f : Move → Move) (s : State) : (setMove k f s).now = s.now := rfl
@[simp] theorem setMove_cmds (k : Nat) (f : Move → Move) (s : State) : (setMove k f s).cmds = s.cmds := rfl
@[simp] theorem setMove_nextCmd (k : Nat) (f : Move → Move) (s : State) : (setMove k f s).nextCmd = s.nextCmd := rfl
@[simp] theorem setMove_host (k : Nat) (f : Move → Move) (s : State) : (setMove k f s).host = s.host := rfl
@[simp] theorem setMove_sessions (k : Nat) (f : Move → Move) (s : State) : (setMove k f s).sessions = s.sessions := rfl
@[simp] theorem setMove_nextSession (k : Nat) (f : Move → Move) (s : State) : (setMove k f s).nextSession = s.nextSession := rfl
@[simp] theorem setMove_tenants (k : Nat) (f : Move → Move) (s : State) : (setMove k f s).tenants = s.tenants := rfl
@[simp] theorem setMove_sec (k : Nat) (f : Move → Move) (s : State) : (setMove k f s).sec = s.sec := rfl
@[simp] theorem setMove_dev (k : Nat) (f : Move → Move) (s : State) : (setMove k f s).dev = s.dev := rfl
@[simp] theorem setMove_islands (k : Nat) (f : Move → Move) (s : State) : (setMove k f s).islands = s.islands := rfl
@[simp] theorem setMove_counters (k : Nat) (f : Move → Move) (s : State) : (setMove k f s).counters = s.counters := rfl
@[simp] theorem setMove_gov (k : Nat) (f : Move → Move) (s : State) : (setMove k f s).gov = s.gov := rfl
@[simp] theorem setMove_pins (k : Nat) (f : Move → Move) (s : State) : (setMove k f s).pins = s.pins := rfl
@[simp] theorem setMove_smb (k : Nat) (f : Move → Move) (s : State) : (setMove k f s).smb = s.smb := rfl
@[simp] theorem setMove_log (k : Nat) (f : Move → Move) (s : State) : (setMove k f s).log = s.log := rfl
@[simp] theorem setMove_obj (k : Nat) (f : Move → Move) (s : State) : (setMove k f s).obj = s.obj := rfl
@[simp] theorem setMove_flash (k : Nat) (f : Move → Move) (s : State) : (setMove k f s).flash = s.flash := rfl
@[simp] theorem setMove_nvme (k : Nat) (f : Move → Move) (s : State) : (setMove k f s).nvme = s.nvme := rfl
@[simp] theorem setNamespace_pending (nsid : Nat) (f : Namespace → Namespace) (s : State) : (setNamespace nsid f s).pending = s.pending := rfl
@[simp] theorem setNamespace_fresh (nsid : Nat) (f : Namespace → Namespace) (s : State) : (setNamespace nsid f s).fresh = s.fresh := rfl
@[simp] theorem setNamespace_out (nsid : Nat) (f : Namespace → Namespace) (s : State) : (setNamespace nsid f s).out = s.out := rfl
@[simp] theorem setNamespace_now (nsid : Nat) (f : Namespace → Namespace) (s : State) : (setNamespace nsid f s).now = s.now := rfl
@[simp] theorem setNamespace_cmds (nsid : Nat) (f : Namespace → Namespace) (s : State) : (setNamespace nsid f s).cmds = s.cmds := rfl
@[simp] theorem setNamespace_nextCmd (nsid : Nat) (f : Namespace → Namespace) (s : State) : (setNamespace nsid f s).nextCmd = s.nextCmd := rfl
@[simp] theorem setNamespace_host (nsid : Nat) (f : Namespace → Namespace) (s : State) : (setNamespace nsid f s).host = s.host := rfl
@[simp] theorem setNamespace_sessions (nsid : Nat) (f : Namespace → Namespace) (s : State) : (setNamespace nsid f s).sessions = s.sessions := rfl
@[simp] theorem setNamespace_nextSession (nsid : Nat) (f : Namespace → Namespace) (s : State) : (setNamespace nsid f s).nextSession = s.nextSession := rfl
@[simp] theorem setNamespace_tenants (nsid : Nat) (f : Namespace → Namespace) (s : State) : (setNamespace nsid f s).tenants = s.tenants := rfl
@[simp] theorem setNamespace_sec (nsid : Nat) (f : Namespace → Namespace) (s : State) : (setNamespace nsid f s).sec = s.sec := rfl
@[simp] theorem setNamespace_dev (nsid : Nat) (f : Namespace → Namespace) (s : State) : (setNamespace nsid f s).dev = s.dev := rfl
@[simp] theorem setNamespace_islands (nsid : Nat) (f : Namespace → Namespace) (s : State) : (setNamespace nsid f s).islands = s.islands := rfl
@[simp] theorem setNamespace_counters (nsid : Nat) (f : Namespace → Namespace) (s : State) : (setNamespace nsid f s).counters = s.counters := rfl
@[simp] theorem setNamespace_gov (nsid : Nat) (f : Namespace → Namespace) (s : State) : (setNamespace nsid f s).gov = s.gov := rfl
@[simp] theorem setNamespace_pins (nsid : Nat) (f : Namespace → Namespace) (s : State) : (setNamespace nsid f s).pins = s.pins := rfl
@[simp] theorem setNamespace_smb (nsid : Nat) (f : Namespace → Namespace) (s : State) : (setNamespace nsid f s).smb = s.smb := rfl
@[simp] theorem setNamespace_log (nsid : Nat) (f : Namespace → Namespace) (s : State) : (setNamespace nsid f s).log = s.log := rfl
@[simp] theorem setNamespace_obj (nsid : Nat) (f : Namespace → Namespace) (s : State) : (setNamespace nsid f s).obj = s.obj := rfl
@[simp] theorem setNamespace_eng (nsid : Nat) (f : Namespace → Namespace) (s : State) : (setNamespace nsid f s).eng = s.eng := rfl
@[simp] theorem setNamespace_nvme (nsid : Nat) (f : Namespace → Namespace) (s : State) : (setNamespace nsid f s).nvme = s.nvme := rfl
@[simp] theorem setCtrl_pending (c : Fin 2) (f : Nvme → Nvme) (s : State) : (setCtrl c f s).pending = s.pending := rfl
@[simp] theorem setCtrl_fresh (c : Fin 2) (f : Nvme → Nvme) (s : State) : (setCtrl c f s).fresh = s.fresh := rfl
@[simp] theorem setCtrl_out (c : Fin 2) (f : Nvme → Nvme) (s : State) : (setCtrl c f s).out = s.out := rfl
@[simp] theorem setCtrl_now (c : Fin 2) (f : Nvme → Nvme) (s : State) : (setCtrl c f s).now = s.now := rfl
@[simp] theorem setCtrl_cmds (c : Fin 2) (f : Nvme → Nvme) (s : State) : (setCtrl c f s).cmds = s.cmds := rfl
@[simp] theorem setCtrl_nextCmd (c : Fin 2) (f : Nvme → Nvme) (s : State) : (setCtrl c f s).nextCmd = s.nextCmd := rfl
@[simp] theorem setCtrl_host (c : Fin 2) (f : Nvme → Nvme) (s : State) : (setCtrl c f s).host = s.host := rfl
@[simp] theorem setCtrl_sessions (c : Fin 2) (f : Nvme → Nvme) (s : State) : (setCtrl c f s).sessions = s.sessions := rfl
@[simp] theorem setCtrl_nextSession (c : Fin 2) (f : Nvme → Nvme) (s : State) : (setCtrl c f s).nextSession = s.nextSession := rfl
@[simp] theorem setCtrl_tenants (c : Fin 2) (f : Nvme → Nvme) (s : State) : (setCtrl c f s).tenants = s.tenants := rfl
@[simp] theorem setCtrl_sec (c : Fin 2) (f : Nvme → Nvme) (s : State) : (setCtrl c f s).sec = s.sec := rfl
@[simp] theorem setCtrl_dev (c : Fin 2) (f : Nvme → Nvme) (s : State) : (setCtrl c f s).dev = s.dev := rfl
@[simp] theorem setCtrl_islands (c : Fin 2) (f : Nvme → Nvme) (s : State) : (setCtrl c f s).islands = s.islands := rfl
@[simp] theorem setCtrl_counters (c : Fin 2) (f : Nvme → Nvme) (s : State) : (setCtrl c f s).counters = s.counters := rfl
@[simp] theorem setCtrl_gov (c : Fin 2) (f : Nvme → Nvme) (s : State) : (setCtrl c f s).gov = s.gov := rfl
@[simp] theorem setCtrl_pins (c : Fin 2) (f : Nvme → Nvme) (s : State) : (setCtrl c f s).pins = s.pins := rfl
@[simp] theorem setCtrl_smb (c : Fin 2) (f : Nvme → Nvme) (s : State) : (setCtrl c f s).smb = s.smb := rfl
@[simp] theorem setCtrl_log (c : Fin 2) (f : Nvme → Nvme) (s : State) : (setCtrl c f s).log = s.log := rfl
@[simp] theorem setCtrl_obj (c : Fin 2) (f : Nvme → Nvme) (s : State) : (setCtrl c f s).obj = s.obj := rfl
@[simp] theorem setCtrl_eng (c : Fin 2) (f : Nvme → Nvme) (s : State) : (setCtrl c f s).eng = s.eng := rfl
@[simp] theorem setCtrl_flash (c : Fin 2) (f : Nvme → Nvme) (s : State) : (setCtrl c f s).flash = s.flash := rfl
@[simp] theorem setIsland_pending (clk : ClockId) (f : Island → Island) (s : State) : (setIsland clk f s).pending = s.pending := rfl
@[simp] theorem setIsland_fresh (clk : ClockId) (f : Island → Island) (s : State) : (setIsland clk f s).fresh = s.fresh := rfl
@[simp] theorem setIsland_out (clk : ClockId) (f : Island → Island) (s : State) : (setIsland clk f s).out = s.out := rfl
@[simp] theorem setIsland_now (clk : ClockId) (f : Island → Island) (s : State) : (setIsland clk f s).now = s.now := rfl
@[simp] theorem setIsland_cmds (clk : ClockId) (f : Island → Island) (s : State) : (setIsland clk f s).cmds = s.cmds := rfl
@[simp] theorem setIsland_nextCmd (clk : ClockId) (f : Island → Island) (s : State) : (setIsland clk f s).nextCmd = s.nextCmd := rfl
@[simp] theorem setIsland_host (clk : ClockId) (f : Island → Island) (s : State) : (setIsland clk f s).host = s.host := rfl
@[simp] theorem setIsland_sessions (clk : ClockId) (f : Island → Island) (s : State) : (setIsland clk f s).sessions = s.sessions := rfl
@[simp] theorem setIsland_nextSession (clk : ClockId) (f : Island → Island) (s : State) : (setIsland clk f s).nextSession = s.nextSession := rfl
@[simp] theorem setIsland_tenants (clk : ClockId) (f : Island → Island) (s : State) : (setIsland clk f s).tenants = s.tenants := rfl
@[simp] theorem setIsland_sec (clk : ClockId) (f : Island → Island) (s : State) : (setIsland clk f s).sec = s.sec := rfl
@[simp] theorem setIsland_dev (clk : ClockId) (f : Island → Island) (s : State) : (setIsland clk f s).dev = s.dev := rfl
@[simp] theorem setIsland_counters (clk : ClockId) (f : Island → Island) (s : State) : (setIsland clk f s).counters = s.counters := rfl
@[simp] theorem setIsland_gov (clk : ClockId) (f : Island → Island) (s : State) : (setIsland clk f s).gov = s.gov := rfl
@[simp] theorem setIsland_pins (clk : ClockId) (f : Island → Island) (s : State) : (setIsland clk f s).pins = s.pins := rfl
@[simp] theorem setIsland_smb (clk : ClockId) (f : Island → Island) (s : State) : (setIsland clk f s).smb = s.smb := rfl
@[simp] theorem setIsland_log (clk : ClockId) (f : Island → Island) (s : State) : (setIsland clk f s).log = s.log := rfl
@[simp] theorem setIsland_obj (clk : ClockId) (f : Island → Island) (s : State) : (setIsland clk f s).obj = s.obj := rfl
@[simp] theorem setIsland_eng (clk : ClockId) (f : Island → Island) (s : State) : (setIsland clk f s).eng = s.eng := rfl
@[simp] theorem setIsland_flash (clk : ClockId) (f : Island → Island) (s : State) : (setIsland clk f s).flash = s.flash := rfl
@[simp] theorem setIsland_nvme (clk : ClockId) (f : Island → Island) (s : State) : (setIsland clk f s).nvme = s.nvme := rfl
@[simp] theorem setScan_pending (h : Nat) (f : Scan → Scan) (s : State) : (setScan h f s).pending = s.pending := rfl
@[simp] theorem setScan_fresh (h : Nat) (f : Scan → Scan) (s : State) : (setScan h f s).fresh = s.fresh := rfl
@[simp] theorem setScan_out (h : Nat) (f : Scan → Scan) (s : State) : (setScan h f s).out = s.out := rfl
@[simp] theorem setScan_now (h : Nat) (f : Scan → Scan) (s : State) : (setScan h f s).now = s.now := rfl
@[simp] theorem setScan_cmds (h : Nat) (f : Scan → Scan) (s : State) : (setScan h f s).cmds = s.cmds := rfl
@[simp] theorem setScan_nextCmd (h : Nat) (f : Scan → Scan) (s : State) : (setScan h f s).nextCmd = s.nextCmd := rfl
@[simp] theorem setScan_host (h : Nat) (f : Scan → Scan) (s : State) : (setScan h f s).host = s.host := rfl
@[simp] theorem setScan_sessions (h : Nat) (f : Scan → Scan) (s : State) : (setScan h f s).sessions = s.sessions := rfl
@[simp] theorem setScan_nextSession (h : Nat) (f : Scan → Scan) (s : State) : (setScan h f s).nextSession = s.nextSession := rfl
@[simp] theorem setScan_tenants (h : Nat) (f : Scan → Scan) (s : State) : (setScan h f s).tenants = s.tenants := rfl
@[simp] theorem setScan_sec (h : Nat) (f : Scan → Scan) (s : State) : (setScan h f s).sec = s.sec := rfl
@[simp] theorem setScan_dev (h : Nat) (f : Scan → Scan) (s : State) : (setScan h f s).dev = s.dev := rfl
@[simp] theorem setScan_islands (h : Nat) (f : Scan → Scan) (s : State) : (setScan h f s).islands = s.islands := rfl
@[simp] theorem setScan_counters (h : Nat) (f : Scan → Scan) (s : State) : (setScan h f s).counters = s.counters := rfl
@[simp] theorem setScan_gov (h : Nat) (f : Scan → Scan) (s : State) : (setScan h f s).gov = s.gov := rfl
@[simp] theorem setScan_pins (h : Nat) (f : Scan → Scan) (s : State) : (setScan h f s).pins = s.pins := rfl
@[simp] theorem setScan_smb (h : Nat) (f : Scan → Scan) (s : State) : (setScan h f s).smb = s.smb := rfl
@[simp] theorem setScan_log (h : Nat) (f : Scan → Scan) (s : State) : (setScan h f s).log = s.log := rfl
@[simp] theorem setScan_eng (h : Nat) (f : Scan → Scan) (s : State) : (setScan h f s).eng = s.eng := rfl
@[simp] theorem setScan_flash (h : Nat) (f : Scan → Scan) (s : State) : (setScan h f s).flash = s.flash := rfl
@[simp] theorem setScan_nvme (h : Nat) (f : Scan → Scan) (s : State) : (setScan h f s).nvme = s.nvme := rfl
@[simp] theorem setFirmware_pending (cls : Nat) (f : Firmware → Firmware) (s : State) : (setFirmware cls f s).pending = s.pending := rfl
@[simp] theorem setFirmware_fresh (cls : Nat) (f : Firmware → Firmware) (s : State) : (setFirmware cls f s).fresh = s.fresh := rfl
@[simp] theorem setFirmware_out (cls : Nat) (f : Firmware → Firmware) (s : State) : (setFirmware cls f s).out = s.out := rfl
@[simp] theorem setFirmware_now (cls : Nat) (f : Firmware → Firmware) (s : State) : (setFirmware cls f s).now = s.now := rfl
@[simp] theorem setFirmware_cmds (cls : Nat) (f : Firmware → Firmware) (s : State) : (setFirmware cls f s).cmds = s.cmds := rfl
@[simp] theorem setFirmware_nextCmd (cls : Nat) (f : Firmware → Firmware) (s : State) : (setFirmware cls f s).nextCmd = s.nextCmd := rfl
@[simp] theorem setFirmware_host (cls : Nat) (f : Firmware → Firmware) (s : State) : (setFirmware cls f s).host = s.host := rfl
@[simp] theorem setFirmware_sessions (cls : Nat) (f : Firmware → Firmware) (s : State) : (setFirmware cls f s).sessions = s.sessions := rfl
@[simp] theorem setFirmware_nextSession (cls : Nat) (f : Firmware → Firmware) (s : State) : (setFirmware cls f s).nextSession = s.nextSession := rfl
@[simp] theorem setFirmware_tenants (cls : Nat) (f : Firmware → Firmware) (s : State) : (setFirmware cls f s).tenants = s.tenants := rfl
@[simp] theorem setFirmware_dev (cls : Nat) (f : Firmware → Firmware) (s : State) : (setFirmware cls f s).dev = s.dev := rfl
@[simp] theorem setFirmware_islands (cls : Nat) (f : Firmware → Firmware) (s : State) : (setFirmware cls f s).islands = s.islands := rfl
@[simp] theorem setFirmware_counters (cls : Nat) (f : Firmware → Firmware) (s : State) : (setFirmware cls f s).counters = s.counters := rfl
@[simp] theorem setFirmware_gov (cls : Nat) (f : Firmware → Firmware) (s : State) : (setFirmware cls f s).gov = s.gov := rfl
@[simp] theorem setFirmware_pins (cls : Nat) (f : Firmware → Firmware) (s : State) : (setFirmware cls f s).pins = s.pins := rfl
@[simp] theorem setFirmware_smb (cls : Nat) (f : Firmware → Firmware) (s : State) : (setFirmware cls f s).smb = s.smb := rfl
@[simp] theorem setFirmware_log (cls : Nat) (f : Firmware → Firmware) (s : State) : (setFirmware cls f s).log = s.log := rfl
@[simp] theorem setFirmware_obj (cls : Nat) (f : Firmware → Firmware) (s : State) : (setFirmware cls f s).obj = s.obj := rfl
@[simp] theorem setFirmware_eng (cls : Nat) (f : Firmware → Firmware) (s : State) : (setFirmware cls f s).eng = s.eng := rfl
@[simp] theorem setFirmware_flash (cls : Nat) (f : Firmware → Firmware) (s : State) : (setFirmware cls f s).flash = s.flash := rfl
@[simp] theorem setFirmware_nvme (cls : Nat) (f : Firmware → Firmware) (s : State) : (setFirmware cls f s).nvme = s.nvme := rfl
@[simp] theorem setCap_pending (c : Cmd) (s : State) : (setCap c s).pending = s.pending := rfl
@[simp] theorem setCap_fresh (c : Cmd) (s : State) : (setCap c s).fresh = s.fresh := rfl
@[simp] theorem setCap_out (c : Cmd) (s : State) : (setCap c s).out = s.out := rfl
@[simp] theorem setCap_now (c : Cmd) (s : State) : (setCap c s).now = s.now := rfl
@[simp] theorem setCap_cmds (c : Cmd) (s : State) : (setCap c s).cmds = s.cmds := rfl
@[simp] theorem setCap_nextCmd (c : Cmd) (s : State) : (setCap c s).nextCmd = s.nextCmd := rfl
@[simp] theorem setCap_host (c : Cmd) (s : State) : (setCap c s).host = s.host := rfl
@[simp] theorem setCap_sessions (c : Cmd) (s : State) : (setCap c s).sessions = s.sessions := rfl
@[simp] theorem setCap_nextSession (c : Cmd) (s : State) : (setCap c s).nextSession = s.nextSession := rfl
@[simp] theorem setCap_tenants (c : Cmd) (s : State) : (setCap c s).tenants = s.tenants := rfl
@[simp] theorem setCap_sec (c : Cmd) (s : State) : (setCap c s).sec = s.sec := rfl
@[simp] theorem setCap_dev (c : Cmd) (s : State) : (setCap c s).dev = s.dev := rfl
@[simp] theorem setCap_islands (c : Cmd) (s : State) : (setCap c s).islands = s.islands := rfl
@[simp] theorem setCap_counters (c : Cmd) (s : State) : (setCap c s).counters = s.counters := rfl
@[simp] theorem setCap_pins (c : Cmd) (s : State) : (setCap c s).pins = s.pins := rfl
@[simp] theorem setCap_smb (c : Cmd) (s : State) : (setCap c s).smb = s.smb := rfl
@[simp] theorem setCap_log (c : Cmd) (s : State) : (setCap c s).log = s.log := rfl
@[simp] theorem setCap_obj (c : Cmd) (s : State) : (setCap c s).obj = s.obj := rfl
@[simp] theorem setCap_eng (c : Cmd) (s : State) : (setCap c s).eng = s.eng := rfl
@[simp] theorem setCap_flash (c : Cmd) (s : State) : (setCap c s).flash = s.flash := rfl
@[simp] theorem setCap_nvme (c : Cmd) (s : State) : (setCap c s).nvme = s.nvme := rfl
@[simp] theorem setLane_pending (c : Fin 4) (lane : Lane) (f : LaneRec → LaneRec) (s : State) : (setLane c lane f s).pending = s.pending := rfl
@[simp] theorem setLane_fresh (c : Fin 4) (lane : Lane) (f : LaneRec → LaneRec) (s : State) : (setLane c lane f s).fresh = s.fresh := rfl
@[simp] theorem setLane_out (c : Fin 4) (lane : Lane) (f : LaneRec → LaneRec) (s : State) : (setLane c lane f s).out = s.out := rfl
@[simp] theorem setLane_now (c : Fin 4) (lane : Lane) (f : LaneRec → LaneRec) (s : State) : (setLane c lane f s).now = s.now := rfl
@[simp] theorem setLane_cmds (c : Fin 4) (lane : Lane) (f : LaneRec → LaneRec) (s : State) : (setLane c lane f s).cmds = s.cmds := rfl
@[simp] theorem setLane_nextCmd (c : Fin 4) (lane : Lane) (f : LaneRec → LaneRec) (s : State) : (setLane c lane f s).nextCmd = s.nextCmd := rfl
@[simp] theorem setLane_host (c : Fin 4) (lane : Lane) (f : LaneRec → LaneRec) (s : State) : (setLane c lane f s).host = s.host := rfl
@[simp] theorem setLane_sessions (c : Fin 4) (lane : Lane) (f : LaneRec → LaneRec) (s : State) : (setLane c lane f s).sessions = s.sessions := rfl
@[simp] theorem setLane_nextSession (c : Fin 4) (lane : Lane) (f : LaneRec → LaneRec) (s : State) : (setLane c lane f s).nextSession = s.nextSession := rfl
@[simp] theorem setLane_tenants (c : Fin 4) (lane : Lane) (f : LaneRec → LaneRec) (s : State) : (setLane c lane f s).tenants = s.tenants := rfl
@[simp] theorem setLane_sec (c : Fin 4) (lane : Lane) (f : LaneRec → LaneRec) (s : State) : (setLane c lane f s).sec = s.sec := rfl
@[simp] theorem setLane_dev (c : Fin 4) (lane : Lane) (f : LaneRec → LaneRec) (s : State) : (setLane c lane f s).dev = s.dev := rfl
@[simp] theorem setLane_islands (c : Fin 4) (lane : Lane) (f : LaneRec → LaneRec) (s : State) : (setLane c lane f s).islands = s.islands := rfl
@[simp] theorem setLane_counters (c : Fin 4) (lane : Lane) (f : LaneRec → LaneRec) (s : State) : (setLane c lane f s).counters = s.counters := rfl
@[simp] theorem setLane_gov (c : Fin 4) (lane : Lane) (f : LaneRec → LaneRec) (s : State) : (setLane c lane f s).gov = s.gov := rfl
@[simp] theorem setLane_pins (c : Fin 4) (lane : Lane) (f : LaneRec → LaneRec) (s : State) : (setLane c lane f s).pins = s.pins := rfl
@[simp] theorem setLane_smb (c : Fin 4) (lane : Lane) (f : LaneRec → LaneRec) (s : State) : (setLane c lane f s).smb = s.smb := rfl
@[simp] theorem setLane_log (c : Fin 4) (lane : Lane) (f : LaneRec → LaneRec) (s : State) : (setLane c lane f s).log = s.log := rfl
@[simp] theorem setLane_obj (c : Fin 4) (lane : Lane) (f : LaneRec → LaneRec) (s : State) : (setLane c lane f s).obj = s.obj := rfl
@[simp] theorem setLane_flash (c : Fin 4) (lane : Lane) (f : LaneRec → LaneRec) (s : State) : (setLane c lane f s).flash = s.flash := rfl
@[simp] theorem setLane_nvme (c : Fin 4) (lane : Lane) (f : LaneRec → LaneRec) (s : State) : (setLane c lane f s).nvme = s.nvme := rfl

end Sys2Proof.Machine
end

