-- ==== Sys2Proof/Laws/Ops.lean ====
section
/-! SUPPORT. Laws of the shared operations: tables, running a command, and the end of a command. -/

open Sys2Proof
namespace Sys2Proof.Machine

/-! ## Tables by key -/

variable {κ α : Type} [DecidableEq κ]

theorem find?_put (t : Tbl κ α) (i j : κ) (v : α) : find? (put t i v) j = if i = j then some v else find? t j := by
  induction t with
  | nil => simp only [put, find?]
  | cons p t ih =>
    obtain ⟨k, w⟩ := p
    by_cases h : k = i
    · subst h; by_cases g : k = j <;> simp [put, find?, g]
    · by_cases g : k = j
      · subst g; simp [put, find?, h, Ne.symm h]
      · simp [put, find?, h, g, ih]

@[simp] theorem find?_put_self (t : Tbl κ α) (i : κ) (v : α) : find? (put t i v) i = some v := by simp [find?_put]

theorem find?_put_other (t : Tbl κ α) {i j : κ} (v : α) (h : i ≠ j) : find? (put t i v) j = find? t j := by
  simp [find?_put, h]

theorem look_put [Inhabited α] (t : Tbl κ α) (i j : κ) (v : α) :
    look (put t i v) j = if i = j then v else look t j := by
  by_cases h : i = j <;> simp [look, find?_put, h]

@[simp] theorem look_put_self [Inhabited α] (t : Tbl κ α) (i : κ) (v : α) : look (put t i v) i = v := by
  simp [look_put]

theorem look_put_other [Inhabited α] (t : Tbl κ α) {i j : κ} (v : α) (h : i ≠ j) : look (put t i v) j = look t j := by
  simp [look_put, h]

@[simp] theorem look_upd_self [Inhabited α] (t : Tbl κ α) (i : κ) (f : α → α) : look (upd t i f) i = f (look t i) := by
  simp [upd]

theorem look_upd_other [Inhabited α] (t : Tbl κ α) {i j : κ} (f : α → α) (h : i ≠ j) :
    look (upd t i f) j = look t j := by
  simp [upd, look_put, h]

theorem find?_del (t : Tbl κ α) (i j : κ) : find? (del t i) j = if i = j then none else find? t j := by
  induction t with
  | nil => simp [del, find?]
  | cons p t ih =>
    obtain ⟨k, w⟩ := p
    rw [del] at ih
    by_cases h : k = i
    · subst h; by_cases g : k = j <;> simp_all [del, find?]
    · by_cases g : k = j
      · subst g; simp [del, find?, h, Ne.symm h]
      · simp_all [del, find?]

@[simp] theorem find?_del_self (t : Tbl κ α) (i : κ) : find? (del t i) i = none := by simp [find?_del]

theorem find?_adj (t : Tbl κ α) (i j : κ) (f : α → α) :
    find? (adj t i f) j = if i = j then (find? t j).map f else find? t j := by
  induction t with
  | nil => simp [adj, find?]
  | cons p t ih =>
    obtain ⟨k, w⟩ := p
    rw [adj] at ih
    by_cases h : k = i
    · subst h; by_cases g : k = j <;> simp_all [adj, find?]
    · by_cases g : k = j
      · subst g; simp [adj, find?, h, Ne.symm h]
      · simp_all [adj, find?]

theorem find?_mapTbl (t : Tbl κ α) (j : κ) (f : κ → α → α) : find? (mapTbl t f) j = (find? t j).map (f j) := by
  induction t with
  | nil => simp [mapTbl, find?]
  | cons p t ih =>
    obtain ⟨k, w⟩ := p
    rw [mapTbl] at ih
    by_cases g : k = j
    · subst g; simp [mapTbl, find?]
    · simp_all [mapTbl, find?]

theorem foldS_cons {σ β : Type} (f : σ → β → σ) (x : β) (l : List β) (s : σ) :
    foldS f (x :: l) s = foldS f l (f s x) := rfl

/-- Folding keeps a property that each round keeps. -/
theorem foldS_keeps {σ β : Type} (P : σ → Prop) (f : σ → β → σ) (h : ∀ s x, P s → P (f s x)) (l : List β) (s : σ)
    (hs : P s) : P (foldS f l s) := by
  induction l generalizing s with
  | nil => exact hs
  | cons x l ih => exact ih (f s x) (h s x hs)

/-- Folding keeps a value that each round keeps. -/
theorem foldS_same {σ β γ : Type} (g : σ → γ) (f : σ → β → σ) (h : ∀ s x, g (f s x) = g s) (l : List β) (s : σ) :
    g (foldS f l s) = g s := by
  induction l generalizing s with
  | nil => rfl
  | cons x l ih => exact (ih (f s x)).trans (h s x)

/-! ## Running a command -/

/-- The row of a running command runs its body. -/
theorem runCmd_runs {s : State} {id op : Nat} {c : Cmd} (h : Runs s id op c) (body : Cmd → State → State) :
    runCmd id op body s = body c s := by
  obtain ⟨h1, h2, h3, h4, h5⟩ := h
  simp [runCmd, h1, h2, h3, h4, h5]

/-- A change of one command that keeps its number is seen under that number. -/
theorem findCmd_setCmd (s : State) (id : Nat) (f : Cmd → Cmd) (hf : ∀ c, (f c).id = c.id) :
    findCmd (setCmd id f s) id = (findCmd s id).map f := by
  simp only [findCmd, setCmd]
  induction s.cmds with
  | nil => rfl
  | cons a l ih =>
    by_cases e : a.id = id
    · simp [List.find?, e, hf]
    · have e' : (a.id == id) = false := by simpa using e
      simp only [List.map_cons, e', List.find?, if_false, Bool.false_eq_true]
      exact ih

/-! ## The end of a command -/

@[simp] theorem setPair_unreported (k : PairKey) (p : Pair) (s : State) :
    (setPair k p s).unreported = s.unreported := rfl

@[simp] theorem raiseMsix_unreported (p : Fin 2) (fn v : Nat) (s : State) :
    (raiseMsix p fn v s).unreported = s.unreported := by
  unfold raiseMsix; repeat' split
  all_goals rfl

@[simp] theorem raiseEvent_unreported (p : Fin 2) (fn : Nat) (b : BitVec 4) (s : State) :
    (raiseEvent p fn b s).unreported = s.unreported := by
  unfold raiseEvent; dsimp only; split
  · rfl
  · rw [raiseMsix_unreported]; rfl

@[simp] theorem signalEntry_unreported (k : PairKey) (a b : Bool) (s : State) :
    (signalEntry k a b s).unreported = s.unreported := by
  unfold signalEntry; dsimp only; repeat' split
  all_goals simp only [raiseMsix_unreported, setPair_unreported]

@[simp] theorem writeEntry_unreported (k : PairKey) (c : Completion) (s : State) :
    (writeEntry k c s).unreported = s.unreported := by
  unfold writeEntry; dsimp only; split
  · simp only [signalEntry_unreported, setPair_unreported]; rfl
  · simp only [raiseEvent_unreported, signalEntry_unreported, setPair_unreported]; rfl

@[simp] theorem dropCmd_unreported (id : Option Nat) (s : State) : (dropCmd id s).unreported = s.unreported := rfl

@[simp] theorem setCmd_unreported (id : Nat) (f : Cmd → Cmd) (s : State) : (setCmd id f s).unreported = s.unreported := rfl

@[simp] theorem putEntry_unreported (k : PairKey) (h : Held) (s : State) :
    (putEntry k h s).unreported = s.unreported := by
  unfold putEntry; dsimp only; repeat' split
  all_goals simp only [dropCmd_unreported, writeEntry_unreported, setPair_unreported]

@[simp] theorem post_unreported (k : PairKey) (c : Completion) (s : State) : (post k c s).unreported = s.unreported :=
  putEntry_unreported ..

@[simp] theorem dma_unreported (c : Cmd) (o a : Nat) (b : List Byte) (s : State) :
    (dma c o a b s).unreported = s.unreported := by
  unfold dma; dsimp only; repeat' split
  all_goals rfl

@[simp] theorem writeAll_unreported (c : Cmd) (ws : List (Nat × List Byte)) (s : State) :
    (writeAll c ws s).unreported = s.unreported := foldS_same _ _ (fun _ _ => dma_unreported ..) _ _

@[simp] theorem conclude_unreported (c : Cmd) (r : Result) (s : State) :
    (conclude c r s).unreported = s.unreported := by
  unfold conclude; dsimp only; split
  · rw [dropCmd_unreported, setCmd_unreported]
  · rw [putEntry_unreported, setCmd_unreported]

@[simp] theorem releaseCancels_unreported (s : State) : (releaseCancels s).unreported = s.unreported :=
  foldS_same State.unreported _ (fun _ _ => conclude_unreported ..) _ _

/-- A command's end changes nothing but what a report changes. -/
@[simp] theorem finish_unreported (c : Cmd) (r : Result) (s : State) : (finish c r s).unreported = s.unreported := by
  unfold finish
  simp only [releaseCancels_unreported, conclude_unreported, writeAll_unreported]

@[simp] theorem finish_pending (c : Cmd) (r : Result) (s : State) : (finish c r s).pending = s.pending := by
  have h := congrArg State.pending (finish_unreported c r s); exact h

@[simp] theorem finish_fresh (c : Cmd) (r : Result) (s : State) : (finish c r s).fresh = s.fresh := by
  have h := congrArg State.fresh (finish_unreported c r s); exact h

@[simp] theorem finish_now (c : Cmd) (r : Result) (s : State) : (finish c r s).now = s.now := by
  have h := congrArg State.now (finish_unreported c r s); exact h

@[simp] theorem finish_sessions (c : Cmd) (r : Result) (s : State) : (finish c r s).sessions = s.sessions := by
  have h := congrArg State.sessions (finish_unreported c r s); exact h

@[simp] theorem finish_nextSession (c : Cmd) (r : Result) (s : State) : (finish c r s).nextSession = s.nextSession := by
  have h := congrArg State.nextSession (finish_unreported c r s); exact h

@[simp] theorem finish_tenants (c : Cmd) (r : Result) (s : State) : (finish c r s).tenants = s.tenants := by
  have h := congrArg State.tenants (finish_unreported c r s); exact h

@[simp] theorem finish_sec (c : Cmd) (r : Result) (s : State) : (finish c r s).sec = s.sec := by
  have h := congrArg State.sec (finish_unreported c r s); exact h

@[simp] theorem finish_dev (c : Cmd) (r : Result) (s : State) : (finish c r s).dev = s.dev := by
  have h := congrArg State.dev (finish_unreported c r s); exact h

@[simp] theorem finish_islands (c : Cmd) (r : Result) (s : State) : (finish c r s).islands = s.islands := by
  have h := congrArg State.islands (finish_unreported c r s); exact h

@[simp] theorem finish_counters (c : Cmd) (r : Result) (s : State) : (finish c r s).counters = s.counters := by
  have h := congrArg State.counters (finish_unreported c r s); exact h

@[simp] theorem finish_gov (c : Cmd) (r : Result) (s : State) : (finish c r s).gov = s.gov := by
  have h := congrArg State.gov (finish_unreported c r s); exact h

@[simp] theorem finish_pins (c : Cmd) (r : Result) (s : State) : (finish c r s).pins = s.pins := by
  have h := congrArg State.pins (finish_unreported c r s); exact h

@[simp] theorem finish_smb (c : Cmd) (r : Result) (s : State) : (finish c r s).smb = s.smb := by
  have h := congrArg State.smb (finish_unreported c r s); exact h

@[simp] theorem finish_log (c : Cmd) (r : Result) (s : State) : (finish c r s).log = s.log := by
  have h := congrArg State.log (finish_unreported c r s); exact h

@[simp] theorem finish_obj (c : Cmd) (r : Result) (s : State) : (finish c r s).obj = s.obj := by
  have h := congrArg State.obj (finish_unreported c r s); exact h

@[simp] theorem finish_eng (c : Cmd) (r : Result) (s : State) : (finish c r s).eng = s.eng := by
  have h := congrArg State.eng (finish_unreported c r s); exact h

@[simp] theorem finish_flash (c : Cmd) (r : Result) (s : State) : (finish c r s).flash = s.flash := by
  have h := congrArg State.flash (finish_unreported c r s); exact h

@[simp] theorem finish_nvme (c : Cmd) (r : Result) (s : State) : (finish c r s).nvme = s.nvme := by
  have h := congrArg State.nvme (finish_unreported c r s); exact h

/-! ## The slot that a handle names -/

theorem modelOf_slot {s : State} {sid h n : Nat} {x : Model} (e : modelOf s sid h = some (n, x)) :
    handleSlot h = n ∧ find? s.obj.models n = some x := by
  simp only [modelOf, Option.bind_eq_bind, Option.bind_eq_some_iff] at e
  obtain ⟨y, hy, e⟩ := e
  split at e
  · simp only [Option.some.injEq, Prod.mk.injEq] at e; obtain ⟨rfl, rfl⟩ := e; exact ⟨rfl, hy⟩
  · cases e

theorem seqOf_slot {s : State} {sid h n : Nat} {x : Seq} (e : seqOf s sid h = some (n, x)) :
    handleSlot h = n ∧ find? s.obj.seqs n = some x := by
  simp only [seqOf, Option.bind_eq_bind, Option.bind_eq_some_iff] at e
  obtain ⟨y, hy, e⟩ := e
  split at e
  · simp only [Option.some.injEq, Prod.mk.injEq] at e; obtain ⟨rfl, rfl⟩ := e; exact ⟨rfl, hy⟩
  · cases e

theorem indexOf_slot {s : State} {sid h n : Nat} {x : Index} (e : indexOf s sid h = some (n, x)) :
    handleSlot h = n ∧ find? s.obj.indices n = some x := by
  simp only [indexOf, Option.bind_eq_bind, Option.bind_eq_some_iff] at e
  obtain ⟨y, hy, e⟩ := e
  split at e
  · simp only [Option.some.injEq, Prod.mk.injEq] at e; obtain ⟨rfl, rfl⟩ := e; exact ⟨rfl, hy⟩
  · cases e

theorem tableOf_slot {s : State} {sid h n : Nat} {x : Table} (e : tableOf s sid h = some (n, x)) :
    handleSlot h = n ∧ find? s.obj.tables n = some x := by
  simp only [tableOf, Option.bind_eq_bind, Option.bind_eq_some_iff] at e
  obtain ⟨y, hy, e⟩ := e
  split at e
  · simp only [Option.some.injEq, Prod.mk.injEq] at e; obtain ⟨rfl, rfl⟩ := e; exact ⟨rfl, hy⟩
  · cases e

theorem grammarOf_slot {s : State} {sid h n : Nat} {x : Grammar} (e : grammarOf s sid h = some (n, x)) :
    handleSlot h = n ∧ find? s.obj.grammars n = some x := by
  simp only [grammarOf, Option.bind_eq_bind, Option.bind_eq_some_iff] at e
  obtain ⟨y, hy, e⟩ := e
  split at e
  · simp only [Option.some.injEq, Prod.mk.injEq] at e; obtain ⟨rfl, rfl⟩ := e; exact ⟨rfl, hy⟩
  · cases e

end Sys2Proof.Machine
end

