-- ==== Sys2Proof/Laws/Blocks.lean ====
section
/-! SUPPORT. Laws of shared operations: a namespace's blocks stay in rising order, and maintenance keeps their data. -/

open Sys2Proof Sys2Proof.Machine
namespace Sys2Proof.Laws

/-- Every block of every namespace holds the same data. -/
def sameData (s t : State) : Prop := ∀ nsid lba, (find? t.flash.namespaces nsid).map (fun n => (blockAt n lba).map blockBytes)
  = (find? s.flash.namespaces nsid).map (fun n => (blockAt n lba).map blockBytes)

theorem sameData_ns {s t : State} (h : t.flash.namespaces = s.flash.namespaces) : sameData s t := by
  intro nsid lba; rw [h]

theorem sameData_trans {a b c : State} (h : sameData a b) (g : sameData b c) : sameData a c := fun n l => (g n l).trans (h n l)

theorem foldS_sameData {β : Type} (f : State → β → State) (h : ∀ s x, sameData s (f s x)) (l : List β) (s : State) : sameData s (foldS f l s) := by
  induction l generalizing s with
  | nil => exact fun _ _ => rfl
  | cons x l ih => exact sameData_trans (h s x) (ih _)

theorem blockAt_set (v : BlockState) (lba : Nat) (l : List (Nat × BlockState)) (j : Nat) :
    ((setBlock v lba l).find? (fun b => b.1 == j)).map (·.2) = if j = lba then some v else (l.find? (fun b => b.1 == j)).map (·.2) := by
  induction l with
  | nil =>
    by_cases h : j = lba
    · simp [setBlock, h]
    · simp [setBlock, List.find?, h, Ne.symm h]
  | cons b l ih =>
    simp only [setBlock]
    split
    · by_cases h : j = lba
      · simp [h]
      · have : (lba == j) = false := by simpa using Ne.symm h
        simp [List.find?, this, h]
    · split
      · rename_i h1 h2
        by_cases h : j = lba
        · simp [h]
        · have h3 : (lba == j) = false := by simpa using Ne.symm h
          have h4 : (b.1 == j) = false := by rw [← h2]; exact h3
          simp [List.find?, h3, h, h4]
      · rename_i h1 h2
        by_cases h : b.1 = j
        · have : ¬ j = lba := by rw [← h]; exact Ne.symm h2
          simp [List.find?, h, this]
        · have h4 : (b.1 == j) = false := by simpa using h
          simp only [List.find?, h4]
          exact ih

theorem setBlock_ok (v : BlockState) (lba : Nat) (l : List (Nat × BlockState)) (h : blocksOk l = true) :
    blocksOk (setBlock v lba l) = true ∧ (∀ k, (∀ b ∈ l.head?, k < b.1) → k < lba → ∀ b ∈ (setBlock v lba l).head?, k < b.1) := by
  induction l with
  | nil => simp [setBlock, blocksOk]
  | cons a l ih =>
    have hl : blocksOk l = true := by
      cases l with
      | nil => rfl
      | cons b l => simp [blocksOk] at h; exact h.2
    have hhead : ∀ b ∈ l.head?, a.1 < b.1 := by
      cases l with
      | nil => simp
      | cons b l => simp [blocksOk] at h; simpa using h.1
    obtain ⟨i1, i2⟩ := ih hl
    simp only [setBlock]
    split
    · rename_i h1
      exact ⟨by simp [blocksOk, h1, h], fun k _ h4 b hb => by simp at hb; rw [← hb]; exact h4⟩
    · split
      · rename_i h1 h2
        refine ⟨?_, fun k _ h4 b hb => by simp at hb; rw [← hb]; exact h4⟩
        cases l with
        | nil => rfl
        | cons b l => simp at hhead; simp [blocksOk, hl, h2, hhead]
      · rename_i h1 h2
        have h3 : a.1 < lba := by omega
        have := i2 a.1 hhead h3
        refine ⟨?_, fun k h4 _ b hb => by simp at hb; rw [← hb]; exact h4 a (by simp)⟩
        cases e : setBlock v lba l with
        | nil => rfl
        | cons b l' => rw [e] at this i1; simp at this; simp [blocksOk, this, i1]

theorem sameData_set (s : State) (nsid lba : Nat) (bytes : List Byte) (b i b' i' : Nat) (n : Namespace)
    (hn : find? s.flash.namespaces nsid = some n) (h : blockAt n lba = some (.mapped bytes b i)) :
    sameData s (setNamespace nsid (fun n => { n with blocks := setBlock (.mapped bytes b' i') lba n.blocks }) s) := by
  intro k l
  simp only [setNamespace, find?_adj]
  by_cases e : nsid = k
  · subst e
    simp only [if_true, hn, Option.map_some]
    congr 1
    unfold blockAt at h ⊢
    dsimp only
    rw [blockAt_set]
    by_cases g : l = lba
    · subst g
      simp [h, blockBytes]
    · simp [g]
  · simp [e]

theorem switchNote_data (f : Fold) (x : FoldNote) (s : State) : sameData s (switchNote f x s) := by
  unfold switchNote
  split
  · rename_i bytes b i h
    split
    · obtain ⟨n, hn, hb⟩ := Option.bind_eq_some_iff.1 h
      exact sameData_trans (sameData_set s x.nsid x.lba bytes b i f.dst x.newIdx n hn hb) (sameData_ns rfl)
    · exact fun _ _ => rfl
  · exact fun _ _ => rfl

theorem eraseBand_data (b : Nat) (s : State) : sameData s (eraseBand b s) := sameData_ns rfl

theorem commitFold_data (f : Fold) (s : State) : sameData s (commitFold f s) := by
  unfold commitFold
  dsimp only
  have key : ∀ (l : List Nat) (u : State), sameData u (foldS (fun s b => if (mappedIn s b).isEmpty = true then eraseBand b s else s) l u) := by
    intro l u
    refine foldS_sameData _ (fun s x => ?_) _ _
    split
    · exact eraseBand_data _ _
    · exact fun _ _ => rfl
  refine sameData_trans (foldS_sameData (fun s x => switchNote f x s) (fun s x => switchNote_data f x s) f.notes s) ?_
  exact sameData_trans (sameData_ns (s := foldS (fun s x => switchNote f x s) f.notes s) rfl) (key f.srcs _)

theorem openBand_ns {s : State} {ob : Bool} {d : Nat} {f : Flash} (h : openBand s ob = some (d, f)) : f.namespaces = s.flash.namespaces := by
  unfold openBand at h
  by_cases hc : 32 ≤ openBands s.flash ∨ (if ob = true then freeOneBit s else freeQlc s) = 0
  · rw [if_pos hc] at h; exact absurd h (by simp)
  · rw [if_neg hc] at h
    simp only [Option.map_eq_some_iff, Prod.mk.injEq] at h
    obtain ⟨b, -, -, rfl⟩ := h
    rfl

theorem foldFlash {β : Type} (f : State → β → State) (hf : ∀ s x, (f s x).flash = s.flash) (l : List β) (u : State) : (foldS f l u).flash = u.flash :=
  foldS_same State.flash f hf l u

theorem eraseFold_ns (l : List Nat) (s : State) : (foldS (fun s b => eraseBand b s) l s).flash.namespaces = s.flash.namespaces :=
  foldS_same (fun s : State => s.flash.namespaces) (fun s b => eraseBand b s) (fun s x => rfl) _ _

theorem startFold_ns (gc : Bool) (srcs : List Nat) (s : State) : (startFold gc srcs s).flash.namespaces = s.flash.namespaces := by
  unfold startFold
  dsimp only
  split
  · exact eraseFold_ns _ _
  · split
    · exact eraseFold_ns _ _
    · rename_i h
      exact (openBand_ns h).trans (eraseFold_ns _ _)

theorem bumpDie_fl (d sel n : Nat) (s : State) : (bumpDie d sel n s).flash = s.flash := rfl

theorem eraseDone_spec (b : Nat) (failed : List Nat) (s : State) (h : (look s.flash.bands b).erasing = true) :
    (eraseDone b failed s).flash.namespaces = s.flash.namespaces ∧ look (eraseDone b failed s).flash.bands b
      = { look s.flash.bands b with erasing := false, free := true, closed := false, next := 0, worn := false, erases := (look s.flash.bands b).erases + 1 } := by
  have e1 : ∀ (l : List Nat) (u : State) (row : Nat), (foldS (fun s c => bumpDie (c * 16 + row) 0x0804 1 s) l u).flash = u.flash :=
    fun l u row => foldS_same State.flash (fun s c => bumpDie (c * 16 + row) 0x0804 1 s) (fun s x => rfl) _ _
  have e2 : ∀ (l : List Nat) (u : State) (row : Nat), (foldS (fun s c => retireDieBlock (c * 16 + row) s) l u).flash.namespaces = u.flash.namespaces
      ∧ (foldS (fun s c => retireDieBlock (c * 16 + row) s) l u).flash.bands = u.flash.bands :=
    fun l u row => ⟨foldS_same (fun s : State => s.flash.namespaces) (fun s c => retireDieBlock (c * 16 + row) s) (fun s x => rfl) _ _, foldS_same (fun s : State => s.flash.bands) (fun s c => retireDieBlock (c * 16 + row) s) (fun s x => rfl) _ _⟩
  unfold eraseDone
  simp only [h, Bool.not_true, Bool.false_eq_true, if_false]
  refine ⟨?_, ?_⟩
  · rw [(e2 _ _ _).1, e1]
  · rw [look_upd_self, (e2 _ _ _).2, e1]

end Sys2Proof.Laws
end

