-- ==== Sys2Proof/Laws/Channels.lean ====
section
/-! SUPPORT. Laws of shared operations: channel roles and evacuations. -/

open Sys2Proof Sys2Proof.Machine
namespace Sys2Proof.Laws

theorem role_retire (clk : ClockId) (s : State) : (retire clk s).eng = s.eng ∧ (look (retire clk s).islands clk).retired = true ∧ (retire clk s).obj = s.obj := by
  refine ⟨rfl, ?_, rfl⟩
  simp [retire, count, bump]

theorem chan_retire (ch : Fin 96) (s : State) : look (retireChannel ch s).eng.channels ch = { look s.eng.channels ch with role := .retired, position := none }
    ∧ (look (retireChannel ch s).islands (channelClk ch)).retired = true ∧ (retireChannel ch s).eng.evacuations = s.eng.evacuations := by
  unfold retireChannel
  dsimp only
  split
  · rename_i h
    refine ⟨by simp [setChannel], h, rfl⟩
  · refine ⟨?_, (role_retire _ _).2.1, rfl⟩
    rw [(role_retire _ _).1]
    simp [setChannel]

theorem endEv_eng (ch : Fin 96) (e : Evacuation) (st : Status) (s : State) :
    (endEvacuation ch e st s).eng = { s.eng with
      evacuations := del s.eng.evacuations ch, moves := s.eng.moves.filter (fun m => !(m.2.obj == .evacuation ch)) }
    ∧ (endEvacuation ch e st s).islands = s.islands := by
  unfold endEvacuation
  dsimp only
  split
  · exact ⟨rfl, rfl⟩
  · exact ⟨(finish_eng ..).trans rfl, (finish_islands ..).trans rfl⟩

theorem openQ_eng (slot : Nat) (qs : List (Nat × Nat)) : ∀ s, (openQueued slot qs s).eng = s.eng := by
  induction qs with
  | nil => intro s; rfl
  | cons q qs ih =>
    intro s
    simp only [openQueued]
    split
    · exact ih _
    · rw [ih]; split <;> rfl

theorem openA_eng (s : State) : (openAll s).eng = s.eng := by
  unfold openAll
  split
  · exact foldS_same State.eng _ (fun s x => openQ_eng _ _ _) _ _
  · rfl

theorem last_le (l : List (Fin 96)) (h : l.Pairwise (· < ·)) (r : Fin 96) (hr : l.getLast? = some r) : ∀ x ∈ l, x ≤ r := by
  induction l with
  | nil => intro x hx; cases hx
  | cons a l ih =>
    cases l with
    | nil => simp at hr; subst hr; intro x hx; simp at hx; subst hx; exact le_refl _
    | cons b l =>
      rw [List.getLast?_cons_cons] at hr
      have := ih (List.pairwise_cons.1 h).2 hr
      intro x hx
      rcases List.mem_cons.1 hx with rfl | hx
      · exact le_trans (le_of_lt ((List.pairwise_cons.1 h).1 b (List.mem_cons_self ..))) (this b (List.mem_cons_self ..))
      · exact this x hx

theorem spareOf_spec (s : State) (c : Nat) (r : Fin 96) (h : spareOf s c = some r) :
    r.val / 24 = c ∧ (look s.eng.channels r).role = .spare ∧ islandUp s (channelClk r) = true
      ∧ ∀ x : Fin 96, x.val / 24 = c → (look s.eng.channels x).role = .spare → islandUp s (channelClk x) = true → x ≤ r := by
  unfold spareOf at h
  have hm := List.mem_of_getLast? h
  simp only [List.mem_filter, Bool.and_eq_true, beq_iff_eq, List.mem_finRange, true_and] at hm
  refine ⟨hm.1.1, hm.1.2, hm.2, fun x h1 h2 h3 => ?_⟩
  refine last_le _ ?_ r h x ?_
  · exact List.Pairwise.sublist List.filter_sublist (List.pairwise_lt_finRange 96)
  · simp [List.mem_filter, h1, h2, h3]

theorem look_adj (t : Tbl (Fin 96) Evacuation) (i : Fin 96) (f : Evacuation → Evacuation) (e : Evacuation) (h : find? t i = some e) :
    find? (adj t i f) i = some (f e) := by rw [find?_adj, if_pos rfl, h, Option.map_some]

theorem moves_un' {s t : State} (h : t.unreported = s.unreported) : t.eng = s.eng := by
  have := congrArg State.eng h; exact this

end Sys2Proof.Laws
end

