-- ==== Sys2Proof/Laws/CheckValue.lean ====
section
/-! SUPPORT. Laws of shared operations: the bits of the check value. -/

open Sys2Proof Sys2Proof.Machine
namespace Sys2Proof.Laws

theorem bitOf_test (v i : Nat) : bitOf v i = v.testBit i := by
  simp [bitOf, Nat.testBit, Nat.shiftRight_eq_div_pow, Nat.and_comm, Nat.and_one_is_mod]

theorem reverse_lt (w : Nat) : ∀ v, reverseBits w v < 2 ^ w := by
  induction w with
  | zero => intro v; simp [reverseBits]
  | succ w ih =>
    intro v
    have := ih (v / 2)
    have h2 : v % 2 < 2 := Nat.mod_lt _ (by omega)
    simp only [reverseBits, Nat.pow_succ]
    have : v % 2 * 2 ^ w ≤ 1 * 2 ^ w := Nat.mul_le_mul_right _ (by omega)
    omega

theorem reverse_test (w : Nat) : ∀ v i, i < w → (reverseBits w v).testBit i = v.testBit (w - 1 - i) := by
  induction w with
  | zero => intro v i h; omega
  | succ w ih =>
    intro v i h
    simp only [reverseBits]
    rw [Nat.mul_comm, Nat.testBit_two_pow_mul_add _ (reverse_lt w _)]
    by_cases g : i < w
    · rw [if_pos g, ih _ _ g, show w + 1 - 1 - i = (w - 1 - i) + 1 by omega, Nat.testBit_succ]
    · have : i = w := by omega
      subst this
      rw [if_neg g]
      simp only [Nat.sub_self, Nat.add_sub_cancel, Nat.testBit_zero]
      simp

theorem byte_bits (r : Bool) (b : Byte) : ∀ i, i < 8 → (if r = true then reverseBits 8 b.toNat else b.toNat).testBit i = b.toNat.testBit (if r = true then 7 - i else i) := by
  intro i hi
  cases r
  · rfl
  · simp only [if_true]; rw [reverse_test 8 _ i hi]

theorem endScan_ok (s : State) (h : Nat) (x : Scan) (bytes : List Byte) (bad : Bool) (c : Cmd) (hc : findCmd s x.cmd = some c)
    (hb : if bad = true then (x.take bytes).atBoundary = true else (x.take bytes).done = (x.take bytes).length) :
    ∃ u, find? u.obj.scans h = none ∧ endScan h x bytes bad s = if c.cancel = true then cancelled c u else finish c (scanResult (x.take bytes) bad) u := by
  let v := countEnd x (scanResult (x.take bytes) bad) (countChecked x bytes.length s)
  let u : State := { v with obj := { v.obj with scans := del v.obj.scans h } }
  have hcmds : v.cmds = s.cmds := by
    show (countEnd x (scanResult (x.take bytes) bad) (countChecked x bytes.length s)).cmds = s.cmds
    unfold countEnd countChecked; split <;> split <;> rfl
  have hk : findCmd u x.cmd = some c := by
    show u.cmds.find? _ = _
    rw [show u.cmds = s.cmds from hcmds]; exact hc
  refine ⟨u, find?_del_self _ _, ?_⟩
  have e : endScan h x bytes bad s = match findCmd u x.cmd with
    | none => u
    | some c => if c.cancel = true then cancelled c u else finish c (scanResult (x.take bytes) bad) u := by
    unfold endScan
    cases bad
    · simp only [Bool.false_eq_true, if_false] at hb ⊢
      rw [if_pos (by simpa using hb)] <;> rfl
    · simp only [if_true] at hb ⊢
      rw [if_pos hb] <;> rfl
  rw [e, hk]

end Sys2Proof.Laws
end

