-- ==== Sys2Proof/Laws/Corpora.lean ====
section
/-! SUPPORT. Laws of shared operations: corpus records: what a write and a delete change. -/

open Sys2Proof Sys2Proof.Machine
namespace Sys2Proof.Laws

theorem tableOf_find {s : State} {sid h slot : Nat} {x : Table} (e : tableOf s sid h = some (slot, x)) : find? s.obj.tables slot = some x := by
  simp only [tableOf, Option.bind_eq_bind, Option.bind_eq_some_iff] at e
  obtain ⟨y, h1, h2⟩ := e
  split at h2
  · simp only [Option.some.injEq, Prod.mk.injEq] at h2; obtain ⟨rfl, rfl⟩ := h2; exact h1
  · cases h2

theorem indexOf_find' {s : State} {sid h slot : Nat} {x : Index} (e : indexOf s sid h = some (slot, x)) : find? s.obj.indices slot = some x := by
  simp only [indexOf, Option.bind_eq_bind, Option.bind_eq_some_iff] at e
  obtain ⟨y, h1, h2⟩ := e
  split at h2
  · simp only [Option.some.injEq, Prod.mk.injEq] at h2; obtain ⟨rfl, rfl⟩ := h2; exact h1
  · cases h2

theorem find?_put_eq {κ α : Type} [DecidableEq κ] (t : Tbl κ α) (i j : κ) (v : α) (h : j ≠ i) : find? (put t i v) j = find? t j :=
  find?_put_other t v (Ne.symm h)

/-- Two states differ only in one corpus. -/
def onlyCorpus (slot : Nat) (s u : State) : Prop :=
  (∀ j, j ≠ slot → find? u.obj.corpora j = find? s.obj.corpora j) ∧ { u with obj := { u.obj with corpora := s.obj.corpora } } = s

theorem onlyCorpus_trans {slot : Nat} {a b c : State} (h : onlyCorpus slot a b) (g : onlyCorpus slot b c) : onlyCorpus slot a c := by
  refine ⟨fun j hj => (g.1 j hj).trans (h.1 j hj), ?_⟩
  have g2 := g.2
  have h2 := h.2
  have : { c with obj := { c.obj with corpora := a.obj.corpora } } = { ({ c with obj := { c.obj with corpora := b.obj.corpora } } : State) with obj := { ({ c with obj := { c.obj with corpora := b.obj.corpora } } : State).obj with corpora := a.obj.corpora } } := rfl
  rw [this, g2]; exact h2

theorem writeRecords_frame (c : Cmd) (slot : Nat) (x : Index) (fl : Bool) (rs : List (List Byte)) : ∀ (i : Nat) (s : State) (b : Batch),
    onlyCorpus slot s (writeRecords c slot x fl i rs (s, b)).1
    ∧ (writeRecords c slot x fl i rs (s, b)).2.1.done + (writeRecords c slot x fl i rs (s, b)).2.1.rejected ≤ b.done + b.rejected + rs.length
    ∧ ((writeRecords c slot x fl i rs (s, b)).2.2 = none → (writeRecords c slot x fl i rs (s, b)).2.1.done + (writeRecords c slot x fl i rs (s, b)).2.1.rejected = b.done + b.rejected + rs.length) := by
  induction rs with
  | nil => intro i s b; exact ⟨⟨fun _ _ => rfl, rfl⟩, by simp [writeRecords], by simp [writeRecords]⟩
  | cons r rs ih =>
    intro i s b
    simp only [writeRecords]
    split
    · obtain ⟨h1, h2, h3⟩ := ih (i + 1) s { b with rejected := b.rejected + 1, first := b.first.orElse (fun _ => some i) }
      refine ⟨h1, ?_, fun h => ?_⟩
      · simp at h2 ⊢; omega
      · have := h3 h; simp at this ⊢; omega
    · split
      · exact ⟨⟨fun _ _ => rfl, rfl⟩, by simp, by simp⟩
      · obtain ⟨h1, h2, h3⟩ := ih (i + 1) (setCorpus slot (fun k => put k (recIdent r) { bytes := r, check := crc64 (recText r), inFlash := fl }) s) { b with done := b.done + 1 }
        refine ⟨onlyCorpus_trans (b := setCorpus slot (fun k => put k (recIdent r) { bytes := r, check := crc64 (recText r), inFlash := fl }) s) ⟨fun j hj => ?_, rfl⟩ h1, ?_, fun h => ?_⟩
        · simp [setCorpus, upd, find?_put_eq _ _ _ _ hj]
        · simp at h2 ⊢; omega
        · have := h3 h; simp at this ⊢; omega

theorem deleteRecords_spec (is : List Nat) : ∀ k : Tbl Nat Record,
    (deleteRecords is k).2.1 + (deleteRecords is k).2.2 = is.length
    ∧ (∀ i, find? (deleteRecords is k).1 i = if i ∈ is then none else find? k i) := by
  induction is with
  | nil => intro k; simp [deleteRecords]
  | cons i is ih =>
    intro k
    obtain ⟨h1, h2⟩ := ih (del k i)
    constructor
    · simp only [deleteRecords, List.length_cons]
      cases hf : (find? k i).isSome <;> simp [b2n] at h1 ⊢ <;> omega
    · intro j
      simp only [deleteRecords, h2, find?_del, List.mem_cons]
      by_cases a : j ∈ is <;> by_cases b : i = j <;> simp [a, b, eq_comm]

theorem stop_status (c : Cmd) (slot : Nat) (x : Index) (fl : Bool) (rs : List (List Byte)) : ∀ (i : Nat) (s : State) (b : Batch) (st : Status),
    (writeRecords c slot x fl i rs (s, b)).2.2 = some st → ¬ (st = .ok ∨ st = .partialDone) := by
  induction rs with
  | nil => intro i s b st h; simp [writeRecords] at h
  | cons r rs ih =>
    intro i s b st h
    simp only [writeRecords] at h
    split at h
    · exact ih _ _ _ _ h
    · split at h
      · rename_i st' hw
        simp only [Option.some.injEq] at h
        subst h
        simp only [writeStop] at hw
        repeat' split at hw
        all_goals first | (simp only [Option.some.injEq] at hw; subst hw; simp) | cases hw
      · exact ih _ _ _ _ h

end Sys2Proof.Laws
end

