-- ==== Sys2Proof/Laws/Fixed.lean ====
section
/-! SUPPORT. How `State.fixed` reads off a record, a condition and a fold. -/

open Sys2Proof
namespace Sys2Proof.Machine

theorem fixed_eta (s : State) : fixedOf s.pending s.now (inputsOf s.pins) s.smb s.dev = s.fixed := rfl

theorem fixed_mk (x0 x1 x2 x3 x4 x5 x6 x7 x8 x9 x10 x11 x12 x13 x14 x15 x16 x17 x18 x19 x20 x21) : State.fixed ⟨x0, x1, x2, x3, x4, x5, x6, x7, x8, x9, x10, x11, x12, x13, x14, x15, x16, x17, x18, x19, x20, x21⟩ = fixedOf x0 x3 (inputsOf x15) x16 x11 := rfl

theorem inputsOf_mk (z0 z1 z2 z3 z4 z5) : inputsOf ⟨z0, z1, z2, z3, z4, z5⟩ = (z0, z1, z2, z3) := rfl

theorem inputsOf_eta (p : Pins) : (p.pwrOk, p.sysResetN, p.pfailN, p.reference) = inputsOf p := rfl

theorem fixedOf_mk (q n i m) (y0 y1 y2 y3 y4 y5 y6 y7 y8 y9 y10 y11 y12 y13 y14 y15 y16 y17 y18 y19) :
    fixedOf q n i m ⟨y0, y1, y2, y3, y4, y5, y6, y7, y8, y9, y10, y11, y12, y13, y14, y15, y16, y17, y18, y19⟩
      = fixedDev q n i m y0 y1 y5 y6 y7 y8 y9 y10 y11 := rfl

theorem fixedDev_eta (q : List Instr) (n i m) (d : Device) : fixedDev q n i m d.stage d.ready d.cfg d.board
    d.straps d.usedB d.factory d.cause d.selfTestRetired = fixedOf q n i m d := rfl

theorem fixed_ite {p : Prop} [Decidable p] (a b : State) :
    State.fixed (if p then a else b) = if p then a.fixed else b.fixed := by split <;> rfl

/-- Folding keeps what each round keeps. -/
theorem fixed_foldS {α : Type} (f : State → α → State) (h : ∀ s x, (f s x).fixed = s.fixed) (l : List α) (s : State) :
    (foldS f l s).fixed = s.fixed := by
  induction l generalizing s with
  | nil => rfl
  | cons x l ih => exact (ih (f s x)).trans (h s x)

end Sys2Proof.Machine
end

