-- ==== Sys2Proof/Laws/FixedHost.lean ====
section
/-! SUPPORT. What only pins, resets and the sideband change stays as it is: the host interface, sessions, models and security. -/

open Sys2Proof
namespace Sys2Proof.Machine

theorem State.draw_fixed (a0 : State) : State.fixed (State.draw a0) = State.fixed a0 := by
  unfold State.draw
  simp only [↓fixed_eta, ↓fixed_mk]

theorem setCmd_fixed (a0) (a1) (a2 : State) : State.fixed (setCmd a0 a1 a2) = State.fixed a2 := by
  unfold setCmd
  simp only [↓fixed_eta, ↓fixed_mk]

theorem dropCmd_fixed (a0) (a1 : State) : State.fixed (dropCmd a0 a1) = State.fixed a1 := by
  unfold dropCmd
  simp only [↓fixed_eta, ↓fixed_mk]

theorem raiseMsix_fixed (a0) (a1) (a2) (a3 : State) : State.fixed (raiseMsix a0 a1 a2 a3) = State.fixed a3 := by
  unfold raiseMsix
  simp only [↓fixed_eta, ↓fixed_mk, ↓fixed_ite, ite_self]

theorem setPair_fixed (a0) (a1) (a2 : State) : State.fixed (setPair a0 a1 a2) = State.fixed a2 := by
  unfold setPair
  simp only [↓fixed_eta, ↓fixed_mk]

theorem signalEntry_fixed (a0) (a1) (a2) (a3 : State) : State.fixed (signalEntry a0 a1 a2 a3) = State.fixed a3 := by
  unfold signalEntry
  simp only [↓fixed_ite, ite_self, ↓raiseMsix_fixed, ↓setPair_fixed]

theorem raiseEvent_fixed (a0) (a1) (a2) (a3 : State) : State.fixed (raiseEvent a0 a1 a2 a3) = State.fixed a3 := by
  unfold raiseEvent
  simp only [↓fixed_eta, ↓fixed_mk, ↓fixed_ite, ite_self, ↓raiseMsix_fixed]

theorem writeEntry_fixed (a0) (a1) (a2 : State) : State.fixed (writeEntry a0 a1 a2) = State.fixed a2 := by
  unfold writeEntry
  simp only [↓fixed_eta, ↓fixed_mk, ↓fixed_ite, ite_self, ↓signalEntry_fixed, ↓setPair_fixed, ↓raiseEvent_fixed]

theorem putEntry_fixed (a0) (a1) (a2 : State) : State.fixed (putEntry a0 a1 a2) = State.fixed a2 := by
  unfold putEntry
  simp only [↓fixed_ite, ite_self, ↓dropCmd_fixed, ↓writeEntry_fixed, ↓setPair_fixed]

theorem conclude_fixed (a0) (a1) (a2 : State) : State.fixed (conclude a0 a1 a2) = State.fixed a2 := by
  unfold conclude
  simp only [↓fixed_ite, ite_self, ↓setCmd_fixed, ↓dropCmd_fixed, ↓putEntry_fixed]

theorem releaseCancels_fixed (a0 : State) : State.fixed (releaseCancels a0) = State.fixed a0 := by
  unfold releaseCancels
  simp only [implies_true, ↓conclude_fixed, ↓fixed_foldS]

theorem dma_fixed (a0) (a1) (a2) (a3) (a4 : State) : State.fixed (dma a0 a1 a2 a3 a4) = State.fixed a4 := by
  unfold dma
  simp only [↓fixed_eta, ↓fixed_mk, ↓fixed_ite, ite_self]

theorem writeAll_fixed (a0) (a1) (a2 : State) : State.fixed (writeAll a0 a1 a2) = State.fixed a2 := by
  unfold writeAll
  simp only [implies_true, ↓dma_fixed, ↓fixed_foldS]

theorem finish_fixed (a0) (a1) (a2 : State) : State.fixed (finish a0 a1 a2) = State.fixed a2 := by
  unfold finish
  simp only [↓releaseCancels_fixed, ↓conclude_fixed, ↓writeAll_fixed]

theorem answerWith_fixed (a0) (a1) (a2 : State) : State.fixed (answerWith a0 a1 a2) = State.fixed a2 := by
  unfold answerWith
  simp only [↓finish_fixed]

theorem badField_fixed (a0) (a1) (a2) (a3 : State) : State.fixed (badField a0 a1 a2 a3) = State.fixed a3 := by
  unfold badField
  simp only [↓finish_fixed]

theorem bump_fixed (a0) (a1) (a2) (a3 : State) : State.fixed (bump a0 a1 a2 a3) = State.fixed a3 := by
  unfold bump
  simp only [↓fixed_eta, ↓fixed_mk]

theorem fail_fixed (a0) (a1) (a2) (a3 : State) : State.fixed (fail a0 a1 a2 a3) = State.fixed a3 := by
  unfold fail
  simp only [↓finish_fixed]

theorem cancelled_fixed (a0) (a1 : State) : State.fixed (cancelled a0 a1) = State.fixed a1 := by
  unfold cancelled
  simp only [↓fail_fixed]

theorem setTenant_fixed (a0) (a1) (a2 : State) : State.fixed (setTenant a0 a1 a2) = State.fixed a2 := by
  unfold setTenant
  simp only [↓fixed_eta, ↓fixed_mk]

theorem charge_fixed (a0) (a1) (a2 : State) : State.fixed (charge a0 a1 a2) = State.fixed a2 := by
  unfold charge
  simp only [↓setTenant_fixed]

theorem conflict_fixed (a0) (a1) (a2) (a3 : State) : State.fixed (conflict a0 a1 a2 a3) = State.fixed a3 := by
  unfold conflict
  simp only [↓fail_fixed]

theorem conflictDevice_fixed (a0) (a1 : State) : State.fixed (conflictDevice a0 a1) = State.fixed a1 := by
  unfold conflictDevice
  simp only [↓conflict_fixed]

theorem count_fixed (a0) (a1) (a2 : State) : State.fixed (count a0 a1 a2) = State.fixed a2 := by
  unfold count
  simp only [↓bump_fixed]

theorem discardHeld_fixed (a0) (a1 : State) : State.fixed (discardHeld a0 a1) = State.fixed a1 := by
  unfold discardHeld
  simp only [implies_true, ↓releaseCancels_fixed, ↓dropCmd_fixed, ↓setPair_fixed, ↓fixed_foldS]

theorem drainN_fixed (a0) (a1) (a2 : State) : State.fixed (drainN a0 a1 a2) = State.fixed a2 := by
  induction a0 generalizing a2 with
  | zero => rfl
  | succ n ih =>
    unfold drainN
    repeat' (first | simp only [↓fixed_ite, ite_self, ↓releaseCancels_fixed, ↓dropCmd_fixed, ↓writeEntry_fixed, ↓setPair_fixed, ↓ih] | split)

theorem drain_fixed (a0) (a1 : State) : State.fixed (drain a0 a1) = State.fixed a1 := by
  unfold drain
  simp only [↓fixed_ite, ite_self, ↓drainN_fixed, ↓setPair_fixed]

theorem dropMoves_fixed (a0) (a1 : State) : State.fixed (dropMoves a0 a1) = State.fixed a1 := by
  unfold dropMoves
  simp only [↓fixed_eta, ↓fixed_mk]

theorem setSeq_fixed (a0) (a1) (a2 : State) : State.fixed (setSeq a0 a1 a2) = State.fixed a2 := by
  unfold setSeq
  simp only [↓fixed_eta, ↓fixed_mk]

theorem enter_fixed (a0) (a1) (a2 : State) : State.fixed (enter a0 a1 a2) = State.fixed a2 := by
  unfold enter
  simp only [↓setSeq_fixed]

theorem letGo_fixed (a0) (a1 : State) : State.fixed (letGo a0 a1) = State.fixed a1 := by
  unfold letGo
  simp only [↓fixed_eta, ↓fixed_mk, ↓fixed_ite, ite_self]

theorem logFault_fixed (a0) (a1) (a2) (a3) (a4) (a5 : State) : State.fixed (logFault a0 a1 a2 a3 a4 a5) = State.fixed a5 := by
  unfold logFault
  simp only [↓fixed_eta, ↓fixed_mk, ↓inputsOf_mk, ↓inputsOf_eta]

theorem orRefuse_fixed (a0) (a1) (a2) (a3 : State) (ha2 : ∀ z0, State.fixed (a2 z0) = State.fixed z0) : State.fixed (orRefuse a0 a1 a2 a3) = State.fixed a3 := by
  unfold orRefuse
  repeat' (first | simp only [↓finish_fixed, ha2] | split)

theorem post_fixed (a0) (a1) (a2 : State) : State.fixed (post a0 a1 a2) = State.fixed a2 := by
  unfold post
  simp only [↓putEntry_fixed]

theorem powerUp_fixed (a0) (a1 : State) : State.fixed (powerUp a0 a1) = State.fixed a1 := by
  unfold powerUp
  simp only [↓fixed_eta, ↓fixed_mk]

theorem retire_fixed (a0) (a1 : State) : State.fixed (retire a0 a1) = State.fixed a1 := by
  unfold retire
  simp only [↓fixed_eta, ↓fixed_mk, ↓count_fixed]

theorem ringError_fixed (a0) (a1) (a2 : State) : State.fixed (ringError a0 a1 a2) = State.fixed a2 := by
  unfold ringError
  simp only [↓raiseEvent_fixed, ↓setPair_fixed]

theorem runCmd_fixed (a0) (a1) (a2) (a3 : State) (ha2 : ∀ z0 z1, State.fixed (a2 z0 z1) = State.fixed z1) : State.fixed (runCmd a0 a1 a2 a3) = State.fixed a3 := by
  unfold runCmd
  repeat' (first | simp only [↓fixed_ite, ite_self, ↓cancelled_fixed, ↓letGo_fixed, ha2] | split)

theorem setCourse_fixed (a0) (a1) (a2 : State) : State.fixed (setCourse a0 a1 a2) = State.fixed a2 := by
  unfold setCourse
  simp only [↓fixed_eta, ↓fixed_mk]

theorem standAside_fixed (a0) (a1 : State) : State.fixed (standAside a0 a1) = State.fixed a1 := by
  unfold standAside
  simp only [↓fixed_eta, ↓fixed_mk]

theorem withInput_fixed (a0) (a1) (a2) (a3 : State) (ha2 : ∀ z0 z1, State.fixed (a2 z0 z1) = State.fixed z1) : State.fixed (withInput a0 a1 a2 a3) = State.fixed a3 := by
  unfold withInput
  repeat' (first | simp only [↓finish_fixed, ↓fail_fixed, ha2] | split)

theorem withRecord_fixed (a0) (a1) (a2) (a3 : State) : State.fixed (withRecord a0 a1 a2 a3) = State.fixed a3 := by
  unfold withRecord
  simp only [↓finish_fixed]

theorem countIn_fixed (a0) (a1 : State) : State.fixed (countIn a0 a1) = State.fixed a1 := by
  unfold countIn
  simp only [↓fixed_eta, ↓fixed_mk]

theorem reapAdapters_fixed (a0 : State) : State.fixed (reapAdapters a0) = State.fixed a0 := by
  unfold reapAdapters
  simp only [↓fixed_eta, ↓fixed_mk]

theorem addAdapter_fixed (a0) (a1) (a2) (a3) (a4) (a5 : State) : State.fixed (addAdapter a0 a1 a2 a3 a4 a5) = State.fixed a5 := by
  unfold addAdapter
  simp only [↓fixed_eta, ↓fixed_mk, ↓reapAdapters_fixed]

theorem addModel_fixed (a0) (a1) (a2 : State) : State.fixed (addModel a0 a1 a2) = State.fixed a2 := by
  unfold addModel
  simp only [↓fixed_eta, ↓fixed_mk]

theorem loadAdapter_fixed (a0) (a1) (a2 : State) : State.fixed (loadAdapter a0 a1 a2) = State.fixed a2 := by
  unfold loadAdapter
  repeat' (first | simp only [↓fixed_ite, ite_self, ↓badField_fixed, ↓finish_fixed, ↓fail_fixed, ↓addAdapter_fixed] | split)

theorem execAdapterLoad_fixed (a0) (a1) (a2 : State) : ∀ t, (execAdapterLoad a0 a1 a2) = .next t → State.fixed t = State.fixed a2 := by
  intro t h
  unfold execAdapterLoad at h
  simp only [Host.Outcome.next.injEq] at h
  subst h
  simp only [implies_true, ↓runCmd_fixed, ↓withInput_fixed, ↓loadAdapter_fixed]

theorem retireAdapter_fixed (a0) (a1 : State) : State.fixed (retireAdapter a0 a1) = State.fixed a1 := by
  unfold retireAdapter
  repeat' (first | simp only [↓fixed_eta, ↓fixed_mk, implies_true, ↓finish_fixed, ↓reapAdapters_fixed, ↓orRefuse_fixed] | refine (orRefuse_fixed _ _ _ _ (fun _ => ?_)).trans ?_ | split)

theorem execAdapterRetire_fixed (a0) (a1 : State) : ∀ t, (execAdapterRetire a0 a1) = .next t → State.fixed t = State.fixed a1 := by
  intro t h
  unfold execAdapterRetire at h
  simp only [Host.Outcome.next.injEq] at h
  subst h
  simp only [implies_true, ↓runCmd_fixed, ↓retireAdapter_fixed]

theorem loadModel_fixed (a0) (a1) (a2 : State) : State.fixed (loadModel a0 a1 a2) = State.fixed a2 := by
  unfold loadModel
  repeat' (first | simp only [↓fixed_ite, ite_self, ↓finish_fixed, ↓fail_fixed, ↓addModel_fixed] | split)

theorem execModelLoad_fixed (a0) (a1) (a2 : State) : ∀ t, (execModelLoad a0 a1 a2) = .next t → State.fixed t = State.fixed a2 := by
  intro t h
  unfold execModelLoad at h
  simp only [Host.Outcome.next.injEq] at h
  subst h
  simp only [implies_true, ↓runCmd_fixed, ↓withInput_fixed, ↓loadModel_fixed]

theorem queryModel_fixed (a0) (a1 : State) : State.fixed (queryModel a0 a1) = State.fixed a1 := by
  unfold queryModel
  simp only [↓answerWith_fixed]

theorem execModelQuery_fixed (a0) (a1 : State) : ∀ t, (execModelQuery a0 a1) = .next t → State.fixed t = State.fixed a1 := by
  intro t h
  unfold execModelQuery at h
  simp only [Host.Outcome.next.injEq] at h
  subst h
  simp only [implies_true, ↓runCmd_fixed, ↓queryModel_fixed]

theorem removeModel_fixed (a0) (a1 : State) : State.fixed (removeModel a0 a1) = State.fixed a1 := by
  unfold removeModel
  simp only [↓fixed_eta, ↓fixed_mk, ↓dropMoves_fixed]

theorem unloadModel_fixed (a0) (a1 : State) : State.fixed (unloadModel a0 a1) = State.fixed a1 := by
  unfold unloadModel
  simp only [implies_true, ↓orRefuse_fixed, ↓finish_fixed, ↓removeModel_fixed]

theorem execModelUnload_fixed (a0) (a1 : State) : ∀ t, (execModelUnload a0 a1) = .next t → State.fixed t = State.fixed a1 := by
  intro t h
  unfold execModelUnload at h
  simp only [Host.Outcome.next.injEq] at h
  subst h
  simp only [implies_true, ↓runCmd_fixed, ↓unloadModel_fixed]

theorem setJobs_fixed (a0) (a1 : State) : State.fixed (setJobs a0 a1) = State.fixed a1 := by
  unfold setJobs
  simp only [↓fixed_eta, ↓fixed_mk]

theorem runJobs_fixed (a0 : State) : State.fixed (runJobs a0) = State.fixed a0 := by
  unfold runJobs
  simp only [↓setJobs_fixed]

theorem endJobs_fixed (a0) (a1) (a2 : State) : State.fixed (endJobs a0 a1 a2) = State.fixed a2 := by
  unfold endJobs
  simp only [↓runJobs_fixed, ↓setJobs_fixed]

theorem startJob_fixed (a0) (a1) (a2) (a3) (a4 : State) : State.fixed (startJob a0 a1 a2 a3 a4) = State.fixed a4 := by
  unfold startJob
  simp only [↓fixed_ite, ite_self, ↓runJobs_fixed, ↓setJobs_fixed]

theorem withThread_fixed (a0) (a1) (a2) (a3) (a4) (a5 : State) (ha4 : ∀ z0, State.fixed (a4 z0) = State.fixed z0) : State.fixed (withThread a0 a1 a2 a3 a4 a5) = State.fixed a5 := by
  unfold withThread
  simp only [↓fixed_ite, ite_self, ↓startJob_fixed, ↓runJobs_fixed, ha4]

theorem dropMask_fixed (a0) (a1 : State) : State.fixed (dropMask a0 a1) = State.fixed a1 := by
  unfold dropMask
  simp only [↓fixed_eta, ↓fixed_mk]

theorem seqDone_fixed (a0) (a1) (a2) (a3 : State) : State.fixed (seqDone a0 a1 a2 a3) = State.fixed a3 := by
  unfold seqDone
  simp only [↓enter_fixed, ↓setSeq_fixed, ↓dropMask_fixed]

theorem endRun_fixed (a0) (a1) (a2) (a3) (a4) (a5) (a6 : State) : State.fixed (endRun a0 a1 a2 a3 a4 a5 a6) = State.fixed a6 := by
  unfold endRun
  repeat' (first | simp only [↓seqDone_fixed, ↓finish_fixed] | split)

theorem cancelRun_fixed (a0) (a1 : State) : State.fixed (cancelRun a0 a1) = State.fixed a1 := by
  unfold cancelRun
  repeat' (first | simp only [↓fixed_ite, ↓cancelled_fixed, ↓setSeq_fixed, ↓endRun_fixed] | split)

theorem unmark_fixed (a0) (a1 : State) : State.fixed (unmark a0 a1) = State.fixed a1 := by
  unfold unmark
  repeat' (first | simp only [↓fixed_eta, ↓fixed_mk] | split)

theorem cancelMove_fixed (a0) (a1 : State) : State.fixed (cancelMove a0 a1) = State.fixed a1 := by
  unfold cancelMove
  repeat' (first | simp only [↓fixed_eta, ↓fixed_mk, ↓cancelled_fixed, ↓unmark_fixed, ↓finish_fixed] | split)

theorem returnIslands_fixed (a0 : State) : State.fixed (returnIslands a0) = State.fixed a0 := by
  unfold returnIslands
  simp only [↓fixed_eta, ↓fixed_mk]

theorem cancelEvacuation_fixed (a0) (a1 : State) : State.fixed (cancelEvacuation a0 a1) = State.fixed a1 := by
  unfold cancelEvacuation
  simp only [↓fixed_eta, ↓fixed_mk, ↓finish_fixed]

theorem cancelRetire_fixed (a0) (a1 : State) : State.fixed (cancelRetire a0 a1) = State.fixed a1 := by
  unfold cancelRetire
  simp only [↓fixed_eta, ↓fixed_mk, ↓finish_fixed]

theorem cancelCmd_fixed (a0) (a1 : State) : State.fixed (cancelCmd a0 a1) = State.fixed a1 := by
  unfold cancelCmd
  repeat' (first | simp only [↓fixed_eta, ↓fixed_mk, ↓fixedOf_mk, ↓fixedDev_eta, ↓fixed_ite, ite_self, ↓cancelled_fixed, ↓setCmd_fixed, ↓cancelRun_fixed, ↓setSeq_fixed, ↓cancelMove_fixed, ↓finish_fixed, ↓returnIslands_fixed, ↓cancelEvacuation_fixed, ↓cancelRetire_fixed] | split)

theorem cancelAll_fixed (a0) (a1 : State) : State.fixed (cancelAll a0 a1) = State.fixed a1 := by
  unfold cancelAll
  repeat' (first | simp only [↓fixed_ite, ite_self, ↓cancelCmd_fixed] | refine (fixed_foldS _ (fun _ _ => ?_) _ _).trans ?_ | split)

theorem cancelTargets_fixed (a0) (a1) (a2 : State) : State.fixed (cancelTargets a0 a1 a2) = State.fixed a2 := by
  unfold cancelTargets
  simp only [↓fixed_ite, ite_self, ↓fail_fixed, ↓cancelAll_fixed, ↓setCmd_fixed]

theorem cancelNamed_fixed (a0) (a1 : State) : State.fixed (cancelNamed a0 a1) = State.fixed a1 := by
  unfold cancelNamed
  simp only [↓fixed_ite, ite_self, ↓badField_fixed, ↓cancelTargets_fixed]

theorem cancelOne_fixed (a0) (a1 : State) : State.fixed (cancelOne a0 a1) = State.fixed a1 := by
  unfold cancelOne
  simp only [↓cancelTargets_fixed]

theorem execCancelCommand_fixed (a0) (a1 : State) : ∀ t, (execCancelCommand a0 a1) = .next t → State.fixed t = State.fixed a1 := by
  intro t h
  unfold execCancelCommand at h
  simp only [Host.Outcome.next.injEq] at h
  subst h
  simp only [↓fixed_ite, ite_self, implies_true, ↓runCmd_fixed, ↓cancelOne_fixed]

theorem execCancelObject_fixed (a0) (a1 : State) : ∀ t, (execCancelObject a0 a1) = .next t → State.fixed t = State.fixed a1 := by
  intro t h
  unfold execCancelObject at h
  simp only [Host.Outcome.next.injEq] at h
  subst h
  simp only [↓fixed_ite, ite_self, implies_true, ↓runCmd_fixed, ↓cancelNamed_fixed]

theorem cancelPair_fixed (a0) (a1 : State) : State.fixed (cancelPair a0 a1) = State.fixed a1 := by
  unfold cancelPair
  simp only [↓fixed_eta, ↓fixed_mk, ↓cancelAll_fixed]

theorem setFunc_fixed (a0) (a1) (a2) (a3 : State) : State.fixed (setFunc a0 a1 a2 a3) = State.fixed a3 := by
  unfold setFunc
  simp only [↓fixed_eta, ↓fixed_mk]

theorem clearEvents_fixed (a0) (a1) (a2) (a3 : State) : State.fixed (clearEvents a0 a1 a2 a3) = State.fixed a3 := by
  unfold clearEvents
  simp only [↓setFunc_fixed]

theorem cqHead_fixed (a0) (a1) (a2 : State) : State.fixed (cqHead a0 a1 a2) = State.fixed a2 := by
  unfold cqHead
  repeat' (first | simp only [↓fixed_ite, ite_self, ↓ringError_fixed, ↓drain_fixed, ↓setPair_fixed] | split)

theorem disableRing_fixed (a0) (a1 : State) : State.fixed (disableRing a0 a1) = State.fixed a1 := by
  unfold disableRing
  simp only [↓fixed_ite, ite_self, ↓setPair_fixed, ↓cancelPair_fixed, ↓discardHeld_fixed]

theorem enableRing_fixed (a0) (a1) (a2) (a3) (a4 : State) : State.fixed (enableRing a0 a1 a2 a3 a4) = State.fixed a4 := by
  unfold enableRing
  simp only [↓fixed_ite, ite_self, ↓setPair_fixed]

theorem writeCtrl_fixed (a0) (a1) (a2) (a3) (a4 : State) : State.fixed (writeCtrl a0 a1 a2 a3 a4) = State.fixed a4 := by
  unfold writeCtrl
  simp only [↓setFunc_fixed]

theorem execFunctionEnable_fixed (a0) (a1) (a2) (a3 : State) : ∀ t, (execFunctionEnable a0 a1 a2 a3) = .next t → State.fixed t = State.fixed a3 := by
  intro t h
  unfold execFunctionEnable at h
  simp only [Host.Outcome.next.injEq] at h
  subst h
  simp only [↓fixed_ite, ite_self, ↓writeCtrl_fixed]

theorem execInterruptCoalesceTimer_fixed (a0) (a1) (a2) (a3 : State) : ∀ t, (execInterruptCoalesceTimer a0 a1 a2 a3) = .next t → State.fixed t = State.fixed a3 := by
  intro t h
  unfold execInterruptCoalesceTimer at h
  simp only [Host.Outcome.next.injEq] at h
  subst h
  simp only [↓fixed_ite, ite_self, ↓raiseMsix_fixed, ↓setPair_fixed]

theorem execPfCqHead_fixed (a0) (a1) (a2) (a3) (a4 : State) : ∀ t, (execPfCqHead a0 a1 a2 a3 a4) = .next t → State.fixed t = State.fixed a4 := by
  intro t h
  unfold execPfCqHead at h
  simp only [Host.Outcome.next.injEq] at h
  subst h
  simp only [↓fixed_ite, ite_self, ↓cqHead_fixed]

theorem execPfEventClear_fixed (a0) (a1) (a2) (a3 : State) : ∀ t, (execPfEventClear a0 a1 a2 a3) = .next t → State.fixed t = State.fixed a3 := by
  intro t h
  unfold execPfEventClear at h
  simp only [Host.Outcome.next.injEq] at h
  subst h
  simp only [↓fixed_ite, ite_self, ↓clearEvents_fixed]

theorem sqTail_fixed (a0) (a1) (a2 : State) : State.fixed (sqTail a0 a1 a2) = State.fixed a2 := by
  unfold sqTail
  simp only [↓fixed_ite, ite_self, ↓ringError_fixed, ↓setPair_fixed]

theorem execPfSqTail_fixed (a0) (a1) (a2) (a3) (a4 : State) : ∀ t, (execPfSqTail a0 a1 a2 a3 a4) = .next t → State.fixed t = State.fixed a4 := by
  intro t h
  unfold execPfSqTail at h
  simp only [Host.Outcome.next.injEq] at h
  subst h
  simp only [↓fixed_ite, ite_self, ↓sqTail_fixed]

theorem execQuiesce_fixed (a0) (a1) (a2) (a3 : State) : ∀ t, (execQuiesce a0 a1 a2 a3) = .next t → State.fixed t = State.fixed a3 := by
  intro t h
  unfold execQuiesce at h
  simp only [Host.Outcome.next.injEq] at h
  subst h
  simp only [↓fixed_ite, ite_self, ↓writeCtrl_fixed]

theorem setConf_fixed (a0) (a1) (a2) (a3 : State) : State.fixed (setConf a0 a1 a2 a3) = State.fixed a3 := by
  unfold setConf
  simp only [↓fixed_eta, ↓fixed_mk]

theorem writeVec_fixed (a0) (a1) (a2) (a3) (a4 : State) : State.fixed (writeVec a0 a1 a2 a3 a4) = State.fixed a4 := by
  unfold writeVec
  simp only [↓fixed_eta, ↓fixed_mk, ↓fixed_ite, ite_self]

theorem sendPending_fixed (a0) (a1) (a2 : State) : State.fixed (sendPending a0 a1 a2) = State.fixed a2 := by
  unfold sendPending
  simp only [↓fixed_ite, ite_self, implies_true, ↓writeVec_fixed, ↓fixed_foldS]

theorem resetConf_fixed (a0) (a1) (a2) (a3 : State) : State.fixed (resetConf a0 a1 a2 a3) = State.fixed a3 := by
  unfold resetConf
  simp only [↓setConf_fixed]

theorem resetBar_fixed (a0) (a1) (a2 : State) : State.fixed (resetBar a0 a1 a2) = State.fixed a2 := by
  unfold resetBar
  simp only [↓fixed_eta, ↓fixed_mk]

theorem flrFn_fixed (a0) (a1) (a2 : State) : State.fixed (flrFn a0 a1 a2) = State.fixed a2 := by
  unfold flrFn
  simp only [implies_true, ↓resetConf_fixed, ↓resetBar_fixed, ↓disableRing_fixed, ↓fixed_foldS]

theorem setVfs_fixed (a0) (a1) (a2 : State) : State.fixed (setVfs a0 a1 a2) = State.fixed a2 := by
  unfold setVfs
  simp only [↓fixed_ite, ite_self, implies_true, ↓setConf_fixed, ↓flrFn_fixed, ↓fixed_foldS]

theorem writeConf_fixed (a0) (a1) (a2) (a3) (a4 : State) : State.fixed (writeConf a0 a1 a2 a3 a4) = State.fixed a4 := by
  unfold writeConf
  repeat' (first | simp only [↓fixed_ite, ite_self, ↓setConf_fixed, ↓sendPending_fixed, ↓setVfs_fixed] | split)

theorem writePf1_fixed (a0) (a1) (a2) (a3) (a4 : State) : State.fixed (writePf1 a0 a1 a2 a3 a4) = State.fixed a4 := by
  unfold writePf1
  simp only [↓fixed_ite, ite_self, ↓writeVec_fixed]

theorem writeSignal_fixed (a0) (a1) (a2) (a3 : State) : State.fixed (writeSignal a0 a1 a2 a3) = State.fixed a3 := by
  unfold writeSignal
  simp only [↓fixed_ite, ite_self, ↓setFunc_fixed, ↓raiseMsix_fixed]

theorem writeFunc_fixed (a0) (a1) (a2) (a3) (a4) (a5) (a6 : State) : State.fixed (writeFunc a0 a1 a2 a3 a4 a5 a6) = State.fixed a6 := by
  unfold writeFunc
  repeat' (first | simp only [↓fixed_ite, ite_self, ↓writeCtrl_fixed, ↓clearEvents_fixed, ↓writeSignal_fixed] | split)

theorem writeCfg_fixed (a0) (a1) (a2 : State) : State.fixed (writeCfg a0 a1 a2) = State.fixed a2 := by
  unfold writeCfg
  simp only [↓fixed_ite, ite_self, ↓enableRing_fixed, ↓disableRing_fixed, ↓setPair_fixed]

theorem writeMod_fixed (a0) (a1) (a2) (a3 : State) : State.fixed (writeMod a0 a1 a2 a3) = State.fixed a3 := by
  unfold writeMod
  simp only [↓fixed_ite, ite_self, ↓raiseMsix_fixed, ↓setPair_fixed]

theorem writePair_fixed (a0) (a1) (a2) (a3) (a4) (a5 : State) : State.fixed (writePair a0 a1 a2 a3 a4 a5) = State.fixed a5 := by
  unfold writePair
  repeat' (first | simp only [↓fixed_ite, ite_self, ↓setPair_fixed, ↓writeCfg_fixed, ↓writeMod_fixed] | split)

theorem writeReg_fixed (a0) (a1) (a2) (a3) (a4) (a5 : State) : State.fixed (writeReg a0 a1 a2 a3 a4 a5) = State.fixed a5 := by
  unfold writeReg
  simp only [↓fixed_ite, ite_self, ↓writeFunc_fixed, ↓writePair_fixed, ↓cqHead_fixed, ↓sqTail_fixed, ↓writeVec_fixed]

theorem execRegisterWrite_fixed (a0) (a1) (a2) (a3) (a4) (a5 : State) : ∀ t, (execRegisterWrite a0 a1 a2 a3 a4 a5) = .next t → State.fixed t = State.fixed a5 := by
  intro t h
  unfold execRegisterWrite at h
  simp only [Host.Outcome.next.injEq] at h
  subst h
  simp only [↓fixed_ite, ite_self, ↓writeConf_fixed, ↓writePf1_fixed, ↓writeReg_fixed]

theorem execRingDisable_fixed (a0) (a1) (a2) (a3 : State) : ∀ t, (execRingDisable a0 a1 a2 a3) = .next t → State.fixed t = State.fixed a3 := by
  intro t h
  unfold execRingDisable at h
  simp only [Host.Outcome.next.injEq] at h
  subst h
  simp only [↓fixed_ite, ite_self, ↓disableRing_fixed]

theorem execRingEnable_fixed (a0) (a1) (a2) (a3) (a4) (a5) (a6 : State) : ∀ t, (execRingEnable a0 a1 a2 a3 a4 a5 a6) = .next t → State.fixed t = State.fixed a6 := by
  intro t h
  unfold execRingEnable at h
  simp only [Host.Outcome.next.injEq] at h
  subst h
  simp only [↓fixed_ite, ite_self, ↓enableRing_fixed]

theorem execRingIdle_fixed (a0) (a1) (a2) (a3 : State) : ∀ t, (execRingIdle a0 a1 a2 a3) = .next t → State.fixed t = State.fixed a3 := by
  intro t h
  unfold execRingIdle at h
  simp only [Host.Outcome.next.injEq] at h
  subst h
  simp only [↓fixed_ite, ite_self, ↓setPair_fixed]

theorem orderMove_fixed (a0) (a1 : State) : State.fixed (orderMove a0 a1) = State.fixed a1 := by
  unfold orderMove
  simp only [↓fixed_eta, ↓fixed_mk]

theorem bring_fixed (a0) (a1) (a2 : State) : State.fixed (bring a0 a1 a2) = State.fixed a2 := by
  unfold bring
  simp only [↓setSeq_fixed, ↓orderMove_fixed]

theorem evict_fixed (a0) (a1) (a2 : State) : State.fixed (evict a0 a1 a2) = State.fixed a2 := by
  unfold evict
  simp only [↓setSeq_fixed, ↓orderMove_fixed]

theorem setMove_fixed (a0) (a1) (a2 : State) : State.fixed (setMove a0 a1 a2) = State.fixed a2 := by
  unfold setMove
  simp only [↓fixed_eta, ↓fixed_mk]

theorem moveHeld_fixed (a0) (a1) (a2 : State) : State.fixed (moveHeld a0 a1 a2) = State.fixed a2 := by
  unfold moveHeld
  simp only [↓fixed_eta, ↓fixed_mk, implies_true, ↓putEntry_fixed, ↓fixed_foldS]

theorem adoptRun_fixed (a0) (a1 : State) : State.fixed (adoptRun a0 a1) = State.fixed a1 := by
  unfold adoptRun
  repeat' (first | simp only [↓fixed_ite, ite_self, ↓finish_fixed, ↓setSeq_fixed, ↓enter_fixed] | split)

theorem adoptActions_fixed (a0) (a1) (a2 : State) : State.fixed (adoptActions a0 a1 a2) = State.fixed a2 := by
  unfold adoptActions
  repeat' (first | simp only [↓fixed_eta, ↓fixed_mk, ↓fixed_ite, ite_self, implies_true, ↓raiseEvent_fixed, ↓moveHeld_fixed, ↓adoptRun_fixed, ↓cancelCmd_fixed, ↓fixed_foldS] | refine (fixed_foldS _ (fun _ _ => ?_) _ _).trans ?_ | split)

theorem setSession_fixed (a0) (a1) (a2 : State) : State.fixed (setSession a0 a1 a2) = State.fixed a2 := by
  unfold setSession
  simp only [↓fixed_eta, ↓fixed_mk]

theorem adoptChallenge_fixed (a0) (a1 : State) : State.fixed (adoptChallenge a0 a1) = State.fixed a1 := by
  unfold adoptChallenge
  repeat' (first | simp only [↓fixed_ite, ite_self, ↓fail_fixed, ↓conflict_fixed, ↓count_fixed, ↓finish_fixed, ↓setSession_fixed, ↓State.draw_fixed] | split)

theorem recordBadProof_fixed (a0) (a1 : State) : State.fixed (recordBadProof a0 a1) = State.fixed a1 := by
  unfold recordBadProof
  simp only [↓count_fixed, ↓setTenant_fixed]

theorem adoptSession_fixed (a0) (a1 : State) : State.fixed (adoptSession a0 a1) = State.fixed a1 := by
  unfold adoptSession
  repeat' (first | simp only [↓fixed_ite, ite_self, ↓fail_fixed, ↓conflict_fixed, ↓setSession_fixed, ↓adoptActions_fixed, ↓finish_fixed, ↓recordBadProof_fixed] | split)

theorem beginClose_fixed (a0) (a1) (a2 : State) : State.fixed (beginClose a0 a1 a2) = State.fixed a2 := by
  unfold beginClose
  simp only [↓setSession_fixed, ↓cancelAll_fixed]

theorem openChallenge_fixed (a0) (a1 : State) : State.fixed (openChallenge a0 a1) = State.fixed a1 := by
  unfold openChallenge
  simp only [↓fixed_eta, ↓fixed_mk]

theorem challenge_fixed (a0) (a1 : State) : State.fixed (challenge a0 a1) = State.fixed a1 := by
  unfold challenge
  simp only [↓fixed_ite, ite_self, ↓fail_fixed, ↓count_fixed, ↓finish_fixed, ↓openChallenge_fixed]

theorem clearVocab_fixed (a0) (a1 : State) : State.fixed (clearVocab a0 a1) = State.fixed a1 := by
  unfold clearVocab
  simp only [↓fixed_eta, ↓fixed_mk]

theorem closeSession_fixed (a0) (a1 : State) : State.fixed (closeSession a0 a1) = State.fixed a1 := by
  unfold closeSession
  repeat' (first | simp only [↓fail_fixed, ↓setCmd_fixed, ↓beginClose_fixed] | split)

theorem dropSession_fixed (a0) (a1 : State) : State.fixed (dropSession a0 a1) = State.fixed a1 := by
  unfold dropSession
  simp only [↓fixed_eta, ↓fixed_mk]

theorem dropTables_fixed (a0) (a1 : State) : State.fixed (dropTables a0 a1) = State.fixed a1 := by
  unfold dropTables
  simp only [↓fixed_eta, ↓fixed_mk]

theorem execAdoptionChallenge_fixed (a0) (a1 : State) : ∀ t, (execAdoptionChallenge a0 a1) = .next t → State.fixed t = State.fixed a1 := by
  intro t h
  unfold execAdoptionChallenge at h
  simp only [Host.Outcome.next.injEq] at h
  subst h
  simp only [↓fixed_ite, ite_self, implies_true, ↓runCmd_fixed, ↓adoptChallenge_fixed]

theorem failover_fixed (a0 : State) : State.fixed (failover a0) = State.fixed a0 := by
  unfold failover
  simp only [↓fixed_eta, ↓fixed_mk, ↓count_fixed, ↓raiseEvent_fixed]

theorem execMgmtFailover_fixed (a0 : State) : ∀ t, (execMgmtFailover a0) = .next t → State.fixed t = State.fixed a0 := by
  intro t h
  unfold execMgmtFailover at h
  simp only [Host.Outcome.next.injEq] at h
  subst h
  simp only [↓fixed_ite, ite_self, ↓failover_fixed]

theorem execNonceExpiry_fixed (a0) (a1 : State) : ∀ t, (execNonceExpiry a0 a1) = .next t → State.fixed t = State.fixed a1 := by
  intro t h
  unfold execNonceExpiry at h
  simp only [Host.Outcome.next.injEq] at h
  subst h
  repeat' (first | simp only [↓fixed_ite, ite_self, ↓dropSession_fixed] | split)

theorem execNop_fixed (a0) (a1 : State) : ∀ t, (execNop a0 a1) = .next t → State.fixed t = State.fixed a1 := by
  intro t h
  unfold execNop at h
  simp only [Host.Outcome.next.injEq] at h
  subst h
  simp only [implies_true, ↓runCmd_fixed, ↓finish_fixed]

theorem setPort_fixed (a0) (a1) (a2 : State) : State.fixed (setPort a0 a1 a2) = State.fixed a2 := by
  unfold setPort
  simp only [↓fixed_eta, ↓fixed_mk]

theorem linkDown_fixed (a0) (a1 : State) : State.fixed (linkDown a0 a1) = State.fixed a1 := by
  unfold linkDown
  simp only [↓fixed_eta, ↓fixed_mk, ↓logFault_fixed, ↓setPort_fixed]

theorem execPortLinkDown_fixed (a0) (a1 : State) : ∀ t, (execPortLinkDown a0 a1) = .next t → State.fixed t = State.fixed a1 := by
  intro t h
  unfold execPortLinkDown at h
  simp only [Host.Outcome.next.injEq] at h
  subst h
  simp only [↓fixed_ite, ite_self, ↓linkDown_fixed]

theorem linkUp_fixed (a0) (a1 : State) : State.fixed (linkUp a0 a1) = State.fixed a1 := by
  unfold linkUp
  simp only [↓fixed_eta, ↓fixed_mk, implies_true, ↓setPort_fixed, ↓drain_fixed, ↓fixed_foldS]

theorem execPortLinkUp_fixed (a0) (a1 : State) : ∀ t, (execPortLinkUp a0 a1) = .next t → State.fixed t = State.fixed a1 := by
  intro t h
  unfold execPortLinkUp at h
  simp only [Host.Outcome.next.injEq] at h
  subst h
  simp only [↓fixed_ite, ite_self, ↓linkUp_fixed]

theorem execSessionAdopt_fixed (a0) (a1 : State) : ∀ t, (execSessionAdopt a0 a1) = .next t → State.fixed t = State.fixed a1 := by
  intro t h
  unfold execSessionAdopt at h
  simp only [Host.Outcome.next.injEq] at h
  subst h
  simp only [implies_true, ↓runCmd_fixed, ↓adoptSession_fixed]

theorem execSessionChallenge_fixed (a0) (a1 : State) : ∀ t, (execSessionChallenge a0 a1) = .next t → State.fixed t = State.fixed a1 := by
  intro t h
  unfold execSessionChallenge at h
  simp only [Host.Outcome.next.injEq] at h
  subst h
  simp only [↓fixed_ite, ite_self, implies_true, ↓runCmd_fixed, ↓challenge_fixed]

theorem execSessionClose_fixed (a0) (a1 : State) : ∀ t, (execSessionClose a0 a1) = .next t → State.fixed t = State.fixed a1 := by
  intro t h
  unfold execSessionClose at h
  simp only [Host.Outcome.next.injEq] at h
  subst h
  simp only [↓fixed_ite, ite_self, implies_true, ↓runCmd_fixed, ↓closeSession_fixed]

theorem removeIndex_fixed (a0) (a1 : State) : State.fixed (removeIndex a0 a1) = State.fixed a1 := by
  unfold removeIndex
  simp only [↓fixed_eta, ↓fixed_mk, ↓dropMoves_fixed]

theorem releaseVocab_fixed (a0) (a1 : State) : State.fixed (releaseVocab a0 a1) = State.fixed a1 := by
  unfold releaseVocab
  simp only [↓fixed_eta, ↓fixed_mk, ↓fixed_ite, ite_self, ↓clearVocab_fixed]

theorem reapVocabs_fixed (a0 : State) : State.fixed (reapVocabs a0) = State.fixed a0 := by
  unfold reapVocabs
  simp only [↓fixed_ite, ite_self, implies_true, ↓clearVocab_fixed, ↓fixed_foldS]

theorem releaseObjects_fixed (a0) (a1 : State) : State.fixed (releaseObjects a0 a1) = State.fixed a1 := by
  unfold releaseObjects
  simp only [↓fixed_eta, ↓fixed_mk, ↓fixed_ite, ite_self, implies_true, ↓dropMoves_fixed, ↓removeModel_fixed, ↓removeIndex_fixed, ↓releaseVocab_fixed, ↓reapVocabs_fixed, ↓reapAdapters_fixed, ↓fixed_foldS]

theorem finishClose_fixed (a0) (a1 : State) : State.fixed (finishClose a0 a1) = State.fixed a1 := by
  unfold finishClose
  simp only [implies_true, ↓dropSession_fixed, ↓releaseObjects_fixed, ↓finish_fixed, ↓fixed_foldS]

theorem execSessionCloseFinish_fixed (a0) (a1 : State) : ∀ t, (execSessionCloseFinish a0 a1) = .next t → State.fixed t = State.fixed a1 := by
  intro t h
  unfold execSessionCloseFinish at h
  simp only [Host.Outcome.next.injEq] at h
  subst h
  repeat' (first | simp only [↓fixed_ite, ite_self, ↓dropTables_fixed, ↓finishClose_fixed] | split)

theorem execSessionHoldExpiry_fixed (a0) (a1 : State) : ∀ t, (execSessionHoldExpiry a0 a1) = .next t → State.fixed t = State.fixed a1 := by
  intro t h
  unfold execSessionHoldExpiry at h
  simp only [Host.Outcome.next.injEq] at h
  subst h
  repeat' (first | simp only [↓fixed_ite, ite_self, ↓beginClose_fixed] | split)

theorem openSession_fixed (a0) (a1 : State) : State.fixed (openSession a0 a1) = State.fixed a1 := by
  unfold openSession
  repeat' (first | simp only [↓fixed_ite, ite_self, ↓conflict_fixed, ↓finish_fixed, ↓setSession_fixed, ↓fail_fixed, ↓recordBadProof_fixed, ↓dropSession_fixed] | split)

theorem execSessionOpen_fixed (a0) (a1 : State) : ∀ t, (execSessionOpen a0 a1) = .next t → State.fixed t = State.fixed a1 := by
  intro t h
  unfold execSessionOpen at h
  simp only [Host.Outcome.next.injEq] at h
  subst h
  simp only [implies_true, ↓runCmd_fixed, ↓openSession_fixed]

theorem queryState_fixed (a0) (a1 : State) : State.fixed (queryState a0 a1) = State.fixed a1 := by
  unfold queryState
  repeat' (first | simp only [↓finish_fixed, ↓badField_fixed] | split)

theorem execStateQuery_fixed (a0) (a1 : State) : ∀ t, (execStateQuery a0 a1) = .next t → State.fixed t = State.fixed a1 := by
  intro t h
  unfold execStateQuery at h
  simp only [Host.Outcome.next.injEq] at h
  subst h
  simp only [implies_true, ↓runCmd_fixed, ↓queryState_fixed]

theorem dispatch_fixed (a0) (a1) (a2 : State) : State.fixed (dispatch a0 a1 a2) = State.fixed a2 := by
  unfold dispatch
  simp only [↓setCmd_fixed, ↓setTenant_fixed]

theorem enrol_fixed (a0) (a1 : State) : State.fixed (enrol a0 a1) = State.fixed a1 := by
  unfold enrol
  simp only [↓fixed_eta, ↓fixed_mk]

theorem refuse_fixed (a0) (a1) (a2 : State) : State.fixed (refuse a0 a1 a2) = State.fixed a2 := by
  unfold refuse
  simp only [↓fixed_ite, ite_self, ↓setTenant_fixed, ↓post_fixed]

theorem takeCommand_fixed (a0) (a1) (a2) (a3 : State) : State.fixed (takeCommand a0 a1 a2 a3) = State.fixed a3 := by
  unfold takeCommand
  repeat' (first | simp only [↓setPair_fixed, ↓refuse_fixed, ↓enrol_fixed] | split)

theorem fetch_fixed (a0) (a1) (a2) (a3 : State) : State.fixed (fetch a0 a1 a2 a3) = State.fixed a3 := by
  unfold fetch
  repeat' (first | simp only [↓fixed_ite, ite_self, ↓ringError_fixed, ↓takeCommand_fixed] | split)

theorem execCommandFetch_fixed (a0) (a1) (a2) (a3) (a4) (a5 : State) : ∀ t, (execCommandFetch a0 a1 a2 a3 a4 a5) = .next t → State.fixed t = State.fixed a5 := by
  intro t h
  unfold execCommandFetch at h
  simp only [Host.Outcome.next.injEq] at h
  subst h
  simp only [↓fixed_ite, ite_self, ↓fetch_fixed]

theorem writeFailed_fixed (a0) (a1 : State) : State.fixed (writeFailed a0 a1) = State.fixed a1 := by
  unfold writeFailed
  repeat' (first | simp only [↓fixed_eta, ↓fixed_mk, ↓fixed_ite, ite_self, ↓setCmd_fixed, ↓ringError_fixed] | split)

theorem execOutputWriteFailed_fixed (a0) (a1 : State) : ∀ t, (execOutputWriteFailed a0 a1) = .next t → State.fixed t = State.fixed a1 := by
  intro t h
  unfold execOutputWriteFailed at h
  simp only [Host.Outcome.next.injEq] at h
  subst h
  simp only [↓writeFailed_fixed]

theorem claim_fixed (a0) (a1 : State) : State.fixed (claim a0 a1) = State.fixed a1 := by
  unfold claim
  simp only [↓fixed_eta, ↓fixed_mk]

theorem eraseOwner_fixed (a0 : State) : State.fixed (eraseOwner a0) = State.fixed a0 := by
  unfold eraseOwner
  simp only [↓fixed_eta, ↓fixed_mk, implies_true, ↓releaseObjects_fixed, ↓fixed_foldS]

theorem release_fixed (a0) (a1 : State) : State.fixed (release a0 a1) = State.fixed a1 := by
  unfold release
  simp only [↓fixed_eta, ↓fixed_mk, ↓fixedOf_mk, ↓fixedDev_eta, ↓cancelAll_fixed, ↓eraseOwner_fixed, ↓finish_fixed]

theorem activateImage_fixed (a0) (a1 : State) : State.fixed (activateImage a0 a1) = State.fixed a1 := by
  unfold activateImage
  simp only [↓fixed_eta, ↓fixed_mk, ↓fixed_ite, ite_self, ↓conflictDevice_fixed, ↓fail_fixed, ↓count_fixed, ↓finish_fixed, ↓claim_fixed, ↓release_fixed]

theorem useIndex_fixed (a0 : State) : State.fixed (useIndex a0) = State.fixed a0 := by
  unfold useIndex
  simp only [↓fixed_eta, ↓fixed_mk, ↓fixed_ite, ite_self]

theorem attestNow_fixed (a0) (a1 : State) : State.fixed (attestNow a0 a1) = State.fixed a1 := by
  unfold attestNow
  simp only [↓fixed_ite, ite_self, ↓fail_fixed, ↓finish_fixed, ↓count_fixed, ↓useIndex_fixed]

theorem closeTenant_fixed (a0) (a1 : State) : State.fixed (closeTenant a0 a1) = State.fixed a1 := by
  unfold closeTenant
  simp only [↓fixed_eta, ↓fixed_mk, ↓fixed_ite, ite_self, implies_true, ↓beginClose_fixed, ↓fixed_foldS]

theorem execAttest_fixed (a0) (a1 : State) : ∀ t, (execAttest a0 a1) = .next t → State.fixed t = State.fixed a1 := by
  intro t h
  unfold execAttest at h
  simp only [Host.Outcome.next.injEq] at h
  subst h
  simp only [implies_true, ↓runCmd_fixed, ↓attestNow_fixed]

theorem execAttestKeyGenerate_fixed (a0 : State) : ∀ t, (execAttestKeyGenerate a0) = .next t → State.fixed t = State.fixed a0 := by
  intro t h
  unfold execAttestKeyGenerate at h
  simp only [Host.Outcome.next.injEq] at h
  subst h
  simp only [↓fixed_eta, ↓fixed_mk, ↓fixed_ite, ite_self]

theorem execImageActivate_fixed (a0) (a1 : State) : ∀ t, (execImageActivate a0 a1) = .next t → State.fixed t = State.fixed a1 := by
  intro t h
  unfold execImageActivate at h
  simp only [Host.Outcome.next.injEq] at h
  subst h
  simp only [implies_true, ↓runCmd_fixed, ↓activateImage_fixed]

theorem setSlot_fixed (a0) (a1) (a2 : State) : State.fixed (setSlot a0 a1 a2) = State.fixed a2 := by
  unfold setSlot
  simp only [↓fixed_eta, ↓fixed_mk, ↓fixed_ite, ite_self]

theorem writeImage_fixed (a0) (a1) (a2 : State) : State.fixed (writeImage a0 a1 a2) = State.fixed a2 := by
  unfold writeImage
  repeat' (first | simp only [↓fixed_ite, ite_self, ↓badField_fixed, ↓finish_fixed, ↓fail_fixed, ↓count_fixed, ↓setSlot_fixed] | split)

theorem execImageWrite_fixed (a0) (a1) (a2 : State) : ∀ t, (execImageWrite a0 a1 a2) = .next t → State.fixed t = State.fixed a2 := by
  intro t h
  unfold execImageWrite at h
  simp only [Host.Outcome.next.injEq] at h
  subst h
  simp only [implies_true, ↓runCmd_fixed, ↓withInput_fixed, ↓writeImage_fixed]

theorem loseBlocks_fixed (a0) (a1 : State) : State.fixed (loseBlocks a0 a1) = State.fixed a1 := by
  unfold loseBlocks
  simp only [↓fixed_eta, ↓fixed_mk]

theorem revokeTenant_fixed (a0) (a1 : State) : State.fixed (revokeTenant a0 a1) = State.fixed a1 := by
  unfold revokeTenant
  simp only [↓fixed_ite, ite_self, ↓conflict_fixed, ↓setTenant_fixed, ↓loseBlocks_fixed, ↓finish_fixed, ↓closeTenant_fixed]

theorem execTenantRevoke_fixed (a0) (a1 : State) : ∀ t, (execTenantRevoke a0 a1) = .next t → State.fixed t = State.fixed a1 := by
  intro t h
  unfold execTenantRevoke at h
  simp only [Host.Outcome.next.injEq] at h
  subst h
  simp only [↓fixed_ite, ite_self, implies_true, ↓runCmd_fixed, ↓revokeTenant_fixed]

theorem execTenantRevokeFinish_fixed (a0) (a1 : State) : ∀ t, (execTenantRevokeFinish a0 a1) = .next t → State.fixed t = State.fixed a1 := by
  intro t h
  unfold execTenantRevokeFinish at h
  simp only [Host.Outcome.next.injEq] at h
  subst h
  simp only [↓fixed_eta, ↓fixed_mk, ↓fixed_ite, ite_self]

theorem setTenantRecord_fixed (a0) (a1) (a2) (a3 : State) : State.fixed (setTenantRecord a0 a1 a2 a3) = State.fixed a3 := by
  unfold setTenantRecord
  repeat' (first | simp only [↓fixed_eta, ↓fixed_mk, ↓fixed_ite, ↓conflict_fixed, ↓badField_fixed, ↓finish_fixed] | split)

theorem tenantInputs_fixed (a0) (a1) (a2) (a3 : State) : State.fixed (tenantInputs a0 a1 a2 a3) = State.fixed a3 := by
  unfold tenantInputs
  simp only [↓fixed_ite, ite_self, implies_true, ↓setTenantRecord_fixed, ↓withInput_fixed]

theorem execTenantSet_fixed (a0) (a1) (a2) (a3 : State) : ∀ t, (execTenantSet a0 a1 a2 a3) = .next t → State.fixed t = State.fixed a3 := by
  intro t h
  unfold execTenantSet at h
  simp only [Host.Outcome.next.injEq] at h
  subst h
  simp only [↓fixed_ite, ite_self, implies_true, ↓runCmd_fixed, ↓tenantInputs_fixed]

end Sys2Proof.Machine
end

