-- ==== Sys2Proof/Laws/FixedServing.lean ====
section
/-! SUPPORT. What only pins, resets and the sideband change stays as it is: sequences, vocabularies and hop messages. -/

open Sys2Proof
namespace Sys2Proof.Machine

theorem addInput_fixed (a0) (a1) (a2 : State) : State.fixed (addInput a0 a1 a2) = State.fixed a2 := by
  unfold addInput
  repeat' (first | simp only [↓setSeq_fixed] | split)

theorem countTokens_fixed (a0) (a1) (a2) (a3) (a4) (a5 : State) : State.fixed (countTokens a0 a1 a2 a3 a4 a5) = State.fixed a5 := by
  unfold countTokens
  simp only [↓bump_fixed]

theorem appendJob_fixed (a0) (a1) (a2 : State) : State.fixed (appendJob a0 a1 a2) = State.fixed a2 := by
  unfold appendJob
  repeat' (first | simp only [↓fixed_ite, ite_self, implies_true, ↓badField_fixed, ↓finish_fixed, ↓withThread_fixed, ↓withInput_fixed, ↓setCmd_fixed, ↓countTokens_fixed] | refine (withThread_fixed _ _ _ _ _ _ (fun _ => ?_)).trans ?_ | refine (withInput_fixed _ _ _ _ (fun _ _ => ?_)).trans ?_ | split)

theorem askMask_fixed (a0) (a1 : State) : State.fixed (askMask a0 a1) = State.fixed a1 := by
  unfold askMask
  repeat' (first | simp only [↓fixed_eta, ↓fixed_mk, ↓fixed_ite, ite_self] | split)

theorem blockRun_fixed (a0) (a1 : State) : State.fixed (blockRun a0 a1) = State.fixed a1 := by
  unfold blockRun
  repeat' (first | simp only [↓enter_fixed, ↓setSeq_fixed, ↓dropMask_fixed, ↓finish_fixed] | split)

theorem placeSeq_fixed (a0) (a1) (a2) (a3) (a4) (a5 : State) : State.fixed (placeSeq a0 a1 a2 a3 a4 a5) = State.fixed a5 := by
  unfold placeSeq
  repeat' (first | simp only [↓fixed_eta, ↓fixed_mk, ↓fixed_ite, ↓fail_fixed, ↓badField_fixed, ↓conflict_fixed, ↓finish_fixed] | split)

theorem createSeq_fixed (a0) (a1) (a2) (a3 : State) : State.fixed (createSeq a0 a1 a2 a3) = State.fixed a3 := by
  unfold createSeq
  repeat' (first | simp only [↓fixed_ite, ite_self, ↓fail_fixed, ↓badField_fixed, ↓placeSeq_fixed] | split)

theorem deliver_fixed (a0) (a1 : State) : State.fixed (deliver a0 a1) = State.fixed a1 := by
  unfold deliver
  repeat' (first | simp only [↓dma_fixed, ↓setSeq_fixed] | split)

theorem startRun_fixed (a0) (a1 : State) : State.fixed (startRun a0 a1) = State.fixed a1 := by
  unfold startRun
  repeat' (first | simp only [↓fixed_ite, ite_self, ↓deliver_fixed, ↓blockRun_fixed, ↓endRun_fixed, ↓askMask_fixed, ↓enter_fixed, ↓setSeq_fixed, ↓conflict_fixed] | split)

theorem takeEffect_fixed (a0) (a1 : State) : State.fixed (takeEffect a0 a1) = State.fixed a1 := by
  unfold takeEffect
  repeat' (first | simp only [↓fixed_ite, ite_self, ↓setSeq_fixed, ↓startRun_fixed] | split)

theorem flush_fixed (a0) (a1 : State) : State.fixed (flush a0 a1) = State.fixed a1 := by
  unfold flush
  repeat' (first | simp only [↓countTokens_fixed, ↓addInput_fixed, ↓setSeq_fixed] | split)

theorem runnableNow_fixed (a0 : State) (a1) (a2 : State) : State.fixed (runnableNow a0 a1 a2) = State.fixed a2 := by
  unfold runnableNow
  simp only [↓fixed_ite, ite_self, implies_true, ↓setCmd_fixed, ↓fixed_foldS]

theorem execCarryFlushDone_fixed (a0) (a1 : State) : ∀ t, (execCarryFlushDone a0 a1) = .next t → State.fixed t = State.fixed a1 := by
  intro t h
  unfold execCarryFlushDone at h
  simp only [Host.Outcome.next.injEq] at h
  subst h
  repeat' (first | simp only [↓fixed_ite, ite_self, ↓takeEffect_fixed, ↓flush_fixed, ↓runnableNow_fixed] | split)

theorem execSeqAppend_fixed (a0) (a1) (a2 : State) : ∀ t, (execSeqAppend a0 a1 a2) = .next t → State.fixed t = State.fixed a2 := by
  intro t h
  unfold execSeqAppend at h
  simp only [Host.Outcome.next.injEq] at h
  subst h
  simp only [implies_true, ↓runCmd_fixed, ↓appendJob_fixed]

theorem execSeqCreate_fixed (a0) (a1) (a2) (a3 : State) : ∀ t, (execSeqCreate a0 a1 a2 a3) = .next t → State.fixed t = State.fixed a3 := by
  intro t h
  unfold execSeqCreate at h
  simp only [Host.Outcome.next.injEq] at h
  subst h
  simp only [implies_true, ↓runCmd_fixed, ↓withInput_fixed, ↓createSeq_fixed]

theorem generate_fixed (a0) (a1 : State) : State.fixed (generate a0 a1) = State.fixed a1 := by
  unfold generate
  repeat' (first | simp only [↓fixed_ite, ite_self, ↓badField_fixed, ↓finish_fixed, ↓setSeq_fixed, ↓takeEffect_fixed] | split)

theorem execSeqGenerate_fixed (a0) (a1 : State) : ∀ t, (execSeqGenerate a0 a1) = .next t → State.fixed t = State.fixed a1 := by
  intro t h
  unfold execSeqGenerate at h
  simp only [Host.Outcome.next.injEq] at h
  subst h
  simp only [implies_true, ↓runCmd_fixed, ↓generate_fixed]

theorem querySeq_fixed (a0) (a1 : State) : State.fixed (querySeq a0 a1) = State.fixed a1 := by
  unfold querySeq
  simp only [↓answerWith_fixed]

theorem execSeqQuery_fixed (a0) (a1 : State) : ∀ t, (execSeqQuery a0 a1) = .next t → State.fixed t = State.fixed a1 := by
  intro t h
  unfold execSeqQuery at h
  simp only [Host.Outcome.next.injEq] at h
  subst h
  simp only [implies_true, ↓runCmd_fixed, ↓querySeq_fixed]

theorem rebind_fixed (a0) (a1 : State) : State.fixed (rebind a0 a1) = State.fixed a1 := by
  unfold rebind
  repeat' (first | simp only [↓badField_fixed, ↓finish_fixed, ↓setSeq_fixed] | split)

theorem execSeqRebind_fixed (a0) (a1 : State) : ∀ t, (execSeqRebind a0 a1) = .next t → State.fixed t = State.fixed a1 := by
  intro t h
  unfold execSeqRebind at h
  simp only [Host.Outcome.next.injEq] at h
  subst h
  simp only [implies_true, ↓runCmd_fixed, ↓rebind_fixed]

theorem freeSeq_fixed (a0) (a1 : State) : State.fixed (freeSeq a0 a1) = State.fixed a1 := by
  unfold freeSeq
  simp only [↓fixed_eta, ↓fixed_mk, ↓reapVocabs_fixed, ↓reapAdapters_fixed, ↓dropMask_fixed, ↓dropMoves_fixed]

theorem release?_fixed (a0) (a1 : State) : State.fixed (release? a0 a1) = State.fixed a1 := by
  unfold release?
  simp only [implies_true, ↓orRefuse_fixed, ↓finish_fixed, ↓freeSeq_fixed]

theorem execSeqRelease_fixed (a0) (a1 : State) : ∀ t, (execSeqRelease a0 a1) = .next t → State.fixed t = State.fixed a1 := by
  intro t h
  unfold execSeqRelease at h
  simp only [Host.Outcome.next.injEq] at h
  subst h
  simp only [implies_true, ↓runCmd_fixed, ↓release?_fixed]

theorem swapOut_fixed (a0) (a1 : State) : State.fixed (swapOut a0 a1) = State.fixed a1 := by
  unfold swapOut
  repeat' (first | simp only [↓fixed_ite, ite_self, ↓badField_fixed, ↓finish_fixed, ↓setCmd_fixed, ↓setMove_fixed, ↓fail_fixed, ↓evict_fixed] | split)

theorem execSeqSwapOut_fixed (a0) (a1 : State) : ∀ t, (execSeqSwapOut a0 a1) = .next t → State.fixed t = State.fixed a1 := by
  intro t h
  unfold execSeqSwapOut at h
  simp only [Host.Outcome.next.injEq] at h
  subst h
  simp only [implies_true, ↓runCmd_fixed, ↓swapOut_fixed]

theorem resumeRun_fixed (a0) (a1 : State) : State.fixed (resumeRun a0 a1) = State.fixed a1 := by
  unfold resumeRun
  repeat' (first | simp only [↓fixed_ite, ite_self, ↓startRun_fixed] | split)

theorem stopRun_fixed (a0) (a1) (a2) (a3) (a4) (a5 : State) : State.fixed (stopRun a0 a1 a2 a3 a4 a5) = State.fixed a5 := by
  unfold stopRun
  simp only [↓fixed_ite, ite_self, ↓setSeq_fixed, ↓deliver_fixed, ↓blockRun_fixed, ↓endRun_fixed]

theorem imageFault_fixed (a0) (a1) (a2) (a3 : State) : State.fixed (imageFault a0 a1 a2 a3) = State.fixed a3 := by
  unfold imageFault
  simp only [↓finish_fixed]

theorem checkVocab_fixed (a0) (a1 : State) : State.fixed (checkVocab a0 a1) = State.fixed a1 := by
  unfold checkVocab
  repeat' (first | simp only [↓fixed_eta, ↓fixed_mk, ↓fixed_ite, ↓imageFault_fixed, ↓clearVocab_fixed, ↓finish_fixed] | split)

theorem hold_fixed (a0) (a1) (a2 : State) : State.fixed (hold a0 a1 a2) = State.fixed a2 := by
  unfold hold
  simp only [↓setCmd_fixed]

theorem detokenizeTokens_fixed (a0) (a1) (a2) (a3) (a4 : State) : State.fixed (detokenizeTokens a0 a1 a2 a3 a4) = State.fixed a4 := by
  unfold detokenizeTokens
  repeat' (first | simp only [↓hold_fixed, ↓bump_fixed] | split)

theorem laneUse_fixed (a0) (a1) (a2) (a3 : State) (ha2 : ∀ z0 z1, State.fixed (a2 z0 z1) = State.fixed z1) : State.fixed (laneUse a0 a1 a2 a3) = State.fixed a3 := by
  unfold laneUse
  repeat' (first | simp only [implies_true, ↓finish_fixed, ↓hold_fixed, ↓withThread_fixed, ha2] | refine (withThread_fixed _ _ _ _ _ _ (fun _ => ?_)).trans ?_ | split)

theorem laneInput_fixed (a0) (a1) (a2) (a3 : State) (ha2 : ∀ z0 z1, State.fixed (a2 z0 z1) = State.fixed z1) : State.fixed (laneInput a0 a1 a2 a3) = State.fixed a3 := by
  unfold laneInput
  repeat' (first | simp only [↓hold_fixed, ha2] | split)

theorem textJob_fixed (a0) (a1) (a2) (a3 : State) (ha2 : ∀ z0 z1 z2 z3, State.fixed (a2 z0 z1 z2 z3) = State.fixed z3) : State.fixed (textJob a0 a1 a2 a3) = State.fixed a3 := by
  unfold textJob
  simp only [implies_true, ↓laneUse_fixed, ↓laneInput_fixed, ha2]

theorem execDetokenize_fixed (a0) (a1) (a2 : State) : ∀ t, (execDetokenize a0 a1 a2) = .next t → State.fixed t = State.fixed a2 := by
  intro t h
  unfold execDetokenize at h
  simp only [Host.Outcome.next.injEq] at h
  subst h
  simp only [implies_true, ↓runCmd_fixed, ↓textJob_fixed, ↓detokenizeTokens_fixed]

theorem loadGrammar_fixed (a0) (a1) (a2 : State) : State.fixed (loadGrammar a0 a1 a2) = State.fixed a2 := by
  unfold loadGrammar
  repeat' (first | simp only [↓fixed_eta, ↓fixed_mk, ↓fixed_ite, ↓imageFault_fixed, ↓fail_fixed, ↓finish_fixed] | split)

theorem execGrammarLoad_fixed (a0) (a1) (a2 : State) : ∀ t, (execGrammarLoad a0 a1 a2) = .next t → State.fixed t = State.fixed a2 := by
  intro t h
  unfold execGrammarLoad at h
  simp only [Host.Outcome.next.injEq] at h
  subst h
  simp only [implies_true, ↓runCmd_fixed, ↓withInput_fixed, ↓loadGrammar_fixed]

theorem removeGrammar_fixed (a0) (a1 : State) : State.fixed (removeGrammar a0 a1) = State.fixed a1 := by
  unfold removeGrammar
  simp only [↓fixed_eta, ↓fixed_mk]

theorem unloadGrammar_fixed (a0) (a1 : State) : State.fixed (unloadGrammar a0 a1) = State.fixed a1 := by
  unfold unloadGrammar
  simp only [implies_true, ↓orRefuse_fixed, ↓finish_fixed, ↓removeGrammar_fixed]

theorem execGrammarUnload_fixed (a0) (a1 : State) : ∀ t, (execGrammarUnload a0 a1) = .next t → State.fixed t = State.fixed a1 := by
  intro t h
  unfold execGrammarUnload at h
  simp only [Host.Outcome.next.injEq] at h
  subst h
  simp only [implies_true, ↓runCmd_fixed, ↓unloadGrammar_fixed]

theorem tokenizeText_fixed (a0) (a1) (a2) (a3) (a4 : State) : State.fixed (tokenizeText a0 a1 a2 a3 a4) = State.fixed a4 := by
  unfold tokenizeText
  repeat' (first | simp only [↓hold_fixed, ↓countTokens_fixed] | split)

theorem execTokenize_fixed (a0) (a1) (a2 : State) : ∀ t, (execTokenize a0 a1 a2) = .next t → State.fixed t = State.fixed a2 := by
  intro t h
  unfold execTokenize at h
  simp only [Host.Outcome.next.injEq] at h
  subst h
  simp only [implies_true, ↓runCmd_fixed, ↓textJob_fixed, ↓tokenizeText_fixed]

theorem takeVocab_fixed (a0) (a1) (a2 : State) : State.fixed (takeVocab a0 a1 a2) = State.fixed a2 := by
  unfold takeVocab
  repeat' (first | simp only [↓fixed_eta, ↓fixed_mk, ↓fixed_ite, ↓imageFault_fixed, ↓badField_fixed, ↓conflict_fixed, ↓fail_fixed, ↓setCmd_fixed] | split)

theorem loadVocab_fixed (a0) (a1) (a2 : State) : State.fixed (loadVocab a0 a1 a2) = State.fixed a2 := by
  unfold loadVocab
  simp only [↓fixed_ite, ite_self, implies_true, ↓checkVocab_fixed, ↓withInput_fixed, ↓takeVocab_fixed]

theorem execVocabLoad_fixed (a0) (a1) (a2 : State) : ∀ t, (execVocabLoad a0 a1 a2) = .next t → State.fixed t = State.fixed a2 := by
  intro t h
  unfold execVocabLoad at h
  simp only [Host.Outcome.next.injEq] at h
  subst h
  simp only [implies_true, ↓runCmd_fixed, ↓loadVocab_fixed]

theorem unloadVocab_fixed (a0) (a1 : State) : State.fixed (unloadVocab a0 a1) = State.fixed a1 := by
  unfold unloadVocab
  simp only [↓fixed_ite, ite_self, implies_true, ↓finish_fixed, ↓clearVocab_fixed, ↓orRefuse_fixed]

theorem execVocabUnload_fixed (a0) (a1 : State) : ∀ t, (execVocabUnload a0 a1) = .next t → State.fixed t = State.fixed a1 := by
  intro t h
  unfold execVocabUnload at h
  simp only [Host.Outcome.next.injEq] at h
  subst h
  simp only [implies_true, ↓runCmd_fixed, ↓unloadVocab_fixed]

theorem laneJob_fixed (a0) (a1) (a2) (a3 : State) (ha2 : ∀ z0 z1 z2, State.fixed (a2 z0 z1 z2) = State.fixed z2) : State.fixed (laneJob a0 a1 a2 a3) = State.fixed a3 := by
  unfold laneJob
  simp only [implies_true, ↓laneUse_fixed, ↓laneInput_fixed, ha2]

theorem setWalk_fixed (a0) (a1) (a2 : State) : State.fixed (setWalk a0 a1 a2) = State.fixed a2 := by
  unfold setWalk
  simp only [↓fixed_eta, ↓fixed_mk]

theorem beginWalk_fixed (a0) (a1) (a2 : State) (ha1 : ∀ z0, State.fixed (a1 z0) = State.fixed z0) : State.fixed (beginWalk a0 a1 a2) = State.fixed a2 := by
  unfold beginWalk
  repeat' (first | simp only [↓fixed_ite, ite_self, ↓startJob_fixed, ↓setWalk_fixed, ha1] | split)

theorem send_fixed (a0) (a1) (a2) (a3) (a4) (a5) (a6 : State) : State.fixed (send a0 a1 a2 a3 a4 a5 a6) = State.fixed a6 := by
  unfold send
  simp only [↓fixed_eta, ↓fixed_mk]

theorem sendHop_fixed (a0) (a1) (a2) (a3 : State) : State.fixed (sendHop a0 a1 a2 a3) = State.fixed a3 := by
  unfold sendHop
  simp only [↓setWalk_fixed, ↓send_fixed]

theorem sendHops_fixed (a0) (a1) (a2 : State) : State.fixed (sendHops a0 a1 a2) = State.fixed a2 := by
  induction a0 generalizing a2 with
  | zero => rfl
  | succ n ih =>
    unfold sendHops
    repeat' (first | simp only [↓fixed_ite, ite_self, ↓setWalk_fixed, ↓sendHop_fixed, ↓ih] | split)

theorem startSearch_fixed (a0) (a1) (a2 : State) : State.fixed (startSearch a0 a1 a2) = State.fixed a2 := by
  unfold startSearch
  repeat' (first | simp only [↓sendHops_fixed, ↓setWalk_fixed] | split)

theorem addWalker_fixed (a0) (a1) (a2) (a3 : State) : State.fixed (addWalker a0 a1 a2 a3) = State.fixed a3 := by
  unfold addWalker
  simp only [↓fixed_eta, ↓fixed_mk, implies_true, ↓beginWalk_fixed, ↓startSearch_fixed]

theorem countPoison_fixed (a0) (a1 : State) : State.fixed (countPoison a0 a1) = State.fixed a1 := by
  unfold countPoison
  simp only [↓fixed_ite, ite_self, ↓bump_fixed]

theorem setIndex_fixed (a0) (a1) (a2 : State) : State.fixed (setIndex a0 a1 a2) = State.fixed a2 := by
  unfold setIndex
  simp only [↓fixed_eta, ↓fixed_mk]

theorem countRegion_fixed (a0) (a1) (a2 : State) : State.fixed (countRegion a0 a1 a2) = State.fixed a2 := by
  unfold countRegion
  simp only [↓setIndex_fixed]

theorem greedyStep_fixed (a0) (a1 : State) : State.fixed (greedyStep a0 a1) = State.fixed a1 := by
  unfold greedyStep
  repeat' (first | simp only [↓fixed_ite, ite_self, ↓startSearch_fixed, ↓setWalk_fixed] | split)

theorem startResolve_fixed (a0) (a1 : State) : State.fixed (startResolve a0 a1) = State.fixed a1 := by
  unfold startResolve
  simp only [implies_true, ↓send_fixed, ↓setWalk_fixed, ↓fixed_foldS]

theorem startBase_fixed (a0) (a1) (a2 : State) : State.fixed (startBase a0 a1 a2) = State.fixed a2 := by
  unfold startBase
  repeat' (first | simp only [implies_true, ↓startResolve_fixed, ↓setWalk_fixed, ↓startSearch_fixed, ↓addWalker_fixed, ↓fixed_foldS] | refine (fixed_foldS _ (fun _ _ => ?_) _ _).trans ?_ | split)

theorem endLayer_fixed (a0) (a1 : State) : State.fixed (endLayer a0 a1) = State.fixed a1 := by
  unfold endLayer
  simp only [↓fixed_ite, ite_self, ↓greedyStep_fixed, ↓startBase_fixed, ↓startResolve_fixed]

theorem endWalks_fixed (a0) (a1 : State) : State.fixed (endWalks a0 a1) = State.fixed a1 := by
  unfold endWalks
  simp only [↓fixed_eta, ↓fixed_mk, implies_true, ↓send_fixed, ↓fixed_foldS]

theorem sendPair_fixed (a0) (a1) (a2) (a3) (a4) (a5 : State) : State.fixed (sendPair a0 a1 a2 a3 a4 a5) = State.fixed a5 := by
  unfold sendPair
  simp only [↓fixed_ite, ite_self, ↓bump_fixed, ↓send_fixed]

theorem spreadNeighbours_fixed (a0) (a1) (a2) (a3) (a4 : State) : State.fixed (spreadNeighbours a0 a1 a2 a3 a4) = State.fixed a4 := by
  unfold spreadNeighbours
  simp only [implies_true, ↓sendPair_fixed, ↓send_fixed, ↓fixed_foldS]

theorem serveHop_fixed (a0) (a1) (a2) (a3 : State) : State.fixed (serveHop a0 a1 a2 a3) = State.fixed a3 := by
  unfold serveHop
  simp only [↓fixed_ite, ite_self, implies_true, ↓bump_fixed, ↓send_fixed, ↓sendPair_fixed, ↓spreadNeighbours_fixed, ↓fixed_foldS]

theorem serveResolve_fixed (a0) (a1) (a2) (a3 : State) : State.fixed (serveResolve a0 a1 a2 a3) = State.fixed a3 := by
  unfold serveResolve
  simp only [↓fixed_ite, ite_self, ↓bump_fixed, ↓send_fixed]

theorem serve_fixed (a0) (a1) (a2) (a3 : State) : State.fixed (serve a0 a1 a2 a3) = State.fixed a3 := by
  unfold serve
  repeat' (first | simp only [↓serveHop_fixed, ↓serveResolve_fixed] | split)

theorem servePage_fixed (a0) (a1) (a2 : State) : State.fixed (servePage a0 a1 a2) = State.fixed a2 := by
  unfold servePage
  repeat' (first | simp only [↓fixed_eta, ↓fixed_mk, ↓bump_fixed, ↓serve_fixed] | refine (fixed_foldS _ (fun _ _ => ?_) _ _).trans ?_ | split)

theorem execColdBatchExpiry_fixed (a0) (a1) (a2) (a3 : State) : ∀ t, (execColdBatchExpiry a0 a1 a2 a3) = .next t → State.fixed t = State.fixed a3 := by
  intro t h
  unfold execColdBatchExpiry at h
  simp only [Host.Outcome.next.injEq] at h
  subst h
  repeat' (first | simp only [↓fixed_ite, ite_self, ↓servePage_fixed] | split)

theorem freeSlots_fixed (a0) (a1 : State) : State.fixed (freeSlots a0 a1) = State.fixed a1 := by
  unfold freeSlots
  repeat' (first | simp only [↓fixed_eta, ↓fixed_mk, ↓fixed_ite, ite_self, ↓countPoison_fixed] | split)

theorem execSlotFree_fixed (a0) (a1 : State) : ∀ t, (execSlotFree a0 a1) = .next t → State.fixed t = State.fixed a1 := by
  intro t h
  unfold execSlotFree at h
  simp only [Host.Outcome.next.injEq] at h
  subst h
  simp only [↓freeSlots_fixed]

theorem goOn_fixed (a0) (a1 : State) : State.fixed (goOn a0 a1) = State.fixed a1 := by
  unfold goOn
  repeat' (first | simp only [↓fixed_ite, ite_self, ↓setWalk_fixed, ↓sendHops_fixed, ↓endLayer_fixed] | split)

theorem joinBatch_fixed (a0) (a1) (a2 : State) : State.fixed (joinBatch a0 a1 a2) = State.fixed a2 := by
  unfold joinBatch
  simp only [↓fixed_eta, ↓fixed_mk, ↓fixed_ite, ite_self]

theorem onAck_fixed (a0) (a1) (a2 : State) : State.fixed (onAck a0 a1 a2) = State.fixed a2 := by
  unfold onAck
  repeat' (first | simp only [↓goOn_fixed, ↓setWalk_fixed] | split)

theorem onEntry_fixed (a0) (a1) (a2 : State) : State.fixed (onEntry a0 a1 a2) = State.fixed a2 := by
  unfold onEntry
  repeat' (first | simp only [↓setWalk_fixed] | split)

theorem onFwd_fixed (a0) (a1) (a2 : State) : State.fixed (onFwd a0 a1 a2) = State.fixed a2 := by
  unfold onFwd
  repeat' (first | simp only [implies_true, ↓sendPair_fixed, ↓fixed_foldS] | refine (fixed_foldS _ (fun _ _ => ?_) _ _).trans ?_ | split)

theorem stopQuery_fixed (a0) (a1) (a2 : State) : State.fixed (stopQuery a0 a1 a2) = State.fixed a2 := by
  unfold stopQuery
  simp only [↓fixed_eta, ↓fixed_mk, ↓setCourse_fixed]

theorem startWalk_fixed (a0) (a1 : State) : State.fixed (startWalk a0 a1) = State.fixed a1 := by
  unfold startWalk
  repeat' (first | simp only [↓fixed_ite, ite_self, ↓setWalk_fixed, ↓startBase_fixed, ↓startSearch_fixed] | split)

theorem onLoad_fixed (a0) (a1) (a2 : State) : State.fixed (onLoad a0 a1 a2) = State.fixed a2 := by
  unfold onLoad
  simp only [↓fixed_ite, ite_self, implies_true, ↓bump_fixed, ↓stopQuery_fixed, ↓beginWalk_fixed, ↓startWalk_fixed]

theorem onNode_fixed (a0) (a1) (a2 : State) : State.fixed (onNode a0 a1 a2) = State.fixed a2 := by
  unfold onNode
  simp only [↓fixed_ite, ite_self, ↓serve_fixed, ↓joinBatch_fixed]

theorem onPair_fixed (a0) (a1) (a2 : State) : State.fixed (onPair a0 a1 a2) = State.fixed a2 := by
  unfold onPair
  repeat' (first | simp only [↓goOn_fixed, ↓setWalk_fixed] | split)

theorem onRequest_fixed (a0) (a1) (a2 : State) : State.fixed (onRequest a0 a1 a2) = State.fixed a2 := by
  unfold onRequest
  repeat' (first | simp only [↓fixed_ite, ite_self, implies_true, ↓onNode_fixed, ↓countRegion_fixed, ↓fixed_foldS] | refine (fixed_foldS _ (fun _ _ => ?_) _ _).trans ?_ | split)

theorem receive_fixed (a0) (a1) (a2) (a3 : State) (ha2 : ∀ z0 z1 z2, State.fixed (a2 z0 z1 z2) = State.fixed z2) : State.fixed (receive a0 a1 a2 a3) = State.fixed a3 := by
  unfold receive
  repeat' (first | simp only [↓fixed_eta, ↓fixed_mk, ↓fixed_ite, ite_self, ↓countPoison_fixed, ↓runJobs_fixed, ↓stopQuery_fixed, ha2] | split)

theorem startQuery_fixed (a0) (a1 : State) : State.fixed (startQuery a0 a1) = State.fixed a1 := by
  unfold startQuery
  simp only [↓fixed_eta, ↓fixed_mk, implies_true, ↓send_fixed, ↓fixed_foldS]

theorem startWaiting_fixed (a0 : State) : State.fixed (startWaiting a0) = State.fixed a0 := by
  unfold startWaiting
  repeat' (first | simp only [↓fixed_ite, ↓startWalk_fixed, ↓startSearch_fixed, ↓setWalk_fixed] | refine (fixed_foldS _ (fun _ _ => ?_) _ _).trans ?_ | split)

end Sys2Proof.Machine
end

