-- ==== Sys2Proof/Laws/FixedRetrieval.lean ====
section
/-! SUPPORT. What only pins, resets and the sideband change stays as it is: indices, corpora, tables and steps. -/

open Sys2Proof
namespace Sys2Proof.Machine

theorem commitIndex_fixed (a0) (a1 : State) : State.fixed (commitIndex a0 a1) = State.fixed a1 := by
  unfold commitIndex
  repeat' (first | simp only [↓fixed_ite, ite_self, ↓badField_fixed, ↓fail_fixed, ↓finish_fixed, ↓setIndex_fixed] | split)

theorem countCold_fixed (a0) (a1) (a2) (a3 : State) : State.fixed (countCold a0 a1 a2 a3) = State.fixed a3 := by
  unfold countCold
  simp only [↓fixed_ite, ite_self, ↓bump_fixed]

theorem countHop_fixed (a0) (a1 : State) (a2) : State.fixed (countHop a0 a1 a2) = State.fixed a1 := by
  unfold countHop
  simp only [implies_true, ↓countCold_fixed, ↓bump_fixed, ↓fixed_foldS]

theorem countResolve_fixed (a0) (a1 : State) (a2) : State.fixed (countResolve a0 a1 a2) = State.fixed a1 := by
  unfold countResolve
  simp only [↓countCold_fixed, ↓bump_fixed]

theorem countSearches_fixed (a0 : State) (a1) (a2) (a3) : State.fixed (countSearches a0 a1 a2 a3) = State.fixed a0 := by
  unfold countSearches
  simp only [implies_true, ↓bump_fixed, ↓countResolve_fixed, ↓countHop_fixed, ↓fixed_foldS]

theorem createIndex_fixed (a0) (a1) (a2 : State) : State.fixed (createIndex a0 a1 a2) = State.fixed a2 := by
  unfold createIndex
  repeat' (first | simp only [↓fixed_eta, ↓fixed_mk, ↓fixed_ite, ↓finish_fixed, ↓fail_fixed] | split)

theorem deleteNodes_fixed (a0) (a1) (a2 : State) : State.fixed (deleteNodes a0 a1 a2) = State.fixed a2 := by
  unfold deleteNodes
  repeat' (first | simp only [↓fixed_ite, ite_self, ↓badField_fixed, ↓finish_fixed, ↓setIndex_fixed, ↓setCmd_fixed] | split)

theorem drainIndices_fixed (a0) (a1 : State) : State.fixed (drainIndices a0 a1) = State.fixed a1 := by
  unfold drainIndices
  repeat' (first | simp only [↓fixed_eta, ↓fixed_mk, ↓finish_fixed] | refine (fixed_foldS _ (fun _ _ => ?_) _ _).trans ?_ | split)

theorem execIndexCommit_fixed (a0) (a1 : State) : ∀ t, (execIndexCommit a0 a1) = .next t → State.fixed t = State.fixed a1 := by
  intro t h
  unfold execIndexCommit at h
  simp only [Host.Outcome.next.injEq] at h
  subst h
  simp only [implies_true, ↓runCmd_fixed, ↓commitIndex_fixed]

theorem execIndexCreate_fixed (a0) (a1) (a2 : State) : ∀ t, (execIndexCreate a0 a1 a2) = .next t → State.fixed t = State.fixed a2 := by
  intro t h
  unfold execIndexCreate at h
  simp only [Host.Outcome.next.injEq] at h
  subst h
  simp only [implies_true, ↓runCmd_fixed, ↓withInput_fixed, ↓createIndex_fixed]

theorem execIndexDelete_fixed (a0) (a1) (a2 : State) : ∀ t, (execIndexDelete a0 a1 a2) = .next t → State.fixed t = State.fixed a2 := by
  intro t h
  unfold execIndexDelete at h
  simp only [Host.Outcome.next.injEq] at h
  subst h
  simp only [implies_true, ↓runCmd_fixed, ↓withInput_fixed, ↓deleteNodes_fixed]

theorem linkNode_fixed (a0 : State) (a1) (a2) (a3) (a4) : State.fixed (linkNode a0 a1 a2 a3 a4).1 = State.fixed a0 := by
  unfold linkNode
  repeat' (first | simp only [↓countSearches_fixed, ↓setIndex_fixed] | split)

theorem insertRecord_fixed (a0) (a1) (a2 : State) : State.fixed (insertRecord a0 a1 a2).1 = State.fixed a2 := by
  unfold insertRecord
  repeat' (first | simp only [↓linkNode_fixed] | split)

theorem insertAll_fixed (a0) (a1) (a2) (a3) : State.fixed (insertAll a0 a1 a2 a3).1 = State.fixed a3.1 := by
  induction a2 generalizing a3 a1 with
  | nil => rfl
  | cons x xs ih =>
    unfold insertAll
    simp only [↓insertRecord_fixed, ↓ih]

theorem insertNodes_fixed (a0) (a1) (a2 : State) : State.fixed (insertNodes a0 a1 a2) = State.fixed a2 := by
  unfold insertNodes
  repeat' (first | simp only [↓fixed_ite, ite_self, ↓badField_fixed, ↓fail_fixed, ↓insertAll_fixed, ↓finish_fixed] | split)

theorem execIndexInsert_fixed (a0) (a1) (a2 : State) : ∀ t, (execIndexInsert a0 a1 a2) = .next t → State.fixed t = State.fixed a2 := by
  intro t h
  unfold execIndexInsert at h
  simp only [Host.Outcome.next.injEq] at h
  subst h
  simp only [implies_true, ↓runCmd_fixed, ↓withInput_fixed, ↓insertNodes_fixed]

theorem queryIndex_fixed (a0) (a1 : State) : State.fixed (queryIndex a0 a1) = State.fixed a1 := by
  unfold queryIndex
  simp only [↓answerWith_fixed, ↓State.draw_fixed]

theorem execIndexQuery_fixed (a0) (a1 : State) : ∀ t, (execIndexQuery a0 a1) = .next t → State.fixed t = State.fixed a1 := by
  intro t h
  unfold execIndexQuery at h
  simp only [Host.Outcome.next.injEq] at h
  subst h
  simp only [implies_true, ↓runCmd_fixed, ↓queryIndex_fixed]

theorem repairStart_fixed (a0) (a1 : State) : State.fixed (repairStart a0 a1) = State.fixed a1 := by
  unfold repairStart
  repeat' (first | simp only [implies_true, ↓badField_fixed, ↓orRefuse_fixed, ↓finish_fixed, ↓setIndex_fixed] | refine (orRefuse_fixed _ _ _ _ (fun _ => ?_)).trans ?_ | split)

theorem execIndexRepairStart_fixed (a0) (a1 : State) : ∀ t, (execIndexRepairStart a0 a1) = .next t → State.fixed t = State.fixed a1 := by
  intro t h
  unfold execIndexRepairStart at h
  simp only [Host.Outcome.next.injEq] at h
  subst h
  simp only [↓fixed_ite, ite_self, implies_true, ↓runCmd_fixed, ↓repairStart_fixed]

theorem repairStatus_fixed (a0) (a1 : State) : State.fixed (repairStatus a0 a1) = State.fixed a1 := by
  unfold repairStatus
  simp only [↓answerWith_fixed, ↓State.draw_fixed]

theorem execIndexRepairStatus_fixed (a0) (a1 : State) : ∀ t, (execIndexRepairStatus a0 a1) = .next t → State.fixed t = State.fixed a1 := by
  intro t h
  unfold execIndexRepairStatus at h
  simp only [Host.Outcome.next.injEq] at h
  subst h
  simp only [↓fixed_ite, ite_self, implies_true, ↓runCmd_fixed, ↓repairStatus_fixed]

theorem execNodeDrainFree_fixed (a0) (a1 : State) : ∀ t, (execNodeDrainFree a0 a1) = .next t → State.fixed t = State.fixed a1 := by
  intro t h
  unfold execNodeDrainFree at h
  simp only [Host.Outcome.next.injEq] at h
  subst h
  simp only [↓setIndex_fixed]

theorem placeRegion_fixed (a0) (a1) (a2 : State) : State.fixed (placeRegion a0 a1 a2) = State.fixed a2 := by
  unfold placeRegion
  repeat' (first | simp only [↓fixed_eta, ↓fixed_mk, ↓fixed_ite, ite_self, ↓orderMove_fixed, ↓setIndex_fixed] | split)

theorem execRegionPlacement_fixed (a0) (a1) (a2 : State) : ∀ t, (execRegionPlacement a0 a1 a2) = .next t → State.fixed t = State.fixed a2 := by
  intro t h
  unfold execRegionPlacement at h
  simp only [Host.Outcome.next.injEq] at h
  subst h
  simp only [↓placeRegion_fixed]

theorem execRepairAutoStart_fixed (a0) (a1 : State) : ∀ t, (execRepairAutoStart a0 a1) = .next t → State.fixed t = State.fixed a1 := by
  intro t h
  unfold execRepairAutoStart at h
  simp only [Host.Outcome.next.injEq] at h
  subst h
  repeat' (first | simp only [↓fixed_ite, ite_self, ↓setIndex_fixed] | split)

theorem execRepairSweepEnd_fixed (a0) (a1 : State) : ∀ t, (execRepairSweepEnd a0 a1) = .next t → State.fixed t = State.fixed a1 := by
  intro t h
  unfold execRepairSweepEnd at h
  simp only [Host.Outcome.next.injEq] at h
  subst h
  repeat' (first | simp only [↓fixed_ite, ite_self, implies_true, ↓bump_fixed, ↓setIndex_fixed, ↓fixed_foldS] | refine (fixed_foldS _ (fun _ _ => ?_) _ _).trans ?_ | split)

theorem setCorpus_fixed (a0) (a1) (a2 : State) : State.fixed (setCorpus a0 a1 a2) = State.fixed a2 := by
  unfold setCorpus
  simp only [↓fixed_eta, ↓fixed_mk]

theorem corpusDelete_fixed (a0) (a1) (a2 : State) : State.fixed (corpusDelete a0 a1 a2) = State.fixed a2 := by
  unfold corpusDelete
  repeat' (first | simp only [↓fixed_ite, ite_self, ↓badField_fixed, ↓finish_fixed, ↓setCorpus_fixed] | split)

theorem corpusRead_fixed (a0) (a1) (a2 : State) : State.fixed (corpusRead a0 a1 a2) = State.fixed a2 := by
  unfold corpusRead
  repeat' (first | simp only [↓badField_fixed, ↓withRecord_fixed] | split)

theorem writeRecords_fixed (a0) (a1) (a2) (a3) (a4) (a5) (a6) : State.fixed (writeRecords a0 a1 a2 a3 a4 a5 a6).1 = State.fixed a6.1 := by
  induction a5 generalizing a6 a4 with
  | nil => rfl
  | cons x xs ih =>
    unfold writeRecords
    repeat' (first | simp only [↓setCorpus_fixed, ↓ih] | split)

theorem corpusWrite_fixed (a0) (a1) (a2 : State) : State.fixed (corpusWrite a0 a1 a2) = State.fixed a2 := by
  unfold corpusWrite
  repeat' (first | simp only [↓fixed_ite, ite_self, ↓badField_fixed, ↓writeRecords_fixed, ↓countIn_fixed, ↓finish_fixed] | split)

theorem execCorpusDelete_fixed (a0) (a1) (a2 : State) : ∀ t, (execCorpusDelete a0 a1 a2) = .next t → State.fixed t = State.fixed a2 := by
  intro t h
  unfold execCorpusDelete at h
  simp only [Host.Outcome.next.injEq] at h
  subst h
  simp only [implies_true, ↓runCmd_fixed, ↓withInput_fixed, ↓corpusDelete_fixed]

theorem execCorpusRead_fixed (a0) (a1) (a2 : State) : ∀ t, (execCorpusRead a0 a1 a2) = .next t → State.fixed t = State.fixed a2 := by
  intro t h
  unfold execCorpusRead at h
  simp only [Host.Outcome.next.injEq] at h
  subst h
  simp only [implies_true, ↓runCmd_fixed, ↓withInput_fixed, ↓corpusRead_fixed]

theorem execCorpusWrite_fixed (a0) (a1) (a2 : State) : ∀ t, (execCorpusWrite a0 a1 a2) = .next t → State.fixed t = State.fixed a2 := by
  intro t h
  unfold execCorpusWrite at h
  simp only [Host.Outcome.next.injEq] at h
  subst h
  simp only [implies_true, ↓runCmd_fixed, ↓withInput_fixed, ↓corpusWrite_fixed]

theorem setTable_fixed (a0) (a1) (a2 : State) : State.fixed (setTable a0 a1 a2) = State.fixed a2 := by
  unfold setTable
  simp only [↓fixed_eta, ↓fixed_mk]

theorem applyRow_fixed (a0) (a1) (a2) (a3) (a4 : State) : State.fixed (applyRow a0 a1 a2 a3 a4) = State.fixed a4 := by
  unfold applyRow
  simp only [↓fixed_ite, ite_self, ↓bump_fixed, ↓setTable_fixed]

theorem chooseAll_fixed (a0) (a1) (a2 : State) : State.fixed (chooseAll a0 a1 a2) = State.fixed a2 := by
  induction a0 generalizing a1 a2 with
  | nil => rfl
  | cons x xs ih =>
    unfold chooseAll
    simp only [↓fixed_ite, ite_self, ↓setTable_fixed, ↓ih]

theorem endDrop_fixed (a0) (a1 : State) : State.fixed (endDrop a0 a1) = State.fixed a1 := by
  unfold endDrop
  repeat' (first | simp only [↓fixed_eta, ↓fixed_mk, ↓fixed_ite, ↓finish_fixed] | split)

theorem openQueued_fixed (a0) (a1) (a2 : State) : State.fixed (openQueued a0 a1 a2) = State.fixed a2 := by
  induction a1 generalizing a2 with
  | nil => rfl
  | cons x xs ih =>
    unfold openQueued
    repeat' (first | simp only [↓fixed_ite, ite_self, ↓setTable_fixed, ↓ih] | split)

theorem openAll_fixed (a0 : State) : State.fixed (openAll a0) = State.fixed a0 := by
  unfold openAll
  simp only [↓fixed_ite, ite_self, implies_true, ↓openQueued_fixed, ↓fixed_foldS]

theorem closeMigration_fixed (a0) (a1) (a2 : State) : State.fixed (closeMigration a0 a1 a2) = State.fixed a2 := by
  unfold closeMigration
  simp only [↓endDrop_fixed, ↓openAll_fixed, ↓setTable_fixed]

theorem completeWriters_fixed (a0) (a1 : State) : State.fixed (completeWriters a0 a1) = State.fixed a1 := by
  unfold completeWriters
  repeat' (first | simp only [↓fixed_ite, ↓finish_fixed] | refine (fixed_foldS _ (fun _ _ => ?_) _ _).trans ?_ | split)

theorem serveRow_fixed (a0) (a1) (a2) (a3 : State) : State.fixed (serveRow a0 a1 a2 a3) = State.fixed a3 := by
  unfold serveRow
  simp only [↓fixed_eta, ↓fixed_mk, ↓bump_fixed, ↓setTable_fixed]

theorem serveTimes_fixed (a0) (a1) (a2) (a3) (a4 : State) : State.fixed (serveTimes a0 a1 a2 a3 a4) = State.fixed a4 := by
  unfold serveTimes
  simp only [implies_true, ↓serveRow_fixed, ↓fixed_foldS]

theorem setMigration_fixed (a0) (a1) (a2) (a3 : State) : State.fixed (setMigration a0 a1 a2 a3) = State.fixed a3 := by
  unfold setMigration
  simp only [↓setTable_fixed]

theorem copyDone_fixed (a0) (a1) (a2) (a3 : State) : State.fixed (copyDone a0 a1 a2 a3) = State.fixed a3 := by
  unfold copyDone
  simp only [↓fixed_ite, ite_self, implies_true, ↓bump_fixed, ↓setTable_fixed, ↓serveTimes_fixed, ↓setMigration_fixed, ↓closeMigration_fixed, ↓completeWriters_fixed, ↓fixed_foldS]

theorem countSort_fixed (a0) (a1) (a2) (a3 : State) : State.fixed (countSort a0 a1 a2 a3) = State.fixed a3 := by
  unfold countSort
  simp only [implies_true, ↓bump_fixed, ↓fixed_foldS]

theorem createTable_fixed (a0) (a1 : State) : State.fixed (createTable a0 a1) = State.fixed a1 := by
  unfold createTable
  repeat' (first | simp only [↓fixed_eta, ↓fixed_mk, ↓fixed_ite, ite_self, ↓fail_fixed, ↓finish_fixed] | split)

theorem endInterval_fixed (a0 : State) : State.fixed (endInterval a0) = State.fixed a0 := by
  unfold endInterval
  simp only [↓fixed_eta, ↓fixed_mk, ↓chooseAll_fixed, ↓openAll_fixed]

theorem fetchRow_fixed (a0) (a1) (a2 : State) : State.fixed (fetchRow a0 a1 a2) = State.fixed a2 := by
  unfold fetchRow
  simp only [↓fixed_ite, ite_self, ↓setTable_fixed, ↓serveRow_fixed]

theorem fetchRows_fixed (a0) (a1) (a2 : State) : State.fixed (fetchRows a0 a1 a2) = State.fixed a2 := by
  unfold fetchRows
  simp only [implies_true, ↓bump_fixed, ↓fetchRow_fixed, ↓fixed_foldS]

theorem lookupRun_fixed (a0) (a1) (a2) (a3) (a4) (a5) (a6) (a7 : State) : State.fixed (lookupRun a0 a1 a2 a3 a4 a5 a6 a7) = State.fixed a7 := by
  unfold lookupRun
  repeat' (first | simp only [↓hold_fixed, ↓fetchRows_fixed, ↓countSort_fixed, ↓bump_fixed] | split)

theorem lookupJob_fixed (a0) (a1) (a2) (a3) (a4 : State) : State.fixed (lookupJob a0 a1 a2 a3 a4) = State.fixed a4 := by
  unfold lookupJob
  repeat' (first | simp only [↓fixed_ite, ↓badField_fixed, ↓conflict_fixed, ↓lookupRun_fixed] | refine (laneJob_fixed _ _ _ _ (fun _ _ _ => ?_)).trans ?_ | refine (laneInput_fixed _ _ _ _ (fun _ _ => ?_)).trans ?_ | split)

theorem execLookup_fixed (a0) (a1) (a2) (a3) (a4 : State) : ∀ t, (execLookup a0 a1 a2 a3 a4) = .next t → State.fixed t = State.fixed a4 := by
  intro t h
  unfold execLookup at h
  simp only [Host.Outcome.next.injEq] at h
  subst h
  simp only [implies_true, ↓runCmd_fixed, ↓lookupJob_fixed]

theorem execMigrationInterval_fixed (a0 : State) : ∀ t, (execMigrationInterval a0) = .next t → State.fixed t = State.fixed a0 := by
  intro t h
  unfold execMigrationInterval at h
  simp only [Host.Outcome.next.injEq] at h
  subst h
  simp only [↓fixed_ite, ite_self, ↓endInterval_fixed]

theorem execMoveStart_fixed (a0) (a1) (a2) (a3 : State) : ∀ t, (execMoveStart a0 a1 a2 a3) = .next t → State.fixed t = State.fixed a3 := by
  intro t h
  unfold execMoveStart at h
  simp only [Host.Outcome.next.injEq] at h
  subst h
  repeat' (first | simp only [↓fixed_ite, ite_self, ↓copyDone_fixed] | split)

theorem rowReturned_fixed (a0) (a1) (a2) (a3 : State) : State.fixed (rowReturned a0 a1 a2 a3) = State.fixed a3 := by
  unfold rowReturned
  simp only [↓fixed_ite, ite_self, ↓bump_fixed, ↓serveRow_fixed, ↓closeMigration_fixed, ↓setMigration_fixed]

theorem execRowDone_fixed (a0) (a1) (a2) (a3 : State) : ∀ t, (execRowDone a0 a1 a2 a3) = .next t → State.fixed t = State.fixed a3 := by
  intro t h
  unfold execRowDone at h
  simp only [Host.Outcome.next.injEq] at h
  subst h
  repeat' (first | simp only [↓fixed_ite, ite_self, ↓rowReturned_fixed] | split)

theorem writeRows_fixed (a0) (a1) (a2) (a3) (a4) : State.fixed (writeRows a0 a1 a2 a3 a4).1 = State.fixed a4.1 := by
  induction a3 generalizing a4 a2 with
  | nil => rfl
  | cons x xs ih =>
    unfold writeRows
    repeat' (first | simp only [↓applyRow_fixed, ↓ih] | split)

theorem rowsWrite_fixed (a0) (a1) (a2 : State) : State.fixed (rowsWrite a0 a1 a2) = State.fixed a2 := by
  unfold rowsWrite
  repeat' (first | simp only [↓fixed_ite, ite_self, ↓badField_fixed, ↓conflict_fixed, ↓writeRows_fixed, ↓setCmd_fixed, ↓finish_fixed] | split)

theorem execRowsWrite_fixed (a0) (a1) (a2 : State) : ∀ t, (execRowsWrite a0 a1 a2) = .next t → State.fixed t = State.fixed a2 := by
  intro t h
  unfold execRowsWrite at h
  simp only [Host.Outcome.next.injEq] at h
  subst h
  simp only [implies_true, ↓runCmd_fixed, ↓withInput_fixed, ↓rowsWrite_fixed]

theorem execTableCreate_fixed (a0) (a1 : State) : ∀ t, (execTableCreate a0 a1) = .next t → State.fixed t = State.fixed a1 := by
  intro t h
  unfold execTableCreate at h
  simp only [Host.Outcome.next.injEq] at h
  subst h
  simp only [implies_true, ↓runCmd_fixed, ↓createTable_fixed]

theorem queryTable_fixed (a0) (a1 : State) : State.fixed (queryTable a0 a1) = State.fixed a1 := by
  unfold queryTable
  simp only [↓answerWith_fixed]

theorem execTableQuery_fixed (a0) (a1 : State) : ∀ t, (execTableQuery a0 a1) = .next t → State.fixed t = State.fixed a1 := by
  intro t h
  unfold execTableQuery at h
  simp only [Host.Outcome.next.injEq] at h
  subst h
  simp only [implies_true, ↓runCmd_fixed, ↓queryTable_fixed]

theorem setArray_fixed (a0) (a1) (a2 : State) : State.fixed (setArray a0 a1 a2) = State.fixed a2 := by
  unfold setArray
  simp only [↓fixed_eta, ↓fixed_mk]

theorem addExperts_fixed (a0) (a1) (a2) (a3) (a4 : State) : State.fixed (addExperts a0 a1 a2 a3 a4) = State.fixed a4 := by
  unfold addExperts
  repeat' (first | simp only [implies_true, ↓setArray_fixed, ↓fixed_foldS] | refine (fixed_foldS _ (fun _ _ => ?_) _ _).trans ?_ | split)

theorem addPasses_fixed (a0) (a1) (a2 : State) : State.fixed (addPasses a0 a1 a2) = State.fixed a2 := by
  unfold addPasses
  simp only [implies_true, ↓setArray_fixed, ↓fixed_foldS]

theorem fillWindow_fixed (a0) (a1) (a2 : State) : State.fixed (fillWindow a0 a1 a2) = State.fixed a2 := by
  induction a0 generalizing a2 with
  | zero => rfl
  | succ n ih =>
    unfold fillWindow
    repeat' (first | simp only [↓fixed_ite, ite_self, ↓setArray_fixed, ↓ih] | split)

theorem turnWindow_fixed (a0) (a1 : State) : State.fixed (turnWindow a0 a1) = State.fixed a1 := by
  unfold turnWindow
  simp only [↓fillWindow_fixed, ↓setArray_fixed]

theorem setLaneStep_fixed (a0) (a1) (a2) (a3 : State) : State.fixed (setLaneStep a0 a1 a2 a3) = State.fixed a3 := by
  unfold setLaneStep
  simp only [↓setCourse_fixed]

theorem mapActs_fixed (a0) (a1) (a2) (a3) (a4 : State) : State.fixed (mapActs a0 a1 a2 a3 a4) = State.fixed a4 := by
  unfold mapActs
  simp only [↓setLaneStep_fixed]

theorem giveCodes_fixed (a0) (a1) (a2 : State) : State.fixed (giveCodes a0 a1 a2) = State.fixed a2 := by
  unfold giveCodes
  simp only [↓fixed_eta, ↓fixed_mk]

theorem runRecords_fixed (a0) (a1) (a2) (a3 : State) : State.fixed (runRecords a0 a1 a2 a3) = State.fixed a3 := by
  induction a2 generalizing a3 with
  | zero => rfl
  | succ n ih =>
    unfold runRecords
    repeat' (first | simp only [↓fixed_ite, ite_self, ↓setLaneStep_fixed, ↓mapActs_fixed, ↓giveCodes_fixed, ↓addExperts_fixed, ↓ih] | split)

theorem advanceStep_fixed (a0) (a1) (a2 : State) : State.fixed (advanceStep a0 a1 a2) = State.fixed a2 := by
  unfold advanceStep
  repeat' (first | simp only [implies_true, ↓turnWindow_fixed, ↓runRecords_fixed, ↓fixed_foldS] | refine (fixed_foldS _ (fun _ _ => ?_) _ _).trans ?_ | split)

theorem chargePass_fixed (a0) (a1) (a2) (a3) (a4 : State) : State.fixed (chargePass a0 a1 a2 a3 a4) = State.fixed a4 := by
  unfold chargePass
  simp only [↓setLaneStep_fixed]

theorem clearChains_fixed (a0) (a1) (a2 : State) : State.fixed (clearChains a0 a1 a2) = State.fixed a2 := by
  unfold clearChains
  simp only [implies_true, ↓setArray_fixed, ↓fixed_foldS]

theorem countGrid_fixed (a0) (a1) (a2 : State) : State.fixed (countGrid a0 a1 a2) = State.fixed a2 := by
  unfold countGrid
  simp only [↓bump_fixed]

theorem commitPass_fixed (a0) (a1) (a2) (a3) (a4 : State) : State.fixed (commitPass a0 a1 a2 a3 a4) = State.fixed a4 := by
  unfold commitPass
  simp only [↓fixed_eta, ↓fixed_mk, ↓setArray_fixed, ↓setLaneStep_fixed, ↓countGrid_fixed, ↓bump_fixed, ↓advanceStep_fixed, ↓chargePass_fixed]

theorem dropChains_fixed (a0) (a1) (a2 : State) : State.fixed (dropChains a0 a1 a2) = State.fixed a2 := by
  unfold dropChains
  simp only [implies_true, ↓setArray_fixed, ↓fixed_foldS]

theorem stageOperands_fixed (a0) (a1) (a2) (a3 : State) : State.fixed (stageOperands a0 a1 a2 a3) = State.fixed a3 := by
  unfold stageOperands
  repeat' (first | simp only [↓setArray_fixed] | split)

theorem wakeArrays_fixed (a0 : State) : State.fixed (wakeArrays a0) = State.fixed a0 := by
  unfold wakeArrays
  simp only [↓fixed_eta, ↓fixed_mk, ↓fixedOf_mk, ↓fixedDev_eta, ↓fixed_ite, ite_self, ↓powerUp_fixed]

theorem startActs_fixed (a0) (a1) (a2) (a3 : State) : State.fixed (startActs a0 a1 a2 a3) = State.fixed a3 := by
  unfold startActs
  simp only [↓fixed_ite, ite_self, ↓wakeArrays_fixed, ↓advanceStep_fixed, ↓addPasses_fixed, ↓setLaneStep_fixed]

theorem streamPass_fixed (a0) (a1) (a2) (a3) (a4 : State) : ∀ t, (streamPass a0 a1 a2 a3 a4) = some t → State.fixed t.1 = State.fixed a4 := by
  intro t h
  unfold streamPass at h
  split at h
  · cases h
  · split at h
    · cases h
    · obtain ⟨x, -, rfl⟩ := Option.map_eq_some_iff.mp h
      exact stageOperands_fixed _ _ _ _

theorem setRetrieval_fixed (a0) (a1) (a2 : State) : State.fixed (setRetrieval a0 a1 a2) = State.fixed a2 := by
  unfold setRetrieval
  simp only [↓setCourse_fixed]

theorem crossStage_fixed (a0) (a1 : State) : State.fixed (crossStage a0 a1) = State.fixed a1 := by
  unfold crossStage
  repeat' (first | simp only [↓fixed_ite, ite_self, ↓startActs_fixed, ↓setRetrieval_fixed] | split)

theorem afterMessage_fixed (a0) (a1 : State) (a2 : State) : State.fixed (afterMessage a0 a1 a2) = State.fixed a2 := by
  unfold afterMessage
  repeat' (first | simp only [↓crossStage_fixed] | split)

theorem countFetches_fixed (a0) (a1) (a2) (a3 : State) : State.fixed (countFetches a0 a1 a2 a3) = State.fixed a3 := by
  unfold countFetches
  simp only [↓bump_fixed]

theorem countMerge_fixed (a0) (a1) (a2) (a3) (a4 : State) : State.fixed (countMerge a0 a1 a2 a3 a4) = State.fixed a4 := by
  unfold countMerge
  simp only [↓bump_fixed]

theorem countPack_fixed (a0) (a1) (a2 : State) : State.fixed (countPack a0 a1 a2) = State.fixed a2 := by
  unfold countPack
  simp only [↓bump_fixed]

theorem deliverMsg_fixed (a0) (a1) (a2) (a3 : State) (ha2 : ∀ z0 z1 z2, State.fixed (a2 z0 z1 z2) = State.fixed z2) : State.fixed (deliverMsg a0 a1 a2 a3) = State.fixed a3 := by
  unfold deliverMsg
  simp only [implies_true, ↓startWaiting_fixed, ↓afterMessage_fixed, ↓receive_fixed, ha2]

theorem dropIndex_fixed (a0) (a1 : State) : State.fixed (dropIndex a0 a1) = State.fixed a1 := by
  unfold dropIndex
  simp only [implies_true, ↓orRefuse_fixed, ↓finish_fixed, ↓removeIndex_fixed]

theorem dropTable_fixed (a0) (a1 : State) : State.fixed (dropTable a0 a1) = State.fixed a1 := by
  unfold dropTable
  repeat' (first | simp only [↓fixed_ite, ↓badField_fixed, ↓finish_fixed, ↓endDrop_fixed, ↓setCmd_fixed, ↓setTable_fixed] | split)

theorem execEntry_fixed (a0) (a1 : State) : ∀ t, (execEntry a0 a1) = .next t → State.fixed t = State.fixed a1 := by
  intro t h
  unfold execEntry at h
  simp only [Host.Outcome.next.injEq] at h
  subst h
  simp only [implies_true, ↓deliverMsg_fixed, ↓onEntry_fixed]

theorem execHopAck_fixed (a0) (a1 : State) : ∀ t, (execHopAck a0 a1) = .next t → State.fixed t = State.fixed a1 := by
  intro t h
  unfold execHopAck at h
  simp only [Host.Outcome.next.injEq] at h
  subst h
  simp only [implies_true, ↓deliverMsg_fixed, ↓onAck_fixed]

theorem execHopFwd_fixed (a0) (a1 : State) : ∀ t, (execHopFwd a0 a1) = .next t → State.fixed t = State.fixed a1 := by
  intro t h
  unfold execHopFwd at h
  simp only [Host.Outcome.next.injEq] at h
  subst h
  simp only [implies_true, ↓deliverMsg_fixed, ↓onFwd_fixed]

theorem execHopReq_fixed (a0) (a1 : State) : ∀ t, (execHopReq a0 a1) = .next t → State.fixed t = State.fixed a1 := by
  intro t h
  unfold execHopReq at h
  simp only [Host.Outcome.next.injEq] at h
  subst h
  simp only [implies_true, ↓deliverMsg_fixed, ↓onRequest_fixed]

theorem execIndexDrop_fixed (a0) (a1 : State) : ∀ t, (execIndexDrop a0 a1) = .next t → State.fixed t = State.fixed a1 := by
  intro t h
  unfold execIndexDrop at h
  simp only [Host.Outcome.next.injEq] at h
  subst h
  simp only [implies_true, ↓runCmd_fixed, ↓dropIndex_fixed]

theorem retrievalJob_fixed (a0) (a1) (a2 : State) (ha1 : ∀ z0 z1, State.fixed (a1 z0 z1) = State.fixed z1) : State.fixed (retrievalJob a0 a1 a2) = State.fixed a2 := by
  unfold retrievalJob
  simp only [implies_true, ↓startWaiting_fixed, ↓laneUse_fixed, ha1]

theorem packSet_fixed (a0) (a1) (a2) (a3 : State) : State.fixed (packSet a0 a1 a2 a3) = State.fixed a3 := by
  unfold packSet
  repeat' (first | simp only [↓hold_fixed, ↓countFetches_fixed, ↓countPack_fixed] | split)

theorem execPack_fixed (a0) (a1) (a2 : State) : ∀ t, (execPack a0 a1 a2) = .next t → State.fixed t = State.fixed a2 := by
  intro t h
  unfold execPack at h
  simp only [Host.Outcome.next.injEq] at h
  subst h
  repeat' (first | simp only [↓fixed_ite, ite_self, implies_true, ↓retrievalJob_fixed, ↓laneInput_fixed, ↓packSet_fixed] | refine (runCmd_fixed _ _ _ _ (fun _ _ => ?_)).trans ?_)

theorem execPair_fixed (a0) (a1 : State) : ∀ t, (execPair a0 a1) = .next t → State.fixed t = State.fixed a1 := by
  intro t h
  unfold execPair at h
  simp only [Host.Outcome.next.injEq] at h
  subst h
  simp only [implies_true, ↓deliverMsg_fixed, ↓onPair_fixed]

theorem setProfile_fixed (a0) (a1 : State) : State.fixed (setProfile a0 a1) = State.fixed a1 := by
  unfold setProfile
  simp only [↓finish_fixed, ↓setTenant_fixed]

theorem execProfileSet_fixed (a0) (a1 : State) : ∀ t, (execProfileSet a0 a1) = .next t → State.fixed t = State.fixed a1 := by
  intro t h
  unfold execProfileSet at h
  simp only [Host.Outcome.next.injEq] at h
  subst h
  simp only [implies_true, ↓runCmd_fixed, ↓setProfile_fixed]

theorem lookupFeatures_fixed (a0) (a1) (a2) (a3 : State) : State.fixed (lookupFeatures a0 a1 a2 a3) = State.fixed a3 := by
  unfold lookupFeatures
  repeat' (first | simp only [↓bump_fixed, ↓fetchRows_fixed] | refine (fixed_foldS _ (fun _ _ => ?_) _ _).trans ?_ | split)

theorem rerankSet_fixed (a0) (a1) (a2) (a3 : State) : State.fixed (rerankSet a0 a1 a2 a3) = State.fixed a3 := by
  unfold rerankSet
  repeat' (first | simp only [↓hold_fixed, ↓countFetches_fixed, ↓lookupFeatures_fixed, ↓countMerge_fixed, ↓bump_fixed] | split)

theorem execRerank_fixed (a0) (a1) (a2 : State) : ∀ t, (execRerank a0 a1 a2) = .next t → State.fixed t = State.fixed a2 := by
  intro t h
  unfold execRerank at h
  simp only [Host.Outcome.next.injEq] at h
  subst h
  repeat' (first | simp only [↓fixed_ite, ite_self, implies_true, ↓retrievalJob_fixed, ↓laneInput_fixed, ↓rerankSet_fixed] | refine (runCmd_fixed _ _ _ _ (fun _ _ => ?_)).trans ?_)

theorem execResolve_fixed (a0) (a1 : State) : ∀ t, (execResolve a0 a1) = .next t → State.fixed t = State.fixed a1 := by
  intro t h
  unfold execResolve at h
  simp only [Host.Outcome.next.injEq] at h
  subst h
  simp only [implies_true, ↓deliverMsg_fixed, ↓onRequest_fixed]

theorem retrieveRun_fixed (a0) (a1) (a2 : State) : State.fixed (retrieveRun a0 a1 a2) = State.fixed a2 := by
  unfold retrieveRun
  simp only [↓fixed_ite, ite_self, ↓hold_fixed, ↓countMerge_fixed]

theorem execRetrieve_fixed (a0) (a1 : State) : ∀ t, (execRetrieve a0 a1) = .next t → State.fixed t = State.fixed a1 := by
  intro t h
  unfold execRetrieve at h
  simp only [Host.Outcome.next.injEq] at h
  subst h
  simp only [implies_true, ↓runCmd_fixed, ↓retrievalJob_fixed, ↓retrieveRun_fixed]

theorem rankWalk_fixed (a0) (a1) (a2 : State) : State.fixed (rankWalk a0 a1 a2).1 = State.fixed a2 := by
  unfold rankWalk
  simp only [↓countFetches_fixed, ↓countMerge_fixed, ↓lookupFeatures_fixed, ↓bump_fixed]

theorem rrpRun_fixed (a0) (a1) (a2 : State) : State.fixed (rrpRun a0 a1 a2) = State.fixed a2 := by
  unfold rrpRun
  repeat' (first | simp only [↓fixed_ite, ↓rankWalk_fixed, ↓hold_fixed, ↓countPack_fixed] | split)

theorem execRetrieveRerankPack_fixed (a0) (a1 : State) : ∀ t, (execRetrieveRerankPack a0 a1) = .next t → State.fixed t = State.fixed a1 := by
  intro t h
  unfold execRetrieveRerankPack at h
  simp only [Host.Outcome.next.injEq] at h
  subst h
  simp only [implies_true, ↓runCmd_fixed, ↓retrievalJob_fixed, ↓rrpRun_fixed]

theorem execSlotLoad_fixed (a0) (a1 : State) : ∀ t, (execSlotLoad a0 a1) = .next t → State.fixed t = State.fixed a1 := by
  intro t h
  unfold execSlotLoad at h
  simp only [Host.Outcome.next.injEq] at h
  subst h
  repeat' (first | simp only [↓fixed_ite, ite_self, implies_true, ↓afterMessage_fixed, ↓receive_fixed, ↓onLoad_fixed] | refine (receive_fixed _ _ _ _ (fun _ _ _ => ?_)).trans ?_ | rfl | split)

theorem execTableDrop_fixed (a0) (a1 : State) : ∀ t, (execTableDrop a0 a1) = .next t → State.fixed t = State.fixed a1 := by
  intro t h
  unfold execTableDrop at h
  simp only [Host.Outcome.next.injEq] at h
  subst h
  simp only [implies_true, ↓runCmd_fixed, ↓dropTable_fixed]

theorem freeTemplate_fixed (a0) (a1 : State) : State.fixed (freeTemplate a0 a1) = State.fixed a1 := by
  unfold freeTemplate
  repeat' (first | simp only [↓fixed_eta, ↓fixed_mk, ↓badField_fixed, ↓finish_fixed] | split)

theorem execTemplateFree_fixed (a0) (a1 : State) : ∀ t, (execTemplateFree a0 a1) = .next t → State.fixed t = State.fixed a1 := by
  intro t h
  unfold execTemplateFree at h
  simp only [Host.Outcome.next.injEq] at h
  subst h
  simp only [↓fixed_ite, ite_self, implies_true, ↓runCmd_fixed, ↓freeTemplate_fixed]

theorem loadTemplate_fixed (a0) (a1) (a2 : State) : State.fixed (loadTemplate a0 a1 a2) = State.fixed a2 := by
  unfold loadTemplate
  repeat' (first | simp only [↓fixed_eta, ↓fixed_mk, ↓fixed_ite, ↓imageFault_fixed, ↓fail_fixed, ↓finish_fixed] | split)

theorem execTemplateLoad_fixed (a0) (a1) (a2 : State) : ∀ t, (execTemplateLoad a0 a1 a2) = .next t → State.fixed t = State.fixed a2 := by
  intro t h
  unfold execTemplateLoad at h
  simp only [Host.Outcome.next.injEq] at h
  subst h
  simp only [↓fixed_ite, ite_self, implies_true, ↓runCmd_fixed, ↓withInput_fixed, ↓loadTemplate_fixed]

theorem replaceTemplate_fixed (a0) (a1) (a2 : State) : State.fixed (replaceTemplate a0 a1 a2) = State.fixed a2 := by
  unfold replaceTemplate
  repeat' (first | simp only [↓fixed_eta, ↓fixed_mk, ↓badField_fixed, ↓imageFault_fixed, ↓finish_fixed] | split)

theorem execTemplateReplace_fixed (a0) (a1) (a2 : State) : ∀ t, (execTemplateReplace a0 a1 a2) = .next t → State.fixed t = State.fixed a2 := by
  intro t h
  unfold execTemplateReplace at h
  simp only [Host.Outcome.next.injEq] at h
  subst h
  simp only [↓fixed_ite, ite_self, implies_true, ↓runCmd_fixed, ↓withInput_fixed, ↓replaceTemplate_fixed]

theorem freshUnits_fixed (a0) (a1 : State) : State.fixed (freshUnits a0 a1) = State.fixed a1 := by
  unfold freshUnits
  simp only [↓fixed_eta, ↓fixed_mk, ↓fixed_ite, ite_self, implies_true, ↓setSeq_fixed, ↓dropMask_fixed, ↓askMask_fixed, ↓fixed_foldS]

theorem rebindAll_fixed (a0) (a1 : State) : State.fixed (rebindAll a0 a1) = State.fixed a1 := by
  unfold rebindAll
  simp only [↓fixed_ite, ite_self, implies_true, ↓reapAdapters_fixed, ↓setSeq_fixed, ↓fixed_foldS]

theorem endCutOffRuns_fixed (a0) (a1 : State) : State.fixed (endCutOffRuns a0 a1) = State.fixed a1 := by
  unfold endCutOffRuns
  simp only [↓fixed_ite, ite_self, implies_true, ↓endRun_fixed, ↓fixed_foldS]

theorem failLoop_fixed (a0) (a1 : State) : State.fixed (failLoop a0 a1) = State.fixed a1 := by
  unfold failLoop
  repeat' (first | simp only [↓fixed_ite, ite_self, ↓bump_fixed, ↓setSeq_fixed, ↓enter_fixed] | split)

theorem failLoops_fixed (a0) (a1 : State) : State.fixed (failLoops a0 a1) = State.fixed a1 := by
  unfold failLoops
  simp only [↓fixed_ite, ite_self, implies_true, ↓failLoop_fixed, ↓fixed_foldS]

theorem endCutOff_fixed (a0) (a1 : State) : State.fixed (endCutOff a0 a1) = State.fixed a1 := by
  unfold endCutOff
  simp only [↓fixed_ite, ite_self, implies_true, ↓fail_fixed, ↓fixed_foldS]

theorem atBoundary_fixed (a0) (a1) (a2 : State) : State.fixed (atBoundary a0 a1 a2) = State.fixed a2 := by
  unfold atBoundary
  repeat' (first | simp only [↓freshUnits_fixed, ↓rebindAll_fixed, ↓endCutOffRuns_fixed, ↓failLoops_fixed, ↓endCutOff_fixed] | split)

theorem setLane_fixed (a0) (a1) (a2) (a3 : State) : State.fixed (setLane a0 a1 a2 a3) = State.fixed a3 := by
  unfold setLane
  simp only [↓setCourse_fixed]

theorem startJobs_fixed (a0) (a1) (a2) (a3 : State) : State.fixed (startJobs a0 a1 a2 a3) = State.fixed a3 := by
  unfold startJobs
  repeat' (first | simp only [↓fixed_ite, ite_self, ↓startJob_fixed] | refine (fixed_foldS _ (fun _ _ => ?_) _ _).trans ?_ | split)

theorem countStarved_fixed (a0) (a1 : State) : State.fixed (countStarved a0 a1) = State.fixed a1 := by
  unfold countStarved
  repeat' (first | simp only [↓setSeq_fixed] | refine (fixed_foldS _ (fun _ _ => ?_) _ _).trans ?_ | split)

theorem startGeneration_fixed (a0) (a1) (a2) (a3 : State) : State.fixed (startGeneration a0 a1 a2 a3) = State.fixed a3 := by
  unfold startGeneration
  simp only [↓setLane_fixed, ↓startActs_fixed, ↓startJobs_fixed, ↓countStarved_fixed]

theorem countBuild_fixed (a0) (a1) (a2) (a3) (a4 : State) : State.fixed (countBuild a0 a1 a2 a3 a4) = State.fixed a4 := by
  unfold countBuild
  simp only [implies_true, ↓bump_fixed, ↓fixed_foldS]

theorem startRequest_fixed (a0) (a1) (a2 : State) : State.fixed (startRequest a0 a1 a2) = State.fixed a2 := by
  unfold startRequest
  repeat' (first | simp only [↓fixed_eta, ↓fixed_mk, ↓fixed_ite, ite_self, ↓hold_fixed, ↓startQuery_fixed, ↓countTokens_fixed] | split)

theorem startRetrieval_fixed (a0) (a1) (a2) (a3 : State) : State.fixed (startRetrieval a0 a1 a2 a3) = State.fixed a3 := by
  unfold startRetrieval
  simp only [↓fixed_ite, ite_self, implies_true, ↓setCmd_fixed, ↓setLane_fixed, ↓setCourse_fixed, ↓startRequest_fixed, ↓startJobs_fixed, ↓crossStage_fixed, ↓startActs_fixed, ↓fixed_foldS]

theorem buildStep_fixed (a0) (a1) (a2) (a3) (a4 : State) : State.fixed (buildStep a0 a1 a2 a3 a4) = State.fixed a4 := by
  unfold buildStep
  repeat' (first | simp only [↓fixed_ite, ite_self, ↓startGeneration_fixed, ↓countBuild_fixed, ↓startRetrieval_fixed] | split)

theorem buildWhen_fixed (a0) (a1) (a2) (a3) (a4 : State) : State.fixed (buildWhen a0 a1 a2 a3 a4) = State.fixed a4 := by
  unfold buildWhen
  simp only [↓fixed_ite, ite_self, ↓atBoundary_fixed, ↓buildStep_fixed]

theorem execFillWaitExpiry_fixed (a0) (a1) (a2) (a3 : State) : ∀ t, (execFillWaitExpiry a0 a1 a2 a3) = .next t → State.fixed t = State.fixed a3 := by
  intro t h
  unfold execFillWaitExpiry at h
  simp only [Host.Outcome.next.injEq] at h
  subst h
  simp only [↓buildWhen_fixed]

theorem execStepBuild_fixed (a0) (a1) (a2) (a3 : State) : ∀ t, (execStepBuild a0 a1 a2 a3) = .next t → State.fixed t = State.fixed a3 := by
  intro t h
  unfold execStepBuild at h
  simp only [Host.Outcome.next.injEq] at h
  subst h
  simp only [↓buildWhen_fixed]

theorem progress_fixed (a0) (a1 : State) : State.fixed (progress a0 a1) = State.fixed a1 := by
  unfold progress
  repeat' (first | simp only [↓fixed_ite, ite_self, ↓setSeq_fixed, ↓post_fixed] | split)

theorem applyDecision_fixed (a0) (a1) (a2 : State) : State.fixed (applyDecision a0 a1 a2) = State.fixed a2 := by
  unfold applyDecision
  repeat' (first | simp only [↓fixed_ite, ite_self, ↓stopRun_fixed, ↓setSeq_fixed, ↓askMask_fixed, ↓enter_fixed, ↓progress_fixed, ↓deliver_fixed, ↓blockRun_fixed] | split)

theorem commitAdoptions_fixed (a0) (a1 : State) : State.fixed (commitAdoptions a0 a1) = State.fixed a1 := by
  unfold commitAdoptions
  simp only [↓fixed_ite, ite_self, implies_true, ↓setSeq_fixed, ↓enter_fixed, ↓dropMask_fixed, ↓fixed_foldS]

theorem commitCancels_fixed (a0) (a1 : State) : State.fixed (commitCancels a0 a1) = State.fixed a1 := by
  unfold commitCancels
  simp only [↓fixed_ite, ite_self, implies_true, ↓cancelRun_fixed, ↓fixed_foldS]

theorem commitCommand_fixed (a0) (a1 : State) : State.fixed (commitCommand a0 a1) = State.fixed a1 := by
  unfold commitCommand
  repeat' (first | simp only [↓fixed_ite, ↓cancelled_fixed, ↓fail_fixed, ↓setSeq_fixed, ↓addInput_fixed, ↓finish_fixed] | split)

theorem countSelected_fixed (a0) (a1) (a2) (a3 : State) : State.fixed (countSelected a0 a1 a2 a3) = State.fixed a3 := by
  unfold countSelected
  simp only [↓bump_fixed]

theorem commitToken_fixed (a0) (a1) (a2) (a3) (a4 : State) : State.fixed (commitToken a0 a1 a2 a3 a4) = State.fixed a4 := by
  unfold commitToken
  repeat' (first | simp only [↓countSelected_fixed, ↓bump_fixed, ↓setTenant_fixed, ↓applyDecision_fixed, ↓setSeq_fixed] | split)

theorem joinPages_fixed (a0) (a1) (a2) (a3 : State) : State.fixed (joinPages a0 a1 a2 a3) = State.fixed a3 := by
  unfold joinPages
  simp only [↓setSeq_fixed]

theorem deferNotice_fixed (a0) (a1 : State) : State.fixed (deferNotice a0 a1) = State.fixed a1 := by
  unfold deferNotice
  repeat' (first | simp only [↓fixed_ite, ite_self, ↓post_fixed] | split)

theorem deferRow_fixed (a0) (a1) (a2 : State) : State.fixed (deferRow a0 a1 a2) = State.fixed a2 := by
  unfold deferRow
  simp only [↓deferNotice_fixed, ↓setSeq_fixed, ↓bump_fixed]

theorem commitInput_fixed (a0) (a1) (a2) (a3 : State) : State.fixed (commitInput a0 a1 a2 a3) = State.fixed a3 := by
  unfold commitInput
  simp only [↓setSeq_fixed, ↓joinPages_fixed]

theorem commitSeqRow_fixed (a0) (a1) (a2) (a3) (a4) (a5 : State) : State.fixed (commitSeqRow a0 a1 a2 a3 a4 a5) = State.fixed a5 := by
  unfold commitSeqRow
  repeat' (first | simp only [↓fixed_ite, ite_self, ↓endRun_fixed, ↓seqDone_fixed, ↓applyDecision_fixed, ↓commitToken_fixed, ↓joinPages_fixed, ↓bump_fixed, ↓deferRow_fixed, ↓commitInput_fixed, ↓enter_fixed, ↓setSeq_fixed] | split)

theorem commitRow_fixed (a0) (a1) (a2) (a3) (a4 : State) : State.fixed (commitRow a0 a1 a2 a3 a4) = State.fixed a4 := by
  unfold commitRow
  repeat' (first | simp only [↓fixed_ite, ite_self, ↓commitCommand_fixed, ↓commitSeqRow_fixed] | split)

theorem countClean_fixed (a0) (a1) (a2 : State) : State.fixed (countClean a0 a1 a2) = State.fixed a2 := by
  unfold countClean
  simp only [↓setCourse_fixed]

theorem settle_fixed (a0) (a1) (a2) (a3) (a4 : State) : State.fixed (settle a0 a1 a2 a3 a4) = State.fixed a4 := by
  unfold settle
  simp only [implies_true, ↓charge_fixed, ↓setLane_fixed, ↓fixed_foldS]

theorem leaveIslands_fixed (a0) (a1 : State) : State.fixed (leaveIslands a0 a1) = State.fixed a1 := by
  unfold leaveIslands
  repeat' (first | simp only [↓fixed_ite, ite_self, ↓retire_fixed, ↓standAside_fixed, ↓finish_fixed] | refine (fixed_foldS _ (fun _ _ => ?_) _ _).trans ?_ | split)

theorem releaseStep_fixed (a0) (a1) (a2 : State) : State.fixed (releaseStep a0 a1 a2) = State.fixed a2 := by
  unfold releaseStep
  repeat' (first | simp only [↓clearChains_fixed, ↓setLane_fixed, ↓rebindAll_fixed, ↓drainIndices_fixed, ↓endWalks_fixed, ↓leaveIslands_fixed, ↓startWaiting_fixed, ↓endJobs_fixed] | split)

theorem commitGeneration_fixed (a0) (a1) (a2) (a3 : State) : State.fixed (commitGeneration a0 a1 a2 a3) = State.fixed a3 := by
  unfold commitGeneration
  simp only [implies_true, ↓commitRow_fixed, ↓commitAdoptions_fixed, ↓commitCancels_fixed, ↓countClean_fixed, ↓bump_fixed, ↓settle_fixed, ↓releaseStep_fixed, ↓fixed_foldS]

theorem loopTokens_fixed (a0) (a1) (a2 : State) : State.fixed (loopTokens a0 a1 a2).1 = State.fixed a2 := by
  unfold loopTokens
  repeat' (first | simp only [↓rankWalk_fixed, ↓countPack_fixed] | split)

theorem spliceLoop_fixed (a0) (a1) (a2) (a3 : State) : State.fixed (spliceLoop a0 a1 a2 a3) = State.fixed a3 := by
  unfold spliceLoop
  repeat' (first | simp only [↓fixed_ite, ite_self, ↓addInput_fixed, ↓bump_fixed, ↓setSeq_fixed, ↓enter_fixed] | split)

theorem commitLoop_fixed (a0) (a1) (a2 : State) : State.fixed (commitLoop a0 a1 a2) = State.fixed a2 := by
  unfold commitLoop
  repeat' (first | simp only [↓fixed_ite, ite_self, ↓setSeq_fixed, ↓cancelRun_fixed, ↓loopTokens_fixed, ↓failLoop_fixed, ↓spliceLoop_fixed] | split)

theorem commitRetrieval_fixed (a0) (a1) (a2) (a3 : State) : State.fixed (commitRetrieval a0 a1 a2 a3) = State.fixed a3 := by
  unfold commitRetrieval
  simp only [↓fixed_ite, ite_self, implies_true, ↓commitLoop_fixed, ↓commitCommand_fixed, ↓commitAdoptions_fixed, ↓bump_fixed, ↓settle_fixed, ↓releaseStep_fixed, ↓fixed_foldS]

theorem execStepCommit_fixed (a0) (a1) (a2) (a3 : State) : ∀ t, (execStepCommit a0 a1 a2 a3) = .next t → State.fixed t = State.fixed a3 := by
  intro t h
  unfold execStepCommit at h
  simp only [Host.Outcome.next.injEq] at h
  subst h
  repeat' (first | simp only [↓fixed_ite, ite_self, ↓commitGeneration_fixed, ↓commitRetrieval_fixed] | split)

theorem dropResults_fixed (a0) (a1 : State) : State.fixed (dropResults a0 a1) = State.fixed a1 := by
  unfold dropResults
  repeat' (first | simp only [↓setCmd_fixed] | refine (fixed_foldS _ (fun _ _ => ?_) _ _).trans ?_ | split)

theorem abandonStep_fixed (a0) (a1) (a2 : State) : State.fixed (abandonStep a0 a1 a2) = State.fixed a2 := by
  unfold abandonStep
  repeat' (first | simp only [↓fixed_ite, ite_self, ↓setCourse_fixed, ↓dropResults_fixed, ↓clearChains_fixed, ↓setLane_fixed, ↓drainIndices_fixed, ↓endWalks_fixed, ↓commitAdoptions_fixed, ↓commitCancels_fixed, ↓leaveIslands_fixed, ↓startWaiting_fixed, ↓endJobs_fixed] | split)

theorem setStep_fixed (a0) (a1) (a2) (a3 : State) : State.fixed (setStep a0 a1 a2 a3) = State.fixed a3 := by
  unfold setStep
  simp only [↓setLane_fixed]

theorem markFault_fixed (a0) (a1) (a2 : State) : State.fixed (markFault a0 a1 a2) = State.fixed a2 := by
  unfold markFault
  simp only [↓setStep_fixed]

theorem dropGroup_fixed (a0) (a1) (a2) (a3 : State) : State.fixed (dropGroup a0 a1 a2 a3) = State.fixed a3 := by
  unfold dropGroup
  simp only [implies_true, ↓setStep_fixed, ↓setArray_fixed, ↓advanceStep_fixed, ↓fixed_foldS]

theorem loseGroup_fixed (a0) (a1) (a2) (a3 : State) : State.fixed (loseGroup a0 a1 a2 a3) = State.fixed a3 := by
  unfold loseGroup
  simp only [↓logFault_fixed, ↓dropGroup_fixed]

theorem restartWalks_fixed (a0) (a1) (a2 : State) : State.fixed (restartWalks a0 a1 a2) = State.fixed a2 := by
  unfold restartWalks
  simp only [↓fixed_eta, ↓fixed_mk, implies_true, ↓send_fixed, ↓fixed_foldS]

theorem replayStep_fixed (a0) (a1) (a2) (a3 : State) : State.fixed (replayStep a0 a1 a2 a3) = State.fixed a3 := by
  unfold replayStep
  repeat' (first | simp only [↓fixed_ite, ite_self, implies_true, ↓dropResults_fixed, ↓dropChains_fixed, ↓setStep_fixed, ↓startActs_fixed, ↓restartWalks_fixed, ↓startRequest_fixed, ↓crossStage_fixed, ↓fixed_foldS] | refine (fixed_foldS _ (fun _ _ => ?_) _ _).trans ?_ | split)

theorem spreadPasses_fixed (a0) (a1) (a2) (a3 : State) : State.fixed (spreadPasses a0 a1 a2 a3) = State.fixed a3 := by
  unfold spreadPasses
  repeat' (first | simp only [↓setArray_fixed] | refine (fixed_foldS _ (fun _ _ => ?_) _ _).trans ?_ | split)

theorem withdraw_fixed (a0) (a1 : State) : State.fixed (withdraw a0 a1) = State.fixed a1 := by
  unfold withdraw
  simp only [↓fixed_eta, ↓fixed_mk, ↓fixed_ite, ite_self, implies_true, ↓setArray_fixed, ↓logFault_fixed, ↓abandonStep_fixed, ↓turnWindow_fixed, ↓spreadPasses_fixed, ↓fixed_foldS]

theorem refetch_fixed (a0) (a1 : State) : State.fixed (refetch a0 a1) = State.fixed a1 := by
  unfold refetch
  simp only [↓turnWindow_fixed, ↓setArray_fixed]

theorem arrayFault_fixed (a0) (a1) (a2) (a3) (a4 : State) : State.fixed (arrayFault a0 a1 a2 a3 a4) = State.fixed a4 := by
  unfold arrayFault
  repeat' (first | simp only [↓fixed_ite, ite_self, ↓bump_fixed, ↓markFault_fixed, ↓setArray_fixed, ↓loseGroup_fixed, ↓replayStep_fixed, ↓withdraw_fixed, ↓refetch_fixed] | split)

theorem evictFirst_fixed (a0) (a1 : State) : State.fixed (evictFirst a0 a1) = State.fixed a1 := by
  unfold evictFirst
  repeat' (first | simp only [↓bump_fixed, ↓evict_fixed] | split)

theorem execArrayFault_fixed (a0) (a1) (a2 : State) : ∀ t, (execArrayFault a0 a1 a2) = .next t → State.fixed t = State.fixed a2 := by
  intro t h
  unfold execArrayFault at h
  simp only [Host.Outcome.next.injEq] at h
  subst h
  repeat' (first | simp only [↓fixed_ite, ↓arrayFault_fixed] | split)

theorem maskDone_fixed (a0) (a1 : State) : State.fixed (maskDone a0 a1) = State.fixed a1 := by
  unfold maskDone
  repeat' (first | simp only [↓fixed_eta, ↓fixed_mk, ↓fixed_ite, ↓bump_fixed, ↓setSeq_fixed] | split)

theorem execMaskJobDone_fixed (a0) (a1 : State) : ∀ t, (execMaskJobDone a0 a1) = .next t → State.fixed t = State.fixed a1 := by
  intro t h
  unfold execMaskJobDone at h
  simp only [Host.Outcome.next.injEq] at h
  subst h
  simp only [↓fixed_ite, ite_self, ↓maskDone_fixed]

theorem execPassCommit_fixed (a0) (a1) (a2 : State) : ∀ t, (execPassCommit a0 a1 a2) = .next t → State.fixed t = State.fixed a2 := by
  intro t h
  unfold execPassCommit at h
  simp only [Host.Outcome.next.injEq] at h
  subst h
  split
  · rfl
  · split
    · exact turnWindow_fixed _ _
    · split
      · exact (loseGroup_fixed _ _ _ _).trans (turnWindow_fixed _ _)
      · split
        · exact turnWindow_fixed _ _
        · rename_i x hx
          exact ((commitPass_fixed _ _ _ _ _).trans (streamPass_fixed _ _ _ _ _ _ hx)).trans (turnWindow_fixed _ _)

theorem selectionFault_fixed (a0) (a1 : State) : State.fixed (selectionFault a0 a1) = State.fixed a1 := by
  unfold selectionFault
  simp only [↓fixed_eta, ↓fixed_mk, ↓fixed_ite, ite_self, ↓bump_fixed, ↓markFault_fixed, ↓setCourse_fixed, ↓logFault_fixed]

theorem execSelectionUnitFault_fixed (a0) (a1 : State) : ∀ t, (execSelectionUnitFault a0 a1) = .next t → State.fixed t = State.fixed a1 := by
  intro t h
  unfold execSelectionUnitFault at h
  simp only [Host.Outcome.next.injEq] at h
  subst h
  simp only [↓fixed_ite, ite_self, ↓selectionFault_fixed]

theorem execSequenceEvict_fixed (a0) (a1 : State) : ∀ t, (execSequenceEvict a0 a1) = .next t → State.fixed t = State.fixed a1 := by
  intro t h
  unfold execSequenceEvict at h
  simp only [Host.Outcome.next.injEq] at h
  subst h
  simp only [↓fixed_ite, ite_self, ↓evictFirst_fixed]

theorem execSequenceRelocate_fixed (a0) (a1) (a2 : State) : ∀ t, (execSequenceRelocate a0 a1 a2) = .next t → State.fixed t = State.fixed a2 := by
  intro t h
  unfold execSequenceRelocate at h
  simp only [Host.Outcome.next.injEq] at h
  subst h
  repeat' (first | simp only [↓fixed_ite, ite_self, ↓bring_fixed] | split)

theorem execSequenceRestore_fixed (a0) (a1) (a2 : State) : ∀ t, (execSequenceRestore a0 a1 a2) = .next t → State.fixed t = State.fixed a2 := by
  intro t h
  unfold execSequenceRestore at h
  simp only [Host.Outcome.next.injEq] at h
  subst h
  repeat' (first | simp only [↓fixed_ite, ite_self, ↓bring_fixed] | split)

end Sys2Proof.Machine
end

