-- ==== Sys2Proof/Laws/FixedTiers.lean ====
section
/-! SUPPORT. What only pins, resets and the sideband change stays as it is: the two memory tiers and NVMe. -/

open Sys2Proof
namespace Sys2Proof.Machine

theorem endMove_fixed (a0) (a1 : State) : State.fixed (endMove a0 a1) = State.fixed a1 := by
  unfold endMove
  repeat' (first | simp only [↓setMove_fixed, ↓finish_fixed] | split)

theorem pastUnit_fixed (a0) (a1) (a2) (a3 : State) : State.fixed (pastUnit a0 a1 a2 a3) = State.fixed a3 := by
  unfold pastUnit
  repeat' (first | simp only [↓fixed_ite, ite_self, ↓setMove_fixed, ↓endMove_fixed] | split)

theorem abandonUnit_fixed (a0) (a1) (a2) (a3 : State) : State.fixed (abandonUnit a0 a1 a2 a3) = State.fixed a3 := by
  unfold abandonUnit
  repeat' (first | simp only [↓unmark_fixed, ↓bump_fixed, ↓setSeq_fixed, ↓setMove_fixed, ↓resumeRun_fixed, ↓finish_fixed, ↓pastUnit_fixed] | split)

theorem acceptMove_fixed (a0) (a1) (a2) (a3) (a4) (a5 : State) (ha4 : ∀ z0, State.fixed (a4 z0) = State.fixed z0) : State.fixed (acceptMove a0 a1 a2 a3 a4 a5) = State.fixed a5 := by
  unfold acceptMove
  repeat' (first | simp only [↓fixed_ite, ite_self, ↓fail_fixed, ↓letGo_fixed, ↓setCmd_fixed, ↓orderMove_fixed, ha4] | split)

theorem addHeld_fixed (a0) (a1) (a2) (a3) (a4 : State) : State.fixed (addHeld a0 a1 a2 a3 a4) = State.fixed a4 := by
  unfold addHeld
  simp only [↓setMove_fixed]

theorem commitEvict_fixed (a0) (a1) (a2) (a3 : State) : State.fixed (commitEvict a0 a1 a2 a3) = State.fixed a3 := by
  unfold commitEvict
  repeat' (first | simp only [↓bump_fixed, ↓addHeld_fixed, ↓enter_fixed, ↓setSeq_fixed, ↓dropMask_fixed, ↓finish_fixed] | split)

theorem commitModel_fixed (a0) (a1) (a2) (a3 : State) : State.fixed (commitModel a0 a1 a2 a3) = State.fixed a3 := by
  unfold commitModel
  simp only [↓fixed_eta, ↓fixed_mk, ↓addHeld_fixed]

theorem commitRecord_fixed (a0) (a1) (a2) (a3) (a4 : State) : State.fixed (commitRecord a0 a1 a2 a3 a4) = State.fixed a4 := by
  unfold commitRecord
  simp only [↓addHeld_fixed, ↓setCorpus_fixed]

theorem commitRegion_fixed (a0) (a1) (a2) (a3) (a4) (a5 : State) : State.fixed (commitRegion a0 a1 a2 a3 a4 a5) = State.fixed a5 := by
  unfold commitRegion
  simp only [↓fixed_eta, ↓fixed_mk, ↓addHeld_fixed]

theorem newMaskTile_fixed (a0) (a1 : State) : State.fixed (newMaskTile a0 a1) = State.fixed a1 := by
  unfold newMaskTile
  repeat' (first | simp only [↓fixed_ite, ite_self, ↓setSeq_fixed, ↓dropMask_fixed, ↓askMask_fixed] | split)

theorem commitRelocate_fixed (a0) (a1) (a2) (a3 : State) : State.fixed (commitRelocate a0 a1 a2 a3) = State.fixed a3 := by
  unfold commitRelocate
  repeat' (first | simp only [↓resumeRun_fixed, ↓newMaskTile_fixed, ↓setSeq_fixed, ↓addHeld_fixed] | split)

theorem commitRestore_fixed (a0) (a1) (a2) (a3 : State) : State.fixed (commitRestore a0 a1 a2 a3) = State.fixed a3 := by
  unfold commitRestore
  repeat' (first | simp only [↓bump_fixed, ↓addHeld_fixed, ↓newMaskTile_fixed, ↓setSeq_fixed, ↓startRun_fixed, ↓enter_fixed] | split)

theorem commitUnit_fixed (a0) (a1) (a2) (a3 : State) : State.fixed (commitUnit a0 a1 a2 a3) = State.fixed a3 := by
  unfold commitUnit
  repeat' (first | simp only [↓commitModel_fixed, ↓commitRecord_fixed, ↓commitRegion_fixed, ↓commitEvict_fixed, ↓commitRestore_fixed, ↓commitRelocate_fixed] | split)

theorem execMoveOldHomeRelease_fixed (a0) (a1 : State) : ∀ t, (execMoveOldHomeRelease a0 a1) = .next t → State.fixed t = State.fixed a1 := by
  intro t h
  unfold execMoveOldHomeRelease at h
  simp only [Host.Outcome.next.injEq] at h
  subst h
  simp only [↓setMove_fixed]

theorem queryMove_fixed (a0) (a1 : State) : State.fixed (queryMove a0 a1) = State.fixed a1 := by
  unfold queryMove
  simp only [↓answerWith_fixed]

theorem execMoveQuery_fixed (a0) (a1 : State) : ∀ t, (execMoveQuery a0 a1) = .next t → State.fixed t = State.fixed a1 := by
  intro t h
  unfold execMoveQuery at h
  simp only [Host.Outcome.next.injEq] at h
  subst h
  simp only [implies_true, ↓runCmd_fixed, ↓queryMove_fixed]

theorem stopNoRoom_fixed (a0) (a1) (a2 : State) : State.fixed (stopNoRoom a0 a1 a2) = State.fixed a2 := by
  unfold stopNoRoom
  repeat' (first | simp only [↓fixed_eta, ↓fixed_mk, ↓unmark_fixed, ↓finish_fixed] | split)

theorem takeShare_fixed (a0) (a1) (a2) (a3 : State) : State.fixed (takeShare a0 a1 a2 a3) = State.fixed a3 := by
  have key : ∀ t f : Nat, State.fixed (if crossesFlash a3 a1 then
      setMove a0 (fun m => { m with ready := max t f }) { a3 with flash := { a3.flash with hodFree := f } }
      else setMove a0 (fun m => { m with ready := t }) a3) = State.fixed a3 := by
    intro t f
    split
    · exact setMove_fixed _ _ _
    · exact setMove_fixed _ _ _
  exact key _ _

theorem startUnit_fixed (a0) (a1) (a2) (a3 : State) : State.fixed (startUnit a0 a1 a2 a3) = State.fixed a3 := by
  unfold startUnit
  repeat' (first | simp only [↓fixed_eta, ↓fixed_mk, ↓takeShare_fixed, ↓setMove_fixed] | split)

theorem execMoveUnitStart_fixed (a0) (a1 : State) : ∀ t, (execMoveUnitStart a0 a1) = .next t → State.fixed t = State.fixed a1 := by
  intro t h
  unfold execMoveUnitStart at h
  simp only [Host.Outcome.next.injEq] at h
  subst h
  repeat' (first | simp only [↓fixed_ite, ite_self, ↓endMove_fixed, ↓stopNoRoom_fixed, ↓startUnit_fixed] | split)

theorem stopEvict_fixed (a0) (a1) (a2) (a3 : State) : State.fixed (stopEvict a0 a1 a2 a3) = State.fixed a3 := by
  unfold stopEvict
  repeat' (first | simp only [↓resumeRun_fixed, ↓setSeq_fixed, ↓cancelled_fixed, ↓setMove_fixed] | split)

theorem loseUnit_fixed (a0) (a1) (a2) (a3 : State) : State.fixed (loseUnit a0 a1 a2 a3) = State.fixed a3 := by
  unfold loseUnit
  repeat' (first | simp only [↓fixed_ite, ite_self, ↓setMove_fixed, ↓endRun_fixed, ↓seqDone_fixed, ↓abandonUnit_fixed, ↓finish_fixed] | split)

theorem execMoveUnitVerify_fixed (a0) (a1) (a2 : State) : ∀ t, (execMoveUnitVerify a0 a1 a2) = .next t → State.fixed t = State.fixed a2 := by
  intro t h
  unfold execMoveUnitVerify at h
  simp only [Host.Outcome.next.injEq] at h
  subst h
  repeat' (first | simp only [↓fixed_ite, ite_self, ↓stopEvict_fixed, ↓pastUnit_fixed, ↓countIn_fixed, ↓commitUnit_fixed, ↓takeShare_fixed, ↓setMove_fixed, ↓abandonUnit_fixed, ↓loseUnit_fixed] | split)

theorem moveModel_fixed (a0) (a1) (a2 : State) : State.fixed (moveModel a0 a1 a2) = State.fixed a2 := by
  unfold moveModel
  repeat' (first | simp only [↓fixed_eta, ↓fixed_mk, ↓badField_fixed] | refine (orRefuse_fixed _ _ _ _ (fun _ => ?_)).trans ?_ | refine (acceptMove_fixed _ _ _ _ _ _ (fun _ => ?_)).trans ?_ | split)

theorem moveRecords_fixed (a0) (a1) (a2 : State) : State.fixed (moveRecords a0 a1 a2) = State.fixed a2 := by
  unfold moveRecords
  repeat' (first | simp only [↓fixed_ite, ↓badField_fixed, ↓finish_fixed] | refine (acceptMove_fixed _ _ _ _ _ _ (fun _ => ?_)).trans ?_ | rfl | split)

theorem pinRegions_fixed (a0) (a1) (a2 : State) : State.fixed (pinRegions a0 a1 a2) = State.fixed a2 := by
  unfold pinRegions
  simp only [↓fixed_eta, ↓fixed_mk]

theorem moveRegions_fixed (a0) (a1) (a2 : State) : State.fixed (moveRegions a0 a1 a2) = State.fixed a2 := by
  unfold moveRegions
  repeat' (first | simp only [↓fixed_ite, ite_self, implies_true, ↓badField_fixed, ↓conflict_fixed, ↓finish_fixed, ↓pinRegions_fixed, ↓acceptMove_fixed] | refine (acceptMove_fixed _ _ _ _ _ _ (fun _ => ?_)).trans ?_ | split)

theorem tierMove_fixed (a0) (a1 : State) : State.fixed (tierMove a0 a1) = State.fixed a1 := by
  unfold tierMove
  repeat' (first | simp only [↓fixed_ite, ↓moveModel_fixed, ↓moveRecords_fixed, ↓moveRegions_fixed] | split)

theorem execTierMove_fixed (a0) (a1 : State) : ∀ t, (execTierMove a0 a1) = .next t → State.fixed t = State.fixed a1 := by
  intro t h
  unfold execTierMove at h
  simp only [Host.Outcome.next.injEq] at h
  subst h
  simp only [implies_true, ↓runCmd_fixed, ↓tierMove_fixed]

theorem dropRestores_fixed (a0) (a1 : State) : State.fixed (dropRestores a0 a1) = State.fixed a1 := by
  unfold dropRestores
  simp only [implies_true, ↓resumeRun_fixed, ↓setSeq_fixed, ↓dropMoves_fixed, ↓fixed_foldS]

theorem endEvacuations_fixed (a0) (a1 : State) : State.fixed (endEvacuations a0 a1) = State.fixed a1 := by
  unfold endEvacuations
  repeat' (first | simp only [↓fixed_eta, ↓fixed_mk, implies_true, ↓dropMoves_fixed, ↓finish_fixed, ↓fixed_foldS] | refine (fixed_foldS _ (fun _ _ => ?_) _ _).trans ?_ | split)

theorem endIndexWalks_fixed (a0) (a1 : State) : State.fixed (endIndexWalks a0 a1) = State.fixed a1 := by
  unfold endIndexWalks
  simp only [↓fixed_eta, ↓fixed_mk]

theorem setChannel_fixed (a0) (a1) (a2 : State) : State.fixed (setChannel a0 a1 a2) = State.fixed a2 := by
  unfold setChannel
  simp only [↓fixed_eta, ↓fixed_mk]

theorem leaveNow_fixed (a0) (a1 : State) : State.fixed (leaveNow a0 a1) = State.fixed a1 := by
  unfold leaveNow
  repeat' (first | simp only [↓fixed_ite, ↓retire_fixed, ↓finish_fixed] | split)

theorem leaveCourse_fixed (a0) (a1 : State) : State.fixed (leaveCourse a0 a1) = State.fixed a1 := by
  unfold leaveCourse
  simp only [implies_true, ↓setCourse_fixed, ↓setChannel_fixed, ↓leaveNow_fixed, ↓fixed_foldS]

theorem vanish_fixed (a0) (a1 : State) : State.fixed (vanish a0 a1) = State.fixed a1 := by
  unfold vanish
  simp only [↓fixed_eta, ↓fixed_mk, implies_true, ↓finish_fixed, ↓freeSeq_fixed, ↓removeModel_fixed, ↓removeIndex_fixed, ↓endIndexWalks_fixed, ↓clearVocab_fixed, ↓reapVocabs_fixed, ↓reapAdapters_fixed, ↓fixed_foldS]

theorem loseMapLines_fixed (a0) (a1 : State) : State.fixed (loseMapLines a0 a1) = State.fixed a1 := by
  unfold loseMapLines
  simp only [↓fixed_eta, ↓fixed_mk]

theorem loseCourse_fixed (a0) (a1 : State) : State.fixed (loseCourse a0 a1) = State.fixed a1 := by
  unfold loseCourse
  simp only [↓fixed_ite, ite_self, ↓abandonStep_fixed, ↓endEvacuations_fixed, ↓dropRestores_fixed, ↓vanish_fixed, ↓loseMapLines_fixed, ↓leaveCourse_fixed, ↓count_fixed]

theorem losePosition_fixed (a0) (a1 : State) : State.fixed (losePosition a0 a1) = State.fixed a1 := by
  unfold losePosition
  repeat' (first | simp only [↓setChannel_fixed, ↓count_fixed, ↓loseMapLines_fixed, ↓vanish_fixed] | split)

theorem loseStore_fixed (a0) (a1 : State) : State.fixed (loseStore a0 a1) = State.fixed a1 := by
  unfold loseStore
  simp only [↓leaveNow_fixed, ↓vanish_fixed]

theorem startEvacuation_fixed (a0) (a1) (a2) (a3) (a4 : State) : State.fixed (startEvacuation a0 a1 a2 a3 a4) = State.fixed a4 := by
  unfold startEvacuation
  simp only [↓fixed_eta, ↓fixed_mk, ↓setChannel_fixed, ↓orderMove_fixed]

theorem autoRetrain_fixed (a0) (a1 : State) : State.fixed (autoRetrain a0 a1) = State.fixed a1 := by
  unfold autoRetrain
  repeat' (first | simp only [↓fixed_ite, ite_self, ↓setChannel_fixed, ↓logFault_fixed, ↓startEvacuation_fixed] | split)

theorem calibrate_fixed (a0) (a1) (a2) (a3 : State) : State.fixed (calibrate a0 a1 a2 a3) = State.fixed a3 := by
  unfold calibrate
  simp only [↓fixed_eta, ↓fixed_mk, ↓fixed_ite, ite_self, ↓bump_fixed, ↓setChannel_fixed]

theorem endEvacuation_fixed (a0) (a1) (a2) (a3 : State) : State.fixed (endEvacuation a0 a1 a2 a3) = State.fixed a3 := by
  unfold endEvacuation
  repeat' (first | simp only [↓fixed_eta, ↓fixed_mk, ↓dropMoves_fixed, ↓finish_fixed] | split)

theorem execAutoRetrain_fixed (a0) (a1 : State) : ∀ t, (execAutoRetrain a0 a1) = .next t → State.fixed t = State.fixed a1 := by
  intro t h
  unfold execAutoRetrain at h
  simp only [Host.Outcome.next.injEq] at h
  subst h
  simp only [↓fixed_ite, ite_self, ↓autoRetrain_fixed]

theorem orderEvacuation_fixed (a0) (a1) (a2) (a3 : State) : State.fixed (orderEvacuation a0 a1 a2 a3) = State.fixed a3 := by
  unfold orderEvacuation
  repeat' (first | simp only [↓fixed_ite, ↓fail_fixed, ↓conflict_fixed, ↓setCmd_fixed, ↓startEvacuation_fixed] | split)

theorem retrain_fixed (a0) (a1) (a2 : State) : State.fixed (retrain a0 a1 a2) = State.fixed a2 := by
  unfold retrain
  simp only [↓fixed_ite, ite_self, ↓orderEvacuation_fixed]

theorem execChannelActivateSpare_fixed (a0) (a1 : State) : ∀ t, (execChannelActivateSpare a0 a1) = .next t → State.fixed t = State.fixed a1 := by
  intro t h
  unfold execChannelActivateSpare at h
  simp only [Host.Outcome.next.injEq] at h
  subst h
  simp only [implies_true, ↓runCmd_fixed, ↓retrain_fixed]

theorem execChannelCalibration_fixed (a0) (a1) (a2) (a3 : State) : ∀ t, (execChannelCalibration a0 a1 a2 a3) = .next t → State.fixed t = State.fixed a3 := by
  intro t h
  unfold execChannelCalibration at h
  simp only [Host.Outcome.next.injEq] at h
  subst h
  simp only [↓fixed_ite, ite_self, ↓calibrate_fixed]

theorem execChannelRetrain_fixed (a0) (a1 : State) : ∀ t, (execChannelRetrain a0 a1) = .next t → State.fixed t = State.fixed a1 := by
  intro t h
  unfold execChannelRetrain at h
  simp only [Host.Outcome.next.injEq] at h
  subst h
  simp only [implies_true, ↓runCmd_fixed, ↓retrain_fixed]

theorem retireChannel_fixed (a0) (a1 : State) : State.fixed (retireChannel a0 a1) = State.fixed a1 := by
  unfold retireChannel
  simp only [↓fixed_ite, ite_self, ↓setChannel_fixed, ↓retire_fixed]

theorem execChannelTestDone_fixed (a0) (a1) (a2 : State) : ∀ t, (execChannelTestDone a0 a1 a2) = .next t → State.fixed t = State.fixed a2 := by
  intro t h
  unfold execChannelTestDone at h
  simp only [Host.Outcome.next.injEq] at h
  subst h
  simp only [↓fixed_ite, ite_self, ↓endEvacuation_fixed, ↓setChannel_fixed, ↓retireChannel_fixed]

theorem execChannelTrainingDone_fixed (a0) (a1) (a2 : State) : ∀ t, (execChannelTrainingDone a0 a1 a2) = .next t → State.fixed t = State.fixed a2 := by
  intro t h
  unfold execChannelTrainingDone at h
  simp only [Host.Outcome.next.injEq] at h
  subst h
  simp only [↓fixed_ite, ite_self, ↓bump_fixed, ↓setChannel_fixed, ↓endEvacuation_fixed, ↓retireChannel_fixed]

theorem leavePosition_fixed (a0) (a1) (a2 : State) : State.fixed (leavePosition a0 a1 a2) = State.fixed a2 := by
  unfold leavePosition
  repeat' (first | simp only [↓fixed_ite, ite_self, ↓setChannel_fixed, ↓endEvacuation_fixed, ↓standAside_fixed, ↓retireChannel_fixed] | split)

theorem execEvacuationDrainDone_fixed (a0) (a1 : State) : ∀ t, (execEvacuationDrainDone a0 a1) = .next t → State.fixed t = State.fixed a1 := by
  intro t h
  unfold execEvacuationDrainDone at h
  simp only [Host.Outcome.next.injEq] at h
  subst h
  repeat' (first | simp only [↓fixed_ite, ite_self, ↓leavePosition_fixed] | split)

theorem setEvacuation_fixed (a0) (a1) (a2 : State) : State.fixed (setEvacuation a0 a1 a2) = State.fixed a2 := by
  unfold setEvacuation
  simp only [↓fixed_eta, ↓fixed_mk]

theorem forwardHops_fixed (a0) (a1) (a2 : State) : State.fixed (forwardHops a0 a1 a2) = State.fixed a2 := by
  unfold forwardHops
  simp only [↓fixed_eta, ↓fixed_mk]

theorem switchMap_fixed (a0) (a1) (a2 : State) : State.fixed (switchMap a0 a1 a2) = State.fixed a2 := by
  unfold switchMap
  repeat' (first | simp only [↓fixed_ite, ite_self, ↓setChannel_fixed, ↓setEvacuation_fixed, ↓forwardHops_fixed, ↓post_fixed, ↓openAll_fixed] | split)

theorem execEvacuationMapSwitch_fixed (a0) (a1 : State) : ∀ t, (execEvacuationMapSwitch a0 a1) = .next t → State.fixed t = State.fixed a1 := by
  intro t h
  unfold execEvacuationMapSwitch at h
  simp only [Host.Outcome.next.injEq] at h
  subst h
  repeat' (first | simp only [↓fixed_ite, ite_self, ↓switchMap_fixed] | split)

theorem setNamespace_fixed (a0) (a1) (a2 : State) : State.fixed (setNamespace a0 a1 a2) = State.fixed a2 := by
  unfold setNamespace
  simp only [↓fixed_eta, ↓fixed_mk]

theorem bumpDie_fixed (a0) (a1) (a2) (a3 : State) : State.fixed (bumpDie a0 a1 a2 a3) = State.fixed a3 := by
  unfold bumpDie
  simp only [↓bump_fixed]

theorem journal_fixed (a0) (a1 : State) : State.fixed (journal a0 a1) = State.fixed a1 := by
  unfold journal
  simp only [↓fixed_eta, ↓fixed_mk]

theorem switchNote_fixed (a0) (a1) (a2 : State) : State.fixed (switchNote a0 a1 a2) = State.fixed a2 := by
  unfold switchNote
  repeat' (first | simp only [↓fixed_eta, ↓fixed_mk, ↓fixed_ite, ite_self, ↓setNamespace_fixed, ↓bumpDie_fixed, ↓journal_fixed] | split)

theorem dropFold_fixed (a0) (a1 : State) : State.fixed (dropFold a0 a1) = State.fixed a1 := by
  unfold dropFold
  simp only [↓fixed_eta, ↓fixed_mk]

theorem eraseBand_fixed (a0) (a1 : State) : State.fixed (eraseBand a0 a1) = State.fixed a1 := by
  unfold eraseBand
  simp only [↓fixed_eta, ↓fixed_mk]

theorem commitFold_fixed (a0) (a1 : State) : State.fixed (commitFold a0 a1) = State.fixed a1 := by
  unfold commitFold
  simp only [↓fixed_eta, ↓fixed_mk, ↓fixed_ite, ite_self, implies_true, ↓switchNote_fixed, ↓dropFold_fixed, ↓eraseBand_fixed, ↓fixed_foldS]

theorem retireDieBlock_fixed (a0) (a1 : State) : State.fixed (retireDieBlock a0 a1) = State.fixed a1 := by
  unfold retireDieBlock
  simp only [↓fixed_eta, ↓fixed_mk, ↓bumpDie_fixed]

theorem closeBand_fixed (a0) (a1 : State) : State.fixed (closeBand a0 a1) = State.fixed a1 := by
  unfold closeBand
  simp only [↓fixed_eta, ↓fixed_mk]

theorem placeBlock_fixed (a0) (a1) (a2) (a3 : State) : ∀ t, (placeBlock a0 a1 a2 a3) = some t → State.fixed t = State.fixed a3 := by
  intro t h
  obtain ⟨p, -, rfl⟩ := Option.map_eq_some_iff.mp h
  simp only [↓fixed_eta, ↓fixed_mk, ↓setNamespace_fixed]

theorem rewriteBlocks_fixed (a0) (a1) (a2 : State) : State.fixed (rewriteBlocks a0 a1 a2) = State.fixed a2 := by
  unfold rewriteBlocks
  repeat' (first | simp only [↓journal_fixed] | refine (fixed_foldS _ (fun _ _ => ?_) _ _).trans ?_ | exact placeBlock_fixed _ _ _ _ _ (by assumption) | split)

theorem bandVerify_fixed (a0) (a1) (a2 : State) : State.fixed (bandVerify a0 a1 a2) = State.fixed a2 := by
  unfold bandVerify
  repeat' (first | simp only [↓fixed_ite, ↓commitFold_fixed, ↓eraseBand_fixed, ↓dropFold_fixed, ↓retireDieBlock_fixed, ↓closeBand_fixed, ↓rewriteBlocks_fixed] | split)

theorem restage_fixed (a0) (a1) (a2 : State) : State.fixed (restage a0 a1 a2) = State.fixed a2 := by
  unfold restage
  repeat' (first | simp only [↓fixed_ite, ↓journal_fixed] | refine (fixed_foldS _ (fun _ _ => ?_) _ _).trans ?_ | exact placeBlock_fixed _ _ _ _ _ (by assumption) | split)

theorem loseOnDie_fixed (a0) (a1) (a2 : State) : State.fixed (loseOnDie a0 a1 a2) = State.fixed a2 := by
  unfold loseOnDie
  simp only [implies_true, ↓bumpDie_fixed, ↓setNamespace_fixed, ↓fixed_foldS]

theorem issueOne_fixed (a0 : State) (a1) : State.fixed (issueOne a0 a1) = State.fixed a0 := by
  unfold issueOne
  repeat' (first | simp only [↓fixed_eta, ↓fixed_mk, ↓fixed_ite] | split)

theorem issueN_fixed (a0) (a1) (a2 : State) : State.fixed (issueN a0 a1 a2) = State.fixed a2 := by
  induction a0 generalizing a2 with
  | zero => rfl
  | succ n ih =>
    unfold issueN
    simp only [↓issueOne_fixed, ↓ih]

theorem issueOn_fixed (a0 : State) (a1) : State.fixed (issueOn a0 a1) = State.fixed a0 := by
  unfold issueOn
  simp only [↓fixed_ite, ite_self, ↓issueN_fixed]

theorem issueFlash_fixed (a0 : State) : State.fixed (issueFlash a0) = State.fixed a0 := by
  unfold issueFlash
  simp only [↓fixed_eta, ↓fixed_mk, implies_true, ↓issueOn_fixed, ↓fixed_foldS]

theorem nvmeEvent_fixed (a0) (a1) (a2 : State) : State.fixed (nvmeEvent a0 a1 a2) = State.fixed a2 := by
  unfold nvmeEvent
  repeat' (first | simp only [↓fixed_eta, ↓fixed_mk, ↓fixed_ite] | split)

theorem failDie_fixed (a0) (a1 : State) : State.fixed (failDie a0 a1) = State.fixed a1 := by
  unfold failDie
  simp only [↓fixed_eta, ↓fixed_mk, ↓fixed_ite, ite_self, implies_true, ↓eraseBand_fixed, ↓dropFold_fixed, ↓restage_fixed, ↓loseOnDie_fixed, ↓rewriteBlocks_fixed, ↓logFault_fixed, ↓issueFlash_fixed, ↓nvmeEvent_fixed, ↓fixed_foldS]

theorem dieError_fixed (a0) (a1) (a2 : State) : State.fixed (dieError a0 a1 a2) = State.fixed a2 := by
  unfold dieError
  simp only [↓fixed_eta, ↓fixed_mk, ↓fixed_ite, ite_self, ↓failDie_fixed]

theorem relocateInto_fixed (a0) (a1) (a2 : State) : State.fixed (relocateInto a0 a1 a2) = State.fixed a2 := by
  induction a0 generalizing a1 a2 with
  | zero => rfl
  | succ n ih =>
    unfold relocateInto
    repeat' (first | simp only [↓fixed_eta, ↓fixed_mk, ↓fixed_ite, implies_true, ↓journal_fixed, ↓setNamespace_fixed, ↓fixed_foldS, ↓ih] | refine (fixed_foldS _ (fun _ _ => ?_) _ _).trans ?_ | split)

theorem drainDies_fixed (a0) (a1 : State) : State.fixed (drainDies a0 a1) = State.fixed a1 := by
  unfold drainDies
  simp only [↓fixed_eta, ↓fixed_mk, ↓issueFlash_fixed, ↓relocateInto_fixed]

theorem eraseDone_fixed (a0) (a1) (a2 : State) : State.fixed (eraseDone a0 a1 a2) = State.fixed a2 := by
  unfold eraseDone
  simp only [↓fixed_eta, ↓fixed_mk, ↓fixed_ite, ite_self, implies_true, ↓bumpDie_fixed, ↓retireDieBlock_fixed, ↓fixed_foldS]

theorem execBandCloseVerify_fixed (a0) (a1) (a2 : State) : ∀ t, (execBandCloseVerify a0 a1 a2) = .next t → State.fixed t = State.fixed a2 := by
  intro t h
  unfold execBandCloseVerify at h
  simp only [Host.Outcome.next.injEq] at h
  subst h
  simp only [↓issueFlash_fixed, ↓bandVerify_fixed]

theorem execClosedBandRead_fixed (a0) (a1) (a2 : State) : ∀ t, (execClosedBandRead a0 a1 a2) = .next t → State.fixed t = State.fixed a2 := by
  intro t h
  unfold execClosedBandRead at h
  simp only [Host.Outcome.next.injEq] at h
  subst h
  simp only [↓fixed_eta, ↓fixed_mk, ↓fixed_ite, ite_self]

theorem execFlashCalibration_fixed (a0) (a1 : State) : ∀ t, (execFlashCalibration a0 a1) = .next t → State.fixed t = State.fixed a1 := by
  intro t h
  unfold execFlashCalibration at h
  simp only [Host.Outcome.next.injEq] at h
  subst h
  simp only [↓fixed_eta, ↓fixed_mk, ↓fixed_ite, ite_self]

theorem execFlashDieFail_fixed (a0) (a1 : State) : ∀ t, (execFlashDieFail a0 a1) = .next t → State.fixed t = State.fixed a1 := by
  intro t h
  unfold execFlashDieFail at h
  simp only [Host.Outcome.next.injEq] at h
  subst h
  simp only [↓fixed_ite, ite_self, ↓failDie_fixed]

theorem execFlashEraseDone_fixed (a0) (a1) (a2 : State) : ∀ t, (execFlashEraseDone a0 a1 a2) = .next t → State.fixed t = State.fixed a2 := by
  intro t h
  unfold execFlashEraseDone at h
  simp only [Host.Outcome.next.injEq] at h
  subst h
  simp only [↓fixed_ite, ite_self, ↓issueFlash_fixed, ↓eraseDone_fixed]

theorem programFailed_fixed (a0) (a1 : State) : State.fixed (programFailed a0 a1) = State.fixed a1 := by
  unfold programFailed
  simp only [↓closeBand_fixed, ↓retireDieBlock_fixed, ↓rewriteBlocks_fixed, ↓restage_fixed]

theorem programDone_fixed (a0) (a1) (a2 : State) : State.fixed (programDone a0 a1 a2) = State.fixed a2 := by
  unfold programDone
  repeat' (first | simp only [↓fixed_eta, ↓fixed_mk, ↓bumpDie_fixed] | split)

theorem execFlashProgramDone_fixed (a0) (a1) (a2) (a3 : State) : ∀ t, (execFlashProgramDone a0 a1 a2 a3) = .next t → State.fixed t = State.fixed a3 := by
  intro t h
  unfold execFlashProgramDone at h
  simp only [Host.Outcome.next.injEq] at h
  subst h
  repeat' (first | simp only [↓fixed_ite, ite_self, ↓issueFlash_fixed, ↓programFailed_fixed, ↓programDone_fixed] | split)

theorem readDone_fixed (a0) (a1) (a2) (a3 : State) : State.fixed (readDone a0 a1 a2 a3) = State.fixed a3 := by
  unfold readDone
  repeat' (first | simp only [↓fixed_ite, ite_self, ↓bumpDie_fixed, ↓dieError_fixed, ↓setNamespace_fixed] | split)

theorem execFlashReadDone_fixed (a0) (a1) (a2) (a3 : State) : ∀ t, (execFlashReadDone a0 a1 a2 a3) = .next t → State.fixed t = State.fixed a3 := by
  intro t h
  unfold execFlashReadDone at h
  simp only [Host.Outcome.next.injEq] at h
  subst h
  simp only [↓fixed_ite, ite_self, ↓readDone_fixed]

theorem startFold_fixed (a0) (a1) (a2 : State) : State.fixed (startFold a0 a1 a2) = State.fixed a2 := by
  unfold startFold
  repeat' (first | simp only [↓fixed_eta, ↓fixed_mk, ↓fixed_ite, implies_true, ↓eraseBand_fixed, ↓fixed_foldS] | refine (fixed_foldS _ (fun _ _ => ?_) _ _).trans ?_ | split)

theorem execFoldStart_fixed (a0 : State) : ∀ t, (execFoldStart a0) = .next t → State.fixed t = State.fixed a0 := by
  intro t h
  unfold execFoldStart at h
  simp only [Host.Outcome.next.injEq] at h
  subst h
  simp only [↓fixed_ite, ite_self, ↓issueFlash_fixed, ↓startFold_fixed]

theorem execGcStart_fixed (a0 : State) : ∀ t, (execGcStart a0) = .next t → State.fixed t = State.fixed a0 := by
  intro t h
  unfold execGcStart at h
  simp only [Host.Outcome.next.injEq] at h
  subst h
  repeat' (first | simp only [↓fixed_ite, ↓issueFlash_fixed, ↓startFold_fixed] | split)

theorem flushJournal_fixed (a0 : State) : State.fixed (flushJournal a0) = State.fixed a0 := by
  unfold flushJournal
  simp only [↓fixed_eta, ↓fixed_mk]

theorem execJournalFlush_fixed (a0 : State) : ∀ t, (execJournalFlush a0) = .next t → State.fixed t = State.fixed a0 := by
  intro t h
  unfold execJournalFlush at h
  simp only [Host.Outcome.next.injEq] at h
  subst h
  simp only [↓fixed_ite, ite_self, ↓flushJournal_fixed]

theorem scanDone_fixed (a0 : State) : State.fixed (scanDone a0) = State.fixed a0 := by
  unfold scanDone
  simp only [↓fixed_eta, ↓fixed_mk, implies_true, ↓bumpDie_fixed, ↓nvmeEvent_fixed, ↓fixed_foldS]

theorem execMapScanDone_fixed (a0 : State) : ∀ t, (execMapScanDone a0) = .next t → State.fixed t = State.fixed a0 := by
  intro t h
  unfold execMapScanDone at h
  simp only [Host.Outcome.next.injEq] at h
  subst h
  simp only [↓fixed_ite, ite_self, ↓scanDone_fixed]

theorem placeAll_fixed (a0) (a1) (a2) (a3 : State) : ∀ t, (placeAll a0 a1 a2 a3) = some t → State.fixed t = State.fixed a3 := by
  induction a2 generalizing a1 a3 with
  | nil => intro t h; cases h; rfl
  | cons x xs ih =>
    intro t h
    obtain ⟨u, h1, h2⟩ := Option.bind_eq_some_iff.mp h
    exact (ih _ _ _ h2).trans (placeBlock_fixed _ _ _ _ _ h1)

theorem stagePortion_fixed (a0) (a1 : State) : ∀ t, (stagePortion a0 a1) = some t → State.fixed t.2 = State.fixed a1 := by
  intro t h
  unfold stagePortion at h
  split at h
  · cases h
  · dsimp only at h
    split at h
    · obtain ⟨u, h1, rfl⟩ := Option.map_eq_some_iff.mp h
      simp only [↓journal_fixed]
      exact placeAll_fixed _ _ _ _ _ h1
    · cases h

theorem stageWrite_fixed (a0) (a1) (a2 : State) : State.fixed (stageWrite a0 a1 a2).2 = State.fixed a2 := by
  induction a0 generalizing a1 a2 with
  | zero => rfl
  | succ n ih =>
    unfold stageWrite
    repeat' (first | simp only [↓ih] | exact stagePortion_fixed _ _ _ (by assumption) | split)

theorem unmapBlocks_fixed (a0) (a1) (a2 : State) : State.fixed (unmapBlocks a0 a1 a2) = State.fixed a2 := by
  unfold unmapBlocks
  simp only [↓fixed_eta, ↓fixed_mk, ↓setNamespace_fixed]

theorem setCtrl_fixed (a0) (a1) (a2 : State) : State.fixed (setCtrl a0 a1 a2) = State.fixed a2 := by
  unfold setCtrl
  simp only [↓fixed_eta, ↓fixed_mk]

theorem complete_fixed (a0) (a1) (a2) (a3) (a4) (a5 : State) : State.fixed (complete a0 a1 a2 a3 a4 a5) = State.fixed a5 := by
  unfold complete
  repeat' (first | simp only [↓fixed_eta, ↓fixed_mk, ↓fixed_ite, ite_self, ↓setCtrl_fixed, ↓raiseMsix_fixed] | split)

theorem takeEntry_fixed (a0) (a1) (a2 : State) : State.fixed (takeEntry a0 a1 a2) = State.fixed a2 := by
  unfold takeEntry
  simp only [↓setCtrl_fixed]

theorem abortCommand_fixed (a0) (a1) (a2) (a3) (a4) (a5 : State) : State.fixed (abortCommand a0 a1 a2 a3 a4 a5) = State.fixed a5 := by
  unfold abortCommand
  simp only [↓fixed_eta, ↓fixed_mk, ↓fixed_ite, ite_self, ↓complete_fixed, ↓takeEntry_fixed]

theorem nvmeRun_fixed (a0) (a1) (a2) (a3 : State) (ha2 : ∀ z0, State.fixed (a2 z0) = State.fixed z0) : State.fixed (nvmeRun a0 a1 a2 a3) = State.fixed a3 := by
  unfold nvmeRun
  simp only [↓fixed_ite, ite_self, ↓takeEntry_fixed, ha2]

theorem adminDone_fixed (a0) (a1) (a2) : State.fixed (adminDone a0 a1 a2) = State.fixed a2.2.2 := by
  unfold adminDone
  simp only [↓complete_fixed]

theorem admin_fixed (a0) (a1) (a2) (a3 : State) (ha2 : ∀ z0, State.fixed (a2 z0).2.2 = State.fixed z0) : ∀ t, (admin a0 a1 a2 a3) = .next t → State.fixed t = State.fixed a3 := by
  intro t h
  unfold admin at h
  simp only [Host.Outcome.next.injEq] at h
  subst h
  simp only [implies_true, ↓nvmeRun_fixed, ↓adminDone_fixed, ha2]

theorem admitWrites_fixed (a0) (a1 : State) : State.fixed (admitWrites a0 a1) = State.fixed a1 := by
  induction a0 generalizing a1 with
  | nil => rfl
  | cons x xs ih =>
    unfold admitWrites
    simp only [↓fixed_eta, ↓fixed_mk, ↓fixed_ite, ite_self, ↓stageWrite_fixed, ↓countIn_fixed, ↓complete_fixed, ↓ih]

theorem admitAll_fixed (a0 : State) : State.fixed (admitAll a0) = State.fixed a0 := by
  unfold admitAll
  simp only [↓issueFlash_fixed, ↓admitWrites_fixed]

theorem nvmeFail_fixed (a0) (a1 : State) : State.fixed (nvmeFail a0 a1).2.2 = State.fixed a1 := by
  unfold nvmeFail
  simp only []

theorem nvmeOk_fixed (a0 : State) : State.fixed (nvmeOk a0).2.2 = State.fixed a0 := by
  unfold nvmeOk
  simp only []

theorem tellChanged_fixed (a0) (a1) (a2 : State) : State.fixed (tellChanged a0 a1 a2) = State.fixed a2 := by
  unfold tellChanged
  simp only [implies_true, ↓nvmeEvent_fixed, ↓setCtrl_fixed, ↓fixed_foldS]

theorem attachment_fixed (a0) (a1) (a2) (a3 : State) : State.fixed (attachment a0 a1 a2 a3).2.2 = State.fixed a3 := by
  unfold attachment
  repeat' (first | simp only [↓nvmeFail_fixed, ↓nvmeOk_fixed, ↓tellChanged_fixed, ↓journal_fixed, ↓setNamespace_fixed] | split)

theorem createCq_fixed (a0) (a1) (a2) (a3) (a4 : State) : State.fixed (createCq a0 a1 a2 a3 a4).2.2 = State.fixed a4 := by
  unfold createCq
  repeat' (first | simp only [↓nvmeFail_fixed, ↓nvmeOk_fixed, ↓setCtrl_fixed] | split)

theorem createNamespace_fixed (a0) (a1 : State) : State.fixed (createNamespace a0 a1).2.2 = State.fixed a1 := by
  unfold createNamespace
  repeat' (first | simp only [↓fixed_eta, ↓fixed_mk, ↓nvmeFail_fixed, ↓journal_fixed] | split)

theorem createSq_fixed (a0) (a1) (a2) (a3) (a4 : State) : State.fixed (createSq a0 a1 a2 a3 a4).2.2 = State.fixed a4 := by
  unfold createSq
  repeat' (first | simp only [↓nvmeFail_fixed, ↓nvmeOk_fixed, ↓setCtrl_fixed] | split)

theorem deallocate_fixed (a0) (a1) (a2) (a3) (a4) (a5 : State) : State.fixed (deallocate a0 a1 a2 a3 a4 a5) = State.fixed a5 := by
  unfold deallocate
  repeat' (first | simp only [↓fixed_ite, ↓complete_fixed, ↓issueFlash_fixed, ↓journal_fixed, ↓unmapBlocks_fixed] | split)

theorem deleteCq_fixed (a0) (a1) (a2 : State) : State.fixed (deleteCq a0 a1 a2).2.2 = State.fixed a2 := by
  unfold deleteCq
  repeat' (first | simp only [↓nvmeFail_fixed, ↓nvmeOk_fixed, ↓setCtrl_fixed] | split)

theorem endScans_fixed (a0) (a1 : State) : State.fixed (endScans a0 a1) = State.fixed a1 := by
  unfold endScans
  repeat' (first | simp only [↓fixed_eta, ↓fixed_mk, ↓badField_fixed] | refine (fixed_foldS _ (fun _ _ => ?_) _ _).trans ?_ | split)

theorem removeNamespace_fixed (a0) (a1 : State) : State.fixed (removeNamespace a0 a1) = State.fixed a1 := by
  unfold removeNamespace
  simp only [↓fixed_eta, ↓fixed_mk, implies_true, ↓endScans_fixed, ↓complete_fixed, ↓tellChanged_fixed, ↓journal_fixed, ↓fixed_foldS]

theorem deleteNamespace_fixed (a0) (a1 : State) : State.fixed (deleteNamespace a0 a1).2.2 = State.fixed a1 := by
  unfold deleteNamespace
  repeat' (first | simp only [implies_true, ↓nvmeFail_fixed, ↓nvmeOk_fixed, ↓removeNamespace_fixed, ↓fixed_foldS] | refine (fixed_foldS _ (fun _ _ => ?_) _ _).trans ?_ | split)

theorem deleteSq_fixed (a0) (a1) (a2 : State) : State.fixed (deleteSq a0 a1 a2).2.2 = State.fixed a2 := by
  unfold deleteSq
  repeat' (first | simp only [↓fixed_eta, ↓fixed_mk, implies_true, ↓nvmeFail_fixed, ↓complete_fixed, ↓nvmeOk_fixed, ↓setCtrl_fixed, ↓fixed_foldS] | refine (fixed_foldS _ (fun _ _ => ?_) _ _).trans ?_ | split)

theorem drainCq_fixed (a0) (a1) (a2 : State) : State.fixed (drainCq a0 a1 a2) = State.fixed a2 := by
  unfold drainCq
  simp only [implies_true, ↓complete_fixed, ↓fixed_foldS]

theorem enableCtrl_fixed (a0) (a1) (a2) (a3 : State) : State.fixed (enableCtrl a0 a1 a2 a3) = State.fixed a3 := by
  unfold enableCtrl
  simp only [↓setCtrl_fixed]

theorem eventRequest_fixed (a0) (a1) (a2 : State) : State.fixed (eventRequest a0 a1 a2) = State.fixed a2 := by
  unfold eventRequest
  repeat' (first | simp only [↓fixed_eta, ↓fixed_mk, ↓fixed_ite, ↓complete_fixed, ↓setCtrl_fixed] | split)

theorem execDatasetManagement_fixed (a0) (a1) (a2) (a3) (a4) (a5 : State) : ∀ t, (execDatasetManagement a0 a1 a2 a3 a4 a5) = .next t → State.fixed t = State.fixed a5 := by
  intro t h
  unfold execDatasetManagement at h
  simp only [Host.Outcome.next.injEq] at h
  subst h
  simp only [↓fixed_ite, ite_self, implies_true, ↓nvmeRun_fixed, ↓deallocate_fixed]

theorem primaryOnly_fixed (a0) (a1) (a2 : State) (ha1 : ∀ z0, State.fixed (a1 z0).2.2 = State.fixed z0) : State.fixed (primaryOnly a0 a1 a2).2.2 = State.fixed a2 := by
  unfold primaryOnly
  repeat' (first | simp only [↓nvmeFail_fixed, ha1] | split)

theorem formatNamespaces_fixed (a0) (a1) (a2 : State) : State.fixed (formatNamespaces a0 a1 a2).2.2 = State.fixed a2 := by
  unfold formatNamespaces
  repeat' (first | simp only [implies_true, ↓nvmeFail_fixed, ↓nvmeOk_fixed, ↓issueFlash_fixed, ↓journal_fixed, ↓unmapBlocks_fixed, ↓fixed_foldS] | refine (fixed_foldS _ (fun _ _ => ?_) _ _).trans ?_ | split)

theorem execFormatNvm_fixed (a0) (a1) (a2) (a3) (a4 : State) : ∀ t, (execFormatNvm a0 a1 a2 a3 a4) = .next t → State.fixed t = State.fixed a4 := by
  intro t h
  unfold execFormatNvm at h
  refine admin_fixed _ _ _ _ (fun _ => ?_) t h
  simp only [implies_true, ↓primaryOnly_fixed, ↓formatNamespaces_fixed]

theorem lbaStatus_fixed (a0) (a1) (a2) (a3 : State) : State.fixed (lbaStatus a0 a1 a2 a3).2.2 = State.fixed a3 := by
  unfold lbaStatus
  repeat' (first | simp only [↓nvmeFail_fixed] | split)

theorem execGetLbaStatus_fixed (a0) (a1) (a2) (a3) (a4 : State) : ∀ t, (execGetLbaStatus a0 a1 a2 a3 a4) = .next t → State.fixed t = State.fixed a4 := by
  intro t h
  unfold execGetLbaStatus at h
  refine admin_fixed _ _ _ _ (fun _ => ?_) t h
  simp only [↓lbaStatus_fixed]

theorem execNamespaceAttachment_fixed (a0) (a1) (a2) (a3) (a4) (a5 : State) : ∀ t, (execNamespaceAttachment a0 a1 a2 a3 a4 a5) = .next t → State.fixed t = State.fixed a5 := by
  intro t h
  unfold execNamespaceAttachment at h
  refine admin_fixed _ _ _ _ (fun _ => ?_) t h
  simp only [implies_true, ↓primaryOnly_fixed, ↓attachment_fixed]

theorem execNamespaceCreate_fixed (a0) (a1) (a2) (a3 : State) : ∀ t, (execNamespaceCreate a0 a1 a2 a3) = .next t → State.fixed t = State.fixed a3 := by
  intro t h
  unfold execNamespaceCreate at h
  refine admin_fixed _ _ _ _ (fun _ => ?_) t h
  simp only [implies_true, ↓primaryOnly_fixed, ↓createNamespace_fixed]

theorem execNamespaceDelete_fixed (a0) (a1) (a2) (a3 : State) : ∀ t, (execNamespaceDelete a0 a1 a2 a3) = .next t → State.fixed t = State.fixed a3 := by
  intro t h
  unfold execNamespaceDelete at h
  split at h
  · cases h; rfl
  · exact admin_fixed _ _ _ _ (fun _ => primaryOnly_fixed _ _ _ (fun _ => deleteNamespace_fixed _ _)) t h

theorem execNvmeAbort_fixed (a0) (a1) (a2) (a3) (a4) (a5 : State) : ∀ t, (execNvmeAbort a0 a1 a2 a3 a4 a5) = .next t → State.fixed t = State.fixed a5 := by
  intro t h
  unfold execNvmeAbort at h
  simp only [Host.Outcome.next.injEq] at h
  subst h
  simp only [implies_true, ↓nvmeRun_fixed, ↓abortCommand_fixed]

theorem execNvmeAsyncEventRequest_fixed (a0) (a1) (a2 : State) : ∀ t, (execNvmeAsyncEventRequest a0 a1 a2) = .next t → State.fixed t = State.fixed a2 := by
  intro t h
  unfold execNvmeAsyncEventRequest at h
  simp only [Host.Outcome.next.injEq] at h
  subst h
  simp only [implies_true, ↓nvmeRun_fixed, ↓eventRequest_fixed]

theorem execNvmeControllerEnable_fixed (a0) (a1) (a2) (a3 : State) : ∀ t, (execNvmeControllerEnable a0 a1 a2 a3) = .next t → State.fixed t = State.fixed a3 := by
  intro t h
  unfold execNvmeControllerEnable at h
  simp only [Host.Outcome.next.injEq] at h
  subst h
  simp only [↓fixed_ite, ite_self, ↓enableCtrl_fixed]

theorem resetCtrl_fixed (a0) (a1 : State) : State.fixed (resetCtrl a0 a1) = State.fixed a1 := by
  unfold resetCtrl
  simp only [↓fixed_eta, ↓fixed_mk]

theorem execNvmeControllerReset_fixed (a0) (a1 : State) : ∀ t, (execNvmeControllerReset a0 a1) = .next t → State.fixed t = State.fixed a1 := by
  intro t h
  unfold execNvmeControllerReset at h
  simp only [Host.Outcome.next.injEq] at h
  subst h
  simp only [↓fixed_ite, ite_self, ↓resetCtrl_fixed]

theorem execNvmeCqHeadDoorbell_fixed (a0) (a1) (a2) (a3 : State) : ∀ t, (execNvmeCqHeadDoorbell a0 a1 a2 a3) = .next t → State.fixed t = State.fixed a3 := by
  intro t h
  unfold execNvmeCqHeadDoorbell at h
  simp only [Host.Outcome.next.injEq] at h
  subst h
  repeat' (first | simp only [↓fixed_ite, ite_self, ↓nvmeEvent_fixed, ↓drainCq_fixed, ↓setCtrl_fixed] | split)

theorem execNvmeCreateIoCq_fixed (a0) (a1) (a2) (a3) (a4) (a5 : State) : ∀ t, (execNvmeCreateIoCq a0 a1 a2 a3 a4 a5) = .next t → State.fixed t = State.fixed a5 := by
  intro t h
  unfold execNvmeCreateIoCq at h
  refine admin_fixed _ _ _ _ (fun _ => ?_) t h
  simp only [↓createCq_fixed]

theorem execNvmeCreateIoSq_fixed (a0) (a1) (a2) (a3) (a4) (a5 : State) : ∀ t, (execNvmeCreateIoSq a0 a1 a2 a3 a4 a5) = .next t → State.fixed t = State.fixed a5 := by
  intro t h
  unfold execNvmeCreateIoSq at h
  refine admin_fixed _ _ _ _ (fun _ => ?_) t h
  simp only [↓createSq_fixed]

theorem execNvmeDeleteIoCq_fixed (a0) (a1) (a2) (a3 : State) : ∀ t, (execNvmeDeleteIoCq a0 a1 a2 a3) = .next t → State.fixed t = State.fixed a3 := by
  intro t h
  unfold execNvmeDeleteIoCq at h
  refine admin_fixed _ _ _ _ (fun _ => ?_) t h
  simp only [↓deleteCq_fixed]

theorem execNvmeDeleteIoSq_fixed (a0) (a1) (a2) (a3 : State) : ∀ t, (execNvmeDeleteIoSq a0 a1 a2 a3) = .next t → State.fixed t = State.fixed a3 := by
  intro t h
  unfold execNvmeDeleteIoSq at h
  refine admin_fixed _ _ _ _ (fun _ => ?_) t h
  simp only [↓deleteSq_fixed]

theorem execNvmeFlush_fixed (a0) (a1) (a2) (a3) (a4 : State) : ∀ t, (execNvmeFlush a0 a1 a2 a3 a4) = .next t → State.fixed t = State.fixed a4 := by
  intro t h
  unfold execNvmeFlush at h
  simp only [Host.Outcome.next.injEq] at h
  subst h
  simp only [implies_true, ↓nvmeRun_fixed, ↓complete_fixed]

theorem getFeature_fixed (a0) (a1) (a2 : State) : State.fixed (getFeature a0 a1 a2).2.2 = State.fixed a2 := by
  unfold getFeature
  repeat' (first | simp only [↓nvmeFail_fixed] | split)

theorem execNvmeGetFeatures_fixed (a0) (a1) (a2) (a3 : State) : ∀ t, (execNvmeGetFeatures a0 a1 a2 a3) = .next t → State.fixed t = State.fixed a3 := by
  intro t h
  unfold execNvmeGetFeatures at h
  refine admin_fixed _ _ _ _ (fun _ => ?_) t h
  simp only [↓getFeature_fixed]

theorem logPage_fixed (a0) (a1) (a2) (a3 : State) : State.fixed (logPage a0 a1 a2 a3).2.2 = State.fixed a3 := by
  unfold logPage
  repeat' (first | simp only [↓nvmeFail_fixed, ↓setCtrl_fixed] | split)

theorem execNvmeGetLogPage_fixed (a0) (a1) (a2) (a3) (a4 : State) : ∀ t, (execNvmeGetLogPage a0 a1 a2 a3 a4) = .next t → State.fixed t = State.fixed a4 := by
  intro t h
  unfold execNvmeGetLogPage at h
  refine admin_fixed _ _ _ _ (fun _ => ?_) t h
  simp only [↓logPage_fixed]

theorem identify_fixed (a0) (a1) (a2) (a3 : State) : State.fixed (identify a0 a1 a2 a3).2.2 = State.fixed a3 := by
  unfold identify
  repeat' (first | simp only [↓nvmeFail_fixed] | split)

theorem execNvmeIdentify_fixed (a0) (a1) (a2) (a3) (a4 : State) : ∀ t, (execNvmeIdentify a0 a1 a2 a3 a4) = .next t → State.fixed t = State.fixed a4 := by
  intro t h
  unfold execNvmeIdentify at h
  refine admin_fixed _ _ _ _ (fun _ => ?_) t h
  simp only [↓identify_fixed]

theorem readBlocks_fixed (a0) (a1) (a2) (a3) (a4) (a5) (a6) (a7 : State) : State.fixed (readBlocks a0 a1 a2 a3 a4 a5 a6 a7) = State.fixed a7 := by
  unfold readBlocks
  repeat' (first | simp only [↓fixed_ite, ↓complete_fixed] | split)

theorem execNvmeRead_fixed (a0) (a1) (a2) (a3) (a4) (a5) (a6 : State) : ∀ t, (execNvmeRead a0 a1 a2 a3 a4 a5 a6) = .next t → State.fixed t = State.fixed a6 := by
  intro t h
  unfold execNvmeRead at h
  simp only [Host.Outcome.next.injEq] at h
  subst h
  simp only [↓fixed_ite, ite_self, implies_true, ↓nvmeRun_fixed, ↓readBlocks_fixed]

theorem setFeature_fixed (a0) (a1) (a2) (a3 : State) : State.fixed (setFeature a0 a1 a2 a3).2.2 = State.fixed a3 := by
  unfold setFeature
  repeat' (first | simp only [↓nvmeOk_fixed, ↓setCtrl_fixed, ↓nvmeFail_fixed] | split)

theorem execNvmeSetFeatures_fixed (a0) (a1) (a2) (a3) (a4 : State) : ∀ t, (execNvmeSetFeatures a0 a1 a2 a3 a4) = .next t → State.fixed t = State.fixed a4 := by
  intro t h
  unfold execNvmeSetFeatures at h
  refine admin_fixed _ _ _ _ (fun _ => ?_) t h
  simp only [↓setFeature_fixed]

theorem execNvmeSqTailDoorbell_fixed (a0) (a1) (a2) (a3 : State) : ∀ t, (execNvmeSqTailDoorbell a0 a1 a2 a3) = .next t → State.fixed t = State.fixed a3 := by
  intro t h
  unfold execNvmeSqTailDoorbell at h
  simp only [Host.Outcome.next.injEq] at h
  subst h
  repeat' (first | simp only [↓fixed_ite, ite_self, ↓nvmeEvent_fixed, ↓setCtrl_fixed] | split)

theorem execNvmeVerify_fixed (a0) (a1) (a2) (a3) (a4) (a5) (a6 : State) : ∀ t, (execNvmeVerify a0 a1 a2 a3 a4 a5 a6) = .next t → State.fixed t = State.fixed a6 := by
  intro t h
  unfold execNvmeVerify at h
  simp only [Host.Outcome.next.injEq] at h
  subst h
  simp only [↓fixed_ite, ite_self, implies_true, ↓nvmeRun_fixed, ↓readBlocks_fixed]

theorem writeBlocks_fixed (a0) (a1) (a2) (a3) (a4) (a5) (a6 : State) : State.fixed (writeBlocks a0 a1 a2 a3 a4 a5 a6) = State.fixed a6 := by
  unfold writeBlocks
  repeat' (first | simp only [↓fixed_eta, ↓fixed_mk, ↓fixed_ite, ite_self, ↓complete_fixed, ↓admitAll_fixed] | split)

theorem execNvmeWrite_fixed (a0) (a1) (a2) (a3) (a4) (a5) (a6) (a7 : State) : ∀ t, (execNvmeWrite a0 a1 a2 a3 a4 a5 a6 a7) = .next t → State.fixed t = State.fixed a7 := by
  intro t h
  unfold execNvmeWrite at h
  simp only [Host.Outcome.next.injEq] at h
  subst h
  repeat' (first | simp only [↓complete_fixed, ↓writeBlocks_fixed] | refine (nvmeRun_fixed _ _ _ _ (fun _ => ?_)).trans ?_ | split)

theorem execStagingAdmit_fixed (a0 : State) : ∀ t, (execStagingAdmit a0) = .next t → State.fixed t = State.fixed a0 := by
  intro t h
  unfold execStagingAdmit at h
  simp only [Host.Outcome.next.injEq] at h
  subst h
  simp only [↓fixed_ite, ite_self, ↓admitAll_fixed]

theorem writeZeroes_fixed (a0) (a1) (a2) (a3) (a4) (a5) (a6 : State) : State.fixed (writeZeroes a0 a1 a2 a3 a4 a5 a6) = State.fixed a6 := by
  unfold writeZeroes
  simp only [↓fixed_ite, ite_self, ↓complete_fixed, ↓deallocate_fixed]

theorem execWriteZeroes_fixed (a0) (a1) (a2) (a3) (a4) (a5) (a6 : State) : ∀ t, (execWriteZeroes a0 a1 a2 a3 a4 a5 a6) = .next t → State.fixed t = State.fixed a6 := by
  intro t h
  unfold execWriteZeroes at h
  simp only [Host.Outcome.next.injEq] at h
  subst h
  simp only [↓fixed_ite, ite_self, implies_true, ↓nvmeRun_fixed, ↓writeZeroes_fixed]

end Sys2Proof.Machine
end

