-- ==== Sys2Proof/Laws/FixedDevice.lean ====
section
/-! SUPPORT. What only pins, resets and the sideband change stays as it is: retirement, scans, updates, power and the sideband. -/

open Sys2Proof
namespace Sys2Proof.Machine

theorem setIsland_fixed (a0) (a1) (a2 : State) : State.fixed (setIsland a0 a1 a2) = State.fixed a2 := by
  unfold setIsland
  simp only [↓fixed_eta, ↓fixed_mk]

theorem leaveAtBoundary_fixed (a0) (a1) (a2) (a3 : State) : State.fixed (leaveAtBoundary a0 a1 a2 a3) = State.fixed a3 := by
  unfold leaveAtBoundary
  simp only [↓leaveIslands_fixed, ↓setIsland_fixed]

theorem failChannel_fixed (a0) (a1 : State) : State.fixed (failChannel a0 a1) = State.fixed a1 := by
  unfold failChannel
  repeat' (first | simp only [↓fixed_eta, ↓fixed_mk, ↓fixed_ite, ite_self, implies_true, ↓logFault_fixed, ↓losePosition_fixed, ↓retireChannel_fixed, ↓startEvacuation_fixed, ↓endEvacuation_fixed, ↓fixed_foldS] | refine (fixed_foldS _ (fun _ _ => ?_) _ _).trans ?_ | split)

theorem leavePort_fixed (a0) (a1 : State) : State.fixed (leavePort a0 a1) = State.fixed a1 := by
  unfold leavePort
  simp only [↓fixed_ite, ite_self, ↓setPort_fixed, ↓leaveNow_fixed, ↓linkDown_fixed]

theorem autoRetire_fixed (a0) (a1 : State) : State.fixed (autoRetire a0 a1) = State.fixed a1 := by
  unfold autoRetire
  repeat' (first | simp only [↓fixed_ite, ite_self, implies_true, ↓leaveAtBoundary_fixed, ↓logFault_fixed, ↓loseStore_fixed, ↓loseCourse_fixed, ↓failChannel_fixed, ↓leavePort_fixed, ↓failover_fixed, ↓failDie_fixed, ↓leaveNow_fixed, ↓fixed_foldS] | refine (fixed_foldS _ (fun _ _ => ?_) _ _).trans ?_ | split)

theorem correctedWords_fixed (a0) (a1) (a2 : State) : State.fixed (correctedWords a0 a1 a2) = State.fixed a2 := by
  unfold correctedWords
  simp only [↓bump_fixed, ↓setChannel_fixed]

theorem channelErrors_fixed (a0) (a1) (a2 : State) : State.fixed (channelErrors a0 a1 a2) = State.fixed a2 := by
  unfold channelErrors
  repeat' (first | simp only [↓correctedWords_fixed, ↓bump_fixed] | split)

theorem readLog_fixed (a0) (a1 : State) : State.fixed (readLog a0 a1) = State.fixed a1 := by
  unfold readLog
  simp only [↓fixed_ite, ite_self, ↓finish_fixed]

theorem execFaultLogRead_fixed (a0) (a1 : State) : ∀ t, (execFaultLogRead a0 a1) = .next t → State.fixed t = State.fixed a1 := by
  intro t h
  unfold execFaultLogRead at h
  simp only [Host.Outcome.next.injEq] at h
  subst h
  simp only [implies_true, ↓runCmd_fixed, ↓readLog_fixed]

theorem execFaultLogSave_fixed (a0 : State) : ∀ t, (execFaultLogSave a0) = .next t → State.fixed t = State.fixed a0 := by
  intro t h
  unfold execFaultLogSave at h
  simp only [Host.Outcome.next.injEq] at h
  subst h
  simp only [↓fixed_eta, ↓fixed_mk, ↓fixed_ite, ite_self]

theorem missed_fixed (a0) (a1 : State) : State.fixed (missed a0 a1) = State.fixed a1 := by
  unfold missed
  simp only [↓fixed_ite, ite_self, ↓setIsland_fixed, ↓autoRetire_fixed]

theorem execHeartbeatMiss_fixed (a0) (a1 : State) : ∀ t, (execHeartbeatMiss a0 a1) = .next t → State.fixed t = State.fixed a1 := by
  intro t h
  unfold execHeartbeatMiss at h
  simp only [Host.Outcome.next.injEq] at h
  subst h
  simp only [↓fixed_ite, ite_self, ↓missed_fixed]

theorem uncorrectable_fixed (a0) (a1) (a2) (a3 : State) : State.fixed (uncorrectable a0 a1 a2 a3) = State.fixed a3 := by
  unfold uncorrectable
  simp only [↓fixed_ite, ite_self, ↓setIsland_fixed, ↓logFault_fixed, ↓bump_fixed, ↓autoRetire_fixed]

theorem setNodeBad_fixed (a0) (a1) (a2) (a3 : State) : State.fixed (setNodeBad a0 a1 a2 a3) = State.fixed a3 := by
  unfold setNodeBad
  simp only [↓fixed_eta, ↓fixed_mk]

theorem reach_fixed (a0) (a1 : State) : State.fixed (reach a0 a1) = State.fixed a1 := by
  unfold reach
  repeat' (first | simp only [↓fixed_eta, ↓fixed_mk, ↓fixed_ite, ite_self, ↓setSeq_fixed, ↓setCorpus_fixed, ↓setNodeBad_fixed, ↓replayStep_fixed, ↓flushJournal_fixed, ↓setNamespace_fixed] | split)

theorem faultReport_fixed (a0) (a1) (a2 : State) : State.fixed (faultReport a0 a1 a2) = State.fixed a2 := by
  unfold faultReport
  repeat' (first | simp only [↓channelErrors_fixed, ↓bump_fixed, ↓uncorrectable_fixed, ↓reach_fixed, ↓logFault_fixed] | split)

theorem execIslandFaultReport_fixed (a0) (a1) (a2 : State) : ∀ t, (execIslandFaultReport a0 a1 a2) = .next t → State.fixed t = State.fixed a2 := by
  intro t h
  unfold execIslandFaultReport at h
  simp only [Host.Outcome.next.injEq] at h
  subst h
  simp only [↓fixed_ite, ite_self, ↓faultReport_fixed]

theorem moveVocabs_fixed (a0) (a1) (a2 : State) : ∀ t, (moveVocabs a0 a1 a2) = some t → State.fixed t = State.fixed a2 := by
  induction a1 generalizing a2 with
  | nil => intro t h; cases h; rfl
  | cons x xs ih =>
    intro t h
    obtain ⟨u, -, h2⟩ := Option.bind_eq_some_iff.mp h
    exact (ih _ _ h2).trans (by simp only [↓fixed_eta, ↓fixed_mk])

theorem moveGrammars_fixed (a0) (a1) (a2 : State) : ∀ t, (moveGrammars a0 a1 a2) = some t → State.fixed t = State.fixed a2 := by
  induction a1 generalizing a2 with
  | nil => intro t h; cases h; rfl
  | cons x xs ih =>
    intro t h
    obtain ⟨u, -, h2⟩ := Option.bind_eq_some_iff.mp h
    exact (ih _ _ h2).trans (by simp only [↓fixed_eta, ↓fixed_mk])

theorem moveQuarters_fixed (a0) (a1) (a2 : State) : ∀ t, (moveQuarters a0 a1 a2) = some t → State.fixed t = State.fixed a2 := by
  induction a1 generalizing a2 with
  | nil => intro t h; cases h; rfl
  | cons x xs ih =>
    intro t h
    obtain ⟨u, -, h2⟩ := Option.bind_eq_some_iff.mp h
    exact (ih _ _ h2).trans (by simp only [↓fixed_eta, ↓fixed_mk])

theorem moveStore_fixed (a0) (a1 : State) : ∀ t, (moveStore a0 a1) = some t → State.fixed t = State.fixed a1 := by
  intro t h
  obtain ⟨u, h1, h2⟩ := Option.bind_eq_some_iff.mp h
  obtain ⟨v, h3, h4⟩ := Option.bind_eq_some_iff.mp h1
  exact ((moveQuarters_fixed _ _ _ _ h2).trans (moveGrammars_fixed _ _ _ _ h4)).trans (moveVocabs_fixed _ _ _ _ h3)

theorem retireStore_fixed (a0) (a1) (a2 : State) : State.fixed (retireStore a0 a1 a2) = State.fixed a2 := by
  unfold retireStore
  repeat' (first | simp only [↓fail_fixed, ↓finish_fixed, ↓leaveNow_fixed] | exact moveStore_fixed _ _ _ (by assumption) | split)

theorem rehome_fixed (a0) (a1 : State) : State.fixed (rehome a0 a1) = State.fixed a1 := by
  unfold rehome
  repeat' (first | simp only [↓fixed_eta, ↓fixed_mk] | split)

theorem finishCourse_fixed (a0) (a1) (a2 : State) : State.fixed (finishCourse a0 a1 a2) = State.fixed a2 := by
  have hs : ∀ (s u : State) (b : Bool), (if b = true then some s else moveStore a0 s) = some u → u.fixed = s.fixed := by
    intro s u b h
    split at h
    · cases h; rfl
    · exact moveStore_fixed _ _ _ h
  unfold finishCourse
  dsimp only
  split
  · simp only [↓fail_fixed, ↓setIsland_fixed]
  · rename_i u hu
    split
    · simp only [↓finish_fixed, ↓setIsland_fixed, ↓leaveNow_fixed, hs _ _ _ hu]
    · simp only [↓finish_fixed, ↓leaveCourse_fixed, ↓setIsland_fixed, ↓loseMapLines_fixed, ↓vanish_fixed, ↓rehome_fixed,
        ↓leaveNow_fixed, hs _ _ _ hu]

theorem retireFabric_fixed (a0) (a1) (a2 : State) : State.fixed (retireFabric a0 a1 a2) = State.fixed a2 := by
  unfold retireFabric
  simp only [↓fixed_ite, ite_self, ↓fail_fixed, ↓setIsland_fixed, ↓setCmd_fixed, ↓finishCourse_fixed]

theorem retireFlash_fixed (a0) (a1) (a2 : State) : State.fixed (retireFlash a0 a1 a2) = State.fixed a2 := by
  unfold retireFlash
  simp only [↓fixed_ite, ite_self, ↓fail_fixed, ↓drainDies_fixed, ↓finish_fixed, ↓leaveNow_fixed]

theorem retireByCommand_fixed (a0) (a1 : State) : State.fixed (retireByCommand a0 a1) = State.fixed a1 := by
  unfold retireByCommand
  repeat' (first | simp only [↓fixed_ite, ite_self, ↓finish_fixed, ↓badField_fixed, ↓fail_fixed, ↓leaveAtBoundary_fixed, ↓setCmd_fixed, ↓retireStore_fixed, ↓retireFabric_fixed, ↓orderEvacuation_fixed, ↓leavePort_fixed, ↓failover_fixed, ↓retireFlash_fixed] | split)

theorem execIslandRetire_fixed (a0) (a1 : State) : ∀ t, (execIslandRetire a0 a1) = .next t → State.fixed t = State.fixed a1 := by
  intro t h
  unfold execIslandRetire at h
  simp only [Host.Outcome.next.injEq] at h
  subst h
  simp only [implies_true, ↓runCmd_fixed, ↓retireByCommand_fixed]

theorem scrubServing_fixed (a0) (a1) (a2 : State) : State.fixed (scrubServing a0 a1 a2) = State.fixed a2 := by
  unfold scrubServing
  simp only [↓bump_fixed, ↓correctedWords_fixed, ↓uncorrectable_fixed]

theorem scrub_fixed (a0) (a1) (a2 : State) : State.fixed (scrub a0 a1 a2) = State.fixed a2 := by
  unfold scrub
  repeat' (first | simp only [↓fixed_ite, ite_self, ↓setChannel_fixed, ↓scrubServing_fixed, ↓logFault_fixed, ↓retireChannel_fixed] | split)

theorem execLpddr6PatrolScrub_fixed (a0) (a1) (a2 : State) : ∀ t, (execLpddr6PatrolScrub a0 a1 a2) = .next t → State.fixed t = State.fixed a2 := by
  intro t h
  unfold execLpddr6PatrolScrub at h
  simp only [Host.Outcome.next.injEq] at h
  subst h
  simp only [↓fixed_ite, ite_self, ↓scrub_fixed]

theorem execSramPatrol_fixed (a0) (a1) (a2) (a3 : State) : ∀ t, (execSramPatrol a0 a1 a2 a3) = .next t → State.fixed t = State.fixed a3 := by
  intro t h
  unfold execSramPatrol at h
  simp only [Host.Outcome.next.injEq] at h
  subst h
  simp only [↓fixed_ite, ite_self, ↓uncorrectable_fixed, ↓bump_fixed, ↓setIsland_fixed]

theorem supervisorMismatch_fixed (a0) (a1 : State) : State.fixed (supervisorMismatch a0 a1) = State.fixed a1 := by
  unfold supervisorMismatch
  simp only [↓fixed_eta, ↓fixed_mk, ↓fixedOf_mk, ↓fixedDev_eta, ↓fixed_ite, ite_self, ↓loseCourse_fixed, ↓logFault_fixed, ↓count_fixed, ↓replayStep_fixed]

theorem execSupervisorLockstepMismatch_fixed (a0) (a1 : State) : ∀ t, (execSupervisorLockstepMismatch a0 a1) = .next t → State.fixed t = State.fixed a1 := by
  intro t h
  unfold execSupervisorLockstepMismatch at h
  simp only [Host.Outcome.next.injEq] at h
  subst h
  simp only [↓fixed_ite, ite_self, ↓supervisorMismatch_fixed]

theorem countChecked_fixed (a0) (a1) (a2 : State) : State.fixed (countChecked a0 a1 a2) = State.fixed a2 := by
  unfold countChecked
  repeat' (first | simp only [↓count_fixed] | split)

theorem countEnd_fixed (a0) (a1) (a2 : State) : State.fixed (countEnd a0 a1 a2) = State.fixed a2 := by
  unfold countEnd
  repeat' (first | simp only [↓count_fixed] | split)

theorem endScan_fixed (a0) (a1) (a2) (a3) (a4 : State) : State.fixed (endScan a0 a1 a2 a3 a4) = State.fixed a4 := by
  unfold endScan
  repeat' (first | simp only [↓fixed_eta, ↓fixed_mk, ↓fixed_ite, ite_self, ↓countEnd_fixed, ↓countChecked_fixed, ↓cancelled_fixed, ↓finish_fixed] | split)

theorem setScan_fixed (a0) (a1) (a2 : State) : State.fixed (setScan a0 a1 a2) = State.fixed a2 := by
  unfold setScan
  simp only [↓fixed_eta, ↓fixed_mk]

theorem execScanContextGrant_fixed (a0) (a1) (a2 : State) : ∀ t, (execScanContextGrant a0 a1 a2) = .next t → State.fixed t = State.fixed a2 := by
  intro t h
  unfold execScanContextGrant at h
  simp only [Host.Outcome.next.injEq] at h
  subst h
  repeat' (first | simp only [↓fixed_ite, ite_self, ↓setScan_fixed] | split)

theorem execScanEnd_fixed (a0) (a1) (a2) (a3 : State) : ∀ t, (execScanEnd a0 a1 a2 a3) = .next t → State.fixed t = State.fixed a3 := by
  intro t h
  unfold execScanEnd at h
  simp only [Host.Outcome.next.injEq] at h
  subst h
  repeat' (first | simp only [↓fixed_ite, ite_self, ↓endScan_fixed] | split)

theorem queryScan_fixed (a0) (a1 : State) : State.fixed (queryScan a0 a1) = State.fixed a1 := by
  unfold queryScan
  simp only [↓answerWith_fixed, ↓State.draw_fixed]

theorem execScanQuery_fixed (a0) (a1 : State) : ∀ t, (execScanQuery a0 a1) = .next t → State.fixed t = State.fixed a1 := by
  intro t h
  unfold execScanQuery at h
  simp only [Host.Outcome.next.injEq] at h
  subst h
  simp only [implies_true, ↓runCmd_fixed, ↓queryScan_fixed]

theorem resume_fixed (a0) (a1 : State) : State.fixed (resume a0 a1) = State.fixed a1 := by
  unfold resume
  simp only [implies_true, ↓orRefuse_fixed, ↓finish_fixed, ↓setScan_fixed]

theorem execScanResume_fixed (a0) (a1 : State) : ∀ t, (execScanResume a0 a1) = .next t → State.fixed t = State.fixed a1 := by
  intro t h
  unfold execScanResume at h
  simp only [Host.Outcome.next.injEq] at h
  subst h
  simp only [implies_true, ↓runCmd_fixed, ↓resume_fixed]

theorem startScan_fixed (a0) (a1 : State) : State.fixed (startScan a0 a1) = State.fixed a1 := by
  unfold startScan
  repeat' (first | simp only [↓fixed_eta, ↓fixed_mk, ↓fixed_ite, ↓badField_fixed, ↓setCmd_fixed] | split)

theorem execScanStart_fixed (a0) (a1 : State) : ∀ t, (execScanStart a0 a1) = .next t → State.fixed t = State.fixed a1 := by
  intro t h
  unfold execScanStart at h
  simp only [Host.Outcome.next.injEq] at h
  subst h
  simp only [implies_true, ↓runCmd_fixed, ↓startScan_fixed]

theorem suspend_fixed (a0) (a1) (a2 : State) : State.fixed (suspend a0 a1 a2) = State.fixed a2 := by
  unfold suspend
  repeat' (first | simp only [↓fixed_ite, ite_self, ↓badField_fixed, ↓conflict_fixed, ↓finish_fixed, ↓setScan_fixed, ↓countChecked_fixed] | split)

theorem execScanSuspend_fixed (a0) (a1) (a2 : State) : ∀ t, (execScanSuspend a0 a1 a2) = .next t → State.fixed t = State.fixed a2 := by
  intro t h
  unfold execScanSuspend at h
  simp only [Host.Outcome.next.injEq] at h
  subst h
  simp only [implies_true, ↓runCmd_fixed, ↓suspend_fixed]

theorem takeObject_fixed (a0) (a1 : State) : State.fixed (takeObject a0 a1) = State.fixed a1 := by
  unfold takeObject
  repeat' (first | simp only [↓fixed_eta, ↓fixed_mk, ↓fixed_ite, ite_self, ↓setIndex_fixed, ↓setTable_fixed] | split)

theorem beginCommand_fixed (a0) (a1 : State) : State.fixed (beginCommand a0 a1) = State.fixed a1 := by
  unfold beginCommand
  simp only [↓fixed_ite, ite_self, ↓takeObject_fixed, ↓setCmd_fixed, ↓State.draw_fixed]

theorem admitCmd_fixed (a0) (a1) (a2 : State) : State.fixed (admitCmd a0 a1 a2) = State.fixed a2 := by
  unfold admitCmd
  simp only [implies_true, ↓dispatch_fixed, ↓orRefuse_fixed, ↓beginCommand_fixed]

theorem execAdmissionDispatch_fixed (a0) (a1 : State) : ∀ t, (execAdmissionDispatch a0 a1) = .next t → State.fixed t = State.fixed a1 := by
  intro t h
  unfold execAdmissionDispatch at h
  simp only [Host.Outcome.next.injEq] at h
  subst h
  repeat' (first | simp only [↓fixed_ite, ↓admitCmd_fixed] | split)

theorem setFirmware_fixed (a0) (a1) (a2 : State) : State.fixed (setFirmware a0 a1 a2) = State.fixed a2 := by
  unfold setFirmware
  simp only [↓fixed_eta, ↓fixed_mk]

theorem logUpdate_fixed (a0) (a1 : State) : State.fixed (logUpdate a0 a1) = State.fixed a1 := by
  unfold logUpdate
  simp only [↓fixed_ite, ite_self, ↓logFault_fixed]

theorem commitUpdate_fixed (a0) (a1 : State) : State.fixed (commitUpdate a0 a1) = State.fixed a1 := by
  unfold commitUpdate
  repeat' (first | simp only [↓fixed_eta, ↓fixed_mk, ↓setFirmware_fixed, ↓logUpdate_fixed, ↓finish_fixed] | split)

theorem beginUpdate_fixed (a0) (a1) (a2 : State) : State.fixed (beginUpdate a0 a1 a2) = State.fixed a2 := by
  unfold beginUpdate
  simp only [↓fixed_eta, ↓fixed_mk, ↓fixed_ite, ite_self, ↓setCmd_fixed, ↓commitUpdate_fixed]

theorem rejected_fixed (a0) (a1) (a2 : State) : State.fixed (rejected a0 a1 a2) = State.fixed a2 := by
  unfold rejected
  simp only [↓fail_fixed, ↓count_fixed]

theorem updateFrom_fixed (a0) (a1) (a2) (a3 : State) : State.fixed (updateFrom a0 a1 a2 a3) = State.fixed a3 := by
  unfold updateFrom
  simp only [↓fixed_ite, ite_self, ↓rejected_fixed, ↓setFirmware_fixed, ↓beginUpdate_fixed]

theorem updateFirmware_fixed (a0) (a1) (a2 : State) : State.fixed (updateFirmware a0 a1 a2) = State.fixed a2 := by
  unfold updateFirmware
  simp only [↓fixed_ite, ite_self, implies_true, ↓conflictDevice_fixed, ↓beginUpdate_fixed, ↓rejected_fixed, ↓withInput_fixed, ↓updateFrom_fixed]

theorem execFirmwareUpdate_fixed (a0) (a1) (a2 : State) : ∀ t, (execFirmwareUpdate a0 a1 a2) = .next t → State.fixed t = State.fixed a2 := by
  intro t h
  unfold execFirmwareUpdate at h
  simp only [Host.Outcome.next.injEq] at h
  subst h
  simp only [implies_true, ↓runCmd_fixed, ↓updateFirmware_fixed]

theorem islandLoaded_fixed (a0) (a1) (a2) (a3 : State) : State.fixed (islandLoaded a0 a1 a2 a3) = State.fixed a3 := by
  unfold islandLoaded
  repeat' (first | simp only [↓fixed_eta, ↓fixed_mk, ↓fixed_ite, ite_self, ↓count_fixed, ↓commitUpdate_fixed, ↓logUpdate_fixed, ↓fail_fixed, ↓autoRetire_fixed] | split)

theorem execIslandFirmwareLoaded_fixed (a0) (a1) (a2 : State) : ∀ t, (execIslandFirmwareLoaded a0 a1 a2) = .next t → State.fixed t = State.fixed a2 := by
  intro t h
  unfold execIslandFirmwareLoaded at h
  simp only [Host.Outcome.next.injEq] at h
  subst h
  repeat' (first | simp only [↓fixed_ite, ite_self, ↓commitUpdate_fixed, ↓islandLoaded_fixed] | split)

theorem startFlash_fixed (a0 : State) : State.fixed (startFlash a0) = State.fixed a0 := by
  unfold startFlash
  simp only [↓fixed_eta, ↓fixed_mk, ↓issueFlash_fixed]

theorem startChannels_fixed (a0) (a1 : State) : State.fixed (startChannels a0 a1) = State.fixed a1 := by
  unfold startChannels
  simp only [↓fixed_eta, ↓fixed_mk, ↓fixed_ite, ite_self, implies_true, ↓retire_fixed, ↓logFault_fixed, ↓fixed_foldS]

theorem checkRecords_fixed (a0 : State) : State.fixed (checkRecords a0) = State.fixed a0 := by
  unfold checkRecords
  repeat' (first | simp only [↓fixed_eta, ↓fixed_mk, ↓fixed_ite, ite_self, ↓logFault_fixed] | split)

theorem chooseFirmware_fixed (a0 : State) : State.fixed (chooseFirmware a0) = State.fixed a0 := by
  unfold chooseFirmware
  simp only [↓fixed_ite, ite_self, implies_true, ↓logFault_fixed, ↓setFirmware_fixed, ↓fixed_foldS]

theorem dropFolds_fixed (a0 : State) : State.fixed (dropFolds a0) = State.fixed a0 := by
  unfold dropFolds
  simp only [implies_true, ↓eraseBand_fixed, ↓dropFold_fixed, ↓fixed_foldS]

theorem cleanFlash_fixed (a0 : State) : State.fixed (cleanFlash a0) = State.fixed a0 := by
  unfold cleanFlash
  simp only [↓fixed_eta, ↓fixed_mk, implies_true, ↓programDone_fixed, ↓dropFolds_fixed, ↓flushJournal_fixed, ↓fixed_foldS]

theorem dropWork_fixed (a0 : State) : State.fixed (dropWork a0) = State.fixed a0 := by
  unfold dropWork
  simp only [↓fixed_eta, ↓fixed_mk]

theorem execFlrPf0_fixed (a0) (a1 : State) : ∀ t, (execFlrPf0 a0 a1) = .next t → State.fixed t = State.fixed a1 := by
  intro t h
  unfold execFlrPf0 at h
  simp only [Host.Outcome.next.injEq] at h
  subst h
  simp only [↓fixed_ite, ite_self, implies_true, ↓flrFn_fixed, ↓fixed_foldS]

theorem execFlrVf_fixed (a0) (a1) (a2 : State) : ∀ t, (execFlrVf a0 a1 a2) = .next t → State.fixed t = State.fixed a2 := by
  intro t h
  unfold execFlrVf at h
  simp only [Host.Outcome.next.injEq] at h
  subst h
  simp only [↓fixed_ite, ite_self, ↓flrFn_fixed]

theorem execNamespaceMapRebuilt_fixed (a0 : State) : ∀ t, (execNamespaceMapRebuilt a0) = .next t → State.fixed t = State.fixed a0 := by
  intro t h
  unfold execNamespaceMapRebuilt at h
  simp only [Host.Outcome.next.injEq] at h
  subst h
  simp only [↓fixed_eta, ↓fixed_mk, ↓fixedOf_mk, ↓fixedDev_eta, ↓fixed_ite, ite_self]

theorem resetPort_fixed (a0) (a1 : State) : State.fixed (resetPort a0 a1) = State.fixed a1 := by
  unfold resetPort
  simp only [↓fixed_eta, ↓fixed_mk, ↓fixed_ite, ite_self, ↓setPort_fixed, ↓linkDown_fixed, ↓resetCtrl_fixed]

theorem execPerst_fixed (a0) (a1 : State) : ∀ t, (execPerst a0 a1) = .next t → State.fixed t = State.fixed a1 := by
  intro t h
  unfold execPerst at h
  simp only [Host.Outcome.next.injEq] at h
  subst h
  simp only [↓fixed_ite, ite_self, ↓resetPort_fixed]

theorem execPerstRelease_fixed (a0) (a1 : State) : ∀ t, (execPerstRelease a0 a1) = .next t → State.fixed t = State.fixed a1 := by
  intro t h
  unfold execPerstRelease at h
  simp only [Host.Outcome.next.injEq] at h
  subst h
  simp only [↓setPort_fixed]

theorem lossyFlash_fixed (a0 : State) : State.fixed (lossyFlash a0) = State.fixed a0 := by
  unfold lossyFlash
  simp only [↓fixed_eta, ↓fixed_mk, ↓dropFolds_fixed]

theorem countPaused_fixed (a0) (a1 : State) : State.fixed (countPaused a0 a1) = State.fixed a1 := by
  unfold countPaused
  repeat' (first | simp only [↓bump_fixed] | split)

theorem countPower_fixed (a0 : State) : State.fixed (countPower a0) = State.fixed a0 := by
  unfold countPower
  repeat' (first | simp only [↓fixed_ite, ↓count_fixed] | split)

theorem relock_fixed (a0 : State) (a1 : State) : State.fixed (relock a0 a1) = State.fixed a1 := by
  unfold relock
  simp only [↓fixed_eta, ↓fixed_mk, ↓fixed_ite, ite_self, implies_true, ↓fixed_foldS]

theorem setCourseLadder_fixed (a0) (a1) (a2 : State) : State.fixed (setCourseLadder a0 a1 a2) = State.fixed a2 := by
  unfold setCourseLadder
  simp only [↓fixed_eta, ↓fixed_mk, ↓relock_fixed]

theorem stepCourse_fixed (a0) (a1 : State) : State.fixed (stepCourse a0 a1) = State.fixed a1 := by
  unfold stepCourse
  repeat' (first | simp only [↓fixed_ite, ↓count_fixed, ↓setCourseLadder_fixed] | split)

theorem setLadder_fixed (a0) (a1 : State) : State.fixed (setLadder a0 a1) = State.fixed a1 := by
  unfold setLadder
  simp only [↓fixed_eta, ↓fixed_mk, ↓relock_fixed]

theorem judgeWindow_fixed (a0) (a1 : State) : State.fixed (judgeWindow a0 a1) = State.fixed a1 := by
  unfold judgeWindow
  repeat' (first | simp only [↓fixed_eta, ↓fixed_mk, ↓fixed_ite, ite_self, ↓count_fixed, ↓setLadder_fixed] | split)

theorem endWindow_fixed (a0 : State) : State.fixed (endWindow a0) = State.fixed a0 := by
  unfold endWindow
  simp only [↓fixed_eta, ↓fixed_mk, implies_true, ↓stepCourse_fixed, ↓judgeWindow_fixed, ↓fixed_foldS]

theorem takeSample_fixed (a0) (a1 : State) : State.fixed (takeSample a0 a1) = State.fixed a1 := by
  unfold takeSample
  simp only [↓fixed_eta, ↓fixed_mk, ↓fixed_ite, ite_self, ↓count_fixed, ↓setLadder_fixed]

theorem execGovernorSample_fixed (a0) (a1 : State) : ∀ t, (execGovernorSample a0 a1) = .next t → State.fixed t = State.fixed a1 := by
  intro t h
  unfold execGovernorSample at h
  simp only [Host.Outcome.next.injEq] at h
  subst h
  simp only [↓fixed_ite, ite_self, ↓takeSample_fixed]

theorem watchThresholds_fixed (a0 : State) (a1 : State) : State.fixed (watchThresholds a0 a1) = State.fixed a1 := by
  unfold watchThresholds
  simp only [↓fixed_eta, ↓fixed_mk, ↓inputsOf_mk, ↓inputsOf_eta, ↓fixed_ite, ite_self]

theorem execGovernorWindow_fixed (a0 : State) : ∀ t, (execGovernorWindow a0) = .next t → State.fixed t = State.fixed a0 := by
  intro t h
  unfold execGovernorWindow at h
  simp only [Host.Outcome.next.injEq] at h
  subst h
  simp only [↓fixed_ite, ite_self, ↓watchThresholds_fixed, ↓endWindow_fixed]

theorem pauseFor_fixed (a0) (a1 : State) : State.fixed (pauseFor a0 a1) = State.fixed a1 := by
  unfold pauseFor
  simp only [↓fixed_eta, ↓fixed_mk, ↓fixed_ite, ite_self, ↓bump_fixed]

theorem execPauseDutyInterval_fixed (a0 : State) : ∀ t, (execPauseDutyInterval a0) = .next t → State.fixed t = State.fixed a0 := by
  intro t h
  unfold execPauseDutyInterval at h
  simp only [Host.Outcome.next.injEq] at h
  subst h
  simp only [↓fixed_eta, ↓fixed_mk, ↓fixed_ite, ite_self, implies_true, ↓pauseFor_fixed, ↓fixed_foldS]

theorem execRefreshTempPoll_fixed (a0) (a1) (a2 : State) : ∀ t, (execRefreshTempPoll a0 a1 a2) = .next t → State.fixed t = State.fixed a2 := by
  intro t h
  unfold execRefreshTempPoll at h
  simp only [Host.Outcome.next.injEq] at h
  subst h
  simp only [↓fixed_ite, ite_self, implies_true, ↓setChannel_fixed, ↓fixed_foldS]

theorem startLadder_fixed (a0) (a1) (a2 : State) : State.fixed (startLadder a0 a1 a2) = State.fixed a2 := by
  unfold startLadder
  simp only [↓fixed_eta, ↓fixed_mk, ↓inputsOf_mk, ↓inputsOf_eta, ↓count_fixed, ↓setCourseLadder_fixed]

theorem heatCourse_fixed (a0) (a1 : State) : State.fixed (heatCourse a0 a1) = State.fixed a1 := by
  unfold heatCourse
  repeat' (first | simp only [↓fixed_ite, ite_self, ↓setCourseLadder_fixed, ↓startLadder_fixed] | split)

theorem execThrottlePause_fixed (a0) (a1 : State) : ∀ t, (execThrottlePause a0 a1) = .next t → State.fixed t = State.fixed a1 := by
  intro t h
  unfold execThrottlePause at h
  simp only [Host.Outcome.next.injEq] at h
  subst h
  simp only [↓fixed_eta, ↓fixed_mk, ↓fixed_ite, ite_self]

theorem execThrottleResume_fixed (a0) (a1 : State) : ∀ t, (execThrottleResume a0 a1) = .next t → State.fixed t = State.fixed a1 := by
  intro t h
  unfold execThrottleResume at h
  simp only [Host.Outcome.next.injEq] at h
  subst h
  simp only [↓fixed_eta, ↓fixed_mk, ↓fixed_ite, ite_self, ↓issueFlash_fixed, ↓countPaused_fixed]

theorem setCap_fixed (a0) (a1 : State) : State.fixed (setCap a0 a1) = State.fixed a1 := by
  unfold setCap
  simp only [↓fixed_eta, ↓fixed_mk]

theorem fallAsleep_fixed (a0) (a1 : State) : State.fixed (fallAsleep a0 a1) = State.fixed a1 := by
  unfold fallAsleep
  simp only [↓fixed_eta, ↓fixed_mk, ↓fixedOf_mk, ↓fixedDev_eta, implies_true, ↓flushJournal_fixed, ↓programDone_fixed, ↓finish_fixed, ↓setCap_fixed, ↓fixed_foldS]

theorem enterP3_fixed (a0) (a1 : State) : State.fixed (enterP3 a0 a1) = State.fixed a1 := by
  unfold enterP3
  simp only [↓fixed_eta, ↓fixed_mk, ↓fixedOf_mk, ↓fixedDev_eta, ↓fixed_ite, ite_self, ↓finish_fixed, ↓setCap_fixed, ↓setCmd_fixed, ↓fallAsleep_fixed]

theorem execIdleTimeout_fixed (a0 : State) : ∀ t, (execIdleTimeout a0) = .next t → State.fixed t = State.fixed a0 := by
  intro t h
  unfold execIdleTimeout at h
  simp only [Host.Outcome.next.injEq] at h
  subst h
  simp only [↓fixed_eta, ↓fixed_mk, ↓fixedOf_mk, ↓fixedDev_eta, ↓fixed_ite, ite_self]

theorem execPowerCap_fixed (a0) (a1 : State) : ∀ t, (execPowerCap a0 a1) = .next t → State.fixed t = State.fixed a1 := by
  intro t h
  unfold execPowerCap at h
  simp only [Host.Outcome.next.injEq] at h
  subst h
  simp only [↓fixed_ite, ite_self, implies_true, ↓runCmd_fixed, ↓finish_fixed, ↓setCap_fixed]

theorem execPowerEnterP3_fixed (a0) (a1 : State) : ∀ t, (execPowerEnterP3 a0 a1) = .next t → State.fixed t = State.fixed a1 := by
  intro t h
  unfold execPowerEnterP3 at h
  simp only [Host.Outcome.next.injEq] at h
  subst h
  simp only [↓fixed_ite, ite_self, implies_true, ↓runCmd_fixed, ↓enterP3_fixed]

theorem wake_fixed (a0 : State) : State.fixed (wake a0) = State.fixed a0 := by
  unfold wake
  simp only [↓fixed_eta, ↓fixed_mk, ↓fixedOf_mk, ↓fixedDev_eta, ↓fixed_ite, ite_self, implies_true, ↓powerUp_fixed, ↓bump_fixed, ↓openAll_fixed, ↓count_fixed, ↓fixed_foldS]

theorem execPowerLeaveP3_fixed (a0) (a1 : State) : ∀ t, (execPowerLeaveP3 a0 a1) = .next t → State.fixed t = State.fixed a1 := by
  intro t h
  unfold execPowerLeaveP3 at h
  simp only [Host.Outcome.next.injEq] at h
  subst h
  repeat' (first | simp only [↓fixed_ite, ite_self, implies_true, ↓wake_fixed, ↓runCmd_fixed, ↓finish_fixed, ↓setCap_fixed] | refine (runCmd_fixed _ _ _ _ (fun _ _ => ?_)).trans ?_ | split)

theorem drainWrites_fixed (a0) (a1 : State) : State.fixed (drainWrites a0 a1) = State.fixed a1 := by
  induction a0 generalizing a1 with
  | zero => rfl
  | succ n ih =>
    unfold drainWrites
    simp only [↓fixed_ite, ite_self, implies_true, ↓admitAll_fixed, ↓programDone_fixed, ↓fixed_foldS, ↓ih]

theorem stopWork_fixed (a0) (a1 : State) : State.fixed (stopWork a0 a1) = State.fixed a1 := by
  unfold stopWork
  simp only [↓fixed_eta, ↓fixed_mk, ↓fixedOf_mk, ↓fixedDev_eta, ↓flushJournal_fixed, ↓drainWrites_fixed, ↓setCmd_fixed, ↓cancelAll_fixed]

theorem orderReset_fixed (a0) (a1) (a2 : State) : State.fixed (orderReset a0 a1 a2) = State.fixed a2 := by
  unfold orderReset
  simp only [↓fixed_eta, ↓fixed_mk, ↓fixedOf_mk, ↓fixedDev_eta, ↓fixed_ite, ite_self, ↓conflictDevice_fixed, ↓stopWork_fixed, ↓finish_fixed]

theorem execDeviceResetCold_fixed (a0) (a1 : State) : ∀ t, (execDeviceResetCold a0 a1) = .next t → State.fixed t = State.fixed a1 := by
  intro t h
  unfold execDeviceResetCold at h
  simp only [Host.Outcome.next.injEq] at h
  subst h
  simp only [↓fixed_ite, ite_self, implies_true, ↓runCmd_fixed, ↓orderReset_fixed]

theorem execDeviceResetEngine_fixed (a0) (a1 : State) : ∀ t, (execDeviceResetEngine a0 a1) = .next t → State.fixed t = State.fixed a1 := by
  intro t h
  unfold execDeviceResetEngine at h
  simp only [Host.Outcome.next.injEq] at h
  subst h
  simp only [↓fixed_ite, ite_self, implies_true, ↓runCmd_fixed, ↓orderReset_fixed]

theorem latchIsland_fixed (a0) (a1) (a2 : State) : State.fixed (latchIsland a0 a1 a2) = State.fixed a2 := by
  unfold latchIsland
  simp only [↓setIsland_fixed, ↓State.draw_fixed]

theorem mark_fixed (a0) (a1 : State) : State.fixed (mark a0 a1) = State.fixed a1 := by
  unfold mark
  simp only [↓fixed_eta, ↓fixed_mk, ↓fixedOf_mk, ↓fixedDev_eta, ↓fixed_ite, ite_self, implies_true, ↓latchIsland_fixed, ↓setIsland_fixed, ↓fixed_foldS]

theorem execEpochMarker_fixed (a0) (a1 : State) : ∀ t, (execEpochMarker a0 a1) = .next t → State.fixed t = State.fixed a1 := by
  intro t h
  unfold execEpochMarker at h
  simp only [Host.Outcome.next.injEq] at h
  subst h
  simp only [implies_true, ↓runCmd_fixed, ↓finish_fixed, ↓mark_fixed]

theorem testIsland_fixed (a0) (a1) (a2 : State) : State.fixed (testIsland a0 a1 a2) = State.fixed a2 := by
  unfold testIsland
  repeat' (first | simp only [↓fixed_ite, ↓conflictDevice_fixed, ↓badField_fixed, ↓finish_fixed] | split)

theorem execIslandTest_fixed (a0) (a1) (a2 : State) : ∀ t, (execIslandTest a0 a1 a2) = .next t → State.fixed t = State.fixed a2 := by
  intro t h
  unfold execIslandTest at h
  simp only [Host.Outcome.next.injEq] at h
  subst h
  simp only [↓fixed_ite, ite_self, implies_true, ↓runCmd_fixed, ↓testIsland_fixed]

theorem execMgmtStatus_fixed (a0) (a1 : State) : ∀ t, (execMgmtStatus a0 a1) = .next t → State.fixed t = State.fixed a1 := by
  intro t h
  unfold execMgmtStatus at h
  simp only [Host.Outcome.next.injEq] at h
  subst h
  simp only [implies_true, ↓runCmd_fixed, ↓withRecord_fixed, ↓State.draw_fixed]

theorem readTelemetry_fixed (a0) (a1 : State) : State.fixed (readTelemetry a0 a1) = State.fixed a1 := by
  unfold readTelemetry
  repeat' (first | simp only [↓badField_fixed, ↓finish_fixed, ↓State.draw_fixed] | split)

theorem execTelemetryRead_fixed (a0) (a1 : State) : ∀ t, (execTelemetryRead a0 a1) = .next t → State.fixed t = State.fixed a1 := by
  intro t h
  unfold execTelemetryRead at h
  simp only [Host.Outcome.next.injEq] at h
  subst h
  simp only [implies_true, ↓runCmd_fixed, ↓readTelemetry_fixed]

theorem clearDevice_fixed (a0 : State) : State.fixed (clearDevice a0) = State.fixed a0 := by
  unfold clearDevice
  simp only [↓fixed_eta, ↓fixed_mk, ↓flushJournal_fixed, ↓drainWrites_fixed]

theorem enterWhole_fixed (a0) (a1 : State) : State.fixed (enterWhole a0 a1) = State.fixed a1 := by
  unfold enterWhole
  simp only [↓fixed_eta, ↓fixed_mk, ↓fixed_ite, ite_self, ↓clearDevice_fixed, ↓finish_fixed]

theorem closeOthers_fixed (a0) (a1 : State) : State.fixed (closeOthers a0 a1) = State.fixed a1 := by
  unfold closeOthers
  simp only [↓fixed_ite, ite_self, implies_true, ↓beginClose_fixed, ↓cancelAll_fixed, ↓fixed_foldS]

theorem giveUp_fixed (a0) (a1) (a2 : State) : State.fixed (giveUp a0 a1 a2) = State.fixed a2 := by
  unfold giveUp
  simp only [↓fail_fixed, ↓returnIslands_fixed]

theorem stepAside_fixed (a0) (a1) (a2 : State) : State.fixed (stepAside a0 a1 a2) = State.fixed a2 := by
  unfold stepAside
  simp only [↓setIsland_fixed]

theorem fabricAside_fixed (a0) (a1) (a2 : State) : ∀ t, (fabricAside a0 a1 a2) = .ok t → State.fixed t = State.fixed a2 := by
  intro t h
  have hs : ∀ (s u : State) (b : Bool), (if b = true then moveStore a0 s else some s) = some u → u.fixed = s.fixed := by
    intro s u b h
    split at h
    · exact moveStore_fixed _ _ _ h
    · cases h; rfl
  unfold fabricAside at h
  split at h
  · cases h
  · dsimp only at h
    split at h
    · cases h; simp only [↓stepAside_fixed]
    · split at h
      · cases h
      · rename_i u hu
        split at h
        · cases h
        · cases h
          simp only [↓standAside_fixed, ↓rehome_fixed, hs _ _ _ hu, ↓stepAside_fixed]

theorem takeAside_fixed (a0) (a1) (a2 : State) : ∀ t, (takeAside a0 a1 a2) = .ok t → State.fixed t = State.fixed a2 := by
  intro t h
  have leave : ∀ (p : Fin 2) (u : State), (standAside a1 (if (look u.host.ports p).link then linkDown p u else u)).fixed = u.fixed := by
    intro p u
    rw [standAside_fixed]
    split
    · exact linkDown_fixed _ _
    · rfl
  have ok : ∀ {u v : State}, (Except.ok u : Except Status State) = .ok v → u.fixed = a2.fixed → v.fixed = a2.fixed := by
    intro u v e k; cases e; exact k
  unfold takeAside at h
  split at h
  · exact ok h rfl
  · split at h
    · exact ok h rfl
    · exact ok h rfl
    · exact ok h ((leaveIslands_fixed _ _).trans (stepAside_fixed _ _ _))
    · exact ok h ((leaveIslands_fixed _ _).trans (stepAside_fixed _ _ _))
    · split at h
      · cases h
      · rename_i hm
        exact ok h ((standAside_fixed _ _).trans (moveStore_fixed _ _ _ hm))
    · exact fabricAside_fixed _ _ _ _ h
    · split at h
      · exact ok h (standAside_fixed _ _)
      · split at h
        · exact ok h rfl
        · split at h
          · cases h
          · exact ok h (startEvacuation_fixed _ _ _ _ _)
      · exact ok h rfl
    · dsimp only at h
      split at h
      · exact ok h (leave _ _)
      · split at h
        · exact ok h ((leave _ _).trans (failover_fixed _))
        · cases h
    · split at h
      · exact ok h ((standAside_fixed _ _).trans (drainDies_fixed _ _))
      · cases h

theorem takeAll_fixed (a0) (a1) (a2 : State) : ∀ t, (takeAll a0 a1 a2) = .ok t → State.fixed t = State.fixed a2 := by
  induction a1 generalizing a2 with
  | nil => intro t h; cases h; rfl
  | cons x xs ih =>
    intro t h
    unfold takeAll at h
    split at h
    · cases h
    · rename_i u hu
      exact (ih _ _ h).trans (takeAside_fixed _ _ _ _ hu)

theorem clearIsland_fixed (a0) (a1 : State) : State.fixed (clearIsland a0 a1) = State.fixed a1 := by
  unfold clearIsland
  repeat' (first | simp only [↓fixed_eta, ↓fixed_mk, ↓setArray_fixed] | split)

theorem clearScope_fixed (a0) (a1 : State) : State.fixed (clearScope a0 a1) = State.fixed a1 := by
  unfold clearScope
  simp only [implies_true, ↓clearIsland_fixed, ↓fixed_foldS]

theorem enterScope_fixed (a0) (a1 : State) : State.fixed (enterScope a0 a1) = State.fixed a1 := by
  unfold enterScope
  repeat' (first | simp only [↓fixed_eta, ↓fixed_mk, ↓fixed_ite, ite_self, ↓giveUp_fixed, ↓finish_fixed, ↓clearScope_fixed] | exact takeAll_fixed _ _ _ _ (by assumption) | split)

theorem acceptToken_fixed (a0) (a1) (a2 : State) : State.fixed (acceptToken a0 a1 a2) = State.fixed a2 := by
  unfold acceptToken
  repeat' (first | simp only [↓fixed_eta, ↓fixed_mk, ↓fixed_ite, ↓setCmd_fixed, ↓enterWhole_fixed, ↓closeOthers_fixed, ↓giveUp_fixed, ↓enterScope_fixed] | split)

theorem enterService_fixed (a0) (a1) (a2 : State) : State.fixed (enterService a0 a1 a2) = State.fixed a2 := by
  unfold enterService
  simp only [↓fixed_ite, ite_self, implies_true, ↓enterWhole_fixed, ↓enterScope_fixed, ↓conflictDevice_fixed, ↓withInput_fixed, ↓acceptToken_fixed, ↓fail_fixed]

theorem execServiceEnter_fixed (a0) (a1) (a2 : State) : ∀ t, (execServiceEnter a0 a1 a2) = .next t → State.fixed t = State.fixed a2 := by
  intro t h
  unfold execServiceEnter at h
  simp only [Host.Outcome.next.injEq] at h
  subst h
  simp only [↓fixed_ite, ite_self, implies_true, ↓runCmd_fixed, ↓enterService_fixed]

theorem leaveService_fixed (a0) (a1 : State) : State.fixed (leaveService a0 a1) = State.fixed a1 := by
  unfold leaveService
  repeat' (first | simp only [↓fixed_eta, ↓fixed_mk, ↓fixedOf_mk, ↓fixedDev_eta, ↓fixed_ite, ite_self, ↓conflictDevice_fixed, ↓finish_fixed, ↓cancelAll_fixed, ↓returnIslands_fixed, ↓clearScope_fixed, ↓openAll_fixed] | split)

theorem execServiceLeave_fixed (a0) (a1 : State) : ∀ t, (execServiceLeave a0 a1) = .next t → State.fixed t = State.fixed a1 := by
  intro t h
  unfold execServiceLeave at h
  simp only [Host.Outcome.next.injEq] at h
  subst h
  simp only [↓fixed_ite, ite_self, implies_true, ↓runCmd_fixed, ↓leaveService_fixed]

theorem reply_fixed (a0) (a1) (a2 : State) : State.fixed (reply a0 a1 a2) = State.fixed a2 := by
  unfold reply
  simp only [↓fixed_eta, ↓fixed_mk]

theorem alertResponse_fixed (a0 : State) : State.fixed (alertResponse a0) = State.fixed a0 := by
  unfold alertResponse
  simp only [↓fixed_eta, ↓fixed_mk, ↓inputsOf_mk, ↓inputsOf_eta, ↓reply_fixed]

theorem execAlertResponse_fixed (a0 : State) : ∀ t, (execAlertResponse a0) = .next t → State.fixed t = State.fixed a0 := by
  intro t h
  unfold execAlertResponse at h
  simp only [Host.Outcome.next.injEq] at h
  subst h
  simp only [↓fixed_ite, ite_self, ↓alertResponse_fixed]

end Sys2Proof.Machine
end

