-- ==== Sys2Proof/Laws/Governor.lean ====
section
/-! SUPPORT. Laws of shared operations: the governor's ladder, windows and pauses. -/

open Sys2Proof Sys2Proof.Machine
namespace Sys2Proof.Laws

theorem asleep_dev (k : Cmd) (u : State) : ∃ w, fallAsleep k u = finish k {} w
    ∧ w.dev = { u.dev with asleep := true, drowsy := false, gated := true } ∧ w.gov.cap = k.arg 0 2 ∧ w.flash.journal = 0 := by
  refine ⟨_, rfl, ?_, rfl, rfl⟩
  have hp : (foldS (fun s x => programDone x.nsid x.lba s) u.flash.staging u).dev = u.dev :=
    foldS_same State.dev (fun s (x : Staged) => programDone x.nsid x.lba s) (fun s x => by unfold programDone; split <;> rfl) _ _
  have hq : ∀ d : Device, d = u.dev → ({ d with asleep := true, drowsy := false, gated := true } : Device) = { u.dev with asleep := true, drowsy := false, gated := true } := by rintro _ rfl; rfl
  exact hq _ hp

theorem watch_eq (a b : State) (h : b.smb.thresholds = []) : watchThresholds a b = b := by simp [watchThresholds, h]

theorem find_ladder (l l' : Ladder) (h : ladderStep l = some l') : undoStep l' = l := by
  unfold ladderStep at h
  split at h
  · injection h with h; rw [← h]; simp [undoStep]
  · split at h
    · injection h with h; rw [← h]; simp [undoStep]
    · split at h
      · injection h with h; rw [← h]; simp [undoStep]
      · cases h

/-- A relock changes the arrays' clocks and the islands' relock times only. -/
theorem relock_spec (old s : State) : (relock old s).gov = s.gov ∧ (relock old s).smb = s.smb ∧ (relock old s).dev = s.dev
    ∧ (relock old s).counters = s.counters ∧ (relock old s).now = s.now ∧ (relock old s).obj = s.obj
    ∧ (relock old s).flash = s.flash ∧ (relock old s).cmds = s.cmds ∧ (relock old s).host = s.host := by
  unfold relock
  dsimp only
  refine ⟨?_, ?_, ?_, ?_, ?_, ?_, ?_, ?_, ?_⟩ <;>
    exact foldS_keeps (fun t : State => _ = _) _ (fun t x h => by split <;> exact h) _ _ rfl

@[simp] theorem setLadder_gov (l : Ladder) (s : State) : (setLadder l s).gov = { s.gov with ladder := l } :=
  (relock_spec ..).1

@[simp] theorem setCourseLadder_gov (c : Fin 4) (l : Ladder) (s : State) :
    (setCourseLadder c l s).gov = { s.gov with courses := put s.gov.courses c l } := (relock_spec ..).1

@[simp] theorem setLadder_smb (l : Ladder) (s : State) : (setLadder l s).smb = s.smb := (relock_spec ..).2.1

@[simp] theorem setCourseLadder_smb (c : Fin 4) (l : Ladder) (s : State) : (setCourseLadder c l s).smb = s.smb :=
  (relock_spec ..).2.1

theorem step_gov (c : Fin 4) (s : State) : (stepCourse c s).gov.ladder = s.gov.ladder ∧ (stepCourse c s).gov.below = s.gov.below
    ∧ (stepCourse c s).gov.average = s.gov.average ∧ (stepCourse c s).gov.samples = s.gov.samples ∧ (stepCourse c s).smb = s.smb := by
  unfold stepCourse
  dsimp only
  split
  · split
    · exact ⟨rfl, rfl, rfl, rfl, rfl⟩
    · refine ⟨?_, ?_, ?_, ?_, ?_⟩ <;> simp [count, bump]
  · exact ⟨rfl, rfl, rfl, rfl, rfl⟩

theorem judge_gov (n : Nat) (s : State) : (judgeWindow n s).gov.average = s.gov.average ∧ (judgeWindow n s).gov.samples = s.gov.samples ∧ (judgeWindow n s).smb = s.smb := by
  unfold judgeWindow
  split
  · dsimp only; split
    · exact ⟨rfl, rfl, rfl⟩
    · refine ⟨?_, ?_, ?_⟩ <;> simp [count, bump]
  · split
    · split
      · exact ⟨rfl, rfl, rfl⟩
      · refine ⟨?_, ?_, ?_⟩ <;> simp
    · exact ⟨rfl, rfl, rfl⟩

theorem window_gov (s : State) (n : Nat) (h : s.gov.samples.foldl (· + ·) 0 = n) :
    (endWindow s).gov.ladder = (judgeWindow n { s with gov := { s.gov with average := n / 20, samples := [] } }).gov.ladder
    ∧ (endWindow s).gov.below = (judgeWindow n { s with gov := { s.gov with average := n / 20, samples := [] } }).gov.below
    ∧ (endWindow s).gov.average = n / 20 ∧ (endWindow s).gov.samples = [] ∧ (endWindow s).smb = s.smb := by
  have e : endWindow s = foldS (fun s c => stepCourse c s) (List.finRange 4) (judgeWindow n { s with gov := { s.gov with average := n / 20, samples := [] } }) := by
    unfold endWindow; rw [h]
  rw [e]
  obtain ⟨j1, j2, j3⟩ := judge_gov n { s with gov := { s.gov with average := n / 20, samples := [] } }
  refine ⟨foldS_same (fun s : State => s.gov.ladder) (fun s c => stepCourse c s) (fun s c => (step_gov c s).1) _ _,
    foldS_same (fun s : State => s.gov.below) (fun s c => stepCourse c s) (fun s c => (step_gov c s).2.1) _ _,
    (foldS_same (fun s : State => s.gov.average) (fun s c => stepCourse c s) (fun s c => (step_gov c s).2.2.1) _ _).trans j1,
    (foldS_same (fun s : State => s.gov.samples) (fun s c => stepCourse c s) (fun s c => (step_gov c s).2.2.2.1) _ _).trans j2,
    (foldS_same (fun s : State => s.smb) (fun s c => stepCourse c s) (fun s c => (step_gov c s).2.2.2.2) _ _).trans j3⟩

theorem watch_gov (a b : State) : (watchThresholds a b).gov = b.gov := by unfold watchThresholds; split <;> rfl

theorem islands_keep (clk : ClockId) (n m : Nat) (u : State) (x : Fin 16) :
    arrayUp (bump clk 6 n { u with islands := upd u.islands clk (fun i => { i with relockEnd := m }) }) x = arrayUp u x
    ∧ pausedCycles (bump clk 6 n { u with islands := upd u.islands clk (fun i => { i with relockEnd := m }) }) x
      = pausedCycles u x := by
  refine ⟨?_, rfl⟩
  by_cases e : clk = arrayClk x
  · subst e; simp [arrayUp, islandUp, bump]
  · simp [arrayUp, islandUp, bump, look_upd_other _ _ e]

/-- What a new interval of 100 µs counts: each array in service the cycles of its pause. -/
theorem pause_fold (l : List (Fin 16)) : ∀ (u : State), l.Nodup →
    ∀ a, look (foldS (fun s a => pauseFor a s) l u).counters (arrayClk a, 6)
      = if a ∈ l ∧ arrayUp u a = true ∧ pausedCycles u a ≠ 0 then (look u.counters (arrayClk a, 6) + pausedCycles u a) % 2 ^ 64 else look u.counters (arrayClk a, 6) := by
  induction l with
  | nil => intro u _ a; simp [foldS]
  | cons b l ih =>
    intro u hn a
    rw [foldS_cons, ih _ (List.nodup_cons.1 hn).2]
    have hinj : ∀ x y : Fin 16, arrayClk x = arrayClk y → x = y := by decide
    have hb := (List.nodup_cons.1 hn).1
    unfold pauseFor
    by_cases g : (arrayUp u b && decide (pausedCycles u b ≠ 0)) = true
    · simp only [if_pos g]
      have hc := fun n m => islands_keep (arrayClk b) n m u a
      have hc1 := fun n => (hc n (max (look u.islands (arrayClk b)).relockEnd (u.now + 12500 * dutyOf u (b.val / 4)))).1
      have hc2 := fun n => (hc n (max (look u.islands (arrayClk b)).relockEnd (u.now + 12500 * dutyOf u (b.val / 4)))).2
      simp only [upd] at hc1 hc2 ⊢
      simp only [hc1, hc2]
      by_cases e : a = b
      · subst e
        simp only [Bool.and_eq_true, decide_eq_true_eq] at g
        simp [hb, g.1, g.2, bump]
      · have : (arrayClk b, 6) ≠ (arrayClk a, 6) := by intro h; exact e (hinj _ _ (Prod.mk.inj h).1).symm
        simp only [bump, look_upd_other _ _ this, List.mem_cons, e, false_or]
    · rw [if_neg g]
      by_cases e : a = b
      · subst e
        have : ¬ (arrayUp u a = true ∧ pausedCycles u a ≠ 0) := by simpa using g
        rw [if_neg (fun h => hb h.1), if_neg (fun h => this h.2)]
      · simp only [List.mem_cons, e, false_or]

end Sys2Proof.Laws
end

