-- ==== Sys2Proof/Laws/Indices.lean ====
section
/-! SUPPORT. Laws of shared operations: index maintenance counts what it changes. -/

open Sys2Proof Sys2Proof.Machine
namespace Sys2Proof.Laws

theorem sweep_bumps (x : Index) (l : Tbl Nat Node) (s : State) :
    (foldS (fun s n => bump (endpointClk (homeEngine s x n.1)) 0x0309 1 s) l s).obj = s.obj
    ∧ (foldS (fun s n => bump (endpointClk (homeEngine s x n.1)) 0x0309 1 s) l s).eng = s.eng := by
  induction l generalizing s with
  | nil => exact ⟨rfl, rfl⟩
  | cons a l ih => rw [foldS_cons]; exact ⟨(ih _).1, (ih _).2⟩

theorem leBytes_length (n v : Nat) : (leBytes n v).length = n := by
  induction n generalizing v with
  | zero => rfl
  | succ n ih => simp [leBytes, ih]

theorem indexOf_find {s : State} {sid h slot : Nat} {x : Index} (e : indexOf s sid h = some (slot, x)) : find? s.obj.indices slot = some x := by
  simp only [indexOf, Option.bind_eq_bind, Option.bind_eq_some_iff] at e
  obtain ⟨y, h1, h2⟩ := e
  split at h2
  · simp only [Option.some.injEq, Prod.mk.injEq] at h2; obtain ⟨rfl, rfl⟩ := h2; exact h1
  · cases h2

theorem find_mem {κ α : Type} [DecidableEq κ] {t : Tbl κ α} {i : κ} {v : α} (h : find? t i = some v) : (i, v) ∈ t := by
  induction t with
  | nil => simp [find?] at h
  | cons p t ih =>
    obtain ⟨k, w⟩ := p
    by_cases g : k = i
    · subst g; simp [find?] at h; simp [h]
    · simp [find?, g] at h; exact List.mem_cons_of_mem _ (ih h)

theorem insertAll_count (slot : Nat) (rs : List (List Byte)) : ∀ (i : Nat) (s : State) (b : Batch),
    (insertAll slot i rs (s, b)).2.done + (insertAll slot i rs (s, b)).2.rejected = b.done + b.rejected + rs.length := by
  induction rs with
  | nil => intro i s b; simp [insertAll]
  | cons r rs ih =>
    intro i s b
    simp only [insertAll]
    rw [ih]
    split <;> simp <;> omega

theorem deleteAll_count (is : List Nat) : ∀ x : Index, (deleteAll x is).2.1 + (deleteAll x is).2.2 = is.length := by
  induction is with
  | nil => intro x; rfl
  | cons i is ih =>
    intro x
    simp only [deleteAll, List.length_cons]
    generalize (!(nodesOf x i).isEmpty && !x.badIdents.contains i) = f
    have := ih (if f = true then tombstone i x else x)
    cases f <;> simp [b2n] at this ⊢ <;> omega

theorem deleteAll_nodes (is : List Nat) : ∀ (x : Index) (n : Nat) (v : Node), find? x.nodes n = some v →
    (deleteAll x is).1.badIdents = x.badIdents ∧ (deleteAll x is).1.epoch = x.epoch ∧
    find? (deleteAll x is).1.nodes n = some (if v.ident ∈ is ∧ v.ident ∉ x.badIdents ∧ (v.state = .live ∨ v.state = .pending)
      then { v with state := .tombstoned, deadEpoch := some x.epoch } else v) := by
  induction is with
  | nil => intro x n v h; simp [deleteAll, h]
  | cons i is ih =>
    intro x n v h
    simp only [deleteAll]
    by_cases hf : (!(nodesOf x i).isEmpty && !x.badIdents.contains i) = true
    · simp only [hf, if_true]
      have ht : find? (tombstone i x).nodes n = some (if v.ident == i && (v.state == .live || v.state == .pending) then { v with state := .tombstoned, deadEpoch := some x.epoch } else v) := by
        simp [tombstone, find?_mapTbl, h]
      obtain ⟨a, b, c⟩ := ih _ n _ ht
      refine ⟨a, b, ?_⟩
      rw [c]
      have hb : i ∉ x.badIdents := by simp at hf; simpa using hf.2
      by_cases hv : v.ident = i <;> by_cases hl : v.state = .live <;> by_cases hp : v.state = .pending <;> simp_all [tombstone]
    · simp only [hf, if_false, Bool.false_eq_true]
      obtain ⟨a, b, c⟩ := ih x n v h
      refine ⟨a, b, ?_⟩
      rw [c]
      by_cases hv : v.ident = i
      · by_cases hb : i ∈ x.badIdents
        · simp [hv, hb]
        · have he : (nodesOf x i).isEmpty = true := by simp at hf; by_contra hne; exact hb (hf (by simpa using hne))
          have : ¬ (v.state = .live ∨ v.state = .pending) := by
            intro hs
            have : n ∈ nodesOf x i := by
              simp only [nodesOf, List.mem_map, List.mem_filter]
              exact ⟨(n, v), ⟨find_mem h, by simpa [hv] using hs⟩, rfl⟩
            rw [List.isEmpty_iff.1 he] at this; cases this
          simp [this]
      · simp [hv]

end Sys2Proof.Laws
end

