-- ==== Sys2Proof/Laws/Resets.lean ====
section
/-! SUPPORT. Laws of shared operations: start-up, HOLD and P4. -/

open Sys2Proof Sys2Proof.Machine
namespace Sys2Proof.Laws

/-- What choosing firmware and checking records leave. -/
def kept (s : State) := (s.cmds, s.sessions, s.obj, s.host, s.nvme, s.now, s.counters, s.smb, s.pins.fault, s.pins.sysResetN, s.dev, s.flash, s.tenants)

theorem choose_kept (s : State) : kept (chooseFirmware s) = kept s := by
  unfold chooseFirmware
  refine foldS_same kept _ (fun s x => ?_) _ _
  dsimp only
  split <;> rfl

theorem check_kept (s : State) : kept (checkRecords s) = kept s := by
  unfold checkRecords
  dsimp only
  repeat' split
  all_goals rfl

theorem life_choose (s : State) : (chooseFirmware s).sec.lifecycle = s.sec.lifecycle := by
  unfold chooseFirmware
  refine foldS_same (fun s : State => s.sec.lifecycle) _ (fun s x => ?_) _ _
  dsimp only
  split <;> rfl

theorem slot_none (s : State) (h : s.sec.lifecycle = .factory ∨ s.sec.lifecycle = .unowned) : chooseSlot s = none := by
  unfold chooseSlot; dsimp only; rw [if_pos h]

theorem life_check (s : State) (h : s.sec.lifecycle = .factory ∨ s.sec.lifecycle = .unowned) : (checkRecords s).sec.lifecycle = s.sec.lifecycle := by
  unfold checkRecords
  rcases h with h | h <;> simp only [h]

theorem straps_facts (cause : Cause) (s : State) :
    let t := sampleStraps cause s
    (t.cmds = s.cmds ∧ t.sessions = s.sessions ∧ t.obj = s.obj ∧ t.host.funcs = s.host.funcs ∧ t.host.pairs = s.host.pairs ∧ t.host.vecs = s.host.vecs
      ∧ t.host.ports = s.host.ports
      ∧ t.nvme = s.nvme ∧ t.now = s.now ∧ t.counters = s.counters ∧ t.smb = s.smb ∧ t.pins.fault = s.pins.fault ∧ t.flash = s.flash ∧ t.tenants = s.tenants)
    ∧ t.dev.stage = .startup ∧ t.dev.ready = s.dev.ready ∧ t.dev.cause = cause ∧ t.dev.board = s.dev.board ∧ t.dev.straps = s.dev.board.straps
    ∧ t.gov.cap = t.dev.cfg.sys.powerCapW
    ∧ (s.sec.lifecycle = .factory ∨ s.sec.lifecycle = .unowned → t.dev.cfg = Params.factory ∧ t.dev.factory = true) := by
  have hk : kept (checkRecords (chooseFirmware s)) = kept s := (check_kept _).trans (choose_kept _)
  have hn : s.sec.lifecycle = .factory ∨ s.sec.lifecycle = .unowned → chooseSlot (checkRecords (chooseFirmware s)) = none := by
    intro h
    have hl := life_choose s
    have hl2 : (chooseFirmware s).sec.lifecycle = .factory ∨ (chooseFirmware s).sec.lifecycle = .unowned := by rw [hl]; exact h
    exact slot_none _ (by rw [life_check _ hl2]; exact hl2)
  unfold sampleStraps
  generalize checkRecords (chooseFirmware s) = w at hk hn ⊢
  simp only [kept, Prod.mk.injEq] at hk
  obtain ⟨k1, k2, k3, k4, k5, k6, k7, k8, k9, k10, k11, k12, k13⟩ := hk
  dsimp only
  refine ⟨⟨k1, k2, k3, by rw [k4], by rw [k4], by rw [k4], by rw [k4], k5, k6, k7, k8, k9, k12, k13⟩, rfl, by rw [k11], rfl, by rw [k11], by rw [k11], rfl, fun h => ?_⟩
  rw [hn h]
  exact ⟨rfl, rfl⟩

/-- Two states whose firmware verifies alike stop start-up alike. -/
theorem stops_eq (s t : State) (h1 : t.dev.board = s.dev.board) (h2 : t.sec.firmware = s.sec.firmware) (h3 : t.sec.yarcenFloor = s.sec.yarcenFloor)
    (h4 : t.sec.lifecycle = s.sec.lifecycle) (h5 : t.sec.ownerKeys = s.sec.ownerKeys) : startupStops t = startupStops s := by
  simp only [startupStops, anySlot, slotVerifies, imageVerifies, trustedKey, h1, h2, h3, h4, h5]

theorem skip_facts (k : Security) : (skipIndices k).firmware = k.firmware ∧ (skipIndices k).yarcenFloor = k.yarcenFloor
    ∧ (skipIndices k).lifecycle = k.lifecycle ∧ (skipIndices k).ownerKeys = k.ownerKeys := by
  unfold skipIndices; repeat' split
  all_goals exact ⟨rfl, rfl, rfl, rfl⟩

/-- Start-up begins on `u`. -/
def beginOn (cause : Cause) (u : State) : State :=
  if startupStops u then { u with dev := { u.dev with stage := .stopped, cause }, pins := { u.pins with fault := true } }
  else sampleStraps cause u

theorem begin_facts (cause : Cause) (u : State) :
    let t := beginOn cause u
    (t.cmds = u.cmds ∧ t.sessions = u.sessions ∧ t.obj = u.obj ∧ t.host.funcs = u.host.funcs ∧ t.host.pairs = u.host.pairs ∧ t.host.vecs = u.host.vecs ∧ t.nvme = u.nvme
      ∧ t.dev.ready = u.dev.ready ∧ t.flash = u.flash)
    ∧ t.now = u.now ∧ t.counters = u.counters ∧ t.smb = u.smb ∧ t.tenants = u.tenants ∧ t.host.ports = u.host.ports
    ∧ t.dev.cause = cause ∧ t.dev.board = u.dev.board
    ∧ (startupStops u = true → t.dev.stage = .stopped ∧ t.pins.fault = true)
    ∧ (startupStops u = false → t.dev.stage = .startup ∧ t.pins.fault = u.pins.fault ∧ t.dev.straps = u.dev.board.straps
      ∧ t.gov.cap = t.dev.cfg.sys.powerCapW
      ∧ (u.sec.lifecycle = .factory ∨ u.sec.lifecycle = .unowned → t.dev.cfg = Params.factory)) := by
  unfold beginOn
  dsimp only
  split
  · rename_i hs
    exact ⟨⟨rfl, rfl, rfl, rfl, rfl, rfl, rfl, rfl, rfl⟩, rfl, rfl, rfl, rfl, rfl, rfl, rfl, fun _ => ⟨rfl, rfl⟩, fun h => by rw [h] at hs; cases hs⟩
  · rename_i hs
    obtain ⟨⟨a1, a2, a3, a4, a5, a6, a7, a8, a9, a10, a11, a12, a13, a14⟩, b1, b2, b3, b4, b5, b6, b7⟩ := straps_facts cause u
    exact ⟨⟨a1, a2, a3, a4, a5, a6, a8, b2, a13⟩, a9, a10, a11, a14, a7, b3, b4, fun h => absurd h hs, fun _ => ⟨b1, a12, b5, b6, fun h => (b7 h).1⟩⟩

theorem cold_facts (cause : Cause) (s : State) :
    let t := coldStart cause s
    (t.cmds = [] ∧ t.sessions = [] ∧ t.obj = {} ∧ t.host.funcs = [] ∧ t.host.pairs = [] ∧ t.host.vecs = [] ∧ t.nvme = []
      ∧ t.dev.ready = false ∧ t.flash.staging = [] ∧ t.flash.namespaces = s.flash.namespaces)
    ∧ t.now = 0 ∧ t.counters = [] ∧ t.smb = {} ∧ t.tenants = mapTbl s.tenants (fun _ x => x.stored)
    ∧ (∀ p, (look t.host.ports p).link = false)
    ∧ t.dev.cause = cause ∧ t.dev.board = s.dev.board
    ∧ (startupStops s = true → t.dev.stage = .stopped ∧ t.pins.fault = true)
    ∧ (startupStops s = false → t.dev.stage = .startup ∧ t.pins.fault = false ∧ t.dev.straps = s.dev.board.straps
      ∧ t.gov.cap = t.dev.cfg.sys.powerCapW
      ∧ (s.sec.lifecycle = .factory ∨ s.sec.lifecycle = .unowned → t.dev.cfg = Params.factory)) := by
  have hlink : ∀ (l : Tbl (Fin 2) Port) p, (look (mapTbl l (fun _ p => ({ perst := p.perst } : Port))) p).link = false := by
    intro l p; simp only [look, find?_mapTbl]; cases find? l p <;> rfl
  obtain ⟨f1, f2, f3, f4⟩ := skip_facts { s.sec with update := none }
  have hu : ∃ u, coldStart cause s = beginOn cause u ∧ (u.cmds = [] ∧ u.sessions = [] ∧ u.obj = {} ∧ u.host.funcs = [] ∧ u.host.pairs = [] ∧ u.host.vecs = [] ∧ u.nvme = []
      ∧ u.dev.ready = false ∧ u.flash.staging = [] ∧ u.flash.namespaces = s.flash.namespaces)
      ∧ u.now = 0 ∧ u.counters = [] ∧ u.smb = {} ∧ u.tenants = mapTbl s.tenants (fun _ x => x.stored)
      ∧ u.host.ports = mapTbl s.host.ports (fun _ p => ({ perst := p.perst } : Port)) ∧ u.dev.board = s.dev.board ∧ u.pins.fault = false
      ∧ u.sec = { skipIndices { s.sec with update := none } with service := none } :=
    ⟨_, rfl, ⟨rfl, rfl, rfl, rfl, rfl, rfl, rfl, rfl, rfl, rfl⟩, rfl, rfl, rfl, rfl, rfl, rfl, rfl, rfl⟩
  obtain ⟨u, e, ⟨u1, u2, u3, u4, u5, u6, u7, u8, u9, u10⟩, v1, v2, v3, v4, v5, v6, v7, v8⟩ := hu
  have hs : startupStops u = startupStops s := stops_eq s u v6 (by rw [v8]; exact f1) (by rw [v8]; exact f2) (by rw [v8]; exact f3) (by rw [v8]; exact f4)
  have hl : u.sec.lifecycle = s.sec.lifecycle := by rw [v8]; exact f3
  obtain ⟨⟨a1, a2, a3, a4, a5, a6, a7, a8, a9⟩, b1, b2, b3, b4, b5, b6, b7, b8, b9⟩ := begin_facts cause u
  dsimp only
  rw [e, a1, a2, a3, a4, a5, a6, a7, a8, a9, b1, b2, b3, b4, b5, b6, b7, ← hs, ← hl, ← v6]
  rw [v7] at b9
  refine ⟨⟨u1, u2, u3, u4, u5, u6, u7, u8, u9, u10⟩, v1, v2, v3, v4, fun p => by rw [v5]; exact hlink _ _, rfl, rfl, b8, b9⟩

theorem engine_facts (s : State) :
    let t := engineStart s
    (t.cmds = [] ∧ t.sessions = [] ∧ t.obj = {} ∧ t.host.funcs = [] ∧ t.host.pairs = [] ∧ t.host.vecs = [] ∧ t.nvme = []
      ∧ t.dev.ready = false ∧ t.flash.staging = [] ∧ t.flash.namespaces = s.flash.namespaces)
    ∧ t.now = s.now ∧ t.smb = s.smb ∧ t.tenants = s.tenants ∧ t.host.ports = s.host.ports
    ∧ t.dev.cause = .engine ∧ t.dev.board = s.dev.board
    ∧ (startupStops s = true → t.dev.stage = .stopped ∧ t.pins.fault = true)
    ∧ (startupStops s = false → t.dev.stage = .startup ∧ t.pins.fault = s.pins.fault) := by
  have hu : ∃ u, engineStart s = beginOn .engine u ∧ (u.cmds = [] ∧ u.sessions = [] ∧ u.obj = {} ∧ u.host.funcs = [] ∧ u.host.pairs = [] ∧ u.host.vecs = [] ∧ u.nvme = []
      ∧ u.dev.ready = false ∧ u.flash.staging = [] ∧ u.flash.namespaces = s.flash.namespaces)
      ∧ u.now = s.now ∧ u.smb = s.smb ∧ u.tenants = s.tenants ∧ u.host.ports = s.host.ports ∧ u.dev.board = s.dev.board ∧ u.pins.fault = s.pins.fault
      ∧ u.sec.firmware = s.sec.firmware ∧ u.sec.yarcenFloor = s.sec.yarcenFloor ∧ u.sec.lifecycle = s.sec.lifecycle ∧ u.sec.ownerKeys = s.sec.ownerKeys :=
    ⟨_, rfl, ⟨rfl, rfl, rfl, rfl, rfl, rfl, rfl, rfl, rfl, rfl⟩, rfl, rfl, rfl, rfl, rfl, rfl, rfl, rfl, rfl, rfl⟩
  obtain ⟨u, e, ⟨u1, u2, u3, u4, u5, u6, u7, u8, u9, u10⟩, v1, v2, v3, v4, v5, v6, v7, v8, v9, v10⟩ := hu
  have hs : startupStops u = startupStops s := stops_eq s u v5 v7 v8 v9 v10
  obtain ⟨⟨a1, a2, a3, a4, a5, a6, a7, a8, a9⟩, b1, b2, b3, b4, b5, b6, b7, b8, b9⟩ := begin_facts .engine u
  dsimp only
  rw [e, a1, a2, a3, a4, a5, a6, a7, a8, a9, b1, b3, b4, b5, b6, b7, ← hs, ← v5, ← v6]
  exact ⟨⟨u1, u2, u3, u4, u5, u6, u7, u8, u9, u10⟩, v1, v2, v3, v4, rfl, rfl, b8, fun h => ⟨(b9 h).1, (b9 h).2.1⟩⟩

/-- What the sequence of R420 leaves. -/
def heldBy (s : State) := (s.dev, s.pins, s.host, s.now, s.smb)

theorem program_held (n l : Nat) (s : State) : heldBy (programDone n l s) = heldBy s := by
  unfold programDone; split <;> rfl

theorem folds_held (s : State) : heldBy (dropFolds s) = heldBy s := by
  exact foldS_same heldBy (fun s (f : Fold) => eraseBand f.dst (dropFold f.dst s)) (fun s x => rfl) s.flash.folds s

theorem clean_held (s : State) : heldBy (cleanFlash s) = heldBy s := by
  unfold cleanFlash
  dsimp only
  refine Eq.trans ?_ (foldS_same heldBy (fun s x => programDone x.nsid x.lba s) (fun s x => program_held _ _ s) s.flash.staging s)
  exact (folds_held _)

theorem clean_journal (s : State) : (cleanFlash s).flash.journal = 0 := by
  exact foldS_same (fun s : State => s.flash.journal) (fun s (f : Fold) => eraseBand f.dst (dropFold f.dst s)) (fun s x => rfl) _ _

theorem hold_facts (cause : Option Cause) (s : State) :
    let t := enterHold cause s
    t.dev.stage = .hold ∧ t.dev.ready = false ∧ t.dev.holdCause = cause ∧ t.dev.board = s.dev.board
    ∧ t.cmds = [] ∧ t.sessions = [] ∧ t.obj = {} ∧ t.host.pairs = [] ∧ t.nvme = []
    ∧ t.flash.staging = [] ∧ t.flash.waiting = [] ∧ t.flash.journal = 0 ∧ t.flash.shutdownOpen = false
    ∧ t.pins.fault = (s.pins.fault || cause.isSome) ∧ t.pins.pwrOk = s.pins.pwrOk
    ∧ (∀ p, (look t.host.ports p).link = false)
    ∧ ∃ e, t.log.entries.getLast? = some e ∧ e.cls = 9 := by
  have hc := clean_held s
  simp only [heldBy, Prod.mk.injEq] at hc
  obtain ⟨c1, c2, c3, c4, c5⟩ := hc
  have hj := clean_journal s
  have hf : (cleanFlash s).flash.staging = [] ∧ (cleanFlash s).flash.waiting = [] ∧ (cleanFlash s).flash.shutdownOpen = false := ⟨rfl, rfl, rfl⟩
  unfold enterHold
  generalize cleanFlash s = w at hj hf c1 c2 ⊢
  dsimp only [logFault, dropWork]
  refine ⟨rfl, rfl, rfl, by rw [c1], rfl, rfl, rfl, rfl, rfl, hf.1, hf.2.1, hj, hf.2.2, by rw [c2], by rw [c2], fun p => ?_, ?_⟩
  · simp only [look, find?_mapTbl]; cases find? _ p <;> rfl
  · refine ⟨{ seq := w.log.next, time := w.now, clk := mgmtClk, cls := 9, action := 0, addr := 0, count := 1 }, ?_, rfl⟩
    · rw [List.getLast?_drop]
      simp

theorem off_facts (s : State) :
    let t := powerOff s
    t.dev.stage = .off ∧ t.dev.ready = false ∧ t.cmds = [] ∧ t.sessions = [] ∧ t.obj = {} ∧ t.pins.pwrOk = false ∧ t.pins.fault = false ∧ t.pins.alert = false
    ∧ t.flash = s.flash ∧ t.log = s.log ∧ (∀ p, (look t.host.ports p).link = false) := by
  refine ⟨rfl, rfl, rfl, rfl, rfl, rfl, rfl, rfl, rfl, rfl, fun p => ?_⟩
  unfold powerOff
  simp only [look, find?_mapTbl]; cases find? _ p <;> rfl

end Sys2Proof.Laws
end

