-- ==== Sys2Proof/Laws/Invariant.lean ====
section
/-! SUPPORT. Laws of shared operations: what start-up, HOLD and P4 leave of the invariant. -/

open Sys2Proof Sys2Proof.Machine
namespace Sys2Proof.Laws

theorem ranged_ok (p : Params) : paramsInRange (rangedParams p) := by
  have keep : ∀ (P : Nat → Prop) (ok : Bool) (v d : Nat), (ok = true → P v) → P d → P (keepIf ok v d) := by
    intro P ok v d h1 h2; unfold keepIf; split
    · exact h1 ‹_›
    · exact h2
  have k1 : ∀ (hi v d : Nat), d ≤ hi → keepIf (decide (v ≤ hi)) v d ≤ hi := fun hi v d h => keep (· ≤ hi) _ v d (by simp) h
  have k2 : ∀ (lo v hi d : Nat), lo ≤ d → d ≤ hi → lo ≤ keepIf (between lo v hi) v d ∧ keepIf (between lo v hi) v d ≤ hi :=
    fun lo v hi d h1 h2 => keep (fun x => lo ≤ x ∧ x ≤ hi) _ v d (by simp [between]) ⟨h1, h2⟩
  have k3 : ∀ (n v d : Nat), d < n → keepIf (decide (v < n)) v d < n := fun n v d h => keep (· < n) _ v d (by simp) h
  refine ⟨?_, ?_, ?_, ?_, ?_, ?_, ?_⟩
  · simp only [schedInRange, rangedParams, rangedSched]
    have hc : 32 ≤ keepIf (between 32 p.sched.chunk 2048 && decide (p.sched.chunk % 32 = 0)) p.sched.chunk 256
        ∧ keepIf (between 32 p.sched.chunk 2048 && decide (p.sched.chunk % 32 = 0)) p.sched.chunk 256 ≤ 2048
        ∧ keepIf (between 32 p.sched.chunk 2048 && decide (p.sched.chunk % 32 = 0)) p.sched.chunk 256 % 32 = 0 :=
      keep (fun x => 32 ≤ x ∧ x ≤ 2048 ∧ x % 32 = 0) _ _ _ (by simp only [between, Bool.and_eq_true, decide_eq_true_eq]; omega) (by decide)
    refine ⟨k1 _ _ _ (by decide), k1 _ _ _ (by decide), (k2 _ _ _ _ (by decide) (by decide)).1, (k2 _ _ _ _ (by decide) (by decide)).2, hc.1, hc.2.1, hc.2.2,
      (k2 _ _ _ _ (by decide) (by decide)).1, (k2 _ _ _ _ (by decide) (by decide)).2, (k2 _ _ _ _ (by decide) (by decide)).1, (k2 _ _ _ _ (by decide) (by decide)).2,
      (k2 _ _ _ _ (by decide) (by decide)).1, (k2 _ _ _ _ (by decide) (by decide)).2, (k2 _ _ _ _ (by decide) (by decide)).1, (k2 _ _ _ _ (by decide) (by decide)).2,
      (k2 _ _ _ _ (by decide) (by decide)).1, (k2 _ _ _ _ (by decide) (by decide)).2, (k2 _ _ _ _ (by decide) (by decide)).1, (k2 _ _ _ _ (by decide) (by decide)).2,
      (k2 _ _ _ _ (by decide) (by decide)).1, (k2 _ _ _ _ (by decide) (by decide)).2⟩
  · simp only [embInRange, rangedParams, rangedEmb]
    exact ⟨(k2 _ _ _ _ (by decide) (by decide)).1, (k2 _ _ _ _ (by decide) (by decide)).2, (k2 _ _ _ _ (by decide) (by decide)).1, (k2 _ _ _ _ (by decide) (by decide)).2, k1 _ _ _ (by decide), (k2 _ _ _ _ (by decide) (by decide)).1, (k2 _ _ _ _ (by decide) (by decide)).2⟩
  · simp only [memInRange, rangedParams, rangedMem]
    exact ⟨k1 _ _ _ (by decide), k1 _ _ _ (by decide), (k2 _ _ _ _ (by decide) (by decide)).1, (k2 _ _ _ _ (by decide) (by decide)).2, (k2 _ _ _ _ (by decide) (by decide)).1, (k2 _ _ _ _ (by decide) (by decide)).2, (k2 _ _ _ _ (by decide) (by decide)).1, (k2 _ _ _ _ (by decide) (by decide)).2, k1 _ _ _ (by decide), k1 _ _ _ (by decide)⟩
  · simp only [flashInRange, rangedParams, rangedFlash]
    have hg := k2 64 p.flash.gcStart 4096 256 (by decide) (by decide)
    have hu : ∀ g : Nat, 16 ≤ keepIf (between 16 p.flash.gcUrgent 1024 && decide (p.flash.gcUrgent < g)) p.flash.gcUrgent 64
        ∧ keepIf (between 16 p.flash.gcUrgent 1024 && decide (p.flash.gcUrgent < g)) p.flash.gcUrgent 64 ≤ 1024 := fun g =>
      keep (fun x => 16 ≤ x ∧ x ≤ 1024) _ _ _ (by simp only [between, Bool.and_eq_true, decide_eq_true_eq]; omega) (by decide)
    exact ⟨(k2 _ _ _ _ (by decide) (by decide)).1, (k2 _ _ _ _ (by decide) (by decide)).2, (k2 _ _ _ _ (by decide) (by decide)).1, (k2 _ _ _ _ (by decide) (by decide)).2, (k2 _ _ _ _ (by decide) (by decide)).1, (k2 _ _ _ _ (by decide) (by decide)).2, k1 _ _ _ (by decide), hg.1, hg.2, (hu _).1, (hu _).2, (k2 _ _ _ _ (by decide) (by decide)).1, (k2 _ _ _ _ (by decide) (by decide)).2, (k2 _ _ _ _ (by decide) (by decide)).1, (k2 _ _ _ _ (by decide) (by decide)).2⟩
  · simp only [quotasInRange, rangedParams, rangedQuotas]
    exact ⟨(k2 _ _ _ _ (by decide) (by decide)).1, (k2 _ _ _ _ (by decide) (by decide)).2, k1 _ _ _ (by decide), k1 _ _ _ (by decide), k1 _ _ _ (by decide), k1 _ _ _ (by decide), k3 _ _ _ (by decide), k3 _ _ _ (by decide)⟩
  · simp only [sysInRange, rangedParams, rangedSys]
    exact ⟨(k2 _ _ _ _ (by decide) (by decide)).1, (k2 _ _ _ _ (by decide) (by decide)).2, (k2 _ _ _ _ (by decide) (by decide)).1, (k2 _ _ _ _ (by decide) (by decide)).2, k1 _ _ _ (by decide), (k2 _ _ _ _ (by decide) (by decide)).1, (k2 _ _ _ _ (by decide) (by decide)).2, (k2 _ _ _ _ (by decide) (by decide)).1, (k2 _ _ _ _ (by decide) (by decide)).2, (k2 _ _ _ _ (by decide) (by decide)).1, (k2 _ _ _ _ (by decide) (by decide)).2⟩
  · simp only [hostInRange, rangedParams, rangedHost]
    exact ⟨k1 _ _ _ (by decide), k1 _ _ _ (by decide), k1 _ _ _ (by decide)⟩

theorem factory_ok : paramsInRange Params.factory := by
  refine ⟨?_, ?_, ?_, ?_, ?_, ?_, ?_⟩
  · unfold schedInRange; decide
  · unfold embInRange; decide
  · unfold memInRange; decide
  · unfold flashInRange; decide
  · unfold quotasInRange; decide
  · unfold sysInRange; decide
  · unfold hostInRange; decide

theorem straps_fixed (cause : Cause) (u : State) : ∃ cfg f, (sampleStraps cause u).fixed = f ∧ f.cfg = cfg ∧ paramsInRange cfg ∧ f.stage = .startup
    ∧ f.ready = u.dev.ready ∧ f.inputs = inputsOf u.pins ∧ f.board = u.dev.board := by
  have hf : (checkRecords (chooseFirmware u)).fixed = u.fixed := (checkRecords_fixed _).trans (chooseFirmware_fixed _)
  unfold sampleStraps
  generalize checkRecords (chooseFirmware u) = w at hf ⊢
  have h1 : w.dev.ready = u.dev.ready := congrArg Fixed.ready hf
  have h2 : inputsOf w.pins = inputsOf u.pins := congrArg Fixed.inputs hf
  have h3 : w.dev.board = u.dev.board := congrArg Fixed.board hf
  refine ⟨_, _, rfl, rfl, ?_, rfl, h1, h2, h3⟩
  · show paramsInRange (match chooseSlot w with
      | some x => rangedParams (Params.ofImage (Config.heleriFields (slotImage w x)))
      | none => Params.factory)
    split
    · exact ranged_ok _
    · exact factory_ok

theorem begun_inv (cause : Cause) (u : State) (hr : u.dev.ready = false) (hc : u.dev.cfg = Params.factory)
    (hp : u.pins.pwrOk = true ∧ u.pins.sysResetN = true ∧ u.pins.pfailN = true) (hb : u.pins.reference = u.dev.board.reference) :
    State.Inv (beginOn cause u) ∧ ((beginOn cause u).dev.stage = .startup ∨ (beginOn cause u).dev.stage = .stopped) := by
  unfold beginOn
  split
  · refine ⟨⟨?_, ?_, ?_, ?_, ?_, ?_⟩, .inr rfl⟩
    · show paramsInRange u.dev.cfg; rw [hc]; exact factory_ok
    · show (u.dev.ready = true ↔ Stage.stopped = .service); rw [hr]; simp
    · exact fun _ => hp.1
    · exact fun _ => ⟨hp.2.1, hp.2.2⟩
    · exact hb
    · rintro (h | h) <;> cases h
  · rename_i hs
    obtain ⟨cfg, f, e, f1, f2, f3, f4, f5, f6⟩ := straps_fixed cause u
    refine ⟨?_, .inl ?_⟩
    · unfold State.Inv
      rw [e]
      refine ⟨by rw [f1]; exact f2, by rw [f3, f4, hr]; simp, fun _ => by rw [f5]; exact hp.1, fun _ => by rw [f5]; exact ⟨hp.2.1, hp.2.2⟩, ?_, fun _ => ?_⟩
      · rw [f5, f6]; exact hb
      · rw [f6]
        have : startupStops u = false := by simpa using hs
        simp only [startupStops, Bool.or_eq_false_iff] at this
        simpa using this.1.2
    · exact (congrArg Fixed.stage e).trans f3

theorem cold_inv (cause : Cause) (s : State) (hp : s.pins.pwrOk = true ∧ s.pins.sysResetN = true ∧ s.pins.pfailN = true) (hb : s.pins.reference = s.dev.board.reference) :
    State.Inv (coldStart cause s) ∧ ((coldStart cause s).dev.stage = .startup ∨ (coldStart cause s).dev.stage = .stopped) := by
  have hu : ∃ u, coldStart cause s = beginOn cause u ∧ u.dev = { board := s.dev.board } ∧ u.pins = { s.pins with fault := false, alert := false } := ⟨_, rfl, rfl, rfl⟩
  obtain ⟨u, e, u1, u2⟩ := hu
  rw [e]
  exact begun_inv cause u (by rw [u1]) (by rw [u1]) (by rw [u2]; exact hp) (by rw [u1, u2]; exact hb)

theorem engine_inv (s : State) (hp : s.pins.pwrOk = true ∧ s.pins.sysResetN = true ∧ s.pins.pfailN = true) (hb : s.pins.reference = s.dev.board.reference) :
    State.Inv (engineStart s) ∧ ((engineStart s).dev.stage = .startup ∨ (engineStart s).dev.stage = .stopped) := by
  have hu : ∃ u, engineStart s = beginOn .engine u ∧ u.dev = { board := s.dev.board, latch := s.dev.latch, quoinMismatch := s.dev.quoinMismatch } ∧ u.pins = s.pins := ⟨_, rfl, rfl, rfl⟩
  obtain ⟨u, e, u1, u2⟩ := hu
  rw [e]
  exact begun_inv .engine u (by rw [u1]) (by rw [u1]) (by rw [u2]; exact hp) (by rw [u1, u2]; exact hb)

/-- What InvOf and the frame read. -/
theorem hold_fixed (cause : Option Cause) (s : State) : ∃ f, (enterHold cause s).fixed = f ∧ f.cfg = s.dev.cfg ∧ f.stage = .hold ∧ f.ready = false ∧ f.inputs = inputsOf s.pins ∧ f.board = s.dev.board
    ∧ f.straps = s.fixed.straps := by
  have hf : (logFault mgmtClk 9 0 0 1 (dropWork (cleanFlash s))).fixed = s.fixed := (logFault_fixed ..).trans ((dropWork_fixed _).trans (cleanFlash_fixed _))
  unfold enterHold
  generalize logFault mgmtClk 9 0 0 1 (dropWork (cleanFlash s)) = w at hf ⊢
  have h1 : w.dev.cfg = s.dev.cfg := congrArg Fixed.cfg hf
  have h2 : inputsOf w.pins = inputsOf s.pins := congrArg Fixed.inputs hf
  have h3 : w.dev.board = s.dev.board := congrArg Fixed.board hf
  have h4 : w.fixed.straps = s.fixed.straps := congrArg Fixed.straps hf
  exact ⟨_, rfl, h1, rfl, rfl, h2, h3, h4⟩

theorem hold_inv (cause : Option Cause) (s : State) (h1 : paramsInRange s.dev.cfg) (h2 : s.pins.pwrOk = true) (h3 : s.pins.reference = s.dev.board.reference) :
    State.Inv (enterHold cause s) := by
  obtain ⟨f, e, f1, f2, f3, f4, f5, f6⟩ := hold_fixed cause s
  unfold State.Inv
  rw [e]
  refine ⟨by rw [f1]; exact h1, by rw [f2, f3]; simp, fun _ => by rw [f4]; exact h2, ?_, by rw [f4, f5]; exact h3, ?_⟩
  · rw [f2]; rintro (h | h | h) <;> cases h
  · rw [f2]; rintro (h | h) <;> cases h

theorem off_inv (s : State) (h3 : s.pins.reference = s.dev.board.reference) : State.Inv (powerOff s) := by
  refine ⟨factory_ok, ?_, ?_, ?_, h3, ?_⟩
  · show (false = true ↔ Stage.off = .service); simp
  · intro h; exact absurd rfl h
  · rintro (h | h | h) <;> cases h
  · rintro (h | h) <;> cases h

theorem island_fixed (c : ClockId) (f : Island → Island) (s : State) : (setIsland c f s).fixed = s.fixed := rfl

/-- A state's fixed part once the device is ready. -/
def readyFixed (f : Fixed) (n : Nat) : Fixed := { f with stage := .service, ready := true, boot := (f.boot.1, f.boot.2.1, f.boot.2.2.1, n) }

theorem ready_fixed (l : List ClockId) (s : State) : ∃ n, (becomeReady l s).fixed = readyFixed s.fixed n := by
  have key : ∀ (w : State) (n : Nat), State.fixed { w with dev := { w.dev with stage := .service, ready := true, selfTestRetired := n } } = readyFixed w.fixed n := fun w n => rfl
  have hf : ∀ x : List (Fin 96), (startFlash (startChannels x s)).fixed = s.fixed := fun x => (startFlash_fixed _).trans (startChannels_fixed ..)
  unfold becomeReady
  dsimp only
  rw [fixed_foldS]
  · rw [key, hf]; exact ⟨_, rfl⟩
  · intro u c
    split
    · exact logFault_fixed ..
    · exact autoRetire_fixed ..

theorem tick_fixed (s : State) : ∃ n, (tick s).fixed = { s.fixed with now := n } := by
  unfold tick
  split
  · exact ⟨s.now, rfl⟩
  · exact ⟨s.now + 1, countPower_fixed _⟩

theorem temp_cases (clk : ClockId) (temp : Int) (s : State) :
    (takeTemp clk temp s).fixed = s.fixed ∨ ∃ u, u.fixed = s.fixed ∧ takeTemp clk temp s = enterHold (some .thermal) u := by
  unfold takeTemp
  dsimp only
  split
  · exact .inr ⟨setIsland clk (fun i => { i with temp }) s, rfl, rfl⟩
  · left
    split
    · exact heatCourse_fixed ..
    · rfl

/-- What a row of the fourteen, and a tick, leaves of the invariant. -/
theorem running_pins (s : State) (h : State.Inv s) (hr : running s = true) : s.pins.pwrOk = true ∧ s.pins.sysResetN = true ∧ s.pins.pfailN = true := by
  obtain ⟨_, _, h3, h4, _, _⟩ := h
  have : s.dev.stage = .startup ∨ s.dev.stage = .stopped ∨ s.dev.stage = .service := by
    simpa [running] using hr
  have hne : s.dev.stage ≠ .off := by rcases this with h | h | h <;> rw [h] <;> decide
  exact ⟨h3 hne, (h4 this).1, (h4 this).2⟩

theorem inv_of (s t : State) (h : State.Inv s) (e : t.fixed = s.fixed) : State.Inv t := by unfold State.Inv; rw [e]; exact h

theorem release_inv (s : State) (h : State.Inv s) (u : State) (hu : u = { s with pins := { s.pins with pfailN := true } }) (g : s.pins.sysResetN = true) (gp : s.pins.pwrOk = true) (cause : Cause) : State.Inv (coldStart cause u) := by
  subst hu
  obtain ⟨_, _, _, _, h5, _⟩ := h
  exact (cold_inv cause { s with pins := { s.pins with pfailN := true } } ⟨gp, g, rfl⟩ h5).1

theorem clean_ref (u : State) (h : u.pins.reference = u.dev.board.reference) : (cleanFlash u).pins.reference = (cleanFlash u).dev.board.reference := by
  have e1 : inputsOf (cleanFlash u).pins = inputsOf u.pins := congrArg Fixed.inputs (cleanFlash_fixed u)
  have e2 : (cleanFlash u).dev.board = u.dev.board := congrArg Fixed.board (cleanFlash_fixed u)
  simp only [inputsOf, Prod.mk.injEq] at e1
  rw [e1.2.2.2, e2]; exact h

theorem pins_inv (v : State) (hv : State.Inv v) (_ho : v.dev.stage = .off) : State.Inv { v with pins := { v.pins with pwrOk := true } } := by
  obtain ⟨d1, d2, d3, d4, d5, d6⟩ := hv
  exact ⟨d1, d2, fun _ => rfl, d4, d5, d6⟩

theorem cold_stage (cause : Cause) (s : State) : (coldStart cause s).dev.stage = .startup ∨ (coldStart cause s).dev.stage = .stopped := by
  have hu : ∃ u, coldStart cause s = beginOn cause u := ⟨_, rfl⟩
  obtain ⟨u, e⟩ := hu
  rw [e]; unfold beginOn; split
  · exact .inr rfl
  · exact .inl rfl

theorem engine_stage (s : State) : (engineStart s).dev.stage = .startup ∨ (engineStart s).dev.stage = .stopped := by
  have hu : ∃ u, engineStart s = beginOn .engine u := ⟨_, rfl⟩
  obtain ⟨u, e⟩ := hu
  rw [e]; unfold beginOn; split
  · exact .inr rfl
  · exact .inl rfl

end Sys2Proof.Laws
end

