-- ==== Sys2Proof/Laws/Marks.lean ====
section
/-! SUPPORT. Laws of shared operations: markers and latches. -/

open Sys2Proof Sys2Proof.Machine
namespace Sys2Proof.Laws

theorem latch_fold (m : Word64) (l : List ClockId) : ∀ (s u : State), (∀ clk, powered u clk = powered s clk) →
    let t := foldS (fun s clk => if powered s clk then latchIsland m clk s else setIsland clk (fun i => { i with latch := none }) s) l u
    (∀ clk, powered t clk = powered s clk) ∧ t.dev = u.dev ∧ t.now = u.now
    ∧ (∀ clk, clk ∈ l → (powered s clk = false → (look t.islands clk).latch = none) ∧ (powered s clk = true → ∃ n, (look t.islands clk).latch = some (m, n)))
    ∧ (∀ clk, clk ∉ l → look t.islands clk = look u.islands clk) := by
  induction l with
  | nil => intro s u hp; exact ⟨hp, rfl, rfl, fun clk h => absurd h (List.not_mem_nil), fun _ _ => rfl⟩
  | cons a l ih =>
    intro s u hp
    obtain ⟨v, hv⟩ : ∃ v, v = (if powered u a then latchIsland m a u else setIsland a (fun i => { i with latch := none }) u) := ⟨_, rfl⟩
    have hvi : ∃ x, v.islands = upd u.islands a (fun i => { i with latch := x }) ∧ v.dev = u.dev ∧ v.now = u.now
        ∧ (powered s a = false → x = none) ∧ (powered s a = true → ∃ n, x = some (m, n)) := by
      rw [hv, hp a]
      cases hb : powered s a
      · exact ⟨none, rfl, rfl, rfl, fun _ => rfl, fun h => by cases h⟩
      · exact ⟨_, rfl, rfl, rfl, fun h => (by cases h), fun _ => ⟨_, rfl⟩⟩
    obtain ⟨x, hx, hd, hn, h1, h2⟩ := hvi
    have hpv : ∀ clk, powered v clk = powered s clk := by
      intro clk
      rw [← hp clk]
      unfold powered islandUp
      rw [hd, hx]
      by_cases e : a = clk
      · subst e; simp
      · rw [look_upd_other _ _ e]
    obtain ⟨g1, g2, g3, g4, g5⟩ := ih s v hpv
    rw [foldS_cons, ← hv]
    refine ⟨g1, g2.trans hd, g3.trans hn, fun clk hc => ?_, fun clk hc => ?_⟩
    · by_cases e : clk ∈ l
      · exact g4 clk e
      · have : clk = a := by rcases List.mem_cons.1 hc with h | h; exact h; exact absurd h e
        subst this
        rw [g5 clk e, hx, look_upd_self]
        exact ⟨fun h => h1 h, fun h => h2 h⟩
    · rw [g5 clk (fun h => hc (List.mem_cons_of_mem _ h)), hx, look_upd_other _ _ (by rintro rfl; exact hc (List.mem_cons_self ..))]

theorem mark_spec (m : Word64) (s : State) : (mark m s).dev.latch = some (m, s.now)
    ∧ ∀ clk ∈ allIslands, (powered s clk = false → (look (mark m s).islands clk).latch = none)
      ∧ (powered s clk = true → ∃ n, (look (mark m s).islands clk).latch = some (m, n)) := by
  unfold mark
  generalize allIslands = l
  obtain ⟨a1, a2, a3, a4, a5⟩ := latch_fold m l s { s with dev := { s.dev with latch := some (m, s.now) } } (fun _ => rfl)
  exact ⟨congrArg Device.latch a2, fun clk hc => a4 clk hc⟩

end Sys2Proof.Laws
end

