-- ==== Sys2Proof/Laws/Moves.lean ====
section
/-! SUPPORT. Laws of shared operations: moves between the tiers. -/

open Sys2Proof Sys2Proof.Machine
namespace Sys2Proof.Laws

theorem moves_un {s t : State} (h : t.unreported = s.unreported) : t.eng = s.eng ∧ t.obj = s.obj ∧ t.islands = s.islands ∧ t.counters = s.counters :=
  ⟨by have := congrArg State.eng h; exact this, by have := congrArg State.obj h; exact this,
   by have := congrArg State.islands h; exact this, by have := congrArg State.counters h; exact this⟩

theorem endMove_spec (k : Nat) (m : Move) (s : State) (h : find? s.eng.moves k = some m) :
    (endMove k s).obj = s.obj ∧ (endMove k s).eng = { s.eng with moves := adj s.eng.moves k (fun m => { m with state := .draining, cmd := none }) } := by
  unfold endMove
  simp only [h]
  split
  all_goals first | exact ⟨rfl, rfl⟩ | exact ⟨(finish_obj ..).trans rfl, (finish_eng ..).trans rfl⟩

theorem pastUnit_spec (k u : Nat) (f : Move → Move) (m : Move) (s : State) (h : find? s.eng.moves k = some m) :
    (pastUnit k u f s).obj = s.obj ∧ ∃ st cmd, find? (pastUnit k u f s).eng.moves k
      = some { f { m with cursor := u + 1, unit := none, attempts := 0, takenLp := [], takenFlash := 0 } with state := st, cmd := cmd } := by
  unfold pastUnit
  have hf : find? (setMove k (fun m => f { m with cursor := u + 1, unit := none, attempts := 0, takenLp := [], takenFlash := 0 }) s).eng.moves k
      = some (f { m with cursor := u + 1, unit := none, attempts := 0, takenLp := [], takenFlash := 0 }) := by
    simp only [setMove, find?_adj, if_true, h, Option.map_some]
  simp only [hf]
  split
  · obtain ⟨h1, h2⟩ := endMove_spec k _ _ hf
    refine ⟨h1, .draining, none, ?_⟩
    rw [h2]
    simp only [find?_adj, if_true, hf, Option.map_some]
  · exact ⟨rfl, _, _, by rw [hf]⟩

theorem find?_adj_self' {κ α : Type} [DecidableEq κ] {t : Tbl κ α} {i : κ} {v : α} (f : α → α) (h : find? t i = some v) :
    find? (adj t i f) i = some (f v) := by rw [find?_adj, if_pos rfl, h, Option.map_some]

theorem leLen (n v : Nat) : (leBytes n v).length = n := by
  induction n generalizing v with
  | zero => rfl
  | succ n ih => simp [leBytes, ih]

theorem corp_upd (s : State) (slot : Nat) (f : Tbl Nat Record → Tbl Nat Record) : corpusOf (setCorpus slot f s) slot = f (corpusOf s slot) := by
  simp [corpusOf, setCorpus]

end Sys2Proof.Laws
end

