-- ==== Sys2Proof/Laws/NvmeQueues.lean ====
section
/-! SUPPORT. Laws of shared operations: NVMe commands and the blocks that they write and unmap. -/

open Sys2Proof Sys2Proof.Machine
namespace Sys2Proof.Laws

theorem raise_out (p : Fin 2) (fn v : Nat) (s : State) : (∃ m, (raiseMsix p fn v s).out = s.out ++ m) ∧ (raiseMsix p fn v s).nvme = s.nvme
    ∧ (raiseMsix p fn v s).flash = s.flash ∧ (raiseMsix p fn v s).tenants = s.tenants := by
  unfold raiseMsix; split
  · exact ⟨⟨[], by simp⟩, rfl, rfl, rfl⟩
  · split
    · exact ⟨⟨[], by simp⟩, rfl, rfl, rfl⟩
    · exact ⟨⟨_, rfl⟩, rfl, rfl, rfl⟩

theorem setCtrl_flash (c : Fin 2) (f : Nvme → Nvme) (s : State) :
    (setCtrl c f s).flash = s.flash ∧ (setCtrl c f s).tenants = s.tenants := ⟨rfl, rfl⟩

/-- A completion changes neither the flash nor the tenants. -/
theorem complete_flash (c : Fin 2) (sq cid : Nat) (st : NvmeStatus) (d : List Byte) (s : State) :
    (complete c sq cid st d s).flash = s.flash ∧ (complete c sq cid st d s).tenants = s.tenants := by
  have key : ∀ (u : State), u.flash = s.flash ∧ u.tenants = s.tenants →
      ∀ (st : NvmeStatus) (d : List Byte), (match find? (ctrlOf u c).sqs sq with
        | none => u
        | some q => match find? (ctrlOf u c).cqs q.target with
          | none => u
          | some cq =>
            if qNext cq cq.tail = cq.head then
              setCtrl c (fun n => { n with cqs := adj n.cqs q.target (fun k => { k with held := k.held ++ [(sq, cid, st, d)] }) }) u
            else
              let u := setCtrl c (fun n => { n with cqs := adj n.cqs q.target (fun k => { k with tail := qNext k k.tail }) }) u
              raiseMsix c pf1 cq.target { u with out := u.out ++ [.nvme c sq cid st d] } : State).flash = s.flash
      ∧ (match find? (ctrlOf u c).sqs sq with
        | none => u
        | some q => match find? (ctrlOf u c).cqs q.target with
          | none => u
          | some cq =>
            if qNext cq cq.tail = cq.head then
              setCtrl c (fun n => { n with cqs := adj n.cqs q.target (fun k => { k with held := k.held ++ [(sq, cid, st, d)] }) }) u
            else
              let u := setCtrl c (fun n => { n with cqs := adj n.cqs q.target (fun k => { k with tail := qNext k k.tail }) }) u
              raiseMsix c pf1 cq.target { u with out := u.out ++ [.nvme c sq cid st d] } : State).tenants = s.tenants := by
    intro u hu st d
    split
    · exact hu
    · split
      · exact hu
      · split
        · exact hu
        · dsimp only
          rw [(raise_out _ _ _ _).2.2.1, (raise_out _ _ _ _).2.2.2]
          exact hu
  unfold complete
  dsimp only
  refine key _ ?_ _ _
  split <;> exact ⟨rfl, rfl⟩

theorem run_ready {s : State} {c : Fin 2} {sq : Nat} (h1 : nvmeReady s c = true) (h2 : sqWaiting s c sq = true) (body : State → State) :
    nvmeRun c sq body s = body (takeEntry c sq s) := by simp [nvmeRun, h1, h2]

theorem admin_ready {s : State} {c : Fin 2} (cid : Nat) (h1 : nvmeReady s c = true) (h2 : sqWaiting s c 0 = true) (body : State → NvmeStatus × List Byte × State) :
    admin c cid body s = .next (adminDone c cid (body (takeEntry c 0 s))) := by simp [admin, run_ready h1 h2]

theorem blockAt_set' (v : BlockState) (lba : Nat) (l : List (Nat × BlockState)) (j : Nat) :
    ((setBlock v lba l).find? (fun b => b.1 == j)).map (·.2) = if j = lba then some v else (l.find? (fun b => b.1 == j)).map (·.2) := by
  induction l with
  | nil =>
    by_cases h : j = lba
    · simp [setBlock, h]
    · simp [setBlock, List.find?, h, Ne.symm h]
  | cons b l ih =>
    simp only [setBlock]
    split
    · by_cases h : j = lba
      · simp [h]
      · have : (lba == j) = false := by simpa using Ne.symm h
        simp [List.find?, this, h]
    · split
      · rename_i h1 h2
        by_cases h : j = lba
        · simp [h]
        · have h3 : (lba == j) = false := by simpa using Ne.symm h
          have h4 : (b.1 == j) = false := by rw [← h2]; exact h3
          simp [List.find?, h3, h, h4]
      · rename_i h1 h2
        by_cases h : b.1 = j
        · have : ¬ j = lba := by rw [← h]; exact Ne.symm h2
          simp [List.find?, h, this]
        · have h4 : (b.1 == j) = false := by simpa using h
          simp only [List.find?, h4]
          exact ih

theorem blockAt_filter (n : Namespace) (gone : Nat → Bool) (j : Nat) :
    blockAt { n with blocks := n.blocks.filter (fun b => !gone b.1) } j = if gone j = true then none else blockAt n j := by
  unfold blockAt
  dsimp only
  induction n.blocks with
  | nil => simp
  | cons b l ih =>
    by_cases h : b.1 = j
    · by_cases g : gone j = true
      · have : gone b.1 = true := by rw [h]; exact g
        simp only [List.filter_cons, this, Bool.not_true, Bool.false_eq_true, if_false]
        rw [ih]; simp [g]
      · have : gone b.1 = false := by rw [h]; simpa using g
        simp [List.filter_cons, this, List.find?, h, g]
    · have h4 : (b.1 == j) = false := by simpa using h
      by_cases g : gone b.1 = true
      · simp only [List.filter_cons, g, Bool.not_true, Bool.false_eq_true, if_false, List.find?, h4]
        exact ih
      · have g' : gone b.1 = false := by simpa using g
        simp only [List.filter_cons, g', Bool.not_false, if_true, List.find?, h4]
        exact ih

theorem place_ns {s : State} {p : Nat × Nat × Flash} (h : place? s = some p) : p.2.2.namespaces = s.flash.namespaces ∧ p.2.2.staging = s.flash.staging
    ∧ p.2.2.bytesIn = s.flash.bytesIn := by
  have ho : ∀ q, openBand s true = some q → q.2.namespaces = s.flash.namespaces ∧ q.2.staging = s.flash.staging ∧ q.2.bytesIn = s.flash.bytesIn := by
    intro q h
    unfold openBand at h
    by_cases hc : 32 ≤ openBands s.flash ∨ (if true = true then freeOneBit s else freeQlc s) = 0
    · rw [if_pos hc] at h; exact absurd h (by simp)
    · rw [if_neg hc] at h
      simp only [Option.map_eq_some_iff] at h
      obtain ⟨b, -, rfl⟩ := h
      exact ⟨rfl, rfl, rfl⟩
  have hf : ∀ q, (openBand s true).map (fun r => (r.1, 0, { r.2 with writeBand := some r.1 })) = some q →
      q.2.2.namespaces = s.flash.namespaces ∧ q.2.2.staging = s.flash.staging ∧ q.2.2.bytesIn = s.flash.bytesIn := by
    intro q h
    simp only [Option.map_eq_some_iff] at h
    obtain ⟨r, h1, rfl⟩ := h
    exact ho r h1
  unfold place? at h
  dsimp only at h
  split at h
  · exact hf p h
  · split at h
    · simp only [Option.some.injEq] at h; subst h; exact ⟨rfl, rfl, rfl⟩
    · exact hf p h

theorem dealloc_ok (c : Fin 2) (sq cid nsid : Nat) (rs : List (Nat × Nat)) (s : State) (h1 : rs ≠ []) (h2 : rs.length ≤ 256)
    (h3 : ∀ r ∈ rs, rangeFault s c nsid r.1 r.2 = none) :
    deallocate c sq cid nsid rs s = complete c sq cid .success [] (issueFlash (journal 1 (unmapBlocks nsid (inRanges rs) s))) := by
  have h : ¬ (rs.isEmpty = true ∨ 256 < rs.length) := by
    rintro (h | h)
    · exact h1 (by simpa using h)
    · omega
  have g : rs.findSome? (fun r => rangeFault s c nsid r.1 r.2) = none := by
    rw [List.findSome?_eq_none_iff]; exact h3
  unfold deallocate
  rw [if_neg h, g]

theorem issueOne_spec (ch : Nat) (s : State) : ∃ i t,
    issueOne s ch = { s with flash := { s.flash with issued := i, turns := t } } := by
  unfold issueOne; dsimp only; repeat' split
  all_goals exact ⟨_, _, rfl⟩

theorem issueN_spec (n ch : Nat) (s : State) : ∃ i t,
    issueN n ch s = { s with flash := { s.flash with issued := i, turns := t } } := by
  induction n generalizing s with
  | zero => exact ⟨_, _, rfl⟩
  | succ n ih =>
    obtain ⟨i, t, h⟩ := issueOne_spec ch s
    obtain ⟨j, u, g⟩ := ih (issueOne s ch)
    exact ⟨j, u, by rw [issueN, g, h]⟩

/-- Issuing changes only which operations run, whose turn it is, and whether writes wait. -/
theorem issueFlash_spec (s : State) : ∃ i t w,
    issueFlash s = { s with flash := { s.flash with issued := i, turns := t, writesHeld := w } } := by
  have key := foldS_keeps
    (fun u => ∃ i t w, u = { s with flash := { s.flash with issued := i, turns := t, writesHeld := w } }) issueOn (fun u ch h => ?_)
    (List.range 16) { s with flash := { s.flash with
      issued := s.flash.issued.filter (flashWork s).contains, writesHeld := holdsWrites s } } ⟨_, _, _, rfl⟩
  · exact key
  obtain ⟨i, t, w, rfl⟩ := h
  unfold issueOn; split
  · exact ⟨_, _, _, rfl⟩
  · obtain ⟨j, v, g⟩ := issueN_spec 16 ch { s with flash := { s.flash with issued := i, turns := t, writesHeld := w } }
    exact ⟨j, v, w, g⟩

theorem unmap_spec (nsid : Nat) (gone : Nat → Bool) (s : State) (n : Namespace) (h : find? s.flash.namespaces nsid = some n) :
    ∃ n', find? (issueFlash (journal 1 (unmapBlocks nsid gone s))).flash.namespaces nsid = some n' ∧ ∀ j, blockAt n' j = if gone j = true then none else blockAt n j := by
  refine ⟨{ n with blocks := n.blocks.filter (fun b => !gone b.1) }, ?_, blockAt_filter n gone⟩
  obtain ⟨i, t, w, e⟩ := issueFlash_spec (journal 1 (unmapBlocks nsid gone s))
  rw [e]
  simp only [journal, unmapBlocks, setNamespace, find?_adj, if_true, h, Option.map_some]

theorem comp_fl (c : Fin 2) (sq cid : Nat) (st : NvmeStatus) (d : List Byte) (s : State) : (complete c sq cid st d s).flash = s.flash := (complete_flash c sq cid st d s).1

end Sys2Proof.Laws
end

