-- ==== Sys2Proof/Laws/Releases.lean ====
section
/-! SUPPORT. Laws of shared operations: what releasing a session's objects and a link's return keep. -/

open Sys2Proof Sys2Proof.Machine
namespace Sys2Proof.Laws

theorem foldS_id {σ β : Type} (f : σ → β → σ) (l : List β) (s : σ) (h : ∀ x ∈ l, ∀ t, f t x = t) : foldS f l s = s := by
  induction l generalizing s with
  | nil => rfl
  | cons x l ih =>
    rw [foldS_cons, h x (by simp) s]
    exact ih s (fun y hy => h y (by simp [hy]))

/-- The tables of a session's objects that releasing one of another kind keeps. -/
def sessionParts (s : State) := (s.obj.seqs, s.obj.scans, s.obj.templates, s.obj.tables, s.obj.grammars)

theorem removeModel_parts (n) (s : State) : sessionParts (removeModel n s) = sessionParts s := rfl

theorem removeIndex_parts (n) (s : State) : sessionParts (removeIndex n s) = sessionParts s := rfl

theorem clearVocab_parts (n) (s : State) : sessionParts (clearVocab n s) = sessionParts s := rfl

theorem releaseVocab_parts (n) (s : State) : sessionParts (releaseVocab n s) = sessionParts s := by unfold releaseVocab; split <;> rfl

theorem reapVocabs_parts (s : State) : sessionParts (reapVocabs s) = sessionParts s :=
  foldS_same sessionParts _ (fun s x => by split <;> rfl) _ _

theorem releaseObjects_parts (sid : Nat) (s : State) :
    (releaseObjects sid s).obj.seqs = s.obj.seqs.filter (fun q => q.2.session != sid)
          ∧ (releaseObjects sid s).obj.scans = s.obj.scans.filter (fun q => q.2.session != sid)
          ∧ (releaseObjects sid s).obj.templates = s.obj.templates.filter (fun q => q.2.session != sid)
          ∧ (releaseObjects sid s).obj.tables = s.obj.tables.filter (fun q => q.2.session != sid)
          ∧ (releaseObjects sid s).obj.grammars = s.obj.grammars.filter (fun q => q.2.session != sid) := by
  have key : sessionParts (releaseObjects sid s) = (s.obj.seqs.filter (fun q => q.2.session != sid),
      s.obj.scans.filter (fun q => q.2.session != sid), s.obj.templates.filter (fun q => q.2.session != sid),
      s.obj.tables.filter (fun q => q.2.session != sid), s.obj.grammars.filter (fun q => q.2.session != sid)) := by
    have d0 : ∀ l (s : State), (foldS (fun s (q : Nat × Seq) => if q.2.session = sid then dropMoves (movesOfSeq q.1) s else s) l s).obj = s.obj :=
      fun l s => foldS_same State.obj _ (fun s x => by split <;> rfl) l s
    unfold releaseObjects
    dsimp only
    rw [reapVocabs_parts]
    show sessionParts (foldS _ _ _) = _
    rw [foldS_same sessionParts _ (fun s x => by split; exact releaseVocab_parts ..; rfl)]
    rw [foldS_same sessionParts _ (fun s x => by split; exact removeIndex_parts ..; rfl)]
    rw [foldS_same sessionParts _ (fun s x => by split; exact removeModel_parts ..; rfl)]
    simp only [sessionParts, d0]
  simp only [sessionParts, Prod.mk.injEq] at key
  exact key

theorem drain_unreported (k) (s : State) : (drain k s).unreported = s.unreported := by
  have dl : ∀ n (s : State), (drainN n k s).unreported = s.unreported := by
    intro n
    induction n with
    | zero => intro s; rfl
    | succ n ih =>
      intro s
      unfold drainN
      dsimp only
      split
      · rfl
      · split
        · rw [ih]; simp
        · rfl
  unfold drain; dsimp only; split
  · rw [dl, setPair_unreported]
  · rfl

theorem linkUp_unreported (p) (s : State) : (linkUp p s).unreported = State.unreported { setPort p (fun x => { x with link := true }) s with
    sessions := mapTbl s.sessions (fun _ x => if x.port = p ∧ x.state = .detached ∧ s.now - x.holdAt < holdTime s then { x with state := .opened } else x) } := by
  unfold linkUp
  exact foldS_same State.unreported _ (fun s k => drain_unreported k s) _ _

end Sys2Proof.Laws
end

