-- ==== Sys2Proof/Laws/Reports.lean ====
section
/-! SUPPORT. Laws of shared operations: what ending a command sends and keeps. -/

open Sys2Proof Sys2Proof.Machine
namespace Sys2Proof.Laws

theorem setPair_out (k p) (s : State) : (setPair k p s).out = s.out := rfl

theorem raiseMsix_out (p fn v) (s : State) : ∃ m, (raiseMsix p fn v s).out = s.out ++ m := by
  unfold raiseMsix; repeat' split
  · exact ⟨[], by simp⟩
  · exact ⟨[], by simp⟩
  · exact ⟨_, rfl⟩

theorem raiseEvent_out (p fn b) (s : State) : ∃ m, (raiseEvent p fn b s).out = s.out ++ m := by
  unfold raiseEvent; dsimp only; split
  · exact ⟨[], by simp⟩
  · exact raiseMsix_out ..

theorem signal_out (k a b) (s : State) : ∃ m, (signalEntry k a b s).out = s.out ++ m := by
  unfold signalEntry; dsimp only; repeat' split
  · exact raiseMsix_out ..
  · exact ⟨[], by simp⟩
  · exact raiseMsix_out ..
  · exact raiseMsix_out ..
  · exact ⟨[], by simp [setPair]⟩
  · exact ⟨[], by simp [setPair]⟩

/-- An entry goes to CQ_TAIL, with SQ_HEAD and the phase of the pair (R49, R58). -/
theorem writeEntry_out (k c) (s : State) : ∃ m, (writeEntry k c s).out = s.out ++ .completion k.1 k.2.1 k.2.2
    (pairOf s k).cqTail.toNat (pairOf s k).sqHead (pairOf s k).phase c :: m := by
  unfold writeEntry; dsimp only
  obtain ⟨m, hm⟩ := signal_out k c.noint c.urgent (setPair k (advance (pairOf s k)) { s with
    out := s.out ++ [.completion k.1 k.2.1 k.2.2 (pairOf s k).cqTail.toNat (pairOf s k).sqHead (pairOf s k).phase c] })
  split
  · exact ⟨m, by rw [hm]; simp [setPair]⟩
  · obtain ⟨n, hn⟩ := raiseEvent_out k.1 k.2.1 evCqHold (setPair k { pairOf (signalEntry k c.noint c.urgent
      (setPair k (advance (pairOf s k)) { s with out := s.out ++ [.completion k.1 k.2.1 k.2.2 (pairOf s k).cqTail.toNat
        (pairOf s k).sqHead (pairOf s k).phase c] })) k with cqHold := true } (signalEntry k c.noint c.urgent
      (setPair k (advance (pairOf s k)) { s with out := s.out ++ [.completion k.1 k.2.1 k.2.2 (pairOf s k).cqTail.toNat
        (pairOf s k).sqHead (pairOf s k).phase c] })))
    refine ⟨m ++ n, ?_⟩
    rw [hn, setPair_out, hm]; simp [setPair]

theorem dropCmd_out (id) (s : State) : (dropCmd id s).out = s.out := rfl

theorem putEntry_out (k h) (s : State) : ∃ m, (putEntry k h s).out = s.out ++ m := by
  unfold putEntry; dsimp only; repeat' split
  · exact ⟨[], by simp [dropCmd_out]⟩
  · obtain ⟨m, hm⟩ := writeEntry_out k h.entry s
    exact ⟨_, hm⟩
  · exact ⟨[], by simp [setPair]⟩

theorem post_out (k c) (s : State) : ∃ m, (post k c s).out = s.out ++ m := putEntry_out ..

theorem fold_out {α} (f : State → α → State) (h : ∀ s x, ∃ m, (f s x).out = s.out ++ m) (l : List α) (s : State) : ∃ m, (foldS f l s).out = s.out ++ m := by
  induction l generalizing s with
  | nil => exact ⟨[], by simp [foldS]⟩
  | cons x l ih =>
    obtain ⟨a, ha⟩ := h s x
    obtain ⟨b, hb⟩ := ih (f s x)
    exact ⟨a ++ b, by rw [foldS_cons, hb, ha]; simp⟩

theorem conclude_out (c r) (s : State) : ∃ m, (conclude c r s).out = s.out ++ m := by
  unfold conclude; dsimp only; split
  · exact ⟨[], by simp [dropCmd_out, setCmd]⟩
  · exact putEntry_out ..

theorem release_out (s : State) : ∃ m, (releaseCancels s).out = s.out ++ m := by
  unfold releaseCancels; dsimp only
  exact fold_out _ (fun s x => conclude_out ..) _ _

theorem raiseMsix_cmds (p fn v) (s : State) : (raiseMsix p fn v s).cmds = s.cmds := by
  unfold raiseMsix; repeat' split
  all_goals rfl

theorem raiseEvent_cmds (p fn b) (s : State) : (raiseEvent p fn b s).cmds = s.cmds := by
  unfold raiseEvent; dsimp only; split
  · rfl
  · rw [raiseMsix_cmds]

theorem signal_cmds (k a b) (s : State) : (signalEntry k a b s).cmds = s.cmds := by
  unfold signalEntry; dsimp only; repeat' split
  all_goals first | rfl | (rw [raiseMsix_cmds]; try rfl)

theorem writeEntry_cmds (k c) (s : State) : (writeEntry k c s).cmds = s.cmds := by
  unfold writeEntry; dsimp only; split
  · rw [signal_cmds]; rfl
  · rw [raiseEvent_cmds]; exact signal_cmds ..

/-- A final completion leaves its command outstanding, committed, while it waits, and drops it else. -/
theorem putEntry_cmds (k h) (s : State) : (putEntry k h s).cmds = s.cmds ∨ (putEntry k h s).cmds = (dropCmd h.cmd s).cmds := by
  unfold putEntry; dsimp only; repeat' split
  · exact .inr rfl
  · exact .inr (by unfold dropCmd; simp only [writeEntry_cmds])
  · exact .inl rfl

theorem conclude_find (c r n) (s : State) (h : findCmd s n = none) : findCmd (conclude c r s) n = none := by
  have g : findCmd (setCmd c.id (fun x => { x with phase := .committed }) s) n = none := by
    unfold findCmd setCmd at *
    rw [List.find?_eq_none] at h ⊢
    intro y hy
    obtain ⟨z, hz, rfl⟩ := List.mem_map.1 hy
    have := h z hz
    by_cases e : (z.id == c.id) = true
    · simpa [e] using this
    · simpa [e] using this
  have k : ∀ (i : Option Nat) (u : State), findCmd u n = none → findCmd (dropCmd i u) n = none := by
    intro i u hu
    unfold findCmd dropCmd at *
    rw [List.find?_eq_none] at hu ⊢
    exact fun y hy => hu y (List.mem_filter.1 hy).1
  unfold conclude; dsimp only; split
  · exact k _ _ g
  · have e := putEntry_cmds c.pairKey ⟨completionOf (setCmd c.id (fun x => { x with phase := .committed }) s) c true
      (afterFailure c r), some c.id⟩ (setCmd c.id (fun x => { x with phase := .committed }) s)
    unfold findCmd
    rcases e with e | e <;> rw [e]
    · exact g
    · exact k _ _ g

theorem release_find (n) (s : State) (h : findCmd s n = none) : findCmd (releaseCancels s) n = none :=
  foldS_keeps (fun (t : State) => findCmd t n = none) _ (fun _ _ hs => conclude_find _ _ _ _ hs) _ _ h

end Sys2Proof.Laws
end

