-- ==== Sys2Proof/Laws/Retirement.lean ====
section
/-! SUPPORT. Laws of shared operations: islands that leave service. -/

open Sys2Proof Sys2Proof.Machine
namespace Sys2Proof.Laws

theorem isl_un {s t : State} (h : t.unreported = s.unreported) : t.islands = s.islands ∧ t.obj = s.obj ∧ t.eng = s.eng := by
  exact ⟨by have := congrArg State.islands h; exact this, by have := congrArg State.obj h; exact this, by have := congrArg State.eng h; exact this⟩

theorem leaveNow_retired (clk : ClockId) (s : State) : (look (leaveNow clk s).islands clk).retired = true
    ∧ (leaveNow clk s).obj = s.obj := by
  unfold leaveNow
  dsimp only
  split
  · rename_i h; exact ⟨h, rfl⟩
  · have hr : (look (retire clk s).islands clk).retired = true := by simp [retire, count, bump]
    split
    · exact ⟨hr, rfl⟩
    · obtain ⟨h1, h2, -⟩ := isl_un (finish_unreported (by assumption) {} (retire clk s))
      exact ⟨by rw [h1]; exact hr, h2⟩

theorem leLen' (n v : Nat) : (leBytes n v).length = n := by
  induction n generalizing v with
  | zero => rfl
  | succ n ih => simp [leBytes, ih]

theorem chan_retire' (ch : Fin 96) (s : State) : channelAtRole (logFault (channelClk ch) 5 3 0 1 (retireChannel ch s)) ch = .retired
    ∧ (look (logFault (channelClk ch) 5 3 0 1 (retireChannel ch s)).islands (channelClk ch)).retired = true ∧ True := by
  show channelAtRole (retireChannel ch s) ch = .retired ∧ (look (retireChannel ch s).islands (channelClk ch)).retired = true ∧ True
  unfold retireChannel
  dsimp only
  split
  · rename_i h
    exact ⟨by simp [channelAtRole, setChannel], h, trivial⟩
  · exact ⟨by simp [channelAtRole, setChannel, retire, count, bump], by simp [retire, count, bump], trivial⟩

theorem leaveNow_none {clk : ClockId} {s : State} (h1 : (look s.islands clk).retired = false) (h2 : (look s.islands clk).leaver = none) :
    leaveNow clk s = retire clk s := by
  unfold leaveNow; simp [h1, h2]

end Sys2Proof.Laws
end

