-- ==== Sys2Proof/Laws/Sequences.lean ====
section
/-! SUPPORT. Laws of shared operations: small laws of sequences. -/

open Sys2Proof Sys2Proof.Machine
namespace Sys2Proof.Laws

theorem textLeft_of {u : State} {e : Nat} {x : Machine.Seq} {r : Run} {c : Cmd} (h1 : find? u.obj.seqs e = some x) (h2 : x.undelivered = [])
    (h3 : x.run = some r) (h4 : findCmd u r.cmd = some c) (h5 : outputBroken u c = false) : textLeft u e = false := by
  simp [textLeft, h1, h2, h3, h4, h5]

theorem seqOf_find {s : State} {sid h e : Nat} {q : Seq} (hh : seqOf s sid h = some (e, q)) : find? s.obj.seqs e = some q := by
  unfold seqOf at hh
  cases hf : find? s.obj.seqs (handleSlot h) with
  | none => simp [hf] at hh
  | some x =>
    simp [hf] at hh
    obtain ⟨_, h1, h2⟩ := hh
    rw [← h1, ← h2]; exact hf

theorem reapVocabs_seqs (s : State) : (reapVocabs s).obj.seqs = s.obj.seqs :=
  foldS_same (fun s : State => s.obj.seqs) _ (fun s x => by split <;> rfl) _ _

end Sys2Proof.Laws
end

