-- ==== Sys2Proof/Laws/Steps.lean ====
section
/-! SUPPORT. Laws of shared operations: the commit of a step and of a pass: what each part keeps. -/

open Sys2Proof Sys2Proof.Machine
namespace Sys2Proof.Laws

/-- Two states have the same sequences but one, and the same commands and counters otherwise. -/
def keepTok (e : Nat) (s t : State) : Prop :=
  t.tenants = s.tenants ∧ ∀ q, find? s.obj.seqs e = some q → ∃ q', find? t.obj.seqs e = some q' ∧ q'.tokens = q.tokens
    ∧ q'.generated = q.generated ∧ q'.ctx = q.ctx

theorem keepTok_refl (e : Nat) (s : State) : keepTok e s s := ⟨rfl, fun q h => ⟨q, h, rfl, rfl, rfl⟩⟩

theorem keepTok_trans {e : Nat} {a b c : State} (h : keepTok e a b) (g : keepTok e b c) : keepTok e a c := by
  refine ⟨g.1.trans h.1, fun q hq => ?_⟩
  obtain ⟨q1, h1, h2, h3, h4⟩ := h.2 q hq
  obtain ⟨q2, g1, g2, g3, g4⟩ := g.2 q1 h1
  exact ⟨q2, g1, g2.trans h2, g3.trans h3, g4.trans h4⟩

theorem keepTok_obj {e : Nat} {s t : State} (h : t.obj = s.obj) (h2 : t.tenants = s.tenants) : keepTok e s t :=
  ⟨h2, fun q hq => ⟨q, by rw [h]; exact hq, rfl, rfl, rfl⟩⟩

theorem keepTok_un {e : Nat} {s t : State} (h : t.unreported = s.unreported) : keepTok e s t :=
  keepTok_obj (by have := congrArg State.obj h; exact this) (by have := congrArg State.tenants h; exact this)

theorem keepTok_set (e j : Nat) (f : Seq → Seq) (hf : ∀ q, (f q).tokens = q.tokens ∧ (f q).generated = q.generated ∧ (f q).ctx = q.ctx) (s : State) :
    keepTok e s (setSeq j f s) := by
  refine ⟨rfl, fun q hq => ?_⟩
  by_cases h : j = e
  · exact ⟨f q, by simp [setSeq, find?_adj, h, hq], hf q⟩
  · exact ⟨q, by simp [setSeq, find?_adj, h, hq], rfl, rfl, rfl⟩

theorem keepTok_enter (e j : Nat) (st : SeqState) (s : State) : keepTok e s (enter j st s) :=
  (by refine keepTok_set e j _ (fun _ => ?_) _; exact ⟨rfl, rfl, rfl⟩)

theorem keepTok_deliver (e j : Nat) (s : State) : keepTok e s (deliver j s) := by
  unfold deliver
  split
  · exact keepTok_refl ..
  · split
    · exact keepTok_refl ..
    · split
      · exact keepTok_refl ..
      · dsimp only
        refine keepTok_trans (keepTok_un (dma_unreported ..)) (keepTok_set e j _ (fun _ => ?_) _)
        exact ⟨rfl, rfl, rfl⟩

theorem keepTok_askMask (e j : Nat) (s : State) : keepTok e s (askMask j s) := by
  unfold askMask
  split
  · exact keepTok_refl ..
  · split
    · exact keepTok_refl ..
    · exact keepTok_obj rfl rfl

theorem keepTok_dropMask (e j : Nat) (s : State) : keepTok e s (dropMask j s) := keepTok_obj rfl rfl

theorem keepTok_seqDone (e j a b : Nat) (s : State) : keepTok e s (seqDone j a b s) := by
  unfold seqDone
  refine keepTok_trans (keepTok_dropMask e j s) (keepTok_trans ?_ (keepTok_enter ..))
  exact (by refine keepTok_set e j _ (fun _ => ?_) _; exact ⟨rfl, rfl, rfl⟩)

theorem keepTok_endRun (e j : Nat) (st : Status) (eff : Effect) (a b : Nat) (em : Bool) (s : State) : keepTok e s (endRun j st eff a b em s) := by
  unfold endRun
  split
  · exact keepTok_refl ..
  · dsimp only
    split
    · exact keepTok_seqDone ..
    · split
      · exact keepTok_seqDone ..
      · exact keepTok_trans (keepTok_seqDone ..) (keepTok_un (finish_unreported ..))

theorem keepTok_blockRun (e j : Nat) (s : State) : keepTok e s (blockRun j s) := by
  unfold blockRun
  split
  · exact keepTok_refl ..
  · split
    · exact keepTok_enter ..
    · split
      · refine keepTok_trans ?_ (keepTok_enter ..)
        exact (by refine keepTok_set e j _ (fun _ => ?_) _; exact ⟨rfl, rfl, rfl⟩)
      · refine keepTok_trans ?_ (keepTok_un (finish_unreported ..))
        refine keepTok_trans (keepTok_dropMask e j s) (keepTok_trans ?_ (keepTok_enter ..))
        exact (by refine keepTok_set e j _ (fun _ => ?_) _; exact ⟨rfl, rfl, rfl⟩)

theorem keepTok_stopRun (e j a b : Nat) (st : Status) (em : Bool) (s : State) : keepTok e s (stopRun j a b st em s) := by
  unfold stopRun
  dsimp only
  have h0 : keepTok e s (setSeq j (fun q => { q with undelivered := q.undelivered ++ tailText q.tail, tail := [] }) s) :=
    (by refine keepTok_set e j _ (fun _ => ?_) _; exact ⟨rfl, rfl, rfl⟩)
  have h1 := keepTok_trans h0 (keepTok_deliver e j _)
  split
  · refine keepTok_trans h1 (keepTok_trans ?_ (keepTok_blockRun ..))
    exact (by refine keepTok_set e j _ (fun _ => ?_) _; exact ⟨rfl, rfl, rfl⟩)
  · exact keepTok_trans h1 (keepTok_endRun ..)

theorem keepTok_progress (e j : Nat) (s : State) : keepTok e s (progress j s) := by
  unfold progress
  split
  · exact keepTok_refl ..
  · split
    · exact keepTok_refl ..
    · split
      · exact keepTok_refl ..
      · split
        · refine keepTok_trans (keepTok_un (post_unreported ..)) (keepTok_set e j _ (fun _ => ?_) _)
          exact ⟨rfl, rfl, rfl⟩
        · exact keepTok_refl ..

theorem keepTok_apply (e j : Nat) (d : Decision) (s : State) : keepTok e s (applyDecision j d s) := by
  unfold applyDecision
  split
  · split
    · exact keepTok_stopRun ..
    · exact (by refine keepTok_set e j _ (fun _ => ?_) _; exact ⟨rfl, rfl, rfl⟩)
  · refine keepTok_trans (keepTok_deliver e j s) (keepTok_trans (keepTok_progress e j _)
      (keepTok_trans ?_ (keepTok_trans (keepTok_enter ..) (keepTok_askMask ..))))
    exact (by refine keepTok_set e j _ (fun _ => ?_) _; exact ⟨rfl, rfl, rfl⟩)
  · dsimp only
    split
    · exact keepTok_trans (keepTok_deliver ..) (keepTok_blockRun ..)
    · exact keepTok_trans (keepTok_deliver ..) (keepTok_trans (keepTok_progress ..) (keepTok_askMask ..))

theorem look_upd {κ α : Type} [DecidableEq κ] [Inhabited α] (t : Tbl κ α) (i j : κ) (f : α → α) :
    look (upd t i f) j = if i = j then f (look t i) else look t j := by
  by_cases h : i = j
  · subst h; simp
  · simp [look_upd_other _ _ h, h]

/-- the step of a lane -/
def stepOf (c : Fin 4) (lane : Lane) (s : State) := (laneOf s c lane).step

theorem stepOf_courses {c : Fin 4} {lane : Lane} {s t : State} (h : t.eng.courses = s.eng.courses) : stepOf c lane t = stepOf c lane s := by
  unfold stepOf laneOf courseOf; rw [h]

theorem courses_un {s t : State} (h : t.unreported = s.unreported) : t.eng.courses = s.eng.courses := by
  have := congrArg (fun u : State => u.eng.courses) h
  exact this

theorem foldS_courses {β : Type} (f : State → β → State) (h : ∀ s x, (f s x).eng.courses = s.eng.courses) (l : List β) (s : State) :
    (foldS f l s).eng.courses = s.eng.courses := foldS_same (fun u : State => u.eng.courses) f h l s

theorem clearChains_courses (c : Fin 4) (lane : Lane) (s : State) : (clearChains c lane s).eng.courses = s.eng.courses := by
  apply foldS_courses; intro s x; rfl

theorem reap_courses (s : State) : (reapAdapters s).eng.courses = s.eng.courses := rfl

theorem rebindAll_courses (c : Fin 4) (s : State) : (rebindAll c s).eng.courses = s.eng.courses := by
  unfold rebindAll
  dsimp only
  split
  · rfl
  · rw [reap_courses]
    apply foldS_courses; intro s x; rfl

theorem endWalks_courses (c : Fin 4) (s : State) : (endWalks c s).eng.courses = s.eng.courses := by
  unfold endWalks
  refine (foldS_courses _ ?_ _ _).trans ?_
  · intro s x; rfl
  · rfl

theorem drainIndices_courses (c : Fin 4) (s : State) : (drainIndices c s).eng.courses = s.eng.courses := by
  unfold drainIndices
  refine (foldS_courses _ (fun s x => ?_) _ _).trans rfl
  split
  · rfl
  · split
    · rfl
    · exact courses_un (finish_unreported ..)

theorem leaveIslands_courses (c : Fin 4) (s : State) : (leaveIslands c s).eng.courses = s.eng.courses := by
  unfold leaveIslands
  refine foldS_courses _ (fun s x => ?_) _ _
  split
  · split
    · rfl
    · split
      · rfl
      · exact (courses_un (finish_unreported ..)).trans rfl
  · rfl

theorem runJobs_courses (s : State) : (runJobs s).eng.courses = s.eng.courses := rfl

theorem endJobs_courses (c : Fin 4) (lane : Lane) (s : State) : (endJobs c lane s).eng.courses = s.eng.courses := rfl

theorem startJob_courses (o : JobOwner) (c : Fin 4) (lane : Lane) (k : Nat) (s : State) :
    (startJob o c lane k s).eng.courses = s.eng.courses := by
  unfold startJob; rw [runJobs_courses]; split <;> rfl

theorem setWalk_courses (id : Nat) (f : Walk → Walk) (s : State) : (setWalk id f s).eng.courses = s.eng.courses := rfl

theorem sendHops_courses (n id : Nat) (s : State) : (sendHops n id s).eng.courses = s.eng.courses := by
  induction n generalizing s with
  | zero => rfl
  | succ n ih =>
    unfold sendHops; dsimp only; repeat' split
    all_goals first | rfl | (rw [ih]; rfl)

theorem startSearch_courses (id n : Nat) (s : State) : (startSearch id n s).eng.courses = s.eng.courses := by
  unfold startSearch; split
  · rfl
  · exact (sendHops_courses ..).trans rfl

theorem startResolve_courses (w : Walk) (s : State) : (startResolve w s).eng.courses = s.eng.courses := by
  unfold startResolve; dsimp only
  rw [setWalk_courses]
  exact foldS_courses _ (by intro s x; rfl) _ _

theorem beginWalk_courses (id : Nat) (f : State → State) (hf : ∀ s, (f s).eng.courses = s.eng.courses) (s : State) :
    (beginWalk id f s).eng.courses = s.eng.courses := by
  unfold beginWalk; split
  · rfl
  · dsimp only; split
    · exact (hf _).trans (startJob_courses ..)
    · exact startJob_courses ..

theorem addWalker_courses (q : Walk) (k n : Nat) (s : State) : (addWalker q k n s).eng.courses = s.eng.courses :=
  beginWalk_courses _ _ (startSearch_courses _ _) _

theorem startBase_courses (w : Walk) (ps : List Nat) (s : State) : (startBase w ps s).eng.courses = s.eng.courses := by
  unfold startBase; split
  · exact startResolve_courses ..
  · exact (foldS_courses _ (fun s x => addWalker_courses ..) _ _).trans (startSearch_courses ..)

theorem startWalk_courses (id : Nat) (s : State) : (startWalk id s).eng.courses = s.eng.courses := by
  unfold startWalk; split
  · rfl
  · dsimp only; split
    · exact startBase_courses ..
    · split
      · exact startBase_courses ..
      · exact startSearch_courses ..

theorem startWaiting_courses (s : State) : (startWaiting s).eng.courses = s.eng.courses := by
  unfold startWaiting
  refine foldS_courses _ (fun s w => ?_) _ _
  split
  · split
    · exact startWalk_courses ..
    · exact startSearch_courses ..
  · rfl

theorem stepOf_setLane (c : Fin 4) (lane : Lane) (f : LaneRec → LaneRec) (s : State) : (laneOf (setLane c lane f s) c lane) = f (laneOf s c lane) := by
  cases lane <;> simp [laneOf, setLane, courseOf, setCourse]

/-! ## Passes -/

/-- A state that differs only in the engines. -/
def onlyEng (s t : State) : Prop := ∃ e, t = { s with eng := e }

theorem onlyEng_refl (s : State) : onlyEng s s := ⟨s.eng, rfl⟩

theorem onlyEng_trans {a b c : State} (h : onlyEng a b) (g : onlyEng b c) : onlyEng a c := by
  obtain ⟨_, rfl⟩ := h; obtain ⟨_, rfl⟩ := g; exact ⟨_, rfl⟩

theorem onlyEng_foldS {β : Type} (f : State → β → State) (h : ∀ s x, onlyEng s (f s x)) (l : List β) (s : State) :
    onlyEng s (foldS f l s) := by
  induction l generalizing s with
  | nil => exact onlyEng_refl s
  | cons x l ih => exact onlyEng_trans (h s x) (ih (f s x))

theorem onlyEng_setArray (a : Fin 16) (f : ArrayRec → ArrayRec) (s : State) : onlyEng s (setArray a f s) := ⟨_, rfl⟩

theorem onlyEng_setLaneStep (c : Fin 4) (lane : Lane) (f : StepRec → StepRec) (s : State) : onlyEng s (setLaneStep c lane f s) := by
  cases lane <;> exact ⟨_, rfl⟩

theorem onlyEng_mapActs (c : Fin 4) (lane : Lane) (m : Nat) (f : RowAct → RowAct) (s : State) : onlyEng s (mapActs c lane m f s) :=
  onlyEng_setLaneStep ..

theorem onlyEng_addExperts (c : Fin 4) (lane : Lane) (m b : Nat) (s : State) : onlyEng s (addExperts c lane m b s) := by
  unfold addExperts; split
  · exact onlyEng_refl s
  · exact onlyEng_foldS _ (fun s p => onlyEng_setArray ..) _ _

theorem onlyEng_runRecords (c : Fin 4) (lane : Lane) (n : Nat) (s : State) : onlyEng s (runRecords c lane n s) := by
  induction n generalizing s with
  | zero => exact onlyEng_refl s
  | succ n ih =>
    unfold runRecords; split
    · exact onlyEng_refl s
    · split
      · exact onlyEng_refl s
      · dsimp only; split
        · exact onlyEng_trans (onlyEng_setLaneStep ..) (ih _)
        · split
          · refine onlyEng_trans (onlyEng_trans ?_ (onlyEng_setLaneStep ..)) (ih _)
            split
            · exact onlyEng_trans (onlyEng_mapActs ..) ⟨_, rfl⟩
            · exact onlyEng_mapActs ..
          · split
            · exact onlyEng_refl s
            · refine onlyEng_trans (onlyEng_trans ?_ (onlyEng_setLaneStep ..)) (ih _)
              split
              · exact onlyEng_trans (onlyEng_mapActs ..) (onlyEng_addExperts ..)
              · exact onlyEng_mapActs ..

theorem onlyEng_fillWindow (n : Nat) (a : Fin 16) (s : State) : onlyEng s (fillWindow n a s) := by
  induction n generalizing s with
  | zero => exact onlyEng_refl s
  | succ n ih =>
    unfold fillWindow; dsimp only; repeat' split
    all_goals first | exact onlyEng_refl s | exact onlyEng_trans (onlyEng_setArray ..) (ih _)

theorem onlyEng_turnWindow (a : Fin 16) (s : State) : onlyEng s (turnWindow a s) :=
  onlyEng_trans (onlyEng_setArray ..) (onlyEng_fillWindow ..)

/-- A step that goes on changes nothing outside the engines. -/
theorem onlyEng_advanceStep (c : Fin 4) (lane : Lane) (s : State) : onlyEng s (advanceStep c lane s) := by
  unfold advanceStep; split
  · exact onlyEng_refl s
  · exact onlyEng_trans (onlyEng_runRecords ..) (onlyEng_foldS _ (fun s a => onlyEng_turnWindow ..) _ _)

theorem onlyEng_obj {s t : State} (h : onlyEng s t) : t.obj = s.obj := by obtain ⟨_, rfl⟩ := h; rfl

theorem streamPass_onlyEng {a : Fin 16} {l : Lane} {p : Pass} {b : List (Nat × Nat)} {s t : State} {x : Grid × Cycles}
    (h : streamPass a l p b s = some (t, x)) : onlyEng s t := by
  unfold streamPass at h; split at h
  · cases h
  · dsimp only at h; split at h
    · cases h
    · simp only [Option.map_eq_some_iff, Prod.mk.injEq] at h
      obtain ⟨y, -, rfl, rfl⟩ := h
      unfold stageOperands; dsimp only; split
      · exact onlyEng_refl s
      · exact onlyEng_setArray ..

theorem setLaneStep_arrays (c : Fin 4) (lane : Lane) (f : StepRec → StepRec) (s : State) :
    (setLaneStep c lane f s).eng.arrays = s.eng.arrays := by
  cases lane <;> rfl

theorem setLaneStep_obj (c : Fin 4) (lane : Lane) (f : StepRec → StepRec) (s : State) :
    (setLaneStep c lane f s).obj = s.obj := by
  cases lane <;> rfl

theorem laneStep_set (c : Fin 4) (l : Lane) (f : StepRec → StepRec) (s : State) :
    laneStep (setLaneStep c l f s) c l = (laneStep s c l).map f := by
  cases l <;> simp [laneStep, courseOf, setLaneStep, setCourse]

theorem laneStep_courses {s t : State} (h : t.eng.courses = s.eng.courses) (c : Fin 4) (l : Lane) :
    laneStep t c l = laneStep s c l := by
  simp only [laneStep, courseOf, h]

/-- What a pass's outputs make of the rows of its step (R93 to R96, R102). -/
def passActs (s : State) (p : Pass) (g : Grid) (acts : List RowAct) : List RowAct :=
  let img := (look s.obj.models p.model).image
  let r := ((layerRecs img)[p.record]?).getD default
  let sc := drainScales img r p
  let outs := (p.rows.zipIdx).map (fun row =>
    (row.1, drainRow p sc.1 sc.2.1 sc.2.2 ((List.range (colsOf img r s p)).map (sumAt g row.2))))
  (acts.zipIdx).map (fun act => outs.foldl (fun act o => if o.1.1 = act.2 then
    ({ act.1 with outs := put act.1.outs (outKey p o.1.2) (outValues p o.2.1) }, act.2) else act) act |>.1)

/-- A pass commits: it leaves its chain and its staged operands, its outputs reach the rows of its step, the grid goes on
to the next one, and the step goes on (R100, R102). -/
theorem commitPass_spec (a : Fin 16) (l : Lane) (p : Pass) (x : Grid × Cycles) (s : State) :
    ∃ v, commitPass a l p x s = advanceStep (Fin.ofNat 4 (a.val / 4)) l v
      ∧ (laneStep v (Fin.ofNat 4 (a.val / 4)) l).map (·.acts)
        = (laneStep s (Fin.ofNat 4 (a.val / 4)) l).map (fun st => passActs s p x.1 st.acts)
      ∧ laneChain l (look v.eng.arrays a) = (laneChain l (look s.eng.arrays a)).erase p
      ∧ (∀ m, m ≠ l → laneChain m (look v.eng.arrays a) = laneChain m (look s.eng.arrays a))
      ∧ (look v.eng.arrays a).staged = (look s.eng.arrays a).staged.drop 1 ∧ (look v.eng.arrays a).attempts = 0
      ∧ (∀ b, b ≠ a → look v.eng.arrays b = look s.eng.arrays b) ∧ v.obj = s.obj := by
  refine ⟨_, rfl, ?_, ?_⟩
  · unfold chargePass
    rw [laneStep_set]
    refine (congrArg (fun o => Option.map _ (Option.map _ o)) ((laneStep_courses (t := _)
      (s := setLaneStep _ l (fun st => { st with acts := passActs s p x.1 st.acts }) s) ?_ _ _).trans (laneStep_set ..))).trans ?_
    · rfl
    · cases laneStep s (Fin.ofNat 4 (a.val / 4)) l <;> rfl
  unfold chargePass
  simp only [setLaneStep_arrays, setLaneStep_obj, countGrid, bump]
  have hf : ∀ F : ArrayRec → ArrayRec, laneChain l (F (look s.eng.arrays a)) = (laneChain l (look s.eng.arrays a)).erase p →
      (∀ m, m ≠ l → laneChain m (F (look s.eng.arrays a)) = laneChain m (look s.eng.arrays a)) →
      (F (look s.eng.arrays a)).staged = (look s.eng.arrays a).staged.drop 1 → (F (look s.eng.arrays a)).attempts = 0 →
      laneChain l (look (setArray a F s).eng.arrays a) = (laneChain l (look s.eng.arrays a)).erase p
        ∧ (∀ m, m ≠ l → laneChain m (look (setArray a F s).eng.arrays a) = laneChain m (look s.eng.arrays a))
        ∧ (look (setArray a F s).eng.arrays a).staged = (look s.eng.arrays a).staged.drop 1
        ∧ (look (setArray a F s).eng.arrays a).attempts = 0
        ∧ (∀ b, b ≠ a → look (setArray a F s).eng.arrays b = look s.eng.arrays b) ∧ (setArray a F s).obj = s.obj := by
    intro F h1 h2 h3 h4
    simp only [setArray, look_upd_self]
    exact ⟨h1, h2, h3, h4, fun b hb => look_upd_other _ _ (Ne.symm hb), trivial⟩
  refine hf _ ?_ (fun m hm => ?_) ?_ ?_
  · cases l <;> rfl
  · cases l <;> cases m <;> first | rfl | exact absurd rfl hm
  · cases l <;> rfl
  · rfl

/-! ## The release of a step -/

theorem release_spec (c : Fin 4) (lane : Lane) (s : State) : (laneOf (releaseStep c lane s) c lane).step = none ∧ (laneOf (releaseStep c lane s) c lane).lastRelease = s.now := by
  have key : ∀ t : State, t.eng.courses = (setLane c lane (fun l => { l with step := none, lastRelease := s.now }) s).eng.courses →
      (laneOf t c lane).step = none ∧ (laneOf t c lane).lastRelease = s.now := by
    intro t ht
    have : laneOf t c lane = laneOf (setLane c lane (fun l => { l with step := none, lastRelease := s.now }) s) c lane := by
      unfold laneOf courseOf; rw [ht]
    rw [this, stepOf_setLane]; exact ⟨rfl, rfl⟩
  apply key
  unfold releaseStep
  dsimp only
  rw [leaveIslands_courses, startWaiting_courses, endJobs_courses]
  cases lane
  · exact (rebindAll_courses ..).trans (clearChains_courses ..)
  · exact (drainIndices_courses ..).trans ((endWalks_courses ..).trans (clearChains_courses ..))

theorem commitG (c : Fin 4) (st : StepRec) (d : CommitData) (s : State) : ∃ u, commitGeneration c st d s = releaseStep c .generation u := ⟨_, rfl⟩

theorem commitR (c : Fin 4) (st : StepRec) (d : CommitData) (s : State) : ∃ u, commitRetrieval c st d s = releaseStep c .retrieval u := ⟨_, rfl⟩

theorem commit_core {e : Nat} {d : Decision} {f : Seq → Seq} {s : State} {q : Seq} {T : List Nat} {G : Nat} {P : Context → Prop}
    (hq : find? s.obj.seqs e = some q) (hT : (f q).tokens = T) (hG : (f q).generated = G) (hP : P (f q).ctx) :
    ∃ q', find? (applyDecision e d (setSeq e f s)).obj.seqs e = some q' ∧ q'.tokens = T ∧ q'.generated = G ∧ P q'.ctx := by
  obtain ⟨-, k⟩ := keepTok_apply e e d (setSeq e f s)
  obtain ⟨q', h1, h2, h3, h4⟩ := k (f q) (by simp [setSeq, find?_adj, hq])
  exact ⟨q', h1, h2.trans hT, h3.trans hG, by rw [h4]; exact hP⟩

theorem commit_tenants {e : Nat} {d : Decision} {f : Seq → Seq} {s : State} : (applyDecision e d (setSeq e f s)).tenants = s.tenants :=
  (keepTok_apply e e d (setSeq e f s)).1

theorem countStarved_courses (b : Building) (s : State) : (countStarved b s).eng.courses = s.eng.courses := by
  unfold countStarved
  refine (foldS_courses _ (fun s x => ?_) _ _).trans (foldS_courses _ (fun s x => ?_) _ _) <;> split <;> rfl

theorem wakeArrays_courses (s : State) : (wakeArrays s).eng.courses = s.eng.courses := by
  unfold wakeArrays; split <;> rfl

/-! ## The start of a step -/

/-- A lane keeps its deficits and the rows of its step. -/
def sameRows (c : Fin 4) (lane : Lane) (s t : State) : Prop :=
  (laneOf t c lane).deficits = (laneOf s c lane).deficits
    ∧ (laneOf t c lane).step.map (·.rows) = (laneOf s c lane).step.map (·.rows)

theorem sameRows_of {c : Fin 4} {lane : Lane} {s t : State} (h : t.eng.courses = s.eng.courses) : sameRows c lane s t := by
  unfold sameRows laneOf courseOf; rw [h]; exact ⟨rfl, rfl⟩

theorem sameRows_trans {c : Fin 4} {lane : Lane} {a b d : State} (h : sameRows c lane a b) (g : sameRows c lane b d) :
    sameRows c lane a d := ⟨g.1.trans h.1, g.2.trans h.2⟩

theorem sameRows_step (c : Fin 4) (lane : Lane) (f : StepRec → StepRec) (hf : ∀ st, (f st).rows = st.rows) (s : State) :
    sameRows c lane s (setLaneStep c lane f s) := by
  have e : ∀ o : Option StepRec, (o.map f).map (·.rows) = o.map (·.rows) := by
    intro o; cases o with
    | none => rfl
    | some x => exact congrArg some (hf x)
  cases lane <;> simp only [sameRows, laneOf, courseOf, setLaneStep, setCourse, look_upd_self] <;> exact ⟨trivial, e _⟩

theorem sameRows_mapActs (c : Fin 4) (lane : Lane) (m : Nat) (f : RowAct → RowAct) (s : State) :
    sameRows c lane s (mapActs c lane m f s) := by apply sameRows_step; intro _; rfl

theorem setArray_courses (a : Fin 16) (f : ArrayRec → ArrayRec) (s : State) : (setArray a f s).eng.courses = s.eng.courses := rfl

theorem addExperts_courses (c : Fin 4) (lane : Lane) (m b : Nat) (s : State) : (addExperts c lane m b s).eng.courses = s.eng.courses := by
  unfold addExperts; split
  · rfl
  · exact foldS_courses _ (fun _ _ => setArray_courses ..) _ _

theorem sameRows_runRecords (c : Fin 4) (lane : Lane) (n : Nat) (s : State) : sameRows c lane s (runRecords c lane n s) := by
  induction n generalizing s with
  | zero => exact sameRows_of rfl
  | succ n ih =>
    unfold runRecords; split
    · exact sameRows_of rfl
    · split
      · exact sameRows_of rfl
      · dsimp only; split
        · exact sameRows_trans (by apply sameRows_step; intro _; rfl) (ih _)
        · split
          · refine sameRows_trans (sameRows_trans ?_ (by apply sameRows_step; intro _; rfl)) (ih _)
            split
            · exact sameRows_trans (sameRows_mapActs ..) (sameRows_of rfl)
            · exact sameRows_mapActs ..
          · split
            · exact sameRows_of rfl
            · refine sameRows_trans (sameRows_trans ?_ (by apply sameRows_step; intro _; rfl)) (ih _)
              split
              · exact sameRows_trans (sameRows_mapActs ..) (sameRows_of (addExperts_courses ..))
              · exact sameRows_mapActs ..

theorem fillWindow_courses (n : Nat) (a : Fin 16) (s : State) : (fillWindow n a s).eng.courses = s.eng.courses := by
  induction n generalizing s with
  | zero => rfl
  | succ n ih =>
    unfold fillWindow; dsimp only; repeat' split
    all_goals first | rfl | exact (ih _).trans (setArray_courses ..)

theorem turnWindow_courses (a : Fin 16) (s : State) : (turnWindow a s).eng.courses = s.eng.courses :=
  (fillWindow_courses ..).trans (setArray_courses ..)

theorem sameRows_advanceStep (c : Fin 4) (lane : Lane) (s : State) : sameRows c lane s (advanceStep c lane s) := by
  unfold advanceStep; split
  · exact sameRows_of rfl
  · exact sameRows_trans (sameRows_runRecords ..) (sameRows_of (foldS_courses _ (fun s a => turnWindow_courses ..) _ _))

theorem addPasses_courses (l : Lane) (ps : List (Fin 16 × Pass)) (s : State) : (addPasses l ps s).eng.courses = s.eng.courses :=
  foldS_courses _ (fun _ _ => setArray_courses ..) _ _

theorem sameRows_startActs (c : Fin 4) (lane : Lane) (gs : List Group) (s : State) : sameRows c lane s (startActs c lane gs s) := by
  have h : ∀ ps : List (Fin 16 × Pass), (if ps.isEmpty then s else wakeArrays s).eng.courses = s.eng.courses := by
    intro ps; split
    · rfl
    · exact wakeArrays_courses s
  unfold startActs; dsimp only
  refine sameRows_trans (sameRows_trans (sameRows_of (h (stepPasses s (chainArrays s c lane) (actsOf gs)
    (firstMet ((actsOf gs).map (·.model)))))) ?_) (sameRows_advanceStep ..)
  exact sameRows_trans (by apply sameRows_step; intro _; rfl) (sameRows_of (addPasses_courses ..))

theorem foldS_now {β : Type} (f : State → β → State) (h : ∀ s x, (f s x).now = s.now) (l : List β) (s : State) :
    (foldS f l s).now = s.now := foldS_same State.now f h l s

end Sys2Proof.Laws
end

