-- ==== Sys2Proof/Laws/Tables.lean ====
section
/-! SUPPORT. Laws of shared operations: embedding tables: what opening, writing and migrating rows keep. -/

open Sys2Proof Sys2Proof.Machine
namespace Sys2Proof.Laws

theorem tableOf_find' {s : State} {sid h slot : Nat} {x : Table} (e : tableOf s sid h = some (slot, x)) : find? s.obj.tables slot = some x := by
  simp only [tableOf, Option.bind_eq_bind, Option.bind_eq_some_iff] at e
  obtain ⟨y, h1, h2⟩ := e
  split at h2
  · simp only [Option.some.injEq, Prod.mk.injEq] at h2; obtain ⟨rfl, rfl⟩ := h2; exact h1
  · cases h2

theorem runs_id {s : State} {id op : Nat} {c : Cmd} (h : Runs s id op c) : c.id = id := by
  have := h.1
  simp only [findCmd] at this
  simpa using List.find?_some this

/-- tables keep what a choice of migrations leaves alone -/
def keepsT (s u : State) : Prop :=
  ∀ slot t, find? s.obj.tables slot = some t → ∃ t', find? u.obj.tables slot = some t' ∧ t'.shardCounts = t.shardCounts ∧ t'.lastCounts = t.lastCounts
    ∧ t'.data = t.data ∧ t'.homes = t.homes ∧ t'.ending = t.ending

theorem keepsT_refl (s : State) : keepsT s s := fun _ t h => ⟨t, h, rfl, rfl, rfl, rfl, rfl⟩

theorem keepsT_trans {a b c : State} (h : keepsT a b) (g : keepsT b c) : keepsT a c := by
  intro slot t ht
  obtain ⟨t1, h1, h2, h3, h4, h5, h6⟩ := h slot t ht
  obtain ⟨t2, g1, g2, g3, g4, g5, g6⟩ := g slot t1 h1
  exact ⟨t2, g1, g2.trans h2, g3.trans h3, g4.trans h4, g5.trans h5, g6.trans h6⟩

theorem keepsT_set (slot : Nat) (f : Table → Table) (hf : ∀ t, (f t).shardCounts = t.shardCounts ∧ (f t).lastCounts = t.lastCounts ∧ (f t).data = t.data ∧ (f t).homes = t.homes ∧ (f t).ending = t.ending)
    (s : State) : keepsT s (setTable slot f s) := by
  intro j t ht
  by_cases e : slot = j
  · exact ⟨f t, by simp [setTable, find?_adj, e, ht], hf t⟩
  · exact ⟨t, by simp [setTable, find?_adj, e, ht], rfl, rfl, rfl, rfl, rfl⟩

theorem keepsT_openQueued (slot : Nat) (qs : List (Nat × Nat)) : ∀ s, keepsT s (openQueued slot qs s) := by
  induction qs with
  | nil => exact keepsT_refl
  | cons q qs ih =>
    intro s
    simp only [openQueued]
    refine keepsT_trans ?_ (ih _)
    repeat' split
    all_goals first
      | exact keepsT_refl _
      | (refine keepsT_set _ _ (fun t => ?_) _
         exact ⟨rfl, rfl, rfl, rfl, rfl⟩)

theorem keepsT_openAll (s : State) : keepsT s (openAll s) := by
  unfold openAll
  split
  · have : ∀ (l : Tbl Nat Table) (u : State), keepsT u (foldS (fun s t => openQueued t.1 t.2.queue s) l u) := by
      intro l
      induction l with
      | nil => intro u; exact keepsT_refl _
      | cons a l ih => intro u; rw [foldS_cons]; exact keepsT_trans (keepsT_openQueued _ _ _) (ih _)
    exact this _ _
  · exact keepsT_refl _

theorem openQueued_cmds (slot : Nat) (qs : List (Nat × Nat)) : ∀ s, { (openQueued slot qs s) with obj := s.obj } = s ∧ (openQueued slot qs s).eng = s.eng := by
  induction qs with
  | nil => intro s; exact ⟨rfl, rfl⟩
  | cons q qs ih =>
    intro s
    simp only [openQueued]
    have k : ∀ u : State, { u with obj := s.obj } = s → u.eng = s.eng →
        { (openQueued slot qs u) with obj := s.obj } = s ∧ (openQueued slot qs u).eng = s.eng := fun u h1 h2 =>
      ⟨(congrArg (fun v : State => { v with obj := s.obj }) (ih u).1).trans h1, (ih u).2.trans h2⟩
    split
    · exact k _ rfl rfl
    · split <;> exact k _ rfl rfl

theorem keepsT_chooseAll (ts : List (Nat × Table)) : ∀ n s, keepsT s (chooseAll ts n s) ∧ (chooseAll ts n s).eng = s.eng := by
  induction ts with
  | nil => intro n s; exact ⟨keepsT_refl _, rfl⟩
  | cons t ts ih =>
    intro n s
    obtain ⟨a, b⟩ := t
    simp only [chooseAll]
    split
    · exact ih _ _
    · obtain ⟨h1, h2⟩ := ih (chooseTable s a b n).left (setTable a (fun t => { t with queue := t.queue ++ (chooseTable s a b n).queue }) s)
      refine ⟨keepsT_trans ?_ h1, h2⟩
      refine keepsT_set _ _ (fun t => ?_) _
      exact ⟨rfl, rfl, rfl, rfl, rfl⟩

theorem openAll_eng (s : State) : (openAll s).eng = s.eng := by
  unfold openAll
  split
  · have : ∀ (l : Tbl Nat Table) (u : State), (foldS (fun s t => openQueued t.1 t.2.queue s) l u).eng = u.eng := by
      intro l
      induction l with
      | nil => intro u; rfl
      | cons a l ih => intro u; rw [foldS_cons, ih]; exact (openQueued_cmds _ _ _).2
    exact this _ _
  · rfl

theorem writeRows_count (slot cmd : Nat) (rs : List (List Byte)) : ∀ (i : Nat) (s : State) (b : Batch),
    (writeRows slot cmd i rs (s, b)).2.done + (writeRows slot cmd i rs (s, b)).2.rejected = b.done + b.rejected + rs.length := by
  induction rs with
  | nil => intro i s b; simp [writeRows]
  | cons r rs ih => intro i s b; simp only [writeRows]; split <;> rw [ih] <;> simp <;> omega

theorem finish_tables (c : Cmd) (r : Result) (s : State) : (finish c r s).obj = s.obj := by
  have := congrArg State.obj (finish_unreported c r s)
  exact this

theorem completeWriters_obj (l : List Nat) (s : State) : (completeWriters l s).obj = s.obj := by
  unfold completeWriters
  refine foldS_same State.obj _ (fun s x => ?_) _ _
  split
  · rfl
  · split
    · rfl
    · split
      · rfl
      · exact finish_tables ..

theorem endDrop_live {slot : Nat} {s : State} {t : Table} (h : find? s.obj.tables slot = some t) (h0 : t.ending = false) : endDrop slot s = s := by
  simp [endDrop, h, h0]

theorem chooseAll_now (ts : List (Nat × Table)) : ∀ n s, (chooseAll ts n s).now = s.now := by
  induction ts with
  | nil => intro n s; rfl
  | cons t ts ih => intro n s; obtain ⟨a, b⟩ := t; simp only [chooseAll]; split <;> rw [ih]; rfl

theorem writes_find (slot row : Nat) (hs : List (Nat × List Byte)) : ∀ (s : State) (t : Table), find? s.obj.tables slot = some t →
    find? (foldS (fun s h => setTable slot (writeRow row h.2) s) hs s).obj.tables slot = some (hs.foldl (fun t h => writeRow row h.2 t) t) := by
  induction hs with
  | nil => intro s t h; exact h
  | cons x hs ih => intro s t h; rw [foldS_cons]; exact ih _ _ (by simp [setTable, find?_adj, h])

theorem writeRow_keeps (row : Nat) (hs : List (Nat × List Byte)) : ∀ t : Table, (hs.foldl (fun t h => writeRow row h.2 t) t).homes = t.homes
    ∧ (hs.foldl (fun t h => writeRow row h.2 t) t).ending = t.ending := by
  induction hs with
  | nil => intro t; exact ⟨rfl, rfl⟩
  | cons x hs ih =>
    intro t
    obtain ⟨h1, h2⟩ := ih (writeRow row x.2 t)
    constructor
    · rw [List.foldl_cons, h1]; unfold writeRow; dsimp only; split <;> rfl
    · rw [List.foldl_cons, h2]; unfold writeRow; dsimp only; split <;> rfl

theorem writeRow_data (row : Nat) (hs : List (Nat × List Byte)) : ∀ t u : Table, t.data = u.data → (hs.foldl (fun t h => writeRow row h.2 t) t).data = (hs.foldl (fun t h => writeRow row h.2 t) u).data := by
  induction hs with
  | nil => intro t u h; exact h
  | cons x hs ih =>
    intro t u h
    rw [List.foldl_cons, List.foldl_cons]
    apply ih
    unfold writeRow; dsimp only; split <;> simp [h]

/-- Rows served change the counts of a table, and nothing else of it. -/
theorem serveRow_find (slot k row : Nat) (sh : Nat) (s : State) (t : Table) (h : find? s.obj.tables slot = some t) :
    ∃ t', find? (serveRow k row sh s).obj.tables slot = some t' ∧ t'.homes = t.homes ∧ t'.data = t.data
      ∧ t'.ending = t.ending ∧ t'.migrations = t.migrations := by
  by_cases e : k = slot
  · subst e
    exact ⟨{ t with shardCounts := upd t.shardCounts sh (· + 1) },
      by simp [serveRow, setTable, bump, find?_adj, h], rfl, rfl, rfl, rfl⟩
  · exact ⟨t, by simp [serveRow, setTable, bump, find?_adj, h, e], rfl, rfl, rfl, rfl⟩

theorem serveTimes_find (n slot k row : Nat) (sh : Nat) (s : State) (t : Table) (h : find? s.obj.tables slot = some t) :
    ∃ t', find? (serveTimes n k row sh s).obj.tables slot = some t' ∧ t'.homes = t.homes ∧ t'.data = t.data
      ∧ t'.ending = t.ending ∧ t'.migrations = t.migrations := by
  refine foldS_keeps (fun u => ∃ t', find? u.obj.tables slot = some t' ∧ t'.homes = t.homes ∧ t'.data = t.data
      ∧ t'.ending = t.ending ∧ t'.migrations = t.migrations) (fun s _ => serveRow k row sh s) (fun u x hu => ?_) _ _
    ⟨t, h, rfl, rfl, rfl, rfl⟩
  obtain ⟨t1, h1, h2, h3, h4, h5⟩ := hu
  obtain ⟨t2, g1, g2, g3, g4, g5⟩ := serveRow_find slot k row sh u t1 h1
  exact ⟨t2, g1, g2.trans h2, g3.trans h3, g4.trans h4, g5.trans h5⟩

/-- The homes after a copy: the row's new slot where its check matched (R327, R339). -/
def copiedHomes (s : State) (t : Table) (m : Migration) (good : Bool) : Tbl Nat (Nat × Nat) :=
  if good then
    if (m.new, m.newSlot) = (initialShard s t m.row, initialSlot s t m.row) then del t.homes m.row
    else put t.homes m.row (m.new, m.newSlot)
  else t.homes

theorem copyDone_spec (s : State) (slot : Nat) (t : Table) (m : Migration) (good : Bool) (h1 : find? s.obj.tables slot = some t)
    (h0 : t.ending = false) :
    ∃ t', find? (copyDone slot m good s).obj.tables slot = some t' ∧ t'.homes = copiedHomes s t m good
        ∧ t'.data = (m.held.foldl (fun t h => writeRow m.row h.2 t) t).data := by
  have ha : tableAt s slot = t := by simp [tableAt, look, h1]
  unfold copyDone
  simp only [completeWriters_obj, ha]
  generalize hS : (if good = true then bump (tableClk s t m.old) 0x0506 1 (bump (tableClk s t m.new) 0x0505 1
        (setTable slot (fun u => { u with homes := (if (m.new, m.newSlot) = (initialShard s t m.row, initialSlot s t m.row)
          then del t.homes m.row else put t.homes m.row (m.new, m.newSlot)) }) s))
    else bump (tableClk s t (initialShard s t m.row)) 0x0508 1 (serveTimes m.draining slot m.row m.old s)) = S
  have hSf : ∃ u, find? S.obj.tables slot = some u ∧ u.homes = copiedHomes s t m good ∧ u.data = t.data ∧ u.ending = t.ending := by
    rw [← hS]
    cases good
    · obtain ⟨u, g1, g2, g3, g4, g5⟩ := serveTimes_find m.draining slot slot m.row m.old s t h1
      exact ⟨u, g1, g2, g3, g4⟩
    · exact ⟨{ t with homes := copiedHomes s t m true },
        by simp only [if_true, bump, setTable, find?_adj, h1, Option.map_some, copiedHomes], rfl, rfl, rfl⟩
  obtain ⟨u, u1, u2, u3, u4⟩ := hSf
  have hM : ∃ t2, find? (setMigration slot m.row (fun m => { m with switched := true, held := [] }) S).obj.tables slot = some t2
      ∧ t2.homes = copiedHomes s t m good ∧ t2.data = t.data ∧ t2.ending = t.ending := by
    refine ⟨{ u with migrations := u.migrations.map (fun x => if x.row == m.row then { x with switched := true, held := [] } else x) }, ?_, u2, u3, u4⟩
    simp only [setMigration, setTable, find?_adj, if_true, u1, Option.map_some]
  obtain ⟨t2, a1, a2, a3, a4⟩ := hM
  have hW := writes_find slot m.row m.held _ _ a1
  obtain ⟨b1, b2⟩ := writeRow_keeps m.row m.held t2
  have b3 := writeRow_data m.row m.held t2 t a3
  generalize foldS (fun s h => setTable slot (writeRow m.row h.2) s) m.held (setMigration slot m.row (fun m => { m with switched := true, held := [] }) S) = W at hW
  split
  · unfold closeMigration
    obtain ⟨t', k1, k2, k3, k4, k5, k6⟩ := keepsT_openAll (setTable slot (fun t => { t with migrations := t.migrations.filter (fun x => x.row != m.row) }) W) slot
      { (m.held.foldl (fun t h => writeRow m.row h.2 t) t2) with migrations := (m.held.foldl (fun t h => writeRow m.row h.2 t) t2).migrations.filter (fun x => x.row != m.row) } (by simp [setTable, find?_adj, hW])
    have hd : t'.ending = false := by rw [k6]; exact b2.trans (a4.trans h0)
    rw [endDrop_live k1 hd]
    exact ⟨t', k1, by rw [k5]; exact b1.trans a2, by rw [k4]; exact b3⟩
  · exact ⟨_, hW, b1.trans a2, b3⟩

end Sys2Proof.Laws
end

