-- ==== Sys2Proof/Laws/Walks.lean ====
section
/-! SUPPORT. Laws of shared operations: hop messages change the network and the engines' counters only. -/

open Sys2Proof Sys2Proof.Machine
namespace Sys2Proof.Laws

/-- What a PAIR of a node says (R268, R276, R280). -/
def pairOfNode (m : HopMsg) (w : Walk) (x : Index) (e n : Nat) : HopKind :=
  let bad := (if 160 ≤ e then (nodeOf x n).badUpper else (nodeOf x n).badCode) || m.poisoned
  .pair n (if bad then 0xFFFF else hamming w.code (nodeOf x n).code) (coldNode x n) bad

theorem sendPair_eng (m : HopMsg) (w : Walk) (x : Index) (e n : Nat) (s : State) :
    ∃ c, sendPair m w x e n s = send w.id e w.tile (pairOfNode m w x e n) n m.tag { s with counters := c } := by
  unfold sendPair; dsimp only
  cases ((if 160 ≤ e then (nodeOf x n).badUpper else (nodeOf x n).badCode) && decide (e < 160)) <;> exact ⟨_, rfl⟩

theorem say_sendPairs (say : HopMsg → Nat × Nat × Nat × HopKind × Nat × Nat) (hs : say = fun m => (m.walk, m.src, m.dst, m.kind, m.node, m.tag))
    (m : HopMsg) (w : Walk) (x : Index) (e : Nat → Nat) (l : List Nat) (s : State) :
    (foldS (fun s n => sendPair m w x (e n) n s) l s).eng.net.map say = s.eng.net.map say ++ l.map (fun n =>
      (w.id, e n, w.tile, pairOfNode m w x (e n) n, n, m.tag)) := by
  subst hs
  induction l generalizing s with
  | nil => simp [foldS]
  | cons a l ih =>
    obtain ⟨c, h⟩ := sendPair_eng m w x (e a) a s
    rw [foldS_cons, ih, h]
    simp [send]

theorem say_sendFwds (say : HopMsg → Nat × Nat × Nat × HopKind × Nat × Nat) (hs : say = fun m => (m.walk, m.src, m.dst, m.kind, m.node, m.tag))
    (a b c d : Nat) (f : Nat → HopKind) (l : List Nat) (s : State) :
    (foldS (fun s e => send a b e (f e) c d s) l s).eng.net.map say = s.eng.net.map say ++ l.map (fun e => (a, b, e, f e, c, d)) := by
  subst hs
  induction l generalizing s with
  | nil => simp [foldS]
  | cons x l ih => rw [foldS_cons, ih]; simp [send]

/-- Two states differ only in the network, the walks' counters and the counts of the engines. -/
def onlyNet (s t : State) : Prop :=
  ∃ c n k, t = { s with counters := c, eng := { s.eng with net := n, nextMsg := k } }

theorem onlyNet_trans {a b c : State} (h1 : onlyNet a b) (h2 : onlyNet b c) : onlyNet a c := by
  obtain ⟨_, _, _, rfl⟩ := h1
  obtain ⟨_, _, _, rfl⟩ := h2
  exact ⟨_, _, _, rfl⟩

theorem onlyNet_eq {s t : State} (h : onlyNet s t) :
    { t with counters := s.counters, eng := { t.eng with net := s.eng.net, nextMsg := s.eng.nextMsg } } = s := by
  obtain ⟨_, _, _, rfl⟩ := h; rfl

theorem onlyNet_send (a b c : Nat) (k : HopKind) (d e : Nat) (s : State) : onlyNet s (send a b c k d e s) := ⟨_, _, _, rfl⟩

theorem onlyNet_bump (a : ClockId) (b n : Nat) (s : State) : onlyNet s (bump a b n s) := ⟨_, _, _, rfl⟩

theorem onlyNet_got (f : HopMsg → Bool) (s : State) : onlyNet s { s with eng := { s.eng with net := s.eng.net.filter f } } := ⟨_, _, _, rfl⟩

theorem foldS_congr {β : Type} (P : State → Prop) (f g : State → β → State) (h : ∀ s x, P s → f s x = g s x)
    (hk : ∀ s x, P s → P (g s x)) (l : List β) (s : State) (hs : P s) : foldS f l s = foldS g l s := by
  induction l generalizing s with
  | nil => rfl
  | cons x l ih => rw [foldS_cons, foldS_cons, h s x hs]; exact ih _ (hk s x hs)

theorem ifbump_eng (c : Prop) [Decidable c] (a : ClockId) (b n : Nat) (s : State) : (if c then bump a b n s else s).eng = s.eng := by split <;> rfl

theorem bump_eng (a : ClockId) (b n : Nat) (s : State) : (bump a b n s).eng = s.eng := rfl

/-- What homes are read from. -/
def chans (s : State) := (s.eng.channels, s.islands)

theorem sendPair_keeps (m : HopMsg) (w : Walk) (x : Index) (e n : Nat) (s : State) :
    (sendPair m w x e n s).obj = s.obj ∧ chans (sendPair m w x e n s) = chans s := by
  obtain ⟨c, h⟩ := sendPair_eng m w x e n s
  rw [h]; exact ⟨rfl, rfl⟩

theorem homeEngine_congr {s t : State} (h : chans t = chans s) (x : Index) (n : Nat) : homeEngine t x n = homeEngine s x n := by
  have g1 : t.eng.channels = s.eng.channels := congrArg Prod.fst h
  have g2 : t.islands = s.islands := congrArg Prod.snd h
  have h2 : ∀ p, channelAt t p = channelAt s p := fun p => by simp [channelAt, g1]
  have h3 : positions t = positions s := by simp [positions, g1, g2]
  simp [homeEngine, shardChannel, shards, h3, funext h2]

theorem onlyNet_foldS {β : Type} (f : State → β → State) (h : ∀ s x, onlyNet s (f s x)) (l : List β) (s : State) :
    onlyNet s (foldS f l s) := by
  induction l generalizing s with
  | nil => exact ⟨_, _, _, rfl⟩
  | cons x l ih => exact onlyNet_trans (h s x) (ih (f s x))

theorem onlyNet_sendPair (m : HopMsg) (w : Walk) (x : Index) (e n : Nat) (s : State) : onlyNet s (sendPair m w x e n s) := by
  obtain ⟨c, h⟩ := sendPair_eng m w x e n s
  rw [h]; exact ⟨_, _, _, rfl⟩

theorem fwd_eq (m : HopMsg) (w : Walk) (d : Nat) (ns : List Nat) (s : State) :
    foldS (fun s n => sendPair m w (indexAt s w.index) d n s) ns s
      = foldS (fun u n => sendPair m w (indexAt s w.index) d n u) ns s :=
  foldS_congr (fun u => u.obj = s.obj) _ _ (fun u n hu => by simp only [indexAt, hu])
    (fun u n hu => ((sendPair_keeps ..).1).trans hu) _ _ rfl

theorem near_eq (m : HopMsg) (w : Walk) (x : Index) (v s : State) (hv : chans v = chans s) (ns : List Nat) :
    foldS (fun s n => sendPair m w x (homeEngine s x n) n s) ns v
      = foldS (fun u n => sendPair m w x (homeEngine s x n) n u) ns v :=
  foldS_congr (fun u => chans u = chans s) _ _ (fun u n hu => by simp only [homeEngine_congr hu])
    (fun u n hu => ((sendPair_keeps ..).2).trans hu) _ _ hv

theorem near_chan (m : HopMsg) (w : Walk) (x : Index) (v s : State) (hv : chans v = chans s) (ns : List Nat) :
    chans (foldS (fun u n => sendPair m w x (homeEngine s x n) n u) ns v) = chans s :=
  (foldS_same chans _ (fun _ _ => (sendPair_keeps ..).2) _ _).trans hv

theorem far_eq (m : HopMsg) (w : Walk) (x : Index) (v s : State) (hv : chans v = chans s) (far es : List Nat) :
    foldS (fun s e => send w.id m.dst e (.fwd (far.filter (fun n => homeEngine s x n == e))) m.node m.tag s) es v
      = foldS (fun u e => send w.id m.dst e (.fwd (far.filter (fun n => homeEngine s x n == e))) m.node m.tag u) es v :=
  foldS_congr (fun u => chans u = chans s)
    (fun s e => send w.id m.dst e (.fwd (far.filter (fun n => homeEngine s x n == e))) m.node m.tag s)
    (fun u e => send w.id m.dst e (.fwd (far.filter (fun n => homeEngine s x n == e))) m.node m.tag u)
    (fun u n hu => by simp only [homeEngine_congr hu]) (fun u n hu => hu) _ _ hv

theorem spread_eq (m : HopMsg) (w : Walk) (x : Index) (v s : State) (hv : chans v = chans s) (ns : List Nat) :
    spreadNeighbours m w x ns v =
      foldS (fun u e => send w.id m.dst e (.fwd ((ns.filter (fun n => !samePackage (homeEngine s x n) m.dst)).filter (fun n => homeEngine s x n == e))) m.node m.tag u)
        (firstMet ((ns.filter (fun n => !samePackage (homeEngine s x n) m.dst)).map (homeEngine s x)))
        (foldS (fun u n => sendPair m w x (homeEngine s x n) n u) (ns.filter (fun n => samePackage (homeEngine s x n) m.dst)) v) := by
  unfold spreadNeighbours
  dsimp only
  rw [near_eq m w x v s hv]
  rw [far_eq m w x _ s (near_chan m w x v s hv _)]
  have e : ∀ u : State, chans u = chans s → homeEngine u x = homeEngine s x := fun u hu => funext (homeEngine_congr hu x)
  simp only [e _ hv, e _ (near_chan m w x v s hv _)]

theorem onlyNet_spread (m : HopMsg) (w : Walk) (x : Index) (ns : List Nat) (s : State) : onlyNet s (spreadNeighbours m w x ns s) := by
  unfold spreadNeighbours
  dsimp only
  refine onlyNet_trans (onlyNet_foldS _ (fun s x => ?_) _ _) (onlyNet_foldS _ (fun s x => onlyNet_send ..) _ _)
  exact onlyNet_sendPair ..

theorem onlyNet_serveHop (m : HopMsg) (w : Walk) (lost : Bool) (s : State) : onlyNet s (serveHop m w lost s) := by
  unfold serveHop
  dsimp only
  split
  · refine onlyNet_trans ?_ (onlyNet_foldS _ (fun s x => onlyNet_sendPair ..) _ _)
    split <;> exact ⟨_, _, _, rfl⟩
  · refine onlyNet_trans ?_ (onlyNet_spread ..)
    split <;> exact ⟨_, _, _, rfl⟩

theorem onlyNet_ite (c : Prop) [Decidable c] (a : ClockId) (b n : Nat) (s : State) : onlyNet s (if c then bump a b n s else s) := by
  split <;> exact ⟨_, _, _, rfl⟩

theorem onlyNet_serveResolve (m : HopMsg) (w : Walk) (lost : Bool) (s : State) : onlyNet s (serveResolve m w lost s) := by
  unfold serveResolve
  exact onlyNet_trans (onlyNet_trans (onlyNet_trans (onlyNet_bump ..) (onlyNet_ite ..)) (onlyNet_ite ..)) (onlyNet_send ..)

/-! ## What a delivered message does (R31, R34, R38) -/

/-- The state with a message received from the network, its poison counted. -/
def received (m : HopMsg) (s : State) : State :=
  countPoison m { s with eng := { s.eng with net := s.eng.net.filter (·.id != m.id) } }

@[simp] theorem safe_tag (m : HopMsg) : m.safe.tag = m.tag := by unfold HopMsg.safe; split <;> [rfl; (split <;> rfl)]

theorem received_eng (m : HopMsg) (s : State) : (received m s).eng = { s.eng with net := s.eng.net.filter (·.id != m.id) } := by
  unfold received countPoison; split <;> rfl

theorem received_obj (m : HopMsg) (s : State) : (received m s).obj = s.obj := by unfold received countPoison; split <;> rfl

theorem onlyNet_received (m : HopMsg) (s : State) : onlyNet s (received m s) := by
  unfold received countPoison; split <;> exact ⟨_, _, _, rfl⟩

theorem chans_received (m : HopMsg) (s : State) : chans (received m s) = chans s := by unfold received countPoison; split <;> rfl

/-- Of a message that may arrive and whose walk is there: `receive` is its act, or the end of its query. -/
theorem receive_eq {s : State} {m : HopMsg} {w : Walk} {isKind : HopKind → Bool}
    (hf : s.eng.net.find? (·.id == m.id) = some m) (hk : isKind m.kind = true) (ha : arrives s m = true)
    (hw : walkOf s m.walk = some w) (act : HopMsg → Walk → State → State) :
    receive m.id isKind act s = runJobs (if pathUp s (endpointCourse m.src) (endpointCourse m.dst) then
      act m.safe w (received m s) else stopQuery .resourceRetired w (received m s)) := by
  have h1 : ∀ l : List HopMsg, l.find? (·.id == m.id) = some m → l.find? (fun y => y.id == m.id && isKind y.kind) = some m := by
    intro l
    induction l with
    | nil => intro h; cases h
    | cons a l ih =>
      intro h
      by_cases e : a.id = m.id
      · simp [List.find?, e] at h; subst h; simp [List.find?, hk]
      · have e' : (a.id == m.id) = false := by simpa using e
        simp only [List.find?, e'] at h
        simp only [List.find?, e', Bool.false_and]
        exact ih h
  have h2 : walkOf (received m s) m.walk = some w := by
    unfold walkOf at hw ⊢; rw [received_eng]; exact hw
  have h3 : ∀ a b, pathUp (received m s) a b = pathUp s a b := by
    intro a b; unfold received countPoison; split <;> rfl
  simp only [receive, h1 _ hf, ha, Bool.not_true, Bool.false_eq_true, if_false]
  show (match walkOf (received m s) m.walk with
    | none => received m s
    | some w => if pathUp (received m s) _ _ then runJobs (act m.safe w (received m s)) else runJobs (stopQuery .resourceRetired w (received m s))) = _
  rw [h2, h3]
  dsimp only
  split <;> rfl

theorem deliver_eq {s : State} {m : HopMsg} {w : Walk} {isKind : HopKind → Bool}
    (hf : s.eng.net.find? (·.id == m.id) = some m) (hk : isKind m.kind = true) (ha : arrives s m = true)
    (hw : walkOf s m.walk = some w) (act : HopMsg → Walk → State → State) :
    deliverMsg m.id isKind act s = startWaiting (crossStage w.course (runJobs
      (if pathUp s (endpointCourse m.src) (endpointCourse m.dst) then
        act m.safe w (received m s) else stopQuery .resourceRetired w (received m s)))) := by
  simp only [deliverMsg, afterMessage, hf, hw, receive_eq hf hk ha hw act]

theorem say_serveResolve (say : HopMsg → Nat × Nat × Nat × HopKind × Nat × Nat) (hs : say = fun m => (m.walk, m.src, m.dst, m.kind, m.node, m.tag))
    (m : HopMsg) (w : Walk) (lost : Bool) (s : State) :
    let x := indexAt s w.index
    let v := nodeOf x m.node
    (serveResolve m w lost s).eng.net.map say = s.eng.net.map say ++ [(w.id, m.dst, w.tile, HopKind.entry
      (if (lost = true ∨ v.badIdent = true) ∨ v.state ≠ .live ∨ w.epoch < v.epoch then nullIdent else v.ident)
      (hamming w.code v.code) (coldNode x m.node), m.node, 0)] := by
  subst hs
  simp only [serveResolve, send, ifbump_eng, bump_eng, Bool.or_eq_true, decide_eq_true_eq, or_assoc, List.map_append, List.map_cons, List.map_nil]

end Sys2Proof.Laws
end

