-- ==== Sys2Proof/Machine/Package.lean ====
section
/-! DEFINITION. The ball field of the package (R13, R523 to R527) and the levels of the sideband outputs (R532, R533). -/

namespace Sys2Proof.Machine

/-! ## Balls -/

/-- The board supplies (R529). -/
inductive Rail where
  | vinCmp | vinMem | vddqLp | vinIo | vphPcie | vccqFl | vddAon | vdd1v8
  deriving DecidableEq, Repr

/-- What a ball carries: a signal of an LPDDR6 channel or package, of a port, of a flash channel or of the sideband. -/
inductive Ball where
  | gnd | nc
  | rail (r : Rail)
  | lp (channel : Nat) (signal : String)
  | lpk (package : Nat) (signal : String)
  | pe (port : Nat) (signal : String) (lane : Nat)
  | fl (channel : Nat) (signal : String)
  | side (pin : String)
  deriving DecidableEq, Repr

/-- The channel cell sequence (R525); the empty string is GND. -/
def channelCells : List String :=
  ["", "DQA0", "DQA1", "", "DQA2", "DQA3", "DQA4", "DQA5", "", "RDQSA_T", "RDQSA_C", "", "DQA6", "DQA7", "DQA8", "DQA9",
   "DQA10", "DQA11", "", "VDDQ_LP", "WCKA_T", "WCKA_C", "", "CAA0", "CAA1", "CAA2", "CAA3", "CSA", "", "CK_T", "CK_C", "",
   "CSB", "CAB0", "CAB1", "CAB2"]
  ++ ["CAB3", "", "WCKB_T", "WCKB_C", "VDDQ_LP", "", "DQB0", "DQB1", "DQB2", "DQB3", "DQB4", "DQB5", "", "RDQSB_T", "RDQSB_C", "",
   "DQB6", "DQB7", "DQB8", "DQB9", "DQB10", "DQB11", "", "", "", "", "", ""]

/-- A cell of a channel, by its entry from 0. -/
def channelCell (ch e : Nat) : Ball :=
  match (channelCells[e]?).getD "" with
  | "" => .gnd
  | "VDDQ_LP" => .rail .vddqLp
  | n => .lp ch n

/-- A ball of a top or bottom group at relative row ρ and column κ (R524). -/
def wideGroup (p rho kappa : Nat) : Ball :=
  if rho ≤ 16 then channelCell (4 * p + (kappa - 1) / 4) ((rho - 1) * 4 + (kappa - 1) % 4)
  else if rho = 17 then (if kappa = 8 then .lpk p "ZQ" else if kappa = 9 then .lpk p "RESET_N" else .gnd)
  else if 2 ≤ kappa ∧ kappa ≤ 15 then .rail .vinMem else .gnd

/-- A ball of a left or right group. -/
def sideGroup (p rho kappa : Nat) : Ball :=
  if rho ≤ 9 then channelCell (4 * p + (kappa - 1) / 7) ((rho - 1) * 7 + (kappa - 1) % 7)
  else if kappa = 14 then .lpk p "ZQ" else if kappa = 15 then .lpk p "RESET_N"
  else if kappa % 2 = 0 ∧ kappa ≤ 26 then .rail .vinMem else .gnd

/-- The packages of the groups, left to right or top to bottom (R523). -/
def topGroups : List Nat := [0, 1, 2, 8, 7, 6]
def bottomGroups : List Nat := [12, 13, 14, 20, 19, 18]
def leftGroups : List Nat := [3, 4, 5, 17, 16, 15]
def rightGroups : List Nat := [9, 10, 11, 23, 22, 21]

/-- The relative row of a side group, from its row nearest its course's corner: the top row for courses 0 and 1, the bottom
row for courses 2 and 3 (R524). -/
def sideRho (p row : Nat) : Nat := if p / 6 < 2 then (row - 19) % 10 + 1 else 10 - (row - 19) % 10

/-- A ball of one of a port's two rows (R526). -/
def portBall (port line col : Nat) : Ball :=
  let lane := (col - 29) / 2
  if col ≤ 60 then
    .pe port (match line, (col - 29) % 2 with | 0, 0 => "TXP" | 0, _ => "TXN" | _, 0 => "RXP" | _, _ => "RXN") lane
  else if line = 0 then
    match col with
    | 62 => .pe port "REFCLK_P" 0 | 63 => .pe port "REFCLK_N" 0 | 65 => .pe port "PERST_N" 0 | 66 => .pe port "CLKREQ_N" 0
    | 67 => .pe port "CAL" 0 | _ => .gnd
  else .gnd

/-- The signals of a flash channel's 4 rows of 5 (R526). -/
def flashCells : List String :=
  ["DQ0", "DQ1", "DQ2", "DQ3", "DQS_T", "DQ4", "DQ5", "DQ6", "DQ7", "DQS_C", "RE_T", "RE_C", "CLE", "ALE", "WE_N", "WP_N",
   "CE0_N", "CE1_N", "CE2_N", "CE3_N"]

/-- The sideband balls of row 48 from column 29 on (R533). -/
def sidePins : List String :=
  ["IREF_P", "IREF_N", "PWR_OK", "SYS_RESET_N", "PFAIL_N", "FAULT_N", "ALERT_N", "READY", "SMB_SCL", "SMB_SDA", "PORT0_UP",
   "PORT1_UP", "PORT0_PRI", "PORT1_PRI", "COMPAT", "MGMT_PRIMARY", "BOOT_SLOT_PREF", "SMB_ADDR0", "SMB_ADDR1"]

/-- A ball of the supplies and sideband region (R527). -/
def supplyBall (row col : Nat) : Ball :=
  if row = 25 ∨ row = 72 then .rail (if col ≤ 48 then .vphPcie else .vccqFl)
  else if row = 26 ∨ row = 71 then .rail .vinIo
  else if row = 48 ∨ row = 49 then
    if 58 ≤ col then .rail .vdd1v8 else if 48 ≤ col then .rail .vddAon
    else if row = 48 then .side ((sidePins[col - 29]?).getD "")
    else if col = 29 then .side "SMB_ADDR2" else .nc
  else if (row + col) % 8 = 0 then .gnd else .rail .vinCmp

/-- The ball at a row and a column, each from 1 to 96 (R13, R523). -/
def ballAt (row col : Nat) : Ball :=
  if row ≤ 18 then wideGroup ((topGroups[(col - 1) / 16]?).getD 0) row ((col - 1) % 16 + 1)
  else if 79 ≤ row then wideGroup ((bottomGroups[(col - 1) / 16]?).getD 0) (97 - row) ((col - 1) % 16 + 1)
  else if col ≤ 28 then
    let p := (leftGroups[(row - 19) / 10]?).getD 0
    sideGroup p (sideRho p row) col
  else if 69 ≤ col then
    let p := (rightGroups[(row - 19) / 10]?).getD 0
    sideGroup p (sideRho p row) (97 - col)
  else if row ≤ 20 then portBall 0 (row - 19) col
  else if row ≤ 24 then .fl ((col - 29) / 5) ((flashCells[(row - 21) * 5 + (col - 29) % 5]?).getD "")
  else if 77 ≤ row then portBall 1 (78 - row) col
  else if 73 ≤ row then .fl (8 + (col - 29) / 5) ((flashCells[(76 - row) * 5 + (col - 29) % 5]?).getD "")
  else supplyBall row col

/-! ## Levels of the sideband outputs (R532, R533) -/

/-- The outputs of the sideband, and CLKREQ_N of a port. -/
inductive OutPin where
  | faultN | alertN | ready | portUp (p : Fin 2) | portPri (p : Fin 2) | clkreqN (p : Fin 2)
  deriving DecidableEq, Repr

/-- Whether the device drives its outputs: powered, with PWR_OK and SYS_RESET_N high. -/
def drives (s : State) : Bool := s.dev.stage != .off && s.pins.pwrOk && s.pins.sysResetN

/-- The level that the resistor gives while the device does not drive. -/
def restingLevel : OutPin → Bool
  | .faultN | .alertN | .clkreqN _ => true
  | .ready | .portUp _ | .portPri _ => false

/-- The level of an output, true for high. -/
def pinLevel (s : State) (p : OutPin) : Bool :=
  if drives s then match p with
    | .faultN => !s.pins.fault
    | .alertN => !s.pins.alert
    | .ready => s.dev.ready
    | .portUp n => (look s.host.ports n).link
    | .portPri n => s.host.primary == n
    | .clkreqN _ => false
  else restingLevel p

end Sys2Proof.Machine
end

