-- ==== Sys2Proof/WellFormed.lean ====
section
/-! DEFINITION. Which commands can reach the block: the checks on a command's operands, each with a name. An ill-formed
command names something that the spec gives no device (a function above 255, an island that does not exist, a logical
block of another size); exec gives it a meaning all the same, which changes nothing or treats the operand as absent. -/

namespace Sys2Proof

/-- The checks, by what they bound. -/
inductive Check where
  /-- a PCI Express function: PF0 is 0, its virtual functions are 1 to 255, PF1 is 256 (R42, R410) -/
  | function
  /-- a ring pair: 64 of PF0, 16 of a virtual function (R42) -/
  | ring
  /-- a register offset: of a 32-bit or a 64-bit aligned access (R42) -/
  | offset
  /-- the size fields and the vector of PF_RING_CFG (R45) -/
  | ringConfig
  /-- the slots of a command: 1 to 64 of 64 bytes (R53) -/
  | slots
  /-- scatter-gather lists of whole entries (R57) -/
  | lists
  /-- a clock identifier that names an island (R23, R26) -/
  | island
  /-- the class of a fault report, 1 to 9 (R462) -/
  | faultClass
  /-- logical blocks of 4,096 bytes, at most 512 of them (R393, R410) -/
  | blocks
  /-- a queue identifier, 0 to 128 (R410) -/
  | queue
  /-- a bank of a staging buffer, 0 to 127 (R81) -/
  | bank
  /-- flash dies of a channel (R388, R482) -/
  | die
  /-- what a board can carry: package densities, rate codes, die rows (R346, R351, R388, R389) -/
  | board
  deriving DecidableEq, Repr

/-- Whether a 16-bit clock identifier names an island (R23, R26); 0xFF00 is the management root. -/
def namesIsland (clk : ClockId) : Bool :=
  let cls := clk.toNat / 4096
  let course := clk.toNat / 256 % 16
  let i := clk.toNat % 256
  match cls with
  | 0 => course < 4 && i < 4
  | 1 => course < 4 && i < 16
  | 2 | 3 => course < 4 && i = 0
  | 4 => course < 4 && i < 24
  | 8 => course = 15 && i < 2
  | 9 => course = 15 && i < 16
  | _ => clk = 0xFF00

def need (ok : Bool) (c : Check) : List Check := if ok then [] else [c]

def functionOk (fn : Nat) : List Check := need (fn ≤ 256) .function

/-- A ring pair of PF0 or of a virtual function. -/
def pairFaults (fn ring : Nat) : List Check :=
  need (fn < 256) .function ++ need (ring < (if fn = 0 then 64 else 16)) .ring

def blocksFit (bs : List Block) : Bool := bs.length ≤ 512 && bs.all (fun b => b.length == 4096)

def listsOk (ls : List SgData) : Bool := ls.all (fun l => l.lists.all (fun b => b.length % 16 == 0))

def slotsOk (b : Option (List Byte)) : Bool :=
  match b with
  | none => true
  | some b => b.length % 64 == 0 && 64 ≤ b.length && b.length ≤ 4096

def boardOk (b : Board) : Bool :=
  b.dieRows ≤ 16 && b.rates.all (fun r => r.2 ≤ 4) && b.flashRates.all (fun r => r.2 ≤ 6)

/-- The checks that a command fails. -/
def Instr.faults : Instr → List Check
  | .registerWrite _ fn off wide _ => functionOk fn ++ need (off % (if wide then 8 else 4) = 0) .offset
  | .functionEnable _ fn _ | .quiesce _ fn _ | .pfEventClear _ fn _ => need (fn < 256) .function
  | .ringEnable _ fn ring sq cq v => pairFaults fn ring ++ need (sq < 32 && cq < 32 && v < 4096) .ringConfig
  | .ringDisable _ fn ring | .ringIdle _ fn ring | .pfSqTail _ fn ring _ | .pfCqHead _ fn ring _
  | .interruptCoalesceTimer _ fn ring => pairFaults fn ring
  | .commandFetch _ fn ring slots lists => pairFaults fn ring ++ need (slotsOk slots) .slots ++ need (listsOk lists) .lists
  | .passCommit _ busy => need (busy.all (fun x => x.2 < 128)) .bank
  | .islandFirmwareLoaded clk _ | .sramPatrol clk _ _ | .heartbeatMiss clk | .thermalReport clk _ | .throttlePause clk
  | .throttleResume clk =>
    need (namesIsland clk) .island
  | .islandFaultReport clk r => need (namesIsland clk) .island ++ need (1 ≤ r.cls && r.cls ≤ 9) .faultClass
  | .startupReady failed => need (failed.all namesIsland) .island
  | .nvmeDeleteIoSq _ _ q | .nvmeDeleteIoCq _ _ q | .nvmeCreateIoCq _ _ q _ _ | .nvmeSqTailDoorbell _ q _
  | .nvmeCqHeadDoorbell _ q _ => need (q ≤ 128) .queue
  | .nvmeCreateIoSq _ _ q _ cq => need (q ≤ 128 && cq ≤ 128) .queue
  | .nvmeWrite _ sq _ _ _ bs _ => need (sq ≤ 128) .queue ++ need (blocksFit bs) .blocks
  | .nvmeFlush _ sq _ _ | .nvmeRead _ sq _ _ _ _ | .writeZeroes _ sq _ _ _ _ | .datasetManagement _ sq _ _ _
  | .nvmeVerify _ sq _ _ _ _ => need (sq ≤ 128) .queue
  | .flashEraseDone _ failed => need (failed.all (· < 256)) .die
  | .powerOn b => need (boardOk b) .board
  | _ => []

/-- A command that can reach the block. -/
def Instr.wf (c : Instr) : Bool := c.faults.isEmpty

end Sys2Proof
end

