-- ==== Sys2Proof/Tests/Slice0.lean ====
section
/-! SUPPORT. Tests of the model. Expected results come from the worked examples and tables of spec/, from a published
test vector, or from hand calculation; the witnesses show states and operands that meet the hypotheses of the
statements of Certificates/Slice0/Obligations.lean. -/

open Sys2Proof Sys2Proof.Machine

namespace Sys2Proof.Tests

set_option maxRecDepth 1000000
set_option Elab.async false

/-! ## Small states -/


/-- A header of the current layout. -/
def hdrOf (op : Nat) (sid handle imm tenant : Nat) : Header :=
  { opcode := BitVec.ofNat 16 op, layout := 2, tenant := BitVec.ofNat 16 tenant, commandId := 7
    sid := BitVec.ofNat 32 sid, handle := BitVec.ofNat 64 handle, imm := BitVec.ofNat 64 imm }

/-- A running command numbered 0, of session 1 and tenant 0 on PF0 of port 0. -/
def cmdW (op : Nat) (params : List Byte := []) (handle imm : Nat := 0) : Cmd :=
  { id := 0, port := 0, fn := 0, ring := 0, hdr := hdrOf op 1 handle imm 0, params, phase := .running }

/-- A device in service with both links up, whose only command is the one given. -/
def atWork (c : Cmd) : State :=
  { State.reset with
    cmds := [c], nextCmd := 1
    dev := { stage := .service, ready := true }
    host := { ports := [(0, { link := true, perst := false }), (1, { link := true, perst := false })] } }

/-- The same without a command. -/
def idle : State := { atWork (cmdW 0) with cmds := [] }

/-- An enabled pair 0 of PF0 of port 0. -/
def pairW : Pair := { enable := true, idle := false, sqLog2 := 4, cqLog2 := 4, vector := 1, tail := 1 }

def ringW : State := setPair (0, 0, 0) pairW
  { idle with host := { idle.host with funcs := [((0, 0), { enable := true })] } }

/-- A NOP of session 1 in one slot. -/
def slotW : List Byte := [0, 0, 0, 2, 0, 0, 0, 0, 7, 0, 0, 0, 1, 0, 0, 0] ++ List.replicate 48 0

def openW : Session := { tenant := 0, port := 0, state := .opened }

def modelW : Model := { reuse := 1, session := 1, tenant := 0 }

/-- A layer record of 64 bytes (R128): its code, ROLE and N, with K 32 and no expert. -/
def layerW (op role : Byte) (n : Nat := 32) : List Byte :=
  [op, 0, 0, 0, 0, 0, 255, 255, 32, 0, 0, 0] ++ leBytes 4 n ++ List.replicate 32 0 ++ [role] ++ List.replicate 15 0

/-- The records of the embedding and one block (R118). -/
def blockW : List Byte :=
  layerW 0x10 255 ++ layerW 1 0 ++ layerW 1 1 ++ layerW 1 2 ++ layerW 0x12 255 ++ layerW 2 255 ++ layerW 0x14 255 ++ layerW 3 255 ++
    layerW 1 3 ++ layerW 0x16 255 ++ layerW 0x13 255 ++ layerW 1 5 ++ layerW 0x15 255 ++ layerW 1 6 ++ layerW 0x16 255 ++ layerW 0x13 255

/-- The header of an image of one block (R124, R125), its check values as R124 gives them. -/
def headW (kind shape : Byte) (length records : Nat) (header image : List Byte) : List Byte :=
  [70, 86, 77, 73, 3, 0, kind, shape] ++ leBytes 8 length ++ [52, 18] ++ List.replicate 6 0 ++
    [1, 0, 0, 1, 1, 0, 1, 0, 64, 0, 0, 0, 32, 0, 0, 0, 16, 0, 0, 0, 64] ++ List.replicate 17 0 ++ [1] ++
    List.replicate 7 0 ++ [128, 63] ++ List.replicate 8 0 ++ [128] ++ List.replicate 7 0 ++
    leBytes 4 records ++ header ++ List.replicate 8 0 ++ image ++ List.replicate 16 0

/-- A decoder image of one block. -/
def decoderW : List Byte :=
  headW 2 0 1280 18 [163, 138, 26, 8] [64, 213, 220, 38, 152, 106, 167, 126] ++ blockW ++ layerW 0x13 255 ++ layerW 1 8

/-- An encoder image of one block with a code head. -/
def encoderW : List Byte :=
  headW 0 8 1344 19 [230, 15, 138, 161] [251, 136, 33, 130, 224, 32, 194, 21] ++ blockW ++ layerW 0x18 255 ++
    layerW 1 9 256 ++ layerW 0x19 255

/-- An adapter image for both of them (R127, R545). -/
def adapterW : List Byte :=
  [70, 86, 77, 73, 3, 0, 3, 0, 0, 1] ++ List.replicate 6 0 ++ [52, 18] ++ List.replicate 6 0 ++ [32, 0, 1] ++
    List.replicate 53 0 ++ [128] ++ List.replicate 7 0 ++ [2, 0, 0, 0, 22, 5, 218, 216] ++
    List.replicate 8 0 ++ [51, 202, 170, 53, 101, 91, 74, 19] ++ List.replicate 16 0 ++
    [1, 0, 0, 0, 0, 0, 255, 255, 32, 0, 0, 0, 32] ++ List.replicate 51 0 ++
    [5, 0, 0, 0, 0, 0, 255, 255, 32, 0, 0, 0, 32] ++ List.replicate 51 0

def quotasW : Quotas :=
  { sequences := 16, adapters := 16, indices := 16, tables := 16, lpddr6 := 2 ^ 40, flash := 2 ^ 40 }

/-- The same with an ACTIVE tenant 0 with quotas, and a channel at the first position of each course. -/
def rich (c : Cmd) : State :=
  { atWork c with
    sessions := [(1, openW)]
    tenants := [(0, { state := .active, quotas := some quotasW })]
    eng := { channels := [(0, { position := some 0 }), (24, { position := some 24 }), (48, { position := some 48 }),
      (72, { position := some 72 })] } }

/-- A sequence of session 1 on model 0 in entry 0. -/
def seqW : Seq := { reuse := 1, session := 1, tenant := 0, course := 0, model := 0, adapter := some (5, 1) }

/-- A device with that sequence, its model and its adapter. -/
def withSeq (c : Cmd) (q : Seq) : State :=
  { rich c with
    obj := { models := [(0, { modelW with image := decoderW })], adapters := [((0, 5, 1), {})]
             adapterTop := [((0, 5), 1)], vocabs := [(0, { state := .ready })], seqs := [(0, q)] } }

/-- A device with one model in slot 0. -/
def withModel (c : Cmd) (m : Model) : State := { rich c with obj := { models := [(0, m)] } }


/-- A command of course 0 whose row is in the retrieval step of its lane, the cross-encoder stage built. -/
def laneW (op : Nat) (params : List Byte) (handle : Nat) : Cmd := { cmdW op params handle with course := some 0 }

def inLane (c : Cmd) : State :=
  let k : Course := { retrieval := { step := some { rows := [{ who := 0 }], crossed := true } } }
  { rich c with
    obj := { models := [(0, { modelW with image := encoderW })]
             indices := [(0, { reuse := 1, session := 1, tenant := 0, config := [] })]
             vocabs := [(8, { state := .ready })] }
    eng := { courses := [(0, k)] } }



def cfgW (mode : Nat) : List Byte :=
  [10, 0, 0, 0, 0, 0, 0, 0, 1, 8, 1, 10, 32, 0, 1, 0, 64, 0, 0, 0] ++ (if mode = 1 then [1, 0, 20, 0, 0, 0, 0, 0] else List.replicate 8 0)
    ++ [1] ++ List.replicate 35 0
def idxW : Index := { reuse := 1, session := 1, tenant := 0, config := cfgW 0, epoch := 1 }
def withIndex (c : Cmd) (x : Index) : State := { rich c with obj := { indices := [(0, x)] } }
def recW (n : Byte) : List Byte := [n] ++ List.replicate 47 0



/-! ## Ill-formed commands, one for each check -/

theorem test_wf_function : Instr.faults (.functionEnable 0 256 true) = [.function] := by decide
theorem test_wf_ring : Instr.faults (.ringDisable 0 1 16) = [.ring] := by decide
theorem test_wf_offset : Instr.faults (.registerWrite 0 0 4 true 0) = [.offset] := by decide
theorem test_wf_ring_config : Instr.faults (.ringEnable 0 0 0 32 4 0) = [.ringConfig] := by decide
theorem test_wf_slots : Instr.faults (.commandFetch 0 0 0 (some []) []) = [.slots] := by decide
theorem test_wf_lists : Instr.faults (.commandFetch 0 0 0 none [⟨0, [[0]]⟩]) = [.lists] := by decide
theorem test_wf_island : Instr.faults (.heartbeatMiss 0x0400) = [.island] := by decide
theorem test_wf_fault_class : Instr.faults (.islandFaultReport 0xFF00 { cls := 10 }) = [.faultClass] := by decide
theorem test_wf_blocks : Instr.faults (.nvmeWrite 0 1 0 1 0 [[0]] false) = [.blocks] := by decide
theorem test_wf_queue : Instr.faults (.nvmeCreateIoCq 0 0 129 16 0) = [.queue] := by decide
theorem test_wf_bank : Instr.faults (.passCommit 0 [(1, 128)]) = [.bank] := by decide
theorem test_wf_throttle : Instr.faults (.throttlePause 0x5000) = [.island] := by decide
theorem test_wf_die : Instr.faults (.flashEraseDone 0 [256]) = [.die] := by decide
theorem test_wf_board : Instr.faults (.powerOn { dieRows := 17 }) = [.board] := by decide
theorem test_wf_good : (Instr.ringEnable 1 255 15 4 4 17).wf = true ∧ (Instr.powerOn {}).wf = true := by decide

/-! ## Worked examples of the spec -/

/-- Channel 1.18 has global number 42 and lies on package 10 (R12). -/
theorem test_channel_numbers : channelClk 42 = 0x4112 ∧ (packageChannels 10).contains 42 = true := by decide +kernel

/-- The reference board's positions: 23 in each course with one spare (R348). -/
def board92 : State :=
  let channels := ((List.finRange 96).filter (fun h => h.val % 24 < 23)).map (fun h => (h, ({ position := some h.val } : Channel)))
  { State.reset with eng := { channels } }

/-- The parts catalogue's source table (10, worked example of R327). -/
def partsTable : Table := { reuse := 0, session := 0, tenant := 0, rows := 100000000, width := 768, courses := 15 }

theorem test_table_sizes : tblBase board92 partsTable = 1086960 ∧ tblSpare board92 partsTable = 16984
    ∧ shardBytes board92 partsTable = 1704353664 := by decide +kernel

/-- Row 269,044 lies on shard 50, channel 2.04 (10, worked example of R338). -/
theorem test_row_home : initialShard board92 partsTable 269044 = 50 ∧ tableChannel board92 partsTable 50 = 52 := by
  decide +kernel

/-- An extended index of 16,000,000,000 nodes on 92 shards (08, worked example). -/
theorem test_index_regions :
    let x : Index := { reuse := 0, session := 0, tenant := 0, config := leBytes 8 16000000000 ++ [15] }
    shardCapacity board92 x = 173913044 ∧ shardRegions board92 x = 2654 ∧ regionCount board92 x = 244168 := by
  decide +kernel

/-- A generation vocabulary of 4,587,520 bytes takes 70 extents (06, worked example of R200). -/
theorem test_vocabulary_footprint :
    let v : List Byte := List.replicate 7 0 ++ [2] ++ List.replicate 16 0 ++ leBytes 4 131072 ++ leBytes 4 130816
      ++ [18] ++ List.replicate 19 0 ++ leBytes 4 917504
    vocFootprint v = 4587520 ∧ extents (vocFootprint v) = 70 := by decide +kernel

/-- The merge of three partial lists with k = 4 (07, worked example of R246). -/
theorem test_merge : topkMerge 0 4 [⟨0x124A01, 31⟩, ⟨0x124A07, 35⟩, ⟨0x129C10, 38⟩, ⟨0x124A07, 33⟩, ⟨0x124A02, 35⟩,
      ⟨0x125B00, 38⟩, ⟨0x124A01, 31⟩, ⟨nullIdent, 0⟩]
    = [⟨0x124A01, 31⟩, ⟨0x124A07, 33⟩, ⟨0x124A02, 35⟩, ⟨0x125B00, 38⟩] := by decide +kernel

/-- The stop string "\n###" over the tokens ".\n", "##", "###", and " Ashby" in place of the last (06, worked example
of R234). -/
theorem test_stop_string :
    let stops : List (List Byte) := [[0x0A, 0x23, 0x23, 0x23]]
    streamOut stops [] [0x2E, 0x0A] = ([0x2E], [0x0A], none)
      ∧ streamOut stops [0x0A] [0x23, 0x23] = ([], [0x0A, 0x23, 0x23], none)
      ∧ streamOut stops [0x0A, 0x23, 0x23] [0x23, 0x23, 0x23] = ([], [], some 0)
      ∧ (streamOut stops [0x0A, 0x23, 0x23] [0x20, 0x41, 0x73, 0x68, 0x62, 0x79]).1.length = 9 := by decide +kernel

/-- "Notiz: " and the first byte of "Ü" leave that byte undecided (06, worked example of R212). -/
theorem test_open_character : (decodeUtf8 [0x4E, 0x6F, 0x74, 0x69, 0x7A, 0x3A, 0x20, 0xC3]).2 = [0xC3] := by decide +kernel

/-- d = 2,500 and d = 320 commands per second give hints of 400 µs and 3,125 µs (02 and 05, worked examples of R79). -/
theorem test_retry_hint : retryHint 2500 = 400 ∧ retryHint 320 = 3125 := by decide

/-- The next index after a loss is the reservation end 431,136 (13, worked example of R443). -/
theorem test_attestation_reservation :
    (skipIndices { attEnd := 431136, attNext := 431122 }).attNext = 431136 := by decide

/-- 0.125 × 1,048,576 = 131,072 in FP32; as FP16 it overflows to +infinity and is counted (10, worked example of
R335). -/
theorem test_lookup_element : fmul 0x3E000000 0x49800000 = 0x48000000 ∧ outElem 1 0x48000000 = ([0, 0, 0, 0x48], false, false)
    ∧ outElem 0 0x48000000 = ([0, 0x7C], true, false) := by decide +kernel

/-- SipHash-2-4 of the bytes 0 to 6 under the key 0 to 15: the published test vector (R254). -/
theorem test_siphash : sipHashShort 0x0706050403020100 0x0F0E0D0C0B0A0908 [0, 1, 2, 3, 4, 5, 6] = 0xAB0200F58B01D137 := by
  decide +kernel

/-- 1.0, 448 and -1.5 as codes of MXFP8 E4M3 (R89, OCP table of 03). -/
theorem test_element_codes : elemVal 0 0x38 = .fin false 8 (-3) ∧ (fmtE4M3.finite 0x7E) = .fin false 14 5 := by decide +kernel

/-- Balls of channel 1.18 and of package 10 (16, worked example of R525). -/
theorem test_balls : ballAt 33 81 = .lp 42 "CK_T" ∧ ballAt 33 80 = .lp 42 "CK_C" ∧ ballAt 38 83 = .lpk 10 "ZQ" := by
  decide +kernel

/-! ## Witnesses of the statements' hypotheses -/


theorem witness_emptyQueueTicks : State.reset.pending = [] := by decide

theorem witness_noRow : findCmd idle 0 = none
    ∧ (findCmd (atWork (cmdW 0)) 0 = some (cmdW 0) ∧ (cmdW 0).op ≠ 1) := by decide +kernel

theorem witness_latchedCancel :
    let c := { cmdW 0 with cancel := true }
    findCmd (atWork c) 0 = some c ∧ c.op = 0 ∧ c.phase = .running ∧ c.result.isNone = true ∧ c.cancel = true := by decide +kernel

theorem witness_endOfCommand :
    let p : Pair := { enable := true, idle := false, sqLog2 := 4, cqLog2 := 4 }
    let s := setPair (0, 0, 0) p (atWork (cmdW 0))
    Takes s (cmdW 0).pairKey ∧ (cmdW 0).failed = none ∧ (cmdW 0).discard = false := by decide +kernel


theorem witness_registerWrites : (look idle.host.ports 0).link = true ∧ fnPresent idle 0 0 = true ∧ idle.cmds = [] ∧ (0 : Nat) < ringPairs 0
    ∧ (pairOf idle (0, 0, 0)).enable = false ∧ (pairOf idle (0, 0, 0)).idle = true
    ∧ pairQuiet idle (0, 0, 0) = true ∧ (look State.reset.host.ports 0).link = false := by decide +kernel

theorem witness_pairEnabled : (pairOf ringW (0, 0, 0)).enable = true
    ∧ (pairOf ringW (0, 0, 0)).error = false ∧ pairQuiet ringW (0, 0, 0) = true
    ∧ headFault (pairOf ringW (0, 0, 0)) 0 = none
    ∧ (15#16).toNat < 2 ^ (pairOf ringW (0, 0, 0)).sqLog2.toNat
    ∧ 2 ^ (pairOf ringW (0, 0, 0)).sqLog2.toNat ≤ (16#16).toNat := by decide +kernel

theorem witness_timer :
    let s := { setPair (0, 0, 0) { pairW with unsignalled := 1, timeUs := 1 } idle with now := 1000 }
    let p := pairOf s (0, 0, 0)
    p.enable = true ∧ p.unsignalled ≠ 0 ∧ p.timeUs ≠ 0 ∧ p.unsignalledAt + p.timeUs.toNat * 1000 ≤ s.now := by
  decide +kernel

theorem witness_fetch :
    let s := { ringW with sessions := [(1, openW)] }
    mayFetch s (0, 0, 0) = true ∧ slotsReady (pairOf s (0, 0, 0)) ≠ 0
      ∧ slotsOf slotW ≤ slotsReady (pairOf s (0, 0, 0)) ∧ pairBusy s (0, 0, 0) = false
      ∧ checks s (cmdOf s 0 0 0 (padTo 64 slotW)) [] = none
      ∧ (checks ringW (cmdOf ringW 0 0 0 (padTo 64 slotW)) []).map (·.status) = some .notAuthorized := by
  decide +kernel

theorem witness_dispatch :
    let c := { cmdW 0x0204 with phase := .queued }
    awake (atWork c) = true ∧ nextDispatch (atWork c) 0 = some c := by decide +kernel

theorem witness_writeFailed : findCmd (atWork (cmdW 0)) 0 = some (cmdW 0) ∧ (cmdW 0).failed = none := by
  decide +kernel


theorem witness_nop : Runs (atWork (cmdW 0)) 0 0 (cmdW 0) := by decide +kernel

def challengeW : Cmd := { cmdW 1 with hdr := hdrOf 1 0 0 0 0 }

theorem witness_challenge : let s := atWork challengeW
    Runs s 0 1 challengeW ∧ challengeW.sid = 0 ∧ tenantUsable s 0 = true ∧ proofLimited s 0 = false
      ∧ sessionsOf s 0 < (quotasOf s 0).sessions ∧ sessionsOf s 0 < 64 ∧ s.sessions.length < 8192 := by decide +kernel

theorem witness_adoptionChallenge : let s := { atWork (cmdW 1) with sessions := [(1, { openW with port := 1 })] }
    Runs s 0 1 (cmdW 1) ∧ (cmdW 1).sid ≠ 0 ∧ find? s.sessions (cmdW 1).sid = some { openW with port := 1 }
      ∧ (1 : Fin 2) ≠ (cmdW 1).port ∧ tenantUsable s 0 = true ∧ proofLimited s 0 = false := by decide +kernel

/-- SESSION_OPEN and SESSION_ADOPT: the proof is valid or it is not, whatever the keyed functions are; the statements
say what happens in either case. A nonce given more than 10 s ago makes any proof invalid. -/
theorem witness_sessionOpen :
    let x : Session := { tenant := 0, port := 0, state := .challenged }
    let s := { atWork (cmdW 2) with sessions := [(1, x)], now := 20000000000 }
    Runs s 0 2 (cmdW 2) ∧ find? s.sessions (cmdW 2).sid = some x ∧ x.tenant = (cmdW 2).tenant
      ∧ x.state = .challenged := by decide +kernel

/-- A proof of a nonce given now, for the response that the key asks for, is valid. -/
theorem witness_proofValid (s : State) (c : Cmd) (label : String)
    (h : paramResponse c = proofOf (tenantKey s c.tenant) (paramNonce c) c.sid c.tenant c.port.val label) :
    proofValid s c (paramNonce c) s.now label = true := by
  simp [proofValid, h, nonceLife]

theorem witness_sessionAdopt : let s := { atWork (cmdW 4) with sessions := [(1, { openW with port := 1 })] }
    Runs s 0 4 (cmdW 4) ∧ find? s.sessions (cmdW 4).sid = some { openW with port := 1 }
      ∧ tenantUsable s 0 = true ∧ adoptedCmds s (cmdW 4) 1 = [] := by decide +kernel

theorem witness_sessionClose : let s := { atWork (cmdW 3) with sessions := [(1, openW)] }
    Runs s 0 3 (cmdW 3) ∧ (cmdW 3).begun = false ∧ find? s.sessions (cmdW 3).sid = some openW
      ∧ (∀ d ∈ s.cmds, d.sid = (cmdW 3).sid → d.id = (cmdW 3).id) := by decide +kernel

theorem witness_closeFinish :
    let x := { openW with state := SessState.closing }
    let s := { atWork { cmdW 3 with begun := true } with sessions := [(1, x)] }
    find? s.sessions 1 = some x ∧ sessionDrained s 1 = true ∧ sessionMoving s 1 = false := by decide +kernel

theorem witness_expiries :
    let x : Session := { tenant := 0, port := 0, state := .challenged }
    let y := { openW with state := SessState.detached }
    let s := { idle with sessions := [(1, x), (2, y)], now := 30000000000 }
    find? s.sessions 1 = some x ∧ 10000000000 < s.now - x.nonceAt ∧ find? s.sessions 2 = some y
      ∧ s.dev.cfg.sys.holdS * 1000000000 ≤ s.now - y.holdAt ∧ (∀ d ∈ s.cmds, d.sid ≠ 2) := by decide +kernel

theorem witness_stateQuery :
    let c := cmdW 5 [] (mkHandle 0 1)
    let s := { atWork c with obj := { models := [(0, modelW)] } }
    Runs s 0 5 c ∧ (objOf s c.sid c.handle).bind (objState s) = some (3, 1) := by decide +kernel

theorem witness_cancel :
    let d : Cmd := { cmdW 0x0204 with id := 1, phase := .queued }
    let c := cmdW 6 [7, 0, 0, 0, 0, 0, 0]
    let e := cmdW 6 [0, 0, 0, 0, 0, 0, 1] (mkHandle 0 1)
    let f : Cmd := { cmdW 0x0204 [] (mkHandle 0 1) with id := 1, phase := .queued }
    let s := { atWork c with cmds := [c, d] }
    let u := { atWork e with cmds := [e, f], obj := { models := [(0, modelW)] } }
    Runs s 0 6 c ∧ c.begun = false ∧ c.arg 6 1 = 0
      ∧ s.cmds.filter (fun t => t.port == c.port && t.fn == c.fn && t.ring == c.arg 4 2
          && t.hdr.commandId.toNat == c.arg 0 4 && t.sid == c.sid && t.id != c.id && cancellable s t) = [d]
      ∧ Runs u 0 6 e ∧ e.arg 6 1 = 1 ∧ (objOf u e.sid e.handle).isSome = true
      ∧ u.cmds.filter (fun t => t.port == e.port && t.sid == e.sid && t.handle == e.handle
          && t.id != e.id && cancellable u t) = [f]
      ∧ Runs (atWork c) 0 6 c := by decide +kernel

theorem witness_links :
    let down : State := { State.reset with host := { ports := [(0, { perst := false }), (1, { link := true })] }
                                           now := 2000000000, dev := { stage := .service } }
    (look idle.host.ports 0).link = true
      ∧ (look down.host.ports 0).link = false ∧ (look down.host.ports 0).retired = false
      ∧ islandUp down (portClk 0) = true ∧ (look down.host.ports 0).perst = false ∧ 10000000 ≤ down.now
      ∧ down.dev.stage = .service ∧ down.host.primary = 0
      ∧ 1000000000 ≤ down.now - (look down.host.ports down.host.primary).downSince
      ∧ (look down.host.ports (otherPort down.host.primary)).link = true
      ∧ (look down.host.ports (otherPort down.host.primary)).retired = false := by decide +kernel


def loadW : Cmd := cmdW 0x0100

theorem witness_modelLoad : Runs (rich loadW) 0 0x0100 loadW ∧ baseImageFault decoderW = none
    ∧ firstFree (rich loadW).obj.models 0 64 = some 0
    ∧ tenantLpddr6 (rich loadW) 0 + weightBytes decoderW ≤ (quotasOf (rich loadW) 0).lpddr6
    ∧ homeFits (rich loadW) (homeOf (rich loadW) 0) (weightBytes decoderW) (reserveWith (rich loadW) decoderW) = true
    ∧ imageCheckOk decoderW = true := by decide +kernel

theorem witness_modelUnload : let c := cmdW 0x0101 [] (mkHandle 0 1)
    Runs (withModel c modelW) 0 0x0101 c ∧ modelOf (withModel c modelW) c.sid c.handle = some (0, modelW)
      ∧ modelW.state = .ready ∧ bindingsBefore (withModel c modelW) 0 c.id = 0
      ∧ (let m := { modelW with state := ModelState.moving }
         modelOf (withModel c m) c.sid c.handle = some (0, m)) := by decide +kernel

theorem witness_modelQuery : let c := cmdW 0x0104 [] (mkHandle 0 1)
    Runs (withModel c modelW) 0 0x0104 c ∧ modelOf (withModel c modelW) c.sid c.handle = some (0, modelW) := by
  decide +kernel

theorem witness_adapterLoad :
    let c := cmdW 0x0102 (List.replicate 24 0) (mkHandle 0 1)
    let m := { modelW with image := decoderW }
    let s := withModel c m
    modelOf s c.sid c.handle = some (0, m) ∧ Runs s 0 0x0102 c ∧ adapterFault m.image adapterW = none
      ∧ (s.obj.adapters.filter (fun a => a.2.tenant == c.tenant)).length < (quotasOf s c.tenant).adapters
      ∧ tenantLpddr6 s c.tenant + weightBytes adapterW ≤ (quotasOf s c.tenant).lpddr6
      ∧ homeFits s m.home (weightBytes adapterW) (reserveBytes s) = true
      ∧ imageCheckOk adapterW = true := by decide +kernel

theorem witness_adapterRetire :
    let c := cmdW 0x0103 [0, 0, 0, 0, 1, 0, 0, 0] (mkHandle 0 1)
    let s := { withModel c modelW with obj := { models := [(0, modelW)], adapters := [((0, 0, 1), {})], adapterTop := [((0, 0), 1)] } }
    modelOf s c.sid c.handle = some (0, modelW) ∧ Runs s 0 0x0103 c ∧ look s.obj.adapterTop (0, c.arg 0 4) ≠ 0
      ∧ c.arg 4 4 ≠ 0 ∧ find? s.obj.adapters (0, c.arg 0 4, c.arg 4 4) = some {} := by decide +kernel


theorem witness_seqCreate :
    let c := cmdW 0x0200 (leBytes 8 (mkHandle 0 1) ++ [255, 255, 255, 255, 0, 0, 0, 0] ++ List.replicate 24 0
      ++ [255, 255, 255, 255] ++ List.replicate 84 0)
    let m := { modelW with image := decoderW }
    let s := { rich c with obj := { models := [(0, m)], vocabs := [(0, { state := .ready })] } }
    Runs s 0 0x0200 c ∧ createFault s c = none ∧ modelOf s c.sid (c.arg 0 8) = some (0, m)
      ∧ stopStrings (c.arg 18 2) 0 [] = .ok [] ∧ placeable s m 0 = true
      ∧ ceilDiv (imgContext m.image) 16 * imgLayers m.image * pageBytes m.image ≤ pagePool s 0
      ∧ 4 * tableEntries m.image + (if c.arg 24 8 = 0 then 0 else 520) ≤ pagePool s 0
      ∧ bindAdapter s 0 (c.arg 8 4) (c.arg 12 4) = .ok none ∧ firstFree s.obj.seqs 0 4096 = some 0 := by decide +kernel

theorem witness_seqAppend :
    let c := cmdW 0x0201 (List.replicate 16 0 ++ [1]) (mkHandle 0 1)
    let d := cmdW 0x0201 (List.replicate 17 0) (mkHandle 0 1)
    let st : Course := { generation := { step := some { rows := [{ who := 0, kind := some (.append 0) }] } } }
    let s := withSeq c seqW
    let s := { s with eng := { s.eng with courses := [(0, st)] } }
    let u := { s with cmds := [d] }
    Runs s 0 0x0201 c ∧ seqOf s c.sid c.handle = some (0, seqW) ∧ stranded s = false ∧ takesInput seqW = true
      ∧ (appendRow s c seqW).isSome = true
      ∧ (let v := startJob (.command 0) 0 .generation 0 s
         onThread v (.command 0) = true ∧ stopped v (tileClk 0) = false) ∧ c.arg 16 1 ≠ 0 ∧ (∀ t ∈ tokenList [], t < vocTokens (seqVocab s seqW))
      ∧ Runs u 0 0x0201 d ∧ (appendRow u d seqW).isSome = true ∧ d.arg 16 1 = 0 := by decide +kernel

theorem witness_carryFlush :
    let c := cmdW 0x0201 (List.replicate 16 0 ++ [1]) (mkHandle 0 1)
    let q := { seqW with carry := [65] }
    find? (withSeq c q).obj.seqs 0 = some q ∧ q.carry ≠ [] ∧ q.run = none ∧ flushWaits (withSeq c q) 0 = true := by
  decide +kernel

theorem witness_seqGenerate :
    let c := cmdW 0x0202 [] (mkHandle 0 1)
    let s := withSeq c seqW
    Runs s 0 0x0202 c ∧ seqOf s c.sid c.handle = some (0, seqW) ∧ stranded s = false ∧ seqW.run = none
      ∧ takesInput seqW = true ∧ (let q := { seqW with carry := [65] }; seqOf (withSeq c q) c.sid c.handle = some (0, q))
      ∧ (let q := { seqW with state := .swapped, tokens := [3] }
         seqOf (withSeq c q) c.sid c.handle = some (0, q) ∧ takesInput q = true)
      ∧ (let q := { seqW with input := [3] }
         seqOf (withSeq c q) c.sid c.handle = some (0, q) ∧ q.carry = [] ∧ q.swap = .none ∧ q.undelivered = []
           ∧ q.heldStop = none ∧ q.grammar = none ∧ outputBroken (withSeq c q) c = false) := by decide +kernel

theorem witness_seqManage :
    let a := cmdW 0x0203 [1, 0, 0, 0] (mkHandle 0 1)
    let b := cmdW 0x0204 [] (mkHandle 0 1)
    let d := cmdW 0x0205 [] (mkHandle 0 1)
    let e := cmdW 0x0206 [] (mkHandle 0 1)
    let q := { seqW with state := SeqState.prefill }
    let u := { withSeq b seqW with flash := { swap := 1, qlcPerDie := 1, dieRows := 1, qlcLbas := 1000 } }
    Runs (withSeq a seqW) 0 0x0203 a ∧ seqOf (withSeq a seqW) a.sid a.handle = some (0, seqW)
      ∧ seqW.state ≠ .finishing ∧ seqW.state ≠ .done ∧ seqW.adapter = some (5, 1)
      ∧ pickVersion (withSeq a seqW) 0 5 (a.arg 0 4) 64 64 = .found 1
      ∧ Runs u 0 0x0204 b ∧ b.begun = false ∧ moveOf u (.seq 0) = none ∧ flashReadOnly u = false ∧ swapFits u seqW = true
      ∧ Runs (withSeq d seqW) 0 0x0205 d ∧ seqOf (withSeq d q) d.sid d.handle = some (0, q) ∧ stranded (withSeq d q) = false
      ∧ Runs (withSeq e seqW) 0 0x0206 e := by decide +kernel


/-- The header of a retrieval vocabulary of one token, and a body of zeros of its size. -/
def vocabW : List Byte := [70, 86, 86, 79, 2, 0, 1, 0, 136, 32] ++ List.replicate 14 0 ++ [1] ++ List.replicate 7 0 ++ [10, 0, 1, 1, 1] ++ List.replicate 7 0 ++ [255, 255, 255, 255, 0, 0, 0, 0, 64, 0, 0, 0, 102, 8, 74, 243, 0, 0, 0, 0] ++ List.replicate 8264 0

/-- The header of a grammar of 257 tokens, one state, one transition and one class, and a body of zeros. -/
def grammarW : List Byte := [70, 86, 71, 82, 1, 0, 0, 0, 72, 3] ++ List.replicate 14 0 ++ [1, 1, 0, 0, 1, 0, 0, 0, 1, 0, 0, 0, 1] ++ List.replicate 15 0 ++ [36, 179, 243, 214] ++ List.replicate 8 0 ++ List.replicate 776 0

theorem witness_vocabLoad :
    let c := cmdW 0x0700 (List.replicate 17 0)
    Runs (rich c) 0 0x0700 c ∧ vocHeaderFault vocabW = none ∧ vocClass vocabW ≠ 0 ∧ c.arg 16 1 < 4
      ∧ (look (rich c).obj.vocabs 8).state = .empty
      ∧ (takeExtents (rich c) (extents (vocAligned vocabW))).isSome = true := by decide +kernel

theorem witness_vocabUnload :
    let c := cmdW 0x0701 [0, 0]
    let d : Cmd := { c with hdr := { c.hdr with tenant := 1 } }
    let f := fun (c : Cmd) => { rich c with obj := { vocabs := [(0, { state := .ready })] } }
    Runs (f c) 0 0x0701 c ∧ (look (f c).obj.vocabs 0).state = .ready ∧ c.tenant = (look (f c).obj.vocabs 0).tenant
      ∧ vocabBound (f c) 0 = false ∧ Runs (f d) 0 0x0701 d ∧ d.tenant ≠ (look (f d).obj.vocabs 0).tenant
      ∧ d.tenant ≠ 0 := by decide +kernel

theorem witness_grammarLoad :
    let c := cmdW 0x0702 (List.replicate 16 0)
    Runs (rich c) 0 0x0702 c ∧ gramHeaderFault grammarW = none ∧ firstFree (rich c).obj.grammars 0 256 = some 0
      ∧ (takeExtents (rich c) (extents (gramAligned grammarW))).isSome = true := by decide +kernel

theorem witness_grammarUnload :
    let c := cmdW 0x0703 [] (mkHandle 0 1)
    let g : Grammar := { reuse := 1, session := 1, tenant := 0 }
    let s := { rich c with obj := { grammars := [(0, g)] } }
    let u := { s with obj := { s.obj with seqs := [(0, { seqW with grammar := some 0 })] } }
    Runs s 0 0x0703 c ∧ grammarOf s c.sid c.handle = some (0, g) ∧ (∀ q ∈ s.obj.seqs, q.2.grammar ≠ some 0)
      ∧ Runs u 0 0x0703 c ∧ grammarOf u c.sid c.handle = some (0, g) ∧ (∃ q ∈ u.obj.seqs, q.2.grammar = some 0) := by
  decide +kernel

theorem witness_tokenize :
    let c : Cmd := { cmdW 0x0704 (List.replicate 18 0) with course := some 0 }
    let d : Cmd := { cmdW 0x0705 (List.replicate 18 0) with course := some 0 }
    let k : Course := { retrieval := { step := some { rows := [{ who := 0 }] } } }
    let f := fun (c : Cmd) => { rich c with obj := { vocabs := [(0, { state := .ready })] }, eng := { courses := [(0, k)] } }
    (laneRow (f c) c).isSome = true ∧ (look (f c).obj.vocabs 0).bad = false ∧ (look (f c).obj.vocabs 0).state = .ready
      ∧ (look (f c).obj.vocabs 0).refusing = false ∧ Runs (f c) 0 0x0704 c ∧ c.arg 17 1 + 0 = 0
      ∧ (laneRow (f d) d).isSome = true ∧ Runs (f d) 0 0x0705 d ∧ d.arg 16 1 = 0
      ∧ (∀ t ∈ tokenList [], t < vocTokens (look (f d).obj.vocabs 0).image)
      ∧ ((tokenList [9, 0, 0, 0]).findIdx? (fun t => decide (vocTokens (look (f d).obj.vocabs 0).image ≤ t))) = some 0 := by
  decide +kernel


/-- A template image with empty strings. -/
def templateW : List Byte := [70, 86, 84, 80, 1, 0, 0, 0, 72, 0, 0, 0, 16, 0, 16] ++ List.replicate 41 0 ++ [215, 18, 127, 30, 0, 0, 0, 0] ++ leBytes 8 (crc64 [])

theorem witness_templates :
    let a := cmdW 0x0304 (List.replicate 16 0)
    let b := cmdW 0x0304 (List.replicate 8 0 ++ [72, 0, 0, 0, 0, 0, 0, 0]) 0 (mkHandle 0 1)
    let d := cmdW 0x0304 (List.replicate 16 0) 0 (mkHandle 0 1)
    let x : Template := { reuse := 1, session := 1 }
    let f := fun (c : Cmd) => { rich c with obj := { templates := [(0, x)] } }
    Runs (rich a) 0 0x0304 a ∧ a.imm = 0 ∧ tplHeaderFault templateW = none ∧ templateBodyFault templateW = none
      ∧ firstFree (rich a).obj.templates 0 4096 = some 0 ∧ templatesOfSession (rich a) 1 < 16
      ∧ (templateBodyFault (templateW.take 64 ++ List.replicate 7 0 ++ [1])).isSome = true
      ∧ Runs (f b) 0 0x0304 b ∧ b.imm ≠ 0 ∧ templateOf (f b) b.sid b.imm = some (0, x) ∧ b.bdLen 0 ≠ 0
      ∧ Runs (f d) 0 0x0304 d ∧ templateOf (f d) d.sid d.imm = some (0, x) ∧ d.bdLen 0 = 0 := by decide +kernel

theorem witness_profileSet :
    let a := cmdW 0x0305 (List.replicate 64 0 ++ [1] ++ List.replicate 63 0)
    let b := cmdW 0x0305 ([0, 0, 0, 128] ++ List.replicate 60 0 ++ [1] ++ List.replicate 63 0)
    let d := cmdW 0x0305 (List.replicate 128 0)
    Runs (rich a) 0 0x0305 a ∧ a.arg 0 4 < 2 ^ 31 ∧ leNat (slice a.params 64 64) ≠ 0
      ∧ Runs (rich b) 0 0x0305 b ∧ 2 ^ 31 ≤ b.arg 0 4 ∧ leNat (slice b.params 64 64) ≠ 0
      ∧ Runs (rich d) 0 0x0305 d ∧ leNat (slice d.params 64 64) = 0
      ∧ leNat (storedProfile true (slice a.params 64 64)) ≠ 0 := by decide +kernel

/-- A candidate set of index 0 with a query of `n` bytes and one entry. -/
def setW (n : Nat) : List Byte :=
  leBytes 8 (mkHandle 0 1) ++ [1, 0, BitVec.ofNat 8 n, 0, 1, 0, 0, 0] ++ List.replicate (ceilDiv n 16 * 16) 65 ++ List.replicate 16 0

theorem witness_retrievalLane :
    let a := laneW 0x0300 (List.replicate 64 0) (mkHandle 0 1)
    let b := laneW 0x0301 (List.replicate 64 0) (mkHandle 0 1)
    let d := laneW 0x0302 (List.replicate 64 0) 0
    let e := laneW 0x0303 (List.replicate 128 0) 0
    let v := fun c => startJob (.command 0) 0 .retrieval 0 (inLane c)
    let ok := fun (c : Cmd) => (laneRow (inLane c) c).map (·.fate) = some none ∧ onThread (v c) (.command 0) = true
      ∧ stopped (v c) (tileClk 0) = false ∧ crossDone (v c) 0 = true
    ok a ∧ Runs (inLane a) 0 0x0300 a ∧ walksEnded (v a) 0 = true
      ∧ ok b ∧ Runs (inLane b) 0 0x0301 b ∧ featuresRun (v b) (reqOfCmd b) = true
      ∧ setFault (v b) 1 false (setW 1) = none ∧ rerankRefusal (v b) b (setW 1) = none
      ∧ ok d ∧ Runs (inLane d) 0 0x0302 d ∧ setFault (v d) 1 true (setW 0) = none
      ∧ ok e ∧ Runs (inLane e) 0 0x0303 e ∧ walked (v e) false 0 = true ∧ featuresRun (v e) (reqOfCmd e) = true := by
  decide +kernel

theorem witness_retrievalFate :
    let a := laneW 0x0300 (List.replicate 64 0) (mkHandle 0 1)
    let k : Course := { retrieval := { step := some { rows := [{ who := 0, fate := some .uncorrectable }] } } }
    let s := { inLane a with eng := { courses := [(0, k)] } }
    (laneRow s a).map (·.fate) = some (some .uncorrectable) ∧ Runs s 0 0x0300 a := by decide +kernel


/-- A walk of tile 0 on index 0, and a device where one message of it is under way. -/
def walkW : Walk := { id := 1, query := 1, who := 0, index := 0, ef := 4, tile := 0, owed := 1, out := [{ tag := 1 }] }
def hopW (x : Index) (m : HopMsg) : State :=
  let s := idle
  { s with obj := { indices := [(0, x)] }, eng := { s.eng with walks := [walkW], net := [m], nextMsg := 1 } }
def msgW (k : HopKind) (dst : Nat) : HopMsg := { id := 0, walk := 1, src := 0, dst, kind := k, tag := 1 }
def indexW : Index := { reuse := 1, session := 1, tenant := 0, nodes := [(0, { state := .live, neighbours := [0] })] }

theorem witness_hopEngine :
    let go := fun (k : HopKind) (dst : Nat) =>
      let s := hopW indexW (msgW k dst)
      arrives s (msgW k dst) = true ∧ walkOf s 1 = some walkW ∧ s.eng.net.find? (·.id == 0) = some (msgW k dst)
        ∧ pathUp s (endpointCourse 0) (endpointCourse dst) = true
    go (.fwd [0]) 64 ∧ go .req 160 ∧ go .req 64 ∧ go (.resolve [0]) 64 ∧ go .load 64 ∧ go (.ack 1 false) 0
      ∧ go (.pair 0 3 false false) 0 ∧ go (.entry 5 3 false) 0
      ∧ encodersDone (hopW indexW (msgW .load 64)) 0 = true
      ∧ (let m := msgW .req 64
         coldNode (indexAt (countRegion walkW 0 (countPoison m (hopW indexW m))) 0) 0 = false)
      ∧ coldNode (indexAt (hopW indexW (msgW (.resolve [0]) 64)) 0) 0 = false := by decide +kernel

/-- Both fabrics between the diagonal courses 0 and 3 out of service. -/
theorem witness_hopNoPath :
    let m := msgW .req 136
    let s := hopW indexW m
    let off := fun (c : Fin 4) l => upd l (fabricClk c) (fun i => { i with retired := true })
    let s := { s with islands := off 2 (off 1 s.islands) }
    arrives s m = true ∧ pathUp s (endpointCourse 0) (endpointCourse 136) = false := by decide +kernel

theorem witness_hopCold :
    let x : Index := { indexW with extended := true }
    let m := msgW (.resolve [0]) 64
    let n := msgW .req 64
    let b : ColdBatch := { index := 0, page := 0, since := 0, msgs := [m] }
    let s := hopW x m
    let t := { s with eng := { s.eng with cold := [b] } }
    arrives s m = true ∧ m.poisoned = false ∧ coldNode (indexAt s 0) 0 = true
      ∧ arrives (hopW x n) n = true ∧ coldNode (indexAt (countRegion walkW 0 (countPoison n (hopW x n))) 0) 0 = true
      ∧ idxBatchUs (indexAt t 0) = 0 ∧ b.since + idxBatchUs (indexAt t 0) * 1000 ≤ t.now
      ∧ t.flash.issued = [] ∧ (∀ m ∈ b.msgs, islandRuns t (endpointClk m.dst) = true)
      ∧ t.eng.cold.find? (fun y => y.index == 0 && y.page == 0) = some b := by decide +kernel

/-- No die is held while no operation of the flash is under way, whichever die the page lies on. -/
theorem witness_dieFree (s : State) (die : Nat) (h : s.flash.issued = []) : dieHeld s die = false := by
  simp [dieHeld, h]

theorem witness_hopNotYet :
    let s := hopW { indexW with config := List.replicate 63 1 ++ [1] } (msgW .free 64)
    s.eng.net.find? (fun y => y.id == 0 && y.kind == .free) = some (msgW .free 64) ∧ arrives s (msgW .free 64) = true
      ∧ s.now < 0 + idxBatchUs (indexAt s 0) * 1000 := by decide +kernel


theorem witness_indexCreate :
    let a := cmdW 0x0400 (List.replicate 64 0)
    let s := rich a
    let x : Index := { idxW with quarter := upperQuarter s (field (cfgW 0) 8 1) }
    Runs s 0 0x0400 a ∧ configFault (a.arg 16 1) (List.replicate 64 0) = some 0 ∧ configFault (a.arg 16 1) (cfgW 0) = none
      ∧ firstFree s.obj.indices 0 64 = some 0 ∧ hotRegionsOk s x = true ∧ createLimit s a x = none := by decide +kernel

theorem witness_indexInsert :
    let a := cmdW 0x0401 (List.replicate 16 0) (mkHandle 0 1)
    let v : Node := { state := .live, ident := 3 }
    let s := withIndex a idxW
    let t := withIndex a { idxW with nodes := [(0, v)], entry := some 0 }
    Runs s 0 0x0401 a ∧ indexOf s 1 a.handle = some (0, idxW) ∧ (idxW.extended && flashReadOnly s) = false
      ∧ chunksOf 48 (recW 3) = [recW 3] ∧ field (recW 3) 0 8 ≠ nullIdent ∧ shardFor s idxW [] = some 0
      ∧ layersOf idxW (field (recW 3) 0 8) = 0
      ∧ nodesOf (indexAt t 0) (field (recW 3) 0 8) ≠ [] ∧ bitOf (field (recW 3) 8 8) 0 = false := by decide +kernel

/-- The bound of R271 on pending nodes. -/
theorem witness_indexPending (x : Index) (h : x = { idxW with nodes := List.replicate 16777216 (0, {}) }) :
    16777216 < countState x .pending + (chunksOf 48 (recW 3)).length := by
  have e : (chunksOf 48 (recW 3)).length = 1 := by decide +kernel
  have k : ∀ n : Nat, ((List.replicate n ((0 : Nat), ({} : Node))).filter (fun n => n.2.state == .pending)).length = n :=
    fun n => by rw [List.filter_eq_self.2 (fun a ha => by rw [List.eq_of_mem_replicate ha]; rfl), List.length_replicate]
  rw [e, h]
  simp only [countState, k]
  omega

theorem witness_indexEpochs :
    let a := cmdW 0x0402 [] (mkHandle 0 1)
    let b := cmdW 0x0403 (List.replicate 16 0) (mkHandle 0 1)
    let x : Index := { idxW with nodes := [(0, { ident := 3 })] }
    let w : Walk := { id := 1, query := 1, who := 0, index := 0 }
    let t := { withIndex b x with eng := { (rich b).eng with walks := [w] } }
    Runs (withIndex a x) 0 0x0402 a ∧ indexOf (withIndex a x) 1 a.handle = some (0, x) ∧ x.epoch ≠ 0xFFFFFFFF
      ∧ Runs (withIndex b x) 0 0x0403 b ∧ coursesUsing (withIndex b x) 0 = [] ∧ coursesUsing t 0 ≠ []
      ∧ indexOf (withIndex a { x with epoch := 0xFFFFFFFF }) 1 a.handle = some (0, { x with epoch := 0xFFFFFFFF }) := by
  decide +kernel

theorem witness_indexRepair :
    let a := cmdW 0x0404 (List.replicate 16 0) (mkHandle 0 1)
    let b := cmdW 0x0404 (1 :: List.replicate 15 0) (mkHandle 0 1)
    let x : Index := { idxW with nodes := [(0, { state := .tombstoned })] }
    let y : Index := { x with state := .repairing, repair := { covered := [0], running := true } }
    Runs (withIndex a x) 0 0x0404 a ∧ a.arg 0 1 = 0 ∧ x.state = .ready ∧ y.state ≠ .ready
      ∧ indexOf (withIndex a x) 1 a.handle = some (0, x) ∧ indexOf (withIndex a y) 1 a.handle = some (0, y)
      ∧ Runs (withIndex b x) 0 0x0404 b ∧ b.arg 0 1 = 1 ∧ repairDue x = true ∧ y.repair.running = true := by decide +kernel

theorem witness_indexDrop :
    let a := cmdW 0x0405 [] (mkHandle 0 1)
    let b := cmdW 0x0406 [] (mkHandle 0 1)
    Runs (withIndex a idxW) 0 0x0405 a ∧ Runs (withIndex b idxW) 0 0x0406 b ∧ indexBound (withIndex b idxW) b 0 b.handle = false
      ∧ idxW.state = .ready := by decide +kernel

theorem witness_regionPlacement :
    let x : Index := { idxW with extended := true, config := cfgW 1, regions := [(0, { hot := true })] }
    let s := withIndex (cmdW 0) x
    x.extended = true ∧ (regionAt x 0).pinned = false ∧ (regionAt x 0).moving = false
      ∧ 0 / 65536 < (shards s (idxCourses x)).length ∧ 0 % 65536 < shardRegions s x ∧ wantedHot s x 0 ≠ (regionAt x 0).hot
      ∧ (∀ m ∈ s.eng.moves, ¬ (m.2.obj = .region 0 ∧ m.2.state ≠ .idle)) := by decide +kernel


def identsW : List Byte := leBytes 8 5

theorem witness_corpus :
    let r := leBytes 8 5 ++ [1, 0] ++ List.replicate 54 0 ++ [65] ++ List.replicate 63 0
    let a := cmdW 0x0500 (List.replicate 16 0) (mkHandle 0 1)
    let s := withIndex a idxW
    let b := cmdW 0x0501 (List.replicate 16 0) (mkHandle 0 1)
    let d := cmdW 0x0502 (List.replicate 16 0) (mkHandle 0 1)
    Runs s 0 0x0500 a ∧ indexOf s 1 a.handle = some (0, idxW) ∧ splitRecords (1 / 64 + 1) [1] = none
      ∧ splitRecords (r.length / 64 + 1) r = some [r] ∧ unitMoving s (.corpus 0) (recIdent r) = false
      ∧ recordOk r = true ∧ writeStop s a 0 idxW false r = none
      ∧ splitRecords 2 (List.replicate 64 0) = some [List.replicate 64 0] ∧ recordOk (List.replicate 64 0) = false
      ∧ Runs (withIndex b idxW) 0 0x0501 b ∧ Runs (withIndex d idxW) 0 0x0502 d
      ∧ (∀ i ∈ idents identsW, unitMoving (withIndex d idxW) (.corpus 0) i = false) := by decide +kernel


def tableW : Table := { reuse := 1, session := 1, tenant := 0, rows := 8, width := 1, pooling := 1 }
def withTable (c : Cmd) (t : Table) : State := { rich c with obj := { tables := [(0, t)] } }

theorem witness_tables :
    let a := cmdW 0x0600 ([8, 0, 0, 0, 1, 0, 1] ++ List.replicate 57 0)
    let b := cmdW 0x0603 [] (mkHandle 0 1)
    let d := cmdW 0x0604 [] (mkHandle 0 1)
    let m : Migration := { row := 0, old := 0, oldSlot := 0, new := 1, newSlot := 9 }
    let h : Cmd := { cmdW 0x0601 [] (mkHandle 0 1) with id := 5 }
    let bound := { withTable d tableW with cmds := [d, h] }
    let s := rich a
    let t := { tableW with rows := 8 }
    Runs s 0 0x0600 a ∧ firstFree s.obj.tables 0 256 = some 0
      ∧ tenantLpddr6 s 0 + (shards s 15).length * shardBytes s t ≤ (quotasOf s 0).lpddr6
      ∧ shards s 15 ≠ [] ∧ tableFits s t = true
      ∧ Runs (withTable b tableW) 0 0x0603 b ∧ tableOf (withTable b tableW) 1 b.handle = some (0, tableW)
      ∧ Runs (withTable d tableW) 0 0x0604 d ∧ tableBound (withTable d tableW) d = false
      ∧ Runs bound 0 0x0604 d ∧ tableBound bound d = true
      ∧ tableOf (withTable d { tableW with migrations := [m] }) 1 d.handle = some (0, { tableW with migrations := [m] })
      ∧ tableOf (withTable d { tableW with dropping := true }) 1 d.handle = some (0, { tableW with dropping := true }) := by
  decide +kernel

theorem witness_rowsWrite :
    let a := cmdW 0x0601 (List.replicate 16 0) (mkHandle 0 1)
    let r := List.replicate 16 (0 : Byte)
    let s := withTable a tableW
    let m : Migration := { row := 0, old := 0, oldSlot := 0, new := 1, newSlot := 9, held := [(0, [])] }
    Runs s 0 0x0601 a ∧ chunksOf (rowRecord tableW.width) r = [r] ∧ rowRecordOk tableW r = true ∧ locked tableW 0 = false
      ∧ heldWrites (setTable 0 (writeRow 0 (slice r 8 2)) s) 0 = false ∧ rowRecordOk tableW (9 :: r.drop 1) = false
      ∧ heldWrites (withTable a { tableW with migrations := [m] }) 0 = true := by decide +kernel

theorem witness_lookup :
    let a := laneW 0x0602 (List.replicate 64 0) (mkHandle 0 1)
    let s := { inLane a with obj := { tables := [(0, tableW)] } }
    Runs s 0 0x0602 a ∧ tableOf s 1 a.handle = some (0, tableW) ∧ (laneRow s a).map (·.fate) = some none
      ∧ tableRuns s tableW = true ∧ onThread (startJob (.command 0) 0 .retrieval 0 s) (.command 0) = true
      ∧ stopped (startJob (.command 0) 0 .retrieval 0 s) (tileClk 0) = false
      ∧ (words [9, 0, 0, 0]).findIdx? (fun r => 8 ≤ r) = some 0 ∧ (words [7, 0, 0, 0]).findIdx? (fun r => 8 ≤ r) = none
      ∧ badBag 1 0 0 [1] = some 0 ∧ badBag 1 0 0 [0] = none
      ∧ (bagRanges 1 [0]).findIdx? (fun r => (([7].drop r.1).take (r.2 - r.1)).any ([7].contains ·)) = some 0 := by
  decide +kernel

theorem witness_migration :
    let s := idle
    let m : Migration := { row := 0, old := 0, oldSlot := 0, new := 1, newSlot := 9 }
    let n : Migration := { m with switched := true, draining := 1 }
    awake s = true ∧ s.now < s.eng.lastInterval + s.dev.cfg.emb.intervalMs * 1000000
      ∧ s.eng.lastInterval + s.dev.cfg.emb.intervalMs * 1000000 ≤ { s with now := 2 ^ 60 }.now
      ∧ migrationOf { tableW with migrations := [m] } 0 = some m ∧ migrationOf { tableW with migrations := [n] } 0 = some n
      ∧ tableW.ending = false ∧ tableRuns s { tableW with migrations := [m] } = true := by decide +kernel


def passW : Pass := { record := 1, k := 32 }

/-- A device with a model, a step of course 0 at the record of its first linear, and one array. -/
def withArrays (r : ArrayRec) : State :=
  let s := withModel (cmdW 0) { modelW with image := decoderW }
  { s with eng := { s.eng with
      arrays := [(0, r)], courses := [(0, { generation := { step := some { models := [0], record := 1 } } })] } }

/-- An array whose drains have written a pass. -/
def drainedW : ArrayRec :=
  { generation := [passW], window := [{}], staged := [{}]
    grid := { written := (List.range 32).map (fun c => (c, List.replicate 32 0)) } }

theorem witness_passes :
    let s := withArrays drainedW
    let u := turnWindow 0 s
    islandRuns s (arrayClk 0) = true ∧ runningPass u 0 = some (.generation, passW) ∧ homeBad u .generation 0 passW = false
      ∧ (streamPass 0 .generation passW [] u).isSome = true
      ∧ islandRuns { s with islands := [(arrayClk 0, { paused := true })] } (arrayClk 0) = false
      ∧ runningPass (turnWindow 0 (withArrays {})) 0 = none
      ∧ streamPass 0 .generation { passW with record := 9 } [] (withArrays { drainedW with generation := [{ passW with record := 9 }] }) = none := by
  decide +kernel

theorem witness_homeBad :
    let s := withArrays drainedW
    let b := { s with obj := { s.obj with models := [(0, { modelW with image := decoderW, badRecords := [1] })] } }
    islandRuns b (arrayClk 0) = true ∧ runningPass (turnWindow 0 b) 0 = some (.generation, passW)
      ∧ homeBad (turnWindow 0 b) .generation 0 passW = true := by decide +kernel

theorem witness_arrayFaults :
    let s := withArrays drainedW
    arrayUp s 0 = true ∧ runningPass s 0 = some (.generation, passW) ∧ (look s.eng.arrays 0).attempts < 2
      ∧ runningPass (withArrays { drainedW with attempts := 2 }) 0 = some (.generation, passW)
      ∧ 2 ≤ (look (withArrays { drainedW with attempts := 2 }).eng.arrays 0).attempts
      ∧ pausable s (arrayClk 0) = true ∧ (look s.islands (arrayClk 0)).paused = false
      ∧ (look [(arrayClk 0, ({ paused := true } : Island))] (arrayClk 0)).paused = true := by decide +kernel

/-- A grammar image of one state, and a sequence held by it. -/
def withMask (q : Seq) (held : Nat) : State :=
  let s := idle
  let g : Grammar := { reuse := 1, session := 1, tenant := 0 }
  { s with
    obj := { grammars := [(0, g)]
             seqs := (0, q) :: (List.range held).map (fun i => (i + 1, { q with maskReady := true })) }
    eng := { s.eng with tiles := [(0, { masks := [0] })] } }

theorem witness_masks :
    let q : Seq := { seqW with grammar := some 0, maskReady := false }
    let s := withMask q 0
    tileUp s 0 = true ∧ (look s.eng.tiles 0).selRetired = false ∧ (look s.eng.tiles 0).selFaults = 0
      ∧ (look s.eng.tiles 0).masks = 0 :: [] ∧ masksHeld s 0 < 16 ∧ stopped s (tileClk 0) = false ∧ find? s.obj.seqs 0 = some q
      ∧ (seqGrammar s q).isSome = true ∧ 16 ≤ masksHeld (withMask q 16) 0
      ∧ 1 ≤ (look [((0 : Fin 64), ({ selFaults := 1 } : TileRec))] (0 : Fin 64)).selFaults := by decide +kernel

theorem witness_builds :
    let s := idle
    let q : Seq := { seqW with state := .decode, tokens := [1], run := some { cmd := 9 } }
    let t := { withSeq (cmdW 0) q with eng := { (rich (cmdW 0)).eng with courses := [(0, {})] } }
    (laneOf s 0 .generation).step = none ∧ courseActive s 0 = true ∧ stopped s (fabricClk 0) = false
      ∧ candidatesOf (atBoundary 0 .generation s) 0 .generation = []
      ∧ candidatesOf (atBoundary 0 .generation t) 0 .generation ≠ []
      ∧ filled (atBoundary 0 .generation t) .generation (candidatesOf (atBoundary 0 .generation t) 0 .generation) = false
      ∧ filled (atBoundary 0 .retrieval s) .retrieval (List.replicate 64 { who := 0 }) = true
      ∧ waited { t with now := 2 ^ 50 } 0 .generation [{ who := 0 }] = true
      ∧ waited t 0 .generation [{ who := 0 }] = false
      ∧ (buildGeneration t 0 [] []).1.rows ≠ [] ∧ (buildGeneration s 0 [] []).1.rows = [] := by decide +kernel

theorem witness_release :
    let k : Course := { generation := { step := some { rows := [{ who := 0, tenant := 0, kind := some .decode }] } },
                        retrieval := { step := some { crossed := true } } }
    let s := { idle with eng := { (idle).eng with courses := [(0, k)] } }
    (laneOf s 0 .generation).step.isSome = true ∧ courseActive s 0 = true ∧ stopped s (fabricClk 0) = false
      ∧ chainsEmpty s 0 .generation = true
      ∧ ((laneOf s 0 .generation).step.map (fun st => st.rows.all (fun r => rowEnded s r && rowRuns s r))) = some true
      ∧ (laneOf s 0 .retrieval).step.map (·.crossed) = some true ∧ chainsEmpty s 0 .retrieval = true := by decide +kernel

theorem witness_uncommitted :
    let r : Row := { who := 0, tenant := 0, kind := some .decode }
    let a : Row := { who := 0, tenant := 0, kind := none }
    let s := { atWork (cmdW 0x0300) with islands := [(tileClk 0, { paused := true })] }
    rowEnded s a = false ∧ rowRuns s r = false := by decide +kernel

theorem witness_tokenCommit :
    find? (withSeq (cmdW 0) { seqW with state := .decode }).obj.seqs 0 = some { seqW with state := .decode } := by decide +kernel

theorem witness_sequenceMoves :
    let q : Seq := { seqW with state := .swapped, inFlash := true, runnable := true }
    let s := withSeq (cmdW 0) q
    let b := withSeq (cmdW 0) seqW
    let f := { b with flash := { b.flash with swap := 2 ^ 30 } }
    let lost := { b with eng := { b.eng with courses := [(0, { lost := true })] } }
    awake s = true ∧ waitsRestore q = true ∧ restoreFirst s 0 q = true ∧ seqFits s q 0 = true
      ∧ leavesCourse lost seqW.course = true ∧ atStepBoundary lost 0 seqW = true ∧ seqFits lost seqW 1 = true
      ∧ leavesCourse lost 1 = false ∧ evictOrder f 0 = [(0, seqW)]
      ∧ (courseOf f 0).lost = false ∧ islandUp f (fabricClk 0) = true
      ∧ (∀ x ∈ f.obj.seqs, ¬ (x.2.course = 0 ∧ holdsSwap x.2 = true ∧ x.2.inFlash = false)) := by decide +kernel


def moveW (x : Tbl Nat Record) (m : Move) (c : Cmd) : State :=
  let s := withIndex c idxW
  { s with obj := { s.obj with corpora := [(0, x)] }, eng := { s.eng with moves := [(0, m)], nextMove := 1 },
           flash := { logical := 4096, qlcPerDie := 100, qlcLbas := 100, dieRows := 16 } }

/-- TierMoves has states of its kinds (R367 to R376). -/
theorem test_tierMoves :
    let c := cmdW 0x0503 ([1, 1, 0, 0, 0, 0, 0, 0] ++ List.replicate 8 0 ++ [8] ++ List.replicate 7 0) (mkHandle 0 1)
    let q := cmdW 0x0504 [] (mkHandle 0 1)
    let k := cmdW 0x0503 (List.replicate 24 0) (mkHandle 0 1)
    let r : Record := { bytes := List.replicate 64 1 }
    let m : Move := { obj := .corpus 0, toFlash := true, units := 8, cmd := some 0 }
    let s := withIndex c idxW
    let full := moveW [(3, r)] m c
    Runs s 0 0x0503 c ∧ c.begun = false ∧ c.arg 0 1 = 1 ∧ c.arg 1 1 = 1 ∧ indexOf s 1 c.handle = some (0, idxW)
      ∧ unitsLeft s m = [] ∧ unitsLeft full m = [3] ∧ mayStart full 0 m = true ∧ swapCancelled full m = none
      ∧ m.ready ≤ full.now ∧ unitRuns full m.obj 3 = true ∧ unitRuns { full with now := 0, islands := [(channelClk 0, { paused := true })] } m.obj 3 = false
      ∧ modelOf (withModel k { modelW with state := .cold }) 1 k.handle = some (0, { modelW with state := .cold })
      ∧ Runs (withModel k modelW) 0 0x0503 k ∧ k.begun = false ∧ k.arg 0 1 = 0
      ∧ quotaStops (withModel k modelW) 0 false (modelUnit (withModel k modelW) 0) = none
      ∧ homeFits (withModel k modelW) 0 (modelUnit (withModel k modelW) 0) 0 = true
      ∧ Runs (withIndex q idxW) 0 0x0504 q ∧ objOf (withIndex q idxW) 1 q.handle = some (.index 0) := by decide +kernel


def chanW (l : Tbl (Fin 96) Channel) (e : Tbl (Fin 96) Evacuation) (c : Cmd) : State :=
  { rich c with eng := { (rich c).eng with channels := l, evacuations := e } }

/-- ChannelEvacuation has states of its kinds (R359 to R361, R380, R381). -/
theorem witness_channels :
    let c := cmdW 0x0F08 (List.replicate 8 0)
    let d := cmdW 0x0F08 ([0, 1] ++ List.replicate 6 0)
    let at0 : Channel := { position := some 0 }
    let sp : Channel := { role := .spare }
    let s := chanW [(0, at0), (22, sp), (23, sp)] [] c
    let e : Evacuation := { receiver := 23, action := 0, cmd := some 0 }
    let run (e : Evacuation) := chanW [(0, { at0 with role := .evacuating }), (22, sp)] [(0, e)] c
    Runs s 0 0x0F08 c ∧ c.begun = false ∧ c.arg 1 1 = 0 ∧ channelAtRole s 0 = .active ∧ channelAtRole s 22 ≠ .active
      ∧ spareOf s 0 = some 23 ∧ spareOf (rich c) 0 = none ∧ evacuatingIn s 0 = none
      ∧ Runs (chanW [] [] d) 0 0x0F08 d ∧ d.arg 1 1 = 1
      ∧ evacuatingIn (run e) 0 = some (0, e) ∧ migratesAt (run e) 0 = false ∧ allCopied (run e) 0 = true ∧ awake (run e) = true
      ∧ channelAtRole (chanW [(0, { role := .training })] [(0, e)] c) 0 = .training
      ∧ channelAtRole (chanW [(0, { role := .testing })] [(0, e)] c) 0 = .testing ∧ e.cmd.bind (findCmd (run e)) = some c
      ∧ needsRetrain s { at0 with retuneFailed := true } = true
      ∧ calDue { s with now := 10 ^ 9 } 0 = true := by decide +kernel


/-- IslandRetirement and FaultsAndPatrols have states of their kinds. -/
theorem witness_retire :
    let at0 (n : Nat) := cmdW 0x0F07 (leBytes 2 n ++ List.replicate 6 0)
    let s (n : Nat) := rich (at0 n)
    let clk (n : Nat) : ClockId := BitVec.ofNat 16 ((at0 n).arg 0 2)
    Runs (s 0x0000) 0 0x0F07 (at0 0) ∧ islandName (clk 0) = some (.array 0) ∧ arraysUp (s 0) (courseOfArray 0) ≠ [0]
      ∧ islandName (clk 0x1001) = some (.tile 1) ∧ tilesUp (s 0) 0 ≠ [1]
      ∧ islandName (clk 0x2000) = some (.store 0) ∧ (moveStore 0 (s 0)).isSome
      ∧ islandName (clk 0x3000) = some (.fabric 0) ∧ otherCourses (s 0) 0 ≠ []
      ∧ islandName (clk 0x4003) = some (.channel 3) ∧ islandName (portClk 1) = some (.port 1)
      ∧ islandName (flashClk 2) = some (.flash 2) ∧ drainFits (s 0) (flashDies (s 0) 2 0) = true := by decide +kernel

theorem witness_faults :
    let c := cmdW 0x0F0B ([0, 0, 0, 0, 1, 0, 0, 0] ++ List.replicate 40 0)
    let s := rich c
    Runs s 0 0x0F0B c ∧ gate s c.op c.tenant ≠ .held ∧ c.outLen < 32 * c.arg 4 4 ∧ s.dev.stage = .service
      ∧ islandUp s (arrayClk 0) = true ∧ stopped s (arrayClk 0) = false ∧ (islandName (arrayClk 0)).isSome = true ∧ awake s = true
      ∧ scrubDue s 0 = true ∧ channelAtRole s 0 = .active ∧ (courseOf s 0).lost = false := by decide +kernel


/-- FlashMaintenance has states of its kinds. -/
theorem witness_flash :
    let b : Band := { next := 100, closed := false }
    let n : Namespace := { kind := 0, nsze := 100, tenant := 0, blocks := [(3, .mapped [1] 7 2)] }
    let f : Flash := { namespaces := [(1, n)], bands := [(7, b), (8, { closed := true }), (9, { erasing := true })], dieRows := 16, qlcPerDie := 10, qlcLbas := 4, oneBitPerDie := 1, journal := 1,
                       scans := [5], folds := [{ gc := false, srcs := [8], dst := 20, notes := [] }] }
    let s : State := { idle with flash := f, now := 10 ^ 15 }
    bandFull s 7 = true ∧ s.flash.folds.find? (fun f => f.dst == 7) = none ∧ (s.flash.folds.find? (fun f => f.dst == 20)).isSome
      ∧ awake s = true ∧ (look s.flash.bands 9).erasing = true ∧ blocksOk n.blocks = true
      ∧ (blockAt n 3).map blockBytes = some (some [1])
      ∧ s.dev.cfg.flash.flushMs * 1000000 ≤ s.now - s.flash.journalAt ∧ freeQlc s < s.dev.cfg.flash.gcStart ∧ victim { s with flash := { f with bands := [(200, { closed := true })], folds := [] } } = some 200 := by decide +kernel

/-- Programs and erases run on their dies when every operation that waits has been issued, and a failed die may leave nothing staged. -/
theorem witness_flash_runs :
    let f : Flash := { namespaces := [(1, { kind := 0, nsze := 100, tenant := 0, blocks := [(3, .mapped [1] 7 2)] })]
                       bands := [(7, { next := 3 }), (9, { erasing := true })], dieRows := 16, qlcPerDie := 10, qlcLbas := 4
                       oneBitPerDie := 1, staging := [{ nsid := 1, lba := 3, band := 7, idx := 2 }], scans := [5] }
    let s : State := { idle with flash := f }
    let t : State := { s with flash := { f with issued := flashWork s } }
    runsOnDie t (.program 1 3) = true ∧ runsOnDie t (.erase 9) = true
      ∧ (t.flash.staging.find? (fun y => y.nsid == 1 && y.lba == 3)).isSome = true ∧ t.flash.scanAt ≤ t.now
      ∧ ({ f with staging := [] } : Flash).staging.all (fun x => dieOf f x.band x.idx != 5) = true := by
  have h : ∀ (s : State) (w : FlashWork), runsOnDie { s with flash := { s.flash with issued := flashWork s } } w = true := by
    intro s w
    have e : flashWork { s with flash := { s.flash with issued := flashWork s } } = flashWork s := rfl
    simp only [runsOnDie, e, List.all_eq_true, List.mem_filter, List.contains_iff_mem]
    exact fun x hx => hx.1
  exact ⟨h _ _, h _ _, rfl, by decide, rfl⟩


def nvmeW (waiting : List WaitingWrite) : State :=
  { rich (cmdW 0) with
    cmds := []
    sec := { lifecycle := .owned }
    dev := { (atWork (cmdW 0)).dev with mapReady := true }
    nvme := [(0, { enabled := true, sqs := [(0, { size := 8, tail := 3 }), (1, { size := 8, tail := 3, target := 1 })],
                   cqs := [(0, { size := 8 }), (1, { size := 8 })] })]
    flash := { logical := 4096, qlcPerDie := 100, qlcLbas := 100, dieRows := 16, oneBitPerDie := 4, waiting
               namespaces := [(1, { nsze := 100, attached := [0] })] } }

/-- NvmeAdmin has states of its kinds. -/
theorem witness_nvme_admin :
    let s := nvmeW []
    let u := takeEntry 0 0 s
    nvmeReady s 0 = true ∧ sqWaiting s 0 0 = true ∧ (ctrlOf s 1).enabled = false ∧ nvmeAllowed s = true
      ∧ queueId 2 = true ∧ find? (ctrlOf u 0).cqs 2 = none ∧ (find? (ctrlOf u 0).cqs 1).isSome = true
      ∧ firstFree u.flash.namespaces 1 1024 = some 2 ∧ 10 ≤ flashFree u ∧ mapFits u 10 = true
      ∧ tenantFlash u 0 + 10 * 4096 ≤ (quotasOf u 0).flash ∧ kind2Reads s 1 = false ∧ s.host.primary = 0 := by decide +kernel

/-- NvmeBlocks has states of its kinds. -/
theorem witness_nvme_blocks :
    let s := { nvmeW [] with tenants := [(0, { state := .active, quotas := some quotasW, dataKey := some 1 })] }
    let u := takeEntry 0 1 s
    let w : WaitingWrite := { ctrl := 0, sq := 1, cid := 9, nsid := 1, slba := 3, blocks := [padTo 4096 [7]] }
    let v := { u with flash := { u.flash with waiting := [w] } }
    let v' := { v with dev := { v.dev with cfg := { v.dev.cfg with flash := { v.dev.cfg.flash with gcUrgent := 1 } } } }
    nvmeReady s 0 = true ∧ sqWaiting s 0 1 = true ∧ rangeFault u 0 1 3 1 = none ∧ rangeFault u 0 1 3 98 = some .lbaOutOfRange
      ∧ flashReadOnly u = false ∧ overlapsWaiting s 1 3 1 = false ∧ overlapsWaiting v 1 3 1 = true
      ∧ mayStage v' 1 = true ∧ (place? v').isSome = true
      ∧ (readRange u 1 (look u.flash.namespaces 1) 3 1).isSome = true := by decide +kernel


def scanC (op handle imm : Nat) : Cmd :=
  cmdW op (leBytes 8 0x1021 ++ leBytes 8 0xFFFF ++ leBytes 8 0 ++ leBytes 8 0 ++ [16, 0, 2] ++ List.replicate 5 0
    ++ leBytes 8 (0x58 * 2 ^ 32) ++ leBytes 8 8192) handle imm

def scanW (x : Scan) (c : Cmd) : State := { rich c with obj := { scans := [(7, x)] } }

/-- ScanCheckValue and ScanCommands have states of their kinds. -/
theorem witness_scans :
    let c := scanC 0x0800 0 0
    let x : Scan := { newScan c with state := .running, unit := some 0 }
    Runs (rich c) 0 0x0800 c ∧ scanFaults (rich c) c = [] ∧ scanHandle c = 7
      ∧ scanOf (scanW x (scanC 0x0801 7 0)) 1 7 = some (7, x) ∧ Runs (scanW x (scanC 0x0801 7 0)) 0 0x0801 (scanC 0x0801 7 0)
      ∧ Runs (scanW x (scanC 0x0802 7 5)) 0 0x0802 (scanC 0x0802 7 5) ∧ (scanC 0x0802 7 5).imm < 2 ^ x.width
      ∧ Runs (scanW x (scanC 0x0803 7 0)) 0 0x0803 (scanC 0x0803 7 0)
      ∧ (x.take (List.replicate 4096 0)).atBoundary = true ∧ contextsBusy (scanW x c) 1 < 16
      ∧ findCmd (scanW x c) x.cmd = some c := by decide +kernel


def heleriW : List Byte := [70, 86, 72, 69, 1, 0, 1, 0] ++ leBytes 8 8192 ++ leBytes 8 3 ++ List.replicate 16 0 ++ [1] ++ List.replicate 8151 0

/-- TenantsImagesAttestation has states of its kinds (signatures and keys are uninterpreted, so no case that needs a
valid one is shown). -/
theorem witness_security :
    let c := cmdW 0x0F02 (List.replicate 40 0)
    let r := cmdW 0x0F02 (List.replicate 40 0) 0 1
    let a := cmdW 0x0F03 (List.replicate 40 0)
    let w := cmdW 0x0F04 (List.replicate 40 0)
    let x := cmdW 0x0F05 (List.replicate 40 0)
    let s := rich c
    Runs s 0 0x0F02 c ∧ c.imm = 0 ∧ c.bdLen 8 = 0 ∧ c.bdLen 24 = 0 ∧ (look s.tenants 0).state = .active
      ∧ Runs (rich r) 0 0x0F02 r ∧ r.imm = 1 ∧ firstFail (quotaChecks (leBytes 4 2 ++ List.replicate 60 0)) = none
      ∧ firstFail (quotaChecks (List.replicate 64 0)) = some (.invalidField, 0)
      ∧ Runs (rich a) 0 0x0F03 a ∧ a.outLen < 11661 ∧ Runs (rich w) 0 0x0F04 w ∧ (rich w).dev.usedB = decide (w.arg 16 1 = 1)
      ∧ Runs (rich x) 0 0x0F05 x ∧ slotImage (rich x) false = [] ∧ s.sec.lifecycle ≠ .quarantine ∧ s.sec.attOk = true := by
  decide +kernel


/-- OneFirmwareUpdateAtATime has a state of its kind. -/
theorem witness_update :
    let c := cmdW 0x0F06 (List.replicate 32 0)
    let s := { rich c with sec := { (rich c).sec with update := some { cmd := 3, cls := 0, left := [] } } }
    Runs s 0 0x0F06 c ∧ c.begun = false ∧ s.sec.update.isSome = true := by decide +kernel

/-- ManagementCommands has states of its kinds. -/
theorem witness_management :
    let m := cmdW 0x0F00
    let e := cmdW 0x0F01 [] 0 77
    let t := cmdW 0x0F0A ([0, 0x30] ++ List.replicate 6 0 ++ [0, 1] ++ List.replicate 6 0)
    let d := cmdW 0x0F0D (List.replicate 8 0)
    let x := cmdW 0x0F0D ([1] ++ List.replicate 7 0)
    let y := cmdW 0x0F0D ([2] ++ List.replicate 7 0) 0 0
    Runs (rich m) 0 0x0F00 m ∧ Runs (rich e) 0 0x0F01 e ∧ Runs (rich t) 0 0x0F0A t ∧ telemetryFaults t = []
      ∧ (register (rich t) (t.arg 0 2) (t.arg 8 8)).isSome = true ∧ Runs (rich d) 0 0x0F0D d ∧ d.arg 0 1 = 0
      ∧ Runs (rich x) 0 0x0F0D x ∧ x.arg 0 1 = 1 ∧ (rich d).cmds.all (fun t => t.id == d.id) = true
      ∧ Runs (rich y) 0 0x0F0D y := by decide +kernel

theorem witness_management2 :
    let e := cmdW 0x0F01 [] 0 77
    let y := cmdW 0x0F0D ([2] ++ List.replicate 7 0) 0 0
    let f := cmdW 0x0F06 (List.replicate 24 0)
    let v := cmdW 0x0F0C (List.replicate 16 0)
    let w := { cmdW 0x0F0C (leBytes 8 0 ++ [1] ++ List.replicate 7 0) with begun := true }
    let u : Update := { cls := 0, left := [arrayClk 0, arrayClk 1], cmd := 0 }
    let s := { rich f with sec := { (rich f).sec with update := some u } }
    y.arg 0 1 = 2 ∧ inScope {} 0 = true ∧ Runs (rich f) 0 0x0F06 f ∧ f.bdLen 0 = 0
      ∧ arrayClk 0 ∈ leftToLoad s u ∧ loadTurn s u (arrayClk 0) = true ∧ loadable s (arrayClk 0) = true
      ∧ Runs (rich v) 0 0x0F0C v ∧ v.bdLen 0 = 0 ∧ Runs (rich w) 0 0x0F0C w ∧ w.bdLen 0 ≠ 0 ∧ w.scope = []
      ∧ (rich w).sessions.all (fun x => x.1 == w.sid) = true ∧ powered (rich e) (arrayClk 3) = true
      ∧ arrayClk 3 ∈ allIslands ∧ tokenOk (rich w) [] = false := by decide +kernel


/-- PowerAndGovernor has states of its kinds. -/
theorem witness_power :
    let a := cmdW 0x0F09 (leBytes 2 400 ++ List.replicate 6 0)
    let b := cmdW 0x0F09 (leBytes 2 400 ++ List.replicate 6 0) 0 1
    let c := cmdW 0x0F09 (leBytes 2 400 ++ List.replicate 6 0) 0 2
    let s := rich a
    let zz := { rich c with dev := { (rich c).dev with asleep := true } }
    Runs s 0 0x0F09 a ∧ a.imm = 0 ∧ Runs (rich b) 0 0x0F09 b ∧ b.imm = 1 ∧ drained (rich b) = true ∧ Runs zz 0 0x0F09 c
      ∧ c.imm = 2 ∧ (rich b).eng.evacuations = [] ∧ awake s = true ∧ chainRuns s = false
      ∧ s.gov.lastChain + s.dev.cfg.sys.idleMs * 1000000 ≤ ({ s with now := 10 ^ 9 }).now
      ∧ running s = true ∧ (islandName (arrayClk 0)).isSome = true ∧ s.dev.gated = false
      ∧ (List.finRange 4).find? (fun k => (courseIslands k).contains (arrayClk 0)) = some 0 := by decide +kernel


/-- ResetsAndStartUp has states of its kinds. -/
theorem witness_resets :
    let s := rich (cmdW 0)
    let due := { s with now := 200000, dev := { s.dev with pendingReset := some (.cold, 5) } }
    let held := { s with pins := { s.pins with pfailN := false }, dev := { s.dev with stage := .hold } }
    let low := { s with pins := { s.pins with sysResetN := false }, dev := { s.dev with stage := .off } }
    due.dev.stage = .service ∧ 5 + 100000 ≤ due.now ∧ running s = true ∧ s.pins.pfailN = true ∧ s.pins.sysResetN = true
      ∧ s.pins.reference = true ∧ s.pins.pwrOk = true ∧ held.dev.holdCause = none ∧ held.pins.sysResetN = true
      ∧ low.pins.pfailN = true ∧ low.pins.pwrOk = true ∧ (look s.host.ports 0).retired = false
      ∧ (look s.host.ports 0).link = true ∧ s.dev.quoinMismatch = none
      ∧ startupStops { s with dev := { s.dev with board := { s.dev.board with rootKeyOk := false } } } = true := by
  decide +kernel


/-- SidebandMessages has states of its kinds. -/
theorem witness_sideband :
    State.reset.dev.stage ≠ .off ∧ sensor State.reset 1 = some 0 ∧ sensor State.reset 11 = none
      ∧ ({ State.reset with pins := { State.reset.pins with alert := true } } : State).pins.alert = true := by decide +kernel


/-- StepKeepsInvariant and the frame have states of their kinds. -/
theorem witness_inv : State.Inv State.reset ∧ changesFixed .idleTimeout = false := by
  refine ⟨⟨⟨?_, ?_, ?_, ?_, ?_, ?_, ?_⟩, ?_, fun _ => rfl, fun _ => ⟨rfl, rfl⟩, rfl, fun _ => rfl⟩, rfl⟩
  · unfold schedInRange; decide
  · unfold embInRange; decide
  · unfold memInRange; decide
  · unfold flashInRange; decide
  · unfold quotasInRange; decide
  · unfold sysInRange; decide
  · unfold hostInRange; decide
  · constructor <;> intro h <;> cases h

/-- A step of the reset state that keeps it, and a row that leaves the device in HOLD. -/
theorem witness_inv_step : step State.reset = .next (tick State.reset)
    ∧ (enterHold none State.reset).dev.stage = .hold := ⟨rfl, rfl⟩


end Sys2Proof.Tests
end

section
/-! SUPPORT. Proofs about start-up: which rows keep `State.fixed`, and what the fourteen rows that do not keep it leave
of the invariant, the straps and the parameters (R3, R502, R511, R515, R533). -/

open Sys2Proof Sys2Proof.Machine Sys2Proof.Laws
namespace Sys2Proof.Proofs

/-! ## The rows that keep `State.fixed` -/

/-- Every row outside `changesFixed` keeps the queue, the time, the input pins, the sideband settings and what start-up
fixed: each row by the frame law of its own meaning. -/
theorem exec_fixed {i : Instr} {s t : State} (hc : changesFixed i = false) (h : exec i s = .next t) :
    t.fixed = s.fixed := by
  cases i with
  | powerOn | startupReady | resetStart | pfailAssert | holdExit | supplyFall | pwrOkLoss | sysReset
  | sysResetRelease | referenceLost | quoinLockstepMismatch | thermalReport | mctpControl | pldmMessage => cases hc
  | registerWrite port fn offset wide value => exact execRegisterWrite_fixed port fn offset wide value s t h
  | functionEnable port fn value => exact execFunctionEnable_fixed port fn value s t h
  | quiesce port fn value => exact execQuiesce_fixed port fn value s t h
  | pfEventClear port fn bits => exact execPfEventClear_fixed port fn bits s t h
  | ringEnable port fn ring sqLog2 cqLog2 vector => exact execRingEnable_fixed port fn ring sqLog2 cqLog2 vector s t h
  | ringDisable port fn ring => exact execRingDisable_fixed port fn ring s t h
  | ringIdle port fn ring => exact execRingIdle_fixed port fn ring s t h
  | pfSqTail port fn ring tail => exact execPfSqTail_fixed port fn ring tail s t h
  | pfCqHead port fn ring head => exact execPfCqHead_fixed port fn ring head s t h
  | commandFetch port fn ring slots lists => exact execCommandFetch_fixed port fn ring slots lists s t h
  | admissionDispatch course => exact execAdmissionDispatch_fixed course s t h
  | interruptCoalesceTimer port fn ring => exact execInterruptCoalesceTimer_fixed port fn ring s t h
  | outputWriteFailed target => exact execOutputWriteFailed_fixed target s t h
  | nop cmd => exact execNop_fixed cmd s t h
  | sessionChallenge cmd => exact execSessionChallenge_fixed cmd s t h
  | adoptionChallenge cmd => exact execAdoptionChallenge_fixed cmd s t h
  | sessionOpen cmd => exact execSessionOpen_fixed cmd s t h
  | sessionClose cmd => exact execSessionClose_fixed cmd s t h
  | sessionCloseFinish sid => exact execSessionCloseFinish_fixed sid s t h
  | sessionAdopt cmd => exact execSessionAdopt_fixed cmd s t h
  | stateQuery cmd => exact execStateQuery_fixed cmd s t h
  | cancelCommand cmd => exact execCancelCommand_fixed cmd s t h
  | cancelObject cmd => exact execCancelObject_fixed cmd s t h
  | nonceExpiry sid => exact execNonceExpiry_fixed sid s t h
  | portLinkDown port => exact execPortLinkDown_fixed port s t h
  | portLinkUp port => exact execPortLinkUp_fixed port s t h
  | sessionHoldExpiry sid => exact execSessionHoldExpiry_fixed sid s t h
  | mgmtFailover => exact execMgmtFailover_fixed s t h
  | modelLoad cmd image => exact execModelLoad_fixed cmd image s t h
  | modelUnload cmd => exact execModelUnload_fixed cmd s t h
  | adapterLoad cmd image => exact execAdapterLoad_fixed cmd image s t h
  | adapterRetire cmd => exact execAdapterRetire_fixed cmd s t h
  | modelQuery cmd => exact execModelQuery_fixed cmd s t h
  | seqCreate cmd course stops => exact execSeqCreate_fixed cmd course stops s t h
  | seqAppend cmd input => exact execSeqAppend_fixed cmd input s t h
  | seqGenerate cmd => exact execSeqGenerate_fixed cmd s t h
  | carryFlushDone entry => exact execCarryFlushDone_fixed entry s t h
  | seqRebind cmd => exact execSeqRebind_fixed cmd s t h
  | seqSwapOut cmd => exact execSeqSwapOut_fixed cmd s t h
  | seqRelease cmd => exact execSeqRelease_fixed cmd s t h
  | seqQuery cmd => exact execSeqQuery_fixed cmd s t h
  | retrieve cmd => exact execRetrieve_fixed cmd s t h
  | rerank cmd set => exact execRerank_fixed cmd set s t h
  | pack cmd set => exact execPack_fixed cmd set s t h
  | retrieveRerankPack cmd => exact execRetrieveRerankPack_fixed cmd s t h
  | templateLoad cmd image => exact execTemplateLoad_fixed cmd image s t h
  | templateReplace cmd image => exact execTemplateReplace_fixed cmd image s t h
  | templateFree cmd => exact execTemplateFree_fixed cmd s t h
  | profileSet cmd => exact execProfileSet_fixed cmd s t h
  | indexCreate cmd config => exact execIndexCreate_fixed cmd config s t h
  | indexInsert cmd records => exact execIndexInsert_fixed cmd records s t h
  | indexCommit cmd => exact execIndexCommit_fixed cmd s t h
  | indexDelete cmd identifiers => exact execIndexDelete_fixed cmd identifiers s t h
  | indexRepairStart cmd => exact execIndexRepairStart_fixed cmd s t h
  | indexRepairStatus cmd => exact execIndexRepairStatus_fixed cmd s t h
  | indexQuery cmd => exact execIndexQuery_fixed cmd s t h
  | indexDrop cmd => exact execIndexDrop_fixed cmd s t h
  | repairAutoStart slot => exact execRepairAutoStart_fixed slot s t h
  | repairSweepEnd slot => exact execRepairSweepEnd_fixed slot s t h
  | nodeDrainFree slot => exact execNodeDrainFree_fixed slot s t h
  | regionPlacement slot region => exact execRegionPlacement_fixed slot region s t h
  | corpusWrite cmd records => exact execCorpusWrite_fixed cmd records s t h
  | corpusRead cmd identifiers => exact execCorpusRead_fixed cmd identifiers s t h
  | corpusDelete cmd identifiers => exact execCorpusDelete_fixed cmd identifiers s t h
  | tierMove cmd => exact execTierMove_fixed cmd s t h
  | moveQuery cmd => exact execMoveQuery_fixed cmd s t h
  | tableCreate cmd => exact execTableCreate_fixed cmd s t h
  | rowsWrite cmd records => exact execRowsWrite_fixed cmd records s t h
  | lookup cmd indices weights bags => exact execLookup_fixed cmd indices weights bags s t h
  | tableQuery cmd => exact execTableQuery_fixed cmd s t h
  | tableDrop cmd => exact execTableDrop_fixed cmd s t h
  | vocabLoad cmd image => exact execVocabLoad_fixed cmd image s t h
  | vocabUnload cmd => exact execVocabUnload_fixed cmd s t h
  | grammarLoad cmd image => exact execGrammarLoad_fixed cmd image s t h
  | grammarUnload cmd => exact execGrammarUnload_fixed cmd s t h
  | tokenize cmd text => exact execTokenize_fixed cmd text s t h
  | detokenize cmd tokens => exact execDetokenize_fixed cmd tokens s t h
  | scanStart cmd => exact execScanStart_fixed cmd s t h
  | scanSuspend cmd bytes => exact execScanSuspend_fixed cmd bytes s t h
  | scanResume cmd => exact execScanResume_fixed cmd s t h
  | scanQuery cmd => exact execScanQuery_fixed cmd s t h
  | scanContextGrant handle unit => exact execScanContextGrant_fixed handle unit s t h
  | scanEnd handle bytes bad => exact execScanEnd_fixed handle bytes bad s t h
  | mgmtStatus cmd => exact execMgmtStatus_fixed cmd s t h
  | epochMarker cmd => exact execEpochMarker_fixed cmd s t h
  | tenantSet cmd key quotas => exact execTenantSet_fixed cmd key quotas s t h
  | tenantRevoke cmd => exact execTenantRevoke_fixed cmd s t h
  | tenantRevokeFinish tenant => exact execTenantRevokeFinish_fixed tenant s t h
  | attest cmd => exact execAttest_fixed cmd s t h
  | attestKeyGenerate => exact execAttestKeyGenerate_fixed s t h
  | imageWrite cmd image => exact execImageWrite_fixed cmd image s t h
  | imageActivate cmd => exact execImageActivate_fixed cmd s t h
  | firmwareUpdate cmd image => exact execFirmwareUpdate_fixed cmd image s t h
  | islandFirmwareLoaded clk pass => exact execIslandFirmwareLoaded_fixed clk pass s t h
  | islandRetire cmd => exact execIslandRetire_fixed cmd s t h
  | channelRetrain cmd => exact execChannelRetrain_fixed cmd s t h
  | channelActivateSpare cmd => exact execChannelActivateSpare_fixed cmd s t h
  | powerCap cmd => exact execPowerCap_fixed cmd s t h
  | powerEnterP3 cmd => exact execPowerEnterP3_fixed cmd s t h
  | powerLeaveP3 cmd => exact execPowerLeaveP3_fixed cmd s t h
  | telemetryRead cmd => exact execTelemetryRead_fixed cmd s t h
  | faultLogRead cmd => exact execFaultLogRead_fixed cmd s t h
  | serviceEnter cmd token => exact execServiceEnter_fixed cmd token s t h
  | serviceLeave cmd => exact execServiceLeave_fixed cmd s t h
  | deviceResetCold cmd => exact execDeviceResetCold_fixed cmd s t h
  | deviceResetEngine cmd => exact execDeviceResetEngine_fixed cmd s t h
  | islandTest cmd failing => exact execIslandTest_fixed cmd failing s t h
  | stepBuild course lane jobs => exact execStepBuild_fixed course lane jobs s t h
  | fillWaitExpiry course lane jobs => exact execFillWaitExpiry_fixed course lane jobs s t h
  | stepCommit course lane data => exact execStepCommit_fixed course lane data s t h
  | maskJobDone tile => exact execMaskJobDone_fixed tile s t h
  | passCommit array busy => exact execPassCommit_fixed array busy s t h
  | arrayFault array kind => exact execArrayFault_fixed array kind s t h
  | selectionUnitFault tile => exact execSelectionUnitFault_fixed tile s t h
  | throttlePause island => exact execThrottlePause_fixed island s t h
  | throttleResume island => exact execThrottleResume_fixed island s t h
  | sequenceRestore entry course => exact execSequenceRestore_fixed entry course s t h
  | sequenceEvict course => exact execSequenceEvict_fixed course s t h
  | sequenceRelocate entry course => exact execSequenceRelocate_fixed entry course s t h
  | slotLoad msg => exact execSlotLoad_fixed msg s t h
  | hopReq msg => exact execHopReq_fixed msg s t h
  | hopAck msg => exact execHopAck_fixed msg s t h
  | hopFwd msg => exact execHopFwd_fixed msg s t h
  | pair msg => exact execPair_fixed msg s t h
  | resolve msg => exact execResolve_fixed msg s t h
  | entry msg => exact execEntry_fixed msg s t h
  | slotFree msg => exact execSlotFree_fixed msg s t h
  | coldBatchExpiry slot page lost => exact execColdBatchExpiry_fixed slot page lost s t h
  | migrationInterval => exact execMigrationInterval_fixed s t h
  | moveStart slot row crcOk => exact execMoveStart_fixed slot row crcOk s t h
  | rowDone slot row forwarded => exact execRowDone_fixed slot row forwarded s t h
  | moveUnitStart move => exact execMoveUnitStart_fixed move s t h
  | moveUnitVerify move result => exact execMoveUnitVerify_fixed move result s t h
  | moveOldHomeRelease move => exact execMoveOldHomeRelease_fixed move s t h
  | evacuationMapSwitch course => exact execEvacuationMapSwitch_fixed course s t h
  | evacuationDrainDone course => exact execEvacuationDrainDone_fixed course s t h
  | channelTrainingDone channel pass => exact execChannelTrainingDone_fixed channel pass s t h
  | channelTestDone channel pass => exact execChannelTestDone_fixed channel pass s t h
  | autoRetrain channel => exact execAutoRetrain_fixed channel s t h
  | lpddr6PatrolScrub channel found => exact execLpddr6PatrolScrub_fixed channel found s t h
  | channelCalibration channel driftPs retuneOk => exact execChannelCalibration_fixed channel driftPs retuneOk s t h
  | refreshTempPoll package range => exact execRefreshTempPoll_fixed package range s t h
  | sramPatrol clk corrected poisoned => exact execSramPatrol_fixed clk corrected poisoned s t h
  | nvmeDeleteIoSq ctrl cid qid => exact execNvmeDeleteIoSq_fixed ctrl cid qid s t h
  | nvmeDeleteIoCq ctrl cid qid => exact execNvmeDeleteIoCq_fixed ctrl cid qid s t h
  | nvmeCreateIoSq ctrl cid qid size cqid => exact execNvmeCreateIoSq_fixed ctrl cid qid size cqid s t h
  | nvmeCreateIoCq ctrl cid qid size vector => exact execNvmeCreateIoCq_fixed ctrl cid qid size vector s t h
  | nvmeGetLogPage ctrl cid page nsid => exact execNvmeGetLogPage_fixed ctrl cid page nsid s t h
  | nvmeIdentify ctrl cid cns nsid => exact execNvmeIdentify_fixed ctrl cid cns nsid s t h
  | nvmeAbort ctrl cid sqid target inQueue => exact execNvmeAbort_fixed ctrl cid sqid target inQueue s t h
  | nvmeSetFeatures ctrl cid feature value => exact execNvmeSetFeatures_fixed ctrl cid feature value s t h
  | nvmeGetFeatures ctrl cid feature => exact execNvmeGetFeatures_fixed ctrl cid feature s t h
  | nvmeAsyncEventRequest ctrl cid => exact execNvmeAsyncEventRequest_fixed ctrl cid s t h
  | namespaceCreate ctrl cid request => exact execNamespaceCreate_fixed ctrl cid request s t h
  | namespaceDelete ctrl cid nsid => exact execNamespaceDelete_fixed ctrl cid nsid s t h
  | namespaceAttachment ctrl cid nsid attach controllers =>
    exact execNamespaceAttachment_fixed ctrl cid nsid attach controllers s t h
  | formatNvm ctrl cid nsid ses => exact execFormatNvm_fixed ctrl cid nsid ses s t h
  | getLbaStatus ctrl cid nsid slba => exact execGetLbaStatus_fixed ctrl cid nsid slba s t h
  | nvmeFlush ctrl sq cid nsid => exact execNvmeFlush_fixed ctrl sq cid nsid s t h
  | nvmeWrite ctrl sq cid nsid slba blocks poisoned =>
    exact execNvmeWrite_fixed ctrl sq cid nsid slba blocks poisoned s t h
  | nvmeRead ctrl sq cid nsid slba count => exact execNvmeRead_fixed ctrl sq cid nsid slba count s t h
  | writeZeroes ctrl sq cid nsid slba count => exact execWriteZeroes_fixed ctrl sq cid nsid slba count s t h
  | datasetManagement ctrl sq cid nsid ranges => exact execDatasetManagement_fixed ctrl sq cid nsid ranges s t h
  | nvmeVerify ctrl sq cid nsid slba count => exact execNvmeVerify_fixed ctrl sq cid nsid slba count s t h
  | nvmeControllerReset ctrl => exact execNvmeControllerReset_fixed ctrl s t h
  | stagingAdmit => exact execStagingAdmit_fixed s t h
  | flashProgramDone nsid lba failed => exact execFlashProgramDone_fixed nsid lba failed s t h
  | bandCloseVerify band failing => exact execBandCloseVerify_fixed band failing s t h
  | foldStart => exact execFoldStart_fixed s t h
  | gcStart => exact execGcStart_fixed s t h
  | journalFlush => exact execJournalFlush_fixed s t h
  | closedBandRead band soft => exact execClosedBandRead_fixed band soft s t h
  | flashDieFail die => exact execFlashDieFail_fixed die s t h
  | mapScanDone => exact execMapScanDone_fixed s t h
  | flashCalibration channel => exact execFlashCalibration_fixed channel s t h
  | namespaceMapRebuilt => exact execNamespaceMapRebuilt_fixed s t h
  | perst port => exact execPerst_fixed port s t h
  | flrPf0 port => exact execFlrPf0_fixed port s t h
  | flrVf port vf => exact execFlrVf_fixed port vf s t h
  | governorSample watts => exact execGovernorSample_fixed watts s t h
  | governorWindow => exact execGovernorWindow_fixed s t h
  | pauseDutyInterval => exact execPauseDutyInterval_fixed s t h
  | idleTimeout => exact execIdleTimeout_fixed s t h
  | supervisorLockstepMismatch course => exact execSupervisorLockstepMismatch_fixed course s t h
  | heartbeatMiss clk => exact execHeartbeatMiss_fixed clk s t h
  | islandFaultReport clk report => exact execIslandFaultReport_fixed clk report s t h
  | faultLogSave => exact execFaultLogSave_fixed s t h
  | alertResponse => exact execAlertResponse_fixed s t h
  | perstRelease port => exact execPerstRelease_fixed port s t h
  | nvmeSqTailDoorbell ctrl qid tail => exact execNvmeSqTailDoorbell_fixed ctrl qid tail s t h
  | nvmeCqHeadDoorbell ctrl qid head => exact execNvmeCqHeadDoorbell_fixed ctrl qid head s t h
  | nvmeControllerEnable ctrl asqs acqs => exact execNvmeControllerEnable_fixed ctrl asqs acqs s t h
  | flashEraseDone band failed => exact execFlashEraseDone_fixed band failed s t h
  | flashReadDone nsid lba outcome => exact execFlashReadDone_fixed nsid lba outcome s t h

/-! ## What a step keeps -/

/-- A step from `s` to `t` keeps the invariant, and the straps and parameters where it ends in service or in HOLD. -/
structure Lawful (s t : State) : Prop where
  inv : State.Inv s → State.Inv t
  sampled : t.dev.stage = .service ∨ t.dev.stage = .hold →
    t.dev.straps = s.dev.straps ∧ t.dev.cfg = s.dev.cfg

theorem lawful_refl (s : State) : Lawful s s := ⟨id, fun _ => ⟨rfl, rfl⟩⟩

/-- What follows a lawful step and changes nothing fixed leaves it lawful. -/
theorem Lawful.of_fixed {s u t : State} (l : Lawful s u) (e : t.fixed = u.fixed) : Lawful s t where
  inv h := inv_of u t (l.inv h) e
  sampled h := by
    have hstage : t.dev.stage = u.dev.stage := congrArg Fixed.stage e
    obtain ⟨hstraps, hcfg⟩ := l.sampled (hstage ▸ h)
    exact ⟨(congrArg Fixed.straps e).trans hstraps, (congrArg Fixed.cfg e).trans hcfg⟩

theorem lawful_of_fixed {s t : State} (e : t.fixed = s.fixed) : Lawful s t := (lawful_refl s).of_fixed e

/-- A step that ends in start-up or stopped samples anew. -/
theorem lawful_of_started {s t : State} (e : t.dev.stage = .startup ∨ t.dev.stage = .stopped)
    (inv : State.Inv s → State.Inv t) : Lawful s t where
  inv := inv
  sampled h := by rcases e with e | e <;> simp [e] at h

/-- A step that ends in P4 has nothing sampled. -/
theorem lawful_of_off {s t : State} (e : t.dev.stage = .off) (inv : State.Inv s → State.Inv t) : Lawful s t where
  inv := inv
  sampled h := by simp [e] at h

theorem reference_of_inv {s : State} (h : State.Inv s) : s.pins.reference = s.dev.board.reference := by
  obtain ⟨-, -, -, -, href, -⟩ := h
  exact href

theorem pwrOk_of_hold {s : State} (h : State.Inv s) (hs : s.dev.stage = .hold) : s.pins.pwrOk = true := by
  obtain ⟨-, -, hpwr, -, -, -⟩ := h
  exact hpwr (by rw [show s.fixed.stage = _ from hs]; decide)

theorem running_of_service {s : State} (h : s.dev.stage = .service) : running s = true := by simp [running, h]

/-- A cold reset on pins that are good for it begins lawfully. -/
theorem lawful_coldStart {s u : State} (cause : Cause)
    (hp : State.Inv s → u.pins.pwrOk = true ∧ u.pins.sysResetN = true ∧ u.pins.pfailN = true)
    (hr : State.Inv s → u.pins.reference = u.dev.board.reference) : Lawful s (coldStart cause u) :=
  lawful_of_started (cold_stage cause u) fun h => (cold_inv cause u (hp h) (hr h)).1

/-- A step that may end in a cold reset is lawful when it is so without one and the pins are good for one. -/
theorem Lawful.coldStartIf {s u : State} (hu : Lawful s u) {p : Prop} [Decidable p] (cause : Cause)
    (hp : p → State.Inv s → u.pins.pwrOk = true ∧ u.pins.sysResetN = true ∧ u.pins.pfailN = true)
    (hr : State.Inv s → u.pins.reference = u.dev.board.reference) :
    Lawful s (if p then coldStart cause u else u) := by
  split
  next h => exact lawful_coldStart cause (hp h) hr
  next => exact hu

theorem lawful_engineStart {s u : State}
    (hp : State.Inv s → u.pins.pwrOk = true ∧ u.pins.sysResetN = true ∧ u.pins.pfailN = true)
    (hr : State.Inv s → u.pins.reference = u.dev.board.reference) : Lawful s (engineStart u) :=
  lawful_of_started (engine_stage u) fun h => (engine_inv u (hp h) (hr h)).1

theorem lawful_powerOff {s u : State} (e : u.fixed = s.fixed) : Lawful s (powerOff u) :=
  lawful_of_off rfl fun h => off_inv u (reference_of_inv (inv_of s u h e))

/-- HOLD keeps straps and parameters, and its entry needs power and the pin's record of the reference. -/
theorem lawful_enterHold {s u : State} (cause : Option Cause) (hcfg : u.dev.cfg = s.dev.cfg)
    (hstraps : u.dev.straps = s.dev.straps) (hp : State.Inv s → u.pins.pwrOk = true)
    (hr : State.Inv s → u.pins.reference = u.dev.board.reference) : Lawful s (enterHold cause u) where
  inv h := hold_inv cause u (by rw [hcfg]; exact h.1) (hp h) (hr h)
  sampled _ := by
    obtain ⟨f, e, fcfg, -, -, -, -, fstraps⟩ := hold_fixed cause u
    exact ⟨(congrArg Fixed.straps e).trans (fstraps.trans hstraps), (congrArg Fixed.cfg e).trans (fcfg.trans hcfg)⟩

/-- A state that differs from a running one in nothing fixed has good pins. -/
theorem goodPins_of_fixed {s u : State} (e : u.fixed = s.fixed) (hr : running s = true) (h : State.Inv s) :
    u.pins.pwrOk = true ∧ u.pins.sysResetN = true ∧ u.pins.pfailN = true :=
  running_pins u (inv_of s u h e) (by
    rw [running, show u.dev.stage = s.dev.stage from congrArg Fixed.stage e]
    exact hr)

/-- A row that finds the device in HOLD or P4 and leaves it there, and changes no more than pins and the board. -/
theorem lawful_of_resting {s t : State} (hrun : running s ≠ true)
    (hdev : t.dev.stage = s.dev.stage ∧ t.dev.ready = s.dev.ready ∧ t.dev.cfg = s.dev.cfg
      ∧ t.dev.straps = s.dev.straps)
    (hpwr : s.pins.pwrOk = true → t.pins.pwrOk = true)
    (href : s.pins.reference = s.dev.board.reference → t.pins.reference = t.dev.board.reference) : Lawful s t := by
  obtain ⟨estage, eready, ecfg, estraps⟩ := hdev
  have hrest : ¬ (t.dev.stage = .startup ∨ t.dev.stage = .stopped ∨ t.dev.stage = .service) := by
    simpa [running, estage] using hrun
  refine ⟨?_, fun _ => ⟨estraps, ecfg⟩⟩
  rintro ⟨hcfg, hready, hon, -, hr, -⟩
  refine ⟨?_, ?_, fun e => hpwr (hon fun e' => e (estage.trans e')), fun e => absurd e hrest, href hr,
    fun e => absurd (e.imp_right .inr) hrest⟩
  · show paramsInRange t.dev.cfg
    rwa [ecfg]
  · show t.dev.ready = true ↔ t.dev.stage = .service
    rwa [eready, estage]

/-- PFAIL_N going high, with straps that the next sampling finds, disturbs nothing that start-up fixed. -/
theorem lawful_pfailHigh (x : Straps) (s : State) :
    Lawful s (withStraps x { s with pins := { s.pins with pfailN := true } }) where
  inv := by
    rintro ⟨hcfg, hready, hpwr, hpins, href, hboard⟩
    exact ⟨hcfg, hready, hpwr, fun e => ⟨(hpins e).1, rfl⟩, href, hboard⟩
  sampled _ := ⟨rfl, rfl⟩

/-- SYS_RESET_N going high, with straps that the next sampling finds, disturbs nothing that start-up fixed. -/
theorem lawful_sysResetHigh (x : Straps) (s : State) :
    Lawful s (withStraps x { s with pins := { s.pins with sysResetN := true } }) where
  inv := by
    rintro ⟨hcfg, hready, hpwr, hpins, href, hboard⟩
    exact ⟨hcfg, hready, hpwr, fun e => ⟨rfl, (hpins e).2⟩, href, hboard⟩
  sampled _ := ⟨rfl, rfl⟩

/-! ## The fourteen rows -/

theorem execPowerOn_lawful {b : Board} {s t : State} (h : execPowerOn b s = .next t) : Lawful s t := by
  cases h
  split
  next hoff =>
    obtain ⟨hstage, -⟩ := hoff
    dsimp only
    split
    next hreset => exact lawful_coldStart _ (fun _ => ⟨rfl, hreset, rfl⟩) fun _ => rfl
    next =>
      exact lawful_of_resting (by simp [running, hstage]) ⟨rfl, rfl, rfl, rfl⟩ (fun _ => rfl) fun _ => rfl
  next => exact lawful_refl s

theorem execStartupReady_lawful {l : List ClockId} {s t : State} (h : execStartupReady l s = .next t) :
    Lawful s t := by
  cases h
  split
  next hstage =>
    obtain ⟨n, e⟩ := ready_fixed l s
    refine ⟨?_, fun _ => ⟨congrArg Fixed.straps e, congrArg Fixed.cfg e⟩⟩
    rintro ⟨hcfg, -, hpwr, hpins, href, hboard⟩
    rw [State.Inv, e]
    exact ⟨hcfg, iff_of_true rfl rfl, fun _ => hpwr (by rw [show s.fixed.stage = _ from hstage]; decide),
      fun _ => hpins (.inl hstage), href, fun _ => hboard (.inl hstage)⟩
  next => exact lawful_refl s

theorem execResetStart_lawful {x : Straps} {s t : State} (h : execResetStart x s = .next t) : Lawful s t := by
  cases h
  split
  next => exact lawful_refl s
  next k d _ =>
    split
    next hdue =>
      have hpins : State.Inv s → _ :=
        goodPins_of_fixed (u := cleanFlash s) (cleanFlash_fixed s) (running_of_service hdue.1)
      have href : State.Inv s → _ := fun hi => clean_ref s (reference_of_inv hi)
      cases k with
      | cold => exact lawful_coldStart _ hpins href
      | engine => exact lawful_engineStart hpins href
    next => exact lawful_refl s

theorem execPfailAssert_lawful {s t : State} (h : execPfailAssert s = .next t) : Lawful s t := by
  cases h
  split
  next =>
    dsimp only
    split
    next hrun =>
      exact lawful_enterHold (s := s) none rfl rfl (fun hi => (running_pins s hi hrun).1) reference_of_inv
    next hrun => exact lawful_of_resting hrun ⟨rfl, rfl, rfl, rfl⟩ id id
  next => exact lawful_refl s

theorem execHoldExit_lawful {x : Straps} {s t : State} (h : execHoldExit x s = .next t) : Lawful s t := by
  cases h
  have hhigh := lawful_pfailHigh x s
  have href : State.Inv s → _ := reference_of_inv
  split
  next => exact lawful_refl s
  next =>
    unfold releasePfail
    dsimp only
    split
    next => exact hhigh
    next hreset =>
      have hreset : s.pins.sysResetN = true := by simpa [withStraps] using hreset
      split
      next hstage => exact hhigh.coldStartIf _ (fun _ hi => ⟨pwrOk_of_hold (s := s) hi hstage, hreset, rfl⟩) href
      next => exact hhigh.coldStartIf _ (fun hpwr _ => ⟨hpwr, hreset, rfl⟩) href
      next => exact hhigh

theorem execSysResetRelease_lawful {x : Straps} {s t : State} (h : execSysResetRelease x s = .next t) :
    Lawful s t := by
  cases h
  have hhigh := lawful_sysResetHigh x s
  have href : State.Inv s → _ := reference_of_inv
  split
  next => exact lawful_refl s
  next =>
    dsimp only
    split
    next => exact hhigh
    next hpfail =>
      have hpfail : s.pins.pfailN = true := by simpa [withStraps] using hpfail
      split
      next hstage => exact hhigh.coldStartIf _ (fun _ hi => ⟨pwrOk_of_hold (s := s) hi hstage, rfl, hpfail⟩) href
      next => exact hhigh.coldStartIf _ (fun hpwr _ => ⟨hpwr, rfl, hpfail⟩) href
      next => exact hhigh

theorem execSupplyFall_lawful {s t : State} (h : execSupplyFall s = .next t) : Lawful s t := by
  cases h
  split
  next => exact lawful_powerOff rfl
  next => exact lawful_refl s

theorem execPwrOkLoss_lawful {s t : State} (h : execPwrOkLoss s = .next t) : Lawful s t := by
  cases h
  split
  next => exact lawful_refl s
  next =>
    split
    next => exact lawful_powerOff (lossyFlash_fixed s)
    next => exact lawful_powerOff rfl

theorem execSysReset_lawful {s t : State} (h : execSysReset s = .next t) : Lawful s t := by
  cases h
  split
  next => exact lawful_refl s
  next =>
    dsimp only
    split
    next hhold => exact lawful_of_resting (by simp [running, hhold]) ⟨rfl, rfl, rfl, rfl⟩ id id
    next =>
      split
      next =>
        have href : State.Inv s → _ := reference_of_inv
        exact lawful_of_off rfl fun hi => pins_inv _ (off_inv _ (clean_ref _ (href hi))) rfl
      next hrun => exact lawful_of_resting hrun ⟨rfl, rfl, rfl, rfl⟩ id id

theorem execReferenceLost_lawful {s t : State} (h : execReferenceLost s = .next t) : Lawful s t := by
  cases h
  split
  next => exact lawful_refl s
  next =>
    dsimp only
    split
    next hrun =>
      exact lawful_enterHold (s := s) _ rfl rfl (fun hi => (running_pins s hi hrun).1) fun _ => rfl
    next hrun => exact lawful_of_resting hrun ⟨rfl, rfl, rfl, rfl⟩ id fun _ => rfl

theorem execQuoinLockstepMismatch_lawful {x : Straps} {s t : State} (h : execQuoinLockstepMismatch x s = .next t) :
    Lawful s t := by
  cases h
  split
  next hservice =>
    have hlog : (logFault mgmtClk 4 2 0 1 s).fixed = s.fixed := logFault_fixed ..
    unfold quoinMismatch
    extract_lets again logged
    split
    next =>
      have hrun := running_of_service (s := s) (by simpa [inService] using hservice)
      have hpins : State.Inv s → _ :=
        goodPins_of_fixed (u := cleanFlash logged) ((cleanFlash_fixed _).trans hlog) hrun
      have href : State.Inv s → _ := fun hi => clean_ref logged (reference_of_inv (inv_of s _ hi hlog))
      exact lawful_coldStart _ hpins href
    next => exact lawful_of_fixed ((count_fixed ..).trans hlog)
  next => exact lawful_refl s

theorem execThermalReport_lawful {clk : ClockId} {temp : Int} {s t : State}
    (h : execThermalReport clk temp s = .next t) : Lawful s t := by
  cases h
  split
  next hrun =>
    simp only [Bool.and_eq_true] at hrun
    have hwatch := watchThresholds_fixed s (takeTemp clk temp s)
    rcases temp_cases clk temp s with hkept | ⟨u, hu, hhold⟩
    · exact lawful_of_fixed (hwatch.trans hkept)
    · refine Lawful.of_fixed ?_ hwatch
      rw [hhold]
      refine lawful_enterHold _ (congrArg Fixed.cfg hu) (congrArg Fixed.straps hu)
        (fun hi => (goodPins_of_fixed hu hrun.1 hi).1) fun hi => reference_of_inv (inv_of s u hi hu)
  next => exact lawful_refl s

theorem execMctpControl_lawful {e : Byte} {s t : State} (h : execMctpControl e s = .next t) : Lawful s t := by
  cases h
  split
  next => exact ⟨id, fun _ => ⟨rfl, rfl⟩⟩
  next => exact lawful_refl s

theorem execPldmMessage_lawful {m : Pldm} {s t : State} (h : execPldmMessage m s = .next t) : Lawful s t := by
  cases h
  split
  next =>
    cases m with
    | discover | setReceiver | other => exact ⟨id, fun _ => ⟨rfl, rfl⟩⟩
    | readSensor n => simp only [pldm]; split <;> exact ⟨id, fun _ => ⟨rfl, rfl⟩⟩
    | setThreshold n v => simp only [pldm]; split <;> exact ⟨id, fun _ => ⟨rfl, rfl⟩⟩
  next => exact lawful_refl s

/-! ## The two statements -/

theorem exec_lawful {i : Instr} {s t : State} (h : exec i s = .next t) : Lawful s t := by
  by_cases hc : changesFixed i = true
  · cases i with
    | powerOn => exact execPowerOn_lawful h
    | startupReady => exact execStartupReady_lawful h
    | resetStart => exact execResetStart_lawful h
    | pfailAssert => exact execPfailAssert_lawful h
    | holdExit => exact execHoldExit_lawful h
    | supplyFall => exact execSupplyFall_lawful h
    | pwrOkLoss => exact execPwrOkLoss_lawful h
    | sysReset => exact execSysReset_lawful h
    | sysResetRelease => exact execSysResetRelease_lawful h
    | referenceLost => exact execReferenceLost_lawful h
    | quoinLockstepMismatch => exact execQuoinLockstepMismatch_lawful h
    | thermalReport => exact execThermalReport_lawful h
    | mctpControl => exact execMctpControl_lawful h
    | pldmMessage => exact execPldmMessage_lawful h
    | _ => cases hc
  · exact lawful_of_fixed (exec_fixed (Bool.eq_false_iff.2 hc) h)

/-- Settles O59: with an empty queue a tick moves the time alone; otherwise the front row is lawful on the state with
the rest of the queue, which the invariant does not read. -/
theorem stepKeepsInvariant : Obligations.StepKeepsInvariant := by
  intro s t hinv h
  unfold step at h
  split at h
  next =>
    cases h
    obtain ⟨n, e⟩ := tick_fixed s
    rw [State.Inv, e]
    exact hinv
  next c rest _ => exact (exec_lawful h).inv hinv

/-- Settles O60. -/
theorem compatibilityModeIsFixedAtStartUp : Obligations.CompatibilityModeIsFixedAtStartUp := by
  refine ⟨fun i s t h hstage => ?_, fun i s t hc h => exec_fixed hc h⟩
  obtain ⟨hstraps, hcfg⟩ := (exec_lawful h).sampled hstage
  exact ⟨hstraps, by rw [hcfg], by rw [compatMode, compatMode, hstraps, hcfg], hcfg⟩

end Sys2Proof.Proofs
end

section
/-! SUPPORT. Proofs about the management commands: status, markers, telemetry, DEVICE_RESET, firmware updates and
SERVICE (R29, R115, R450 to R452, R477 to R480, R512). -/

open Sys2Proof Sys2Proof.Machine Sys2Proof.Laws
namespace Sys2Proof.Proofs

/-! ## Telemetry and DEVICE_RESET -/

theorem readTelemetry_refused {c : Cmd} {o : Nat} {os : List Nat} (h : telemetryFaults c = o :: os) (s : State) :
    readTelemetry c s = badField c o 0 s := by
  rw [readTelemetry, h]

theorem readTelemetry_known {c : Cmd} {s : State} {v : Nat} (h : telemetryFaults c = [])
    (hv : register s (c.arg 0 2) (c.arg 8 8) = some v) : readTelemetry c s = finish c { value := v } s := by
  simp only [readTelemetry, h, hv]

/-- A register that the model keeps no value of is answered with a drawn one. -/
theorem readTelemetry_drawn {c : Cmd} {s : State} (h : telemetryFaults c = [])
    (hv : register s (c.arg 0 2) (c.arg 8 8) = none) :
    readTelemetry c s = finish c { value := Config.freeNat s.fresh } s.draw := by
  simp only [readTelemetry, h, hv]

section OrderReset
variable {c : Cmd} {s : State} (k : ResetKind)

theorem orderReset_during_update (hb : c.begun = false) (hu : s.sec.update.isSome = true) :
    orderReset k c s = conflictDevice c s := by
  simp [orderReset, hb, hu]

/-- A first DEVICE_RESET stops the work, and completes at once where nothing is left. -/
theorem orderReset_first (hb : c.begun = false) (hu : s.sec.update = none) :
    orderReset k c s = if (stopWork c s).cmds.all (fun t => t.id == c.id || t.phase == .committed) then finish c {}
        { stopWork c s with dev := { (stopWork c s).dev with pendingReset := some (k, (stopWork c s).now) } }
      else stopWork c s := by
  simp [orderReset, hb, hu]

theorem orderReset_alone (hb : c.begun = true)
    (ha : s.cmds.all (fun t => t.id == c.id || t.phase == .committed) = true) :
    orderReset k c s = finish c {} { s with dev := { s.dev with pendingReset := some (k, s.now) } } := by
  rw [orderReset, hb, if_neg (by simp)]
  exact if_pos ha

theorem orderReset_waits (hb : c.begun = true)
    (ha : s.cmds.all (fun t => t.id == c.id || t.phase == .committed) = false) : orderReset k c s = s := by
  rw [orderReset, hb, if_neg (by simp)]
  exact if_neg (by simp [ha])

end OrderReset

/-- Both kinds of DEVICE_RESET order a reset of their kind. -/
theorem exec_deviceReset {s : State} {id : Nat} {c : Cmd} {k : ResetKind} {i : Instr}
    (hi : k = .cold ∧ i = .deviceResetCold id ∧ c.arg 0 1 = 0
      ∨ k = .engine ∧ i = .deviceResetEngine id ∧ c.arg 0 1 = 1)
    (hr : Runs s id 0x0F0D c) : exec i s = .next (orderReset k c s) := by
  rcases hi with ⟨rfl, rfl, harg⟩ | ⟨rfl, rfl, harg⟩
  · exact congrArg _ ((runCmd_runs hr _).trans (if_pos harg))
  · exact congrArg _ ((runCmd_runs hr _).trans (if_pos harg))

theorem exec_islandTest {s : State} {id : Nat} {c : Cmd} (failing : Option Nat) (hr : Runs s id 0x0F0D c)
    (harg : c.arg 0 1 = 2) : exec (.islandTest id failing) s = .next (testIsland failing c s) :=
  congrArg _ ((runCmd_runs hr _).trans (if_pos harg))

theorem testIsland_outside {c : Cmd} {s : State} (failing : Option Nat) (h : s.sec.service = none) :
    testIsland failing c s = conflictDevice c s := by
  simp only [testIsland, h]

section TestIsland
variable {c : Cmd} {s : State} {v : Service} (h : s.sec.service = some v) (ha : s.dev.asleep = false)
  (hd : s.dev.drowsy = false)
include h ha hd

theorem testIsland_outOfScope (failing : Option Nat) (hv : inScope v c.imm = false) :
    testIsland failing c s = badField c 56 0 s := by
  simp [testIsland, h, ha, hd, hv]

theorem testIsland_passes (hv : inScope v c.imm = true) : testIsland none c s = finish c {} s := by
  simp [testIsland, h, ha, hd, hv]

theorem testIsland_fails (n : Nat) (hv : inScope v c.imm = true) :
    testIsland (some n) c s = finish c { status := .selfTestFailed, detail := n } s := by
  simp [testIsland, h, ha, hd, hv]

end TestIsland

/-! ## Firmware updates -/

theorem exec_firmwareUpdate {s : State} {id : Nat} {c : Cmd} (img : Input) (hr : Runs s id 0x0F06 c) :
    exec (.firmwareUpdate id img) s = .next (updateFirmware img c s) :=
  congrArg _ (runCmd_runs hr _)

section Update
variable {c : Cmd} {s : State} (img : Input) (hb : c.begun = false)
include hb

theorem updateFirmware_second (hu : s.sec.update.isSome = true) : updateFirmware img c s = conflictDevice c s := by
  simp [updateFirmware, hb, hu]

/-- Without an image, the inactive slot decides. -/
theorem updateFirmware_noImage (hu : s.sec.update = none) (hl : c.bdLen 0 = 0) :
    updateFirmware img c s =
      if slotVerifies s (look s.sec.firmware (c.arg 16 1)) !(look s.sec.firmware (c.arg 16 1)).activeB then
        beginUpdate (c.arg 16 1) c s
      else rejected c .imageRejected s := by
  simp [updateFirmware, hb, hu, hl]

theorem updateFirmware_image (hu : s.sec.update = none) (hl : c.bdLen 0 ≠ 0) (b : List Byte) :
    updateFirmware (.data b) c s = updateFrom (c.arg 16 1) b c s := by
  simp [updateFirmware, hb, hu, hl, withInput]

end Update

/-- An image with a faulty envelope is written as one that does not verify, and the update ends. -/
theorem updateFrom_faulty {img : List Byte} (h : envelopeFault img ≠ none) (cls : Nat) (c : Cmd) (s : State) :
    updateFrom cls img c s = rejected c .imageRejected (setFirmware cls (fun f => f.writeOther img false) s) := by
  have hbad : (envelopeFault img).isNone = false := by
    rw [Option.isNone_eq_false_iff]
    exact Option.isSome_iff_ne_none.2 h
  simp [updateFrom, hbad]

theorem writeOther_activeB (f : Firmware) (img : List Byte) (ok : Bool) :
    (f.writeOther img ok).activeB = f.activeB := by
  unfold Firmware.writeOther
  split <;> rfl

/-- A slot that takes a rejected image does not verify, so it cannot become active (R477). -/
theorem slotVerifies_writeOther_false (s : State) (f : Firmware) (img : List Byte) :
    slotVerifies s (f.writeOther img false) (!f.activeB) = false := by
  unfold slotVerifies Firmware.writeOther
  cases f.activeB <;> rfl

theorem setFirmware_look (cls : Nat) (f : Firmware → Firmware) (s : State) :
    look (setFirmware cls f s).sec.firmware cls = f (look s.sec.firmware cls) :=
  look_upd_self ..

theorem logUpdate_sec (u : Update) (s : State) : (logUpdate u s).sec = s.sec := by
  unfold logUpdate
  split <;> rfl

theorem logUpdate_kept {u : Update} {s : State} {c : Cmd} (h : findCmd s u.cmd = some c) : logUpdate u s = s := by
  simp [logUpdate, h]

theorem logUpdate_gone {u : Update} {s : State} (h : findCmd s u.cmd = none) :
    logUpdate u s = logFault mgmtClk 8 0 u.cls u.loaded s := by
  simp [logUpdate, h]

/-- A commit ends the update and switches the slots of its class, whether its command is still there or not. -/
theorem commitUpdate_sec (u : Update) (s : State) : (commitUpdate u s).sec.update = none
    ∧ (look (commitUpdate u s).sec.firmware u.cls).activeB = !(look s.sec.firmware u.cls).activeB := by
  have hswitch := congrArg Firmware.activeB (setFirmware_look u.cls (fun f => { f with activeB := !f.activeB }) s)
  unfold commitUpdate
  dsimp only
  split
  · rw [logUpdate_sec]; exact ⟨rfl, hswitch⟩
  · rw [finish_sec, logUpdate_sec]; exact ⟨rfl, hswitch⟩

/-- A row that finds an island whose turn it is loads it. -/
theorem exec_islandFirmwareLoaded {s : State} {u : Update} {clk : ClockId} (pass : Bool) (hu : s.sec.update = some u)
    (hs : s.dev.stage = .service) (hm : clk ∈ leftToLoad s u) (ht : loadTurn s u clk = true)
    (hl : loadable s clk = true) : exec (.islandFirmwareLoaded clk pass) s = .next (islandLoaded u clk pass s) := by
  have hleft : (leftToLoad s u).isEmpty = false := List.isEmpty_eq_false_iff.2 (List.ne_nil_of_mem hm)
  simp [exec, execIslandFirmwareLoaded, hu, inService, hs, hleft, ht, hl]

theorem islandLoaded_goesOn {s : State} {u : Update} {clk k : ClockId} {ks : List ClockId}
    (h : (leftToLoad s u).filter (· != clk) = k :: ks) :
    islandLoaded u clk true s = { count 0x0A23 1 s with sec := { s.sec with
      update := some { u with left := k :: ks, loaded := u.loaded + 1 } } } := by
  have h' : (leftToLoad (count 0x0A23 1 s) u).filter (· != clk) = k :: ks := h
  simp [islandLoaded, h']

theorem islandLoaded_last {s : State} {u : Update} {clk : ClockId} (h : (leftToLoad s u).filter (· != clk) = []) :
    islandLoaded u clk true s = commitUpdate { u with left := [], loaded := u.loaded + 1 } (count 0x0A23 1 s) := by
  have h' : (leftToLoad (count 0x0A23 1 s) u).filter (· != clk) = [] := h
  simp [islandLoaded, h']

theorem islandLoaded_fails {s : State} {u : Update} {c : Cmd} (clk : ClockId) (h : findCmd s u.cmd = some c) :
    islandLoaded u clk false s
      = autoRetire clk (fail c .updateFailed 0 { s with sec := { s.sec with update := none } }) := by
  have h' : findCmd { s with sec := { s.sec with update := none } } u.cmd = some c := h
  simp [islandLoaded, logUpdate_kept h', h']

theorem islandLoaded_fails_gone {s : State} {u : Update} (clk : ClockId) (h : findCmd s u.cmd = none) :
    islandLoaded u clk false s
      = autoRetire clk (logFault mgmtClk 8 0 u.cls u.loaded { s with sec := { s.sec with update := none } }) := by
  have h' : findCmd { s with sec := { s.sec with update := none } } u.cmd = none := h
  have hlogged : findCmd (logFault mgmtClk 8 0 u.cls u.loaded { s with sec := { s.sec with update := none } }) u.cmd
      = none := h
  simp [islandLoaded, logUpdate_gone h', hlogged]

/-! ## SERVICE -/

theorem exec_serviceEnter {s : State} {id : Nat} {c : Cmd} (token : Input) (hr : Runs s id 0x0F0C c)
    (hl : c.bdLen 0 ≠ 0) : exec (.serviceEnter id token) s = .next (enterService token c s) :=
  congrArg _ ((runCmd_runs hr _).trans (if_neg hl))

theorem exec_serviceLeave {s : State} {id : Nat} {c : Cmd} (hr : Runs s id 0x0F0C c) (hl : c.bdLen 0 = 0) :
    exec (.serviceLeave id) s = .next (leaveService c s) :=
  congrArg _ ((runCmd_runs hr _).trans (if_pos hl))

theorem enterService_again {c : Cmd} {s : State} (token : Input) (hb : c.begun = false)
    (hs : (s.sec.service.isSome || s.cmds.any (fun t => t.op == 0x0F0C && t.begun)) = true) :
    enterService token c s = conflictDevice c s := by
  rw [enterService, hb, if_neg (by simp), if_pos hs]

theorem enterService_badToken {c : Cmd} {s : State} {token : List Byte} (hb : c.begun = false)
    (hs : (s.sec.service.isSome || s.cmds.any (fun t => t.op == 0x0F0C && t.begun)) = false)
    (ht : tokenOk s token = false) : enterService (.data token) c s = fail c .tokenRejected 0 s := by
  rw [enterService, hb, if_neg (by simp), if_neg (by simp [hs])]
  exact if_neg (by simp [ht])

/-- The whole device enters SERVICE once no other session and no other command is left. -/
theorem enterService_whole {c : Cmd} {s : State} (token : Input) (hb : c.begun = true) (hc : c.scope = [])
    (hs : s.sessions.all (fun x => x.1 == c.sid) = true) (hk : s.cmds.all (fun t => t.id == c.id) = true) :
    enterService token c s
      = finish c {} { clearDevice s with sec := { (clearDevice s).sec with service := some {} } } := by
  rw [enterService, if_pos hb, if_pos (by simp [hc]), enterWhole, hs, hk]
  rfl

theorem leaveService_outside {c : Cmd} {s : State} (h : s.sec.service = none) :
    leaveService c s = conflictDevice c s := by
  rw [leaveService, h]

/-- The whole device leaves SERVICE by a reset that its completion orders. -/
theorem leaveService_whole {c : Cmd} {s : State} {v : Service} (h : s.sec.service = some v) (hv : v.scope = []) :
    ∃ u, leaveService c s = { finish c {} u with dev := { (finish c {} u).dev with
      pendingReset := some (.cold, (finish c {} u).now), stopFetch := true } } := by
  rw [leaveService, h]
  exact ⟨_, if_pos (by rw [hv]; rfl)⟩

theorem leaveService_scope {c : Cmd} {s : State} {v : Service} (h : s.sec.service = some v) (hv : v.scope ≠ []) :
    ∃ u, leaveService c s = finish c {} (openAll u) ∧ u.sec.service = none := by
  rw [leaveService, h]
  exact ⟨_, if_neg (by simpa using hv), rfl⟩

/-! ## The statement -/

/-- Settles O53: each row runs its command, and the laws above say what the command then does. -/
theorem managementCommands : Obligations.ManagementCommands := by
  intro s id c
  refine ⟨fun hr => congrArg _ (runCmd_runs hr _), ?marker, ?telemetry, ?reset, ?test, ?update, ?loaded, ?enter,
    ?leave⟩
  case marker =>
    intro hr
    obtain ⟨hroot, hislands⟩ := mark_spec c.hdr.imm s
    exact ⟨mark c.hdr.imm s, congrArg _ (runCmd_runs hr _), hroot, hislands⟩
  case telemetry =>
    intro hr
    have hrun : exec (.telemetryRead id) s = .next (readTelemetry c s) := congrArg _ (runCmd_runs hr _)
    rw [hrun]
    exact ⟨fun o os h => congrArg _ (readTelemetry_refused h s), fun h =>
      ⟨fun v hv => congrArg _ (readTelemetry_known h hv), fun hv => ⟨_, congrArg _ (readTelemetry_drawn h hv)⟩⟩⟩
  case reset =>
    intro k i hi hr
    rw [exec_deviceReset hi hr]
    exact ⟨fun hb hu => congrArg _ (orderReset_during_update k hb hu),
      fun hb hu => ⟨_, rfl, orderReset_first k hb hu⟩,
      fun hb ha => congrArg _ (orderReset_alone k hb ha), fun hb ha => congrArg _ (orderReset_waits k hb ha)⟩
  case test =>
    intro failing hr harg
    rw [exec_islandTest failing hr harg]
    refine ⟨fun h => congrArg _ (testIsland_outside failing h), fun v h ha hd =>
      ⟨fun hv => congrArg _ (testIsland_outOfScope h ha hd failing hv), ?_, ?_⟩⟩
    · rintro hv rfl
      exact congrArg _ (testIsland_passes h ha hd hv)
    · rintro n hv rfl
      exact congrArg _ (testIsland_fails h ha hd n hv)
  case update =>
    intro img hr hb
    rw [exec_firmwareUpdate _ hr]
    refine ⟨fun hu => congrArg _ (updateFirmware_second _ hb hu), fun hu hl hv => ?_, fun hu hl hv => ?_,
      fun hu hl hf => ?_⟩
    · rw [updateFirmware_noImage _ hb hu hl, if_pos hv]
    · rw [updateFirmware_noImage _ hb hu hl, if_neg (Bool.eq_false_iff.1 hv)]
      rfl
    · rw [updateFirmware_image hb hu hl, updateFrom_faulty hf]
      refine ⟨_, rfl, ?_⟩
      rw [count_sec, setFirmware_look]
      exact ⟨writeOther_activeB .., slotVerifies_writeOther_false ..⟩
  case loaded =>
    intro u clk hu hs hm ht hl
    have hrun := fun pass => exec_islandFirmwareLoaded pass hu hs hm ht hl
    refine ⟨fun k ks h => ?_, fun h => ?_, fun k h => ?_, fun h => ?_⟩
    · rw [hrun, islandLoaded_goesOn h]
    · rw [hrun, islandLoaded_last h]
      exact ⟨_, rfl, commitUpdate_sec _ _⟩
    · rw [hrun, islandLoaded_fails clk h]
    · rw [hrun, islandLoaded_fails_gone clk h]
  case enter =>
    intro token hr hl
    rw [exec_serviceEnter _ hr hl]
    refine ⟨fun hb hs => congrArg _ (enterService_again _ hb hs),
      fun hb hs ht => congrArg _ (enterService_badToken hb hs ht), fun hb hc hs hk => ?_⟩
    exact ⟨_, congrArg _ (enterService_whole _ hb hc hs hk), rfl, rfl, rfl⟩
  case leave =>
    intro hr hl
    rw [exec_serviceLeave hr hl]
    refine ⟨fun h => congrArg _ (leaveService_outside h), fun v h hv => ?_, fun v h hv => ?_⟩
    · obtain ⟨u, hu⟩ := leaveService_whole h hv
      exact ⟨u, _, rfl, hu⟩
    · obtain ⟨u, hu, hnone⟩ := leaveService_scope h hv
      exact ⟨u, congrArg _ hu, hnone⟩

end Sys2Proof.Proofs
end

section
/-! SUPPORT. Proofs about the answers of the hop engines: what a HOP_REQ, a HOP_FWD and a RESOLVE send, and that they
leave the rest of the device as it was (R31, R276, R277, R279, R280, R294). -/

open Sys2Proof Sys2Proof.Machine Sys2Proof.Laws
namespace Sys2Proof.Proofs

/-! ## What is said on the network -/

/-- What a message of the hop protocol says: all but its number and its query slot. -/
def said (m : HopMsg) : Nat × Nat × Nat × HopKind × Nat × Nat := (m.walk, m.src, m.dst, m.kind, m.node, m.tag)

def onNet (s : State) : List (Nat × Nat × Nat × HopKind × Nat × Nat) := s.eng.net.map said

/-- What the PAIR of a node says that an engine sends. -/
def pairSaid (m : HopMsg) (w : Walk) (x : Index) (e n : Nat) : Nat × Nat × Nat × HopKind × Nat × Nat :=
  (w.id, e, w.tile, pairOfNode m w x e n, n, m.tag)

/-- What the home engine of a hop says of the neighbours: a PAIR of each in its package, then a HOP_FWD to each other
code engine. -/
def spreadSaid (s : State) (m : HopMsg) (w : Walk) (x : Index) (ns : List Nat) :
    List (Nat × Nat × Nat × HopKind × Nat × Nat) :=
  let far := ns.filter (fun n => !samePackage (homeEngine s x n) m.dst)
  (ns.filter (fun n => samePackage (homeEngine s x n) m.dst)).map (fun n => pairSaid m w x (homeEngine s x n) n)
    ++ (firstMet (far.map (homeEngine s x))).map (fun e =>
      (w.id, m.dst, e, HopKind.fwd (far.filter (fun n => homeEngine s x n == e)), m.node, m.tag))

theorem onNet_send (walk src dst : Nat) (kind : HopKind) (node tag : Nat) (s : State) :
    onNet (send walk src dst kind node tag s) = onNet s ++ [(walk, src, dst, kind, node, tag)] := by
  simp [onNet, send, said]

theorem onNet_ifBump (c : Prop) [Decidable c] (clk : ClockId) (sel n : Nat) (s : State) :
    onNet (if c then bump clk sel n s else s) = onNet s := by
  simp only [onNet, ifbump_eng]

theorem onNet_received (m : HopMsg) (s : State) :
    onNet (received m s) = (s.eng.net.filter (·.id != m.id)).map said := by
  simp only [onNet, received_eng]

theorem onNet_sendPairs (m : HopMsg) (w : Walk) (x : Index) (e : Nat → Nat) (ns : List Nat) (s : State) :
    onNet (foldS (fun s n => sendPair m w x (e n) n s) ns s) = onNet s ++ ns.map (fun n => pairSaid m w x (e n) n) :=
  say_sendPairs said rfl m w x e ns s

/-- The homes of the neighbours are read in `v` while the messages go out, and stay those of `s`. -/
theorem onNet_spreadNeighbours {s v : State} (hv : chans v = chans s) (m : HopMsg) (w : Walk) (x : Index)
    (ns : List Nat) : onNet (spreadNeighbours m w x ns v) = onNet v ++ spreadSaid s m w x ns := by
  rw [spread_eq m w x v s hv, onNet, say_sendFwds said rfl, ← onNet, onNet_sendPairs, List.append_assoc]
  rfl

theorem indexAt_congr {s t : State} (h : t.obj = s.obj) (slot : Nat) : indexAt t slot = indexAt s slot := by
  rw [indexAt, indexAt, h]

theorem onlyNet_obj {s t : State} (h : onlyNet s t) : t.obj = s.obj := by
  obtain ⟨c, n, k, rfl⟩ := h
  rfl

/-! ## A hop at its engine (R277, R280) -/

def hopUnreadable (m : HopMsg) (x : Index) (lost : Bool) : Bool :=
  lost || (if 160 ≤ m.dst then (nodeOf x m.node).badUpper else (nodeOf x m.node).badSlot)

/-- The neighbours that the engine of a hop reads. -/
def hopNeighbours (m : HopMsg) (w : Walk) (x : Index) (lost : Bool) : List Nat :=
  if hopUnreadable m x lost then [] else if 160 ≤ m.dst then ((nodeOf x m.node).upper[w.layer - 1]?).getD []
    else (nodeOf x m.node).neighbours

def ackSaid (m : HopMsg) (w : Walk) (n : Nat) (bad : Bool) : Nat × Nat × Nat × HopKind × Nat × Nat :=
  (w.id, m.dst, w.tile, .ack n bad, m.node, m.tag)

/-- The state in which the HOP_ACK of a hop has gone out. -/
def acked (m : HopMsg) (w : Walk) (x : Index) (lost : Bool) (s : State) : State :=
  let t := send w.id m.dst w.tile (.ack (hopNeighbours m w x lost).length (hopUnreadable m x lost)) m.node m.tag
    (bump (endpointClk m.dst) 0x0300 1 s)
  if hopUnreadable m x lost && m.dst < 160 then bump (endpointClk m.dst) 0x0307 1 t else t

theorem onNet_acked (m : HopMsg) (w : Walk) (x : Index) (lost : Bool) (s : State) : onNet (acked m w x lost s)
    = onNet s ++ [ackSaid m w (hopNeighbours m w x lost).length (hopUnreadable m x lost)] := by
  rw [acked, onNet_ifBump, onNet_send]
  rfl

theorem chans_acked (m : HopMsg) (w : Walk) (x : Index) (lost : Bool) (s : State) :
    chans (acked m w x lost s) = chans s := by
  unfold acked
  dsimp only
  split <;> rfl

theorem serveHop_eq (m : HopMsg) (w : Walk) (lost : Bool) (s : State) :
    let x := indexAt s w.index
    serveHop m w lost s = if 160 ≤ m.dst
      then foldS (fun s n => sendPair m w x m.dst n s) (hopNeighbours m w x lost) (acked m w x lost s)
      else spreadNeighbours m w x (hopNeighbours m w x lost) (acked m w x lost s) := rfl

/-- A store hop engine serves all neighbours itself; a home engine those of its package. -/
theorem onNet_serveHop {s v : State} (hv : chans v = chans s) (m : HopMsg) (w : Walk) (lost : Bool) :
    let x := indexAt v w.index
    let ns := hopNeighbours m w x lost
    onNet (serveHop m w lost v) = onNet v ++ ackSaid m w ns.length (hopUnreadable m x lost) ::
      if 160 ≤ m.dst then ns.map (pairSaid m w x m.dst) else spreadSaid s m w x ns := by
  intro x ns
  have hu : chans (acked m w x lost v) = chans s := (chans_acked ..).trans hv
  rw [serveHop_eq, List.append_cons, ← onNet_acked]
  split
  · exact onNet_sendPairs m w x (fun _ => m.dst) ns _
  · exact onNet_spreadNeighbours hu m w x ns

theorem onNet_serveHop_store {m : HopMsg} (hd : 160 ≤ m.dst) (w : Walk) (lost : Bool) (s : State) :
    let x := indexAt s w.index
    let v := nodeOf x m.node
    let ns := (v.upper[w.layer - 1]?).getD []
    onNet (serveHop m w lost s) = onNet s ++ if v.badUpper = true ∨ lost = true then [ackSaid m w 0 true]
      else ackSaid m w ns.length false :: ns.map (pairSaid m w x m.dst) := by
  intro x v ns
  rw [onNet_serveHop rfl, if_pos hd]
  by_cases hbad : v.badUpper = true ∨ lost = true
  · have hun : hopUnreadable m x lost = true := by simpa [hopUnreadable, hd, or_comm] using hbad
    rw [if_pos hbad, hopNeighbours, hun]
    rfl
  · have hun : hopUnreadable m x lost = false := by simpa [hopUnreadable, hd, and_comm] using hbad
    rw [if_neg hbad, hopNeighbours, hun, if_pos hd]
    rfl

theorem onNet_serveHop_home {s v : State} (hv : chans v = chans s) {m : HopMsg} (hd : m.dst < 160) (w : Walk)
    (lost : Bool) :
    let x := indexAt v w.index
    let y := nodeOf x m.node
    onNet (serveHop m w lost v) = onNet v ++ if y.badSlot = true ∨ lost = true then [ackSaid m w 0 true]
      else ackSaid m w y.neighbours.length false :: spreadSaid s m w x y.neighbours := by
  intro x y
  have hd' : ¬ 160 ≤ m.dst := by omega
  rw [onNet_serveHop hv, if_neg hd']
  by_cases hbad : y.badSlot = true ∨ lost = true
  · have hun : hopUnreadable m x lost = true := by simpa [hopUnreadable, hd', or_comm] using hbad
    rw [if_pos hbad, hopNeighbours, hun]
    rfl
  · have hun : hopUnreadable m x lost = false := by simpa [hopUnreadable, hd', and_comm] using hbad
    rw [if_neg hbad, hopNeighbours, hun, if_neg hd']
    rfl

/-! ## The requests of a walk (R279, R294) -/

theorem onRequest_store {m : HopMsg} (hk : m.kind = .req) (hd : 160 ≤ m.dst) (w : Walk) (s : State) :
    onRequest m w s = serveHop m w m.poisoned s := by
  have hd' : ¬ m.dst < 160 := by omega
  cases hp : m.poisoned <;> simp [onRequest, onNode, serve, hk, hd', hp]

/-- At a home engine a hop counts toward its region first, so that the region may become hot by it. -/
theorem onRequest_home {m : HopMsg} (hk : m.kind = .req) (hd : m.dst < 160) {w : Walk} {s : State}
    (hc : coldNode (indexAt (countRegion w m.node s) w.index) m.node = false) :
    onRequest m w s = serveHop m w m.poisoned (countRegion w m.node s) := by
  cases hp : m.poisoned <;> simp [onRequest, onNode, serve, hk, hd, hc, hp]

theorem onNode_resolve {m : HopMsg} (hp : m.poisoned = false) {w : Walk} {s : State} {n : Nat}
    (hc : coldNode (indexAt s w.index) n = false) :
    onNode { m with node := n, kind := .resolve [n] } w s
      = serveResolve { m with node := n, kind := .resolve [n] } w false s := by
  simp [onNode, serve, hp, hc]

/-- What the ENTRY of a hot node says (R276, R277). -/
def entrySaid (m : HopMsg) (w : Walk) (x : Index) (n : Nat) : Nat × Nat × Nat × HopKind × Nat × Nat :=
  let v := nodeOf x n
  (w.id, m.dst, w.tile, .entry (if v.badIdent ∨ v.state ≠ .live ∨ w.epoch < v.epoch then nullIdent else v.ident)
    (hamming w.code v.code) false, n, 0)

theorem onNet_serveResolve (m : HopMsg) {w : Walk} {s : State} {n : Nat}
    (hc : coldNode (indexAt s w.index) n = false) :
    onNet (serveResolve { m with node := n, kind := .resolve [n] } w false s)
      = onNet s ++ [entrySaid m w (indexAt s w.index) n] := by
  rw [onNet, say_serveResolve said rfl]
  simp only [hc, Bool.false_eq_true, false_or]
  rfl

/-- The nodes of a RESOLVE are answered in order. -/
theorem onRequest_resolve {m : HopMsg} {ns : List Nat} (hk : m.kind = .resolve ns) (hp : m.poisoned = false) {w : Walk}
    {s : State} (hc : ∀ n ∈ ns, coldNode (indexAt s w.index) n = false) :
    onlyNet s (onRequest m w s) ∧ onNet (onRequest m w s) = onNet s ++ ns.map (entrySaid m w (indexAt s w.index)) := by
  simp only [onRequest, hk]
  clear hk
  induction ns generalizing s with
  | nil => exact ⟨⟨_, _, _, rfl⟩, (List.append_nil _).symm⟩
  | cons n ns ih =>
    obtain ⟨hn, hns⟩ := List.forall_mem_cons.1 hc
    have hstep := onlyNet_serveResolve { m with node := n, kind := .resolve [n] } w false s
    have hx := indexAt_congr (onlyNet_obj hstep) w.index
    obtain ⟨hframe, hnet⟩ := ih (fun k hk => hx ▸ hns k hk)
    rw [foldS_cons, onNode_resolve hp hn]
    exact ⟨onlyNet_trans hstep hframe, by rw [hnet, onNet_serveResolve m hn, hx, List.append_assoc]; rfl⟩

/-- A HOP_FWD is answered with a PAIR of each node that it names (R280). -/
theorem onFwd_eq {m : HopMsg} {ns : List Nat} (hk : m.kind = .fwd ns) (w : Walk) (s : State) :
    onFwd m w s = foldS (fun u n => sendPair m w (indexAt s w.index) m.dst n u) ns s := by
  simp only [onFwd, hk]
  exact fwd_eq m w m.dst ns s

theorem onlyNet_onFwd {m : HopMsg} {ns : List Nat} (hk : m.kind = .fwd ns) (w : Walk) (s : State) :
    onlyNet s (onFwd m w s) :=
  onFwd_eq hk w s ▸ onlyNet_foldS _ (fun _ _ => onlyNet_sendPair ..) ns s

theorem onNet_onFwd {m : HopMsg} {ns : List Nat} (hk : m.kind = .fwd ns) (w : Walk) (s : State) :
    onNet (onFwd m w s) = onNet s ++ ns.map (pairSaid m w (indexAt s w.index) m.dst) :=
  onFwd_eq hk w s ▸ onNet_sendPairs m w _ (fun _ => m.dst) ns s

theorem chans_countRegion_received (m : HopMsg) (w : Walk) (n : Nat) (s : State) :
    chans (countRegion w n (received m s)) = chans s :=
  chans_received m s

/-- Serving a counted hop changes, besides the network and the counters, the hops of its region alone (R294). -/
theorem countRegion_frame {m : HopMsg} {w : Walk} {n : Nat} {s t : State}
    (h : onlyNet (countRegion w n (received m s)) t) :
    { t with counters := s.counters, obj := s.obj, eng := { t.eng with
        net := s.eng.net, nextMsg := s.eng.nextMsg } } = s ∧ t.obj = (countRegion w n s).obj := by
  obtain ⟨_, _, _, hreceived⟩ := onlyNet_received m s
  obtain ⟨_, _, _, rfl⟩ := h
  rw [hreceived]
  exact ⟨rfl, rfl⟩

/-! ## What a message that arrives leaves -/

/-- Poison changes only what an answer says, not a request. -/
theorem safe_request {m : HopMsg} (hk : isReq m.kind = true ∨ isFwd m.kind = true ∨ isResolve m.kind = true) :
    m.safe = m := by
  unfold HopMsg.safe
  split
  · rfl
  · split
    case h_4 => rfl
    all_goals next h => simp [h, isReq, isFwd, isResolve] at hk

/-- What follows any message of the hop protocol (R304). -/
def hopDone (w : Walk) (t : State) : Host.Outcome State Fault Refusal :=
  .next (startWaiting (crossStage w.course (runJobs t)))

section Arrival
variable {s : State} {m : HopMsg} {w : Walk} (hf : s.eng.net.find? (·.id == m.id) = some m) (ha : arrives s m = true)
  (hw : walkOf s m.walk = some w)
include hf ha hw

theorem deliver_noPath (hpath : pathUp s (endpointCourse m.src) (endpointCourse m.dst) = false)
    {isKind : HopKind → Bool} (hk : isKind m.kind = true) (act : HopMsg → Walk → State → State) :
    Host.Outcome.next (deliverMsg m.id isKind act s) = hopDone w (stopQuery .resourceRetired w (received m s)) := by
  rw [deliver_eq hf hk ha hw act, hpath]
  rfl

theorem deliver_request (hpath : pathUp s (endpointCourse m.src) (endpointCourse m.dst) = true)
    {isKind : HopKind → Bool} (hk : isKind m.kind = true)
    (hreq : isReq m.kind = true ∨ isFwd m.kind = true ∨ isResolve m.kind = true)
    (act : HopMsg → Walk → State → State) :
    Host.Outcome.next (deliverMsg m.id isKind act s) = hopDone w (act m w (received m s)) := by
  rw [deliver_eq hf hk ha hw act, hpath, safe_request hreq]
  rfl

end Arrival

/-- Settles O26: without a path the query stops; with one, each request by what its engine says and what it leaves. -/
theorem hopEngineMessages : Obligations.HopEngineMessages := by
  intro s m w hf ha hw _ _
  have hx : indexAt (received m s) w.index = indexAt s w.index := indexAt_congr (received_obj m s) w.index
  refine ⟨fun hpath => ?noPath, fun hpath => ?path⟩
  case noPath =>
    exact ⟨fun hk => deliver_noPath hf ha hw hpath (hk ▸ rfl) onRequest,
      fun ns hk => deliver_noPath hf ha hw hpath (hk ▸ rfl) onFwd,
      fun ns hk => deliver_noPath hf ha hw hpath (hk ▸ rfl) onRequest⟩
  case path =>
    intro say rest pairOf ack same
    have hgot : onNet (received m s) = rest := onNet_received m s
    refine ⟨fun ns hk => ?fwd, fun hk hd => ?store, fun hk hd hc => ?home, fun ns hk hp hc => ?resolve⟩
    case fwd =>
      have hframe := onlyNet_trans (onlyNet_received m s) (onlyNet_onFwd hk w (received m s))
      refine ⟨_, deliver_request hf ha hw hpath (hk ▸ rfl) (.inr (.inl (hk ▸ rfl))) onFwd, ?_, onlyNet_eq hframe⟩
      rw [← hgot, ← hx]
      exact onNet_onFwd hk w (received m s)
    case store =>
      have hframe := onlyNet_trans (onlyNet_received m s) (onlyNet_serveHop m w m.poisoned (received m s))
      refine ⟨_, deliver_request hf ha hw hpath (hk ▸ rfl) (.inl (hk ▸ rfl)) onRequest, ?_⟩
      rw [onRequest_store hk hd, ← hgot, ← hx]
      exact ⟨onNet_serveHop_store hd w m.poisoned (received m s), onlyNet_eq hframe⟩
    case home =>
      refine ⟨_, deliver_request hf ha hw hpath (hk ▸ rfl) (.inl (hk ▸ rfl)) onRequest, ?_⟩
      rw [onRequest_home (s := received m s) hk hd hc, ← hgot]
      exact ⟨onNet_serveHop_home (chans_countRegion_received ..) hd w m.poisoned,
        countRegion_frame (onlyNet_serveHop ..)⟩
    case resolve =>
      obtain ⟨hframe, hnet⟩ := onRequest_resolve hk hp (s := received m s) (w := w) (fun n hn => hx.symm ▸ hc n hn)
      refine ⟨_, deliver_request hf ha hw hpath (hk ▸ rfl) (.inr (.inr (hk ▸ rfl))) onRequest, ?_,
        onlyNet_eq (onlyNet_trans (onlyNet_received m s) hframe)⟩
      rw [← hgot, ← hx]
      exact hnet

end Sys2Proof.Proofs
end

section
/-! SUPPORT. Proofs about BAR0: the function registers, the registers and the doorbells of a ring pair, its enabling and
disabling, and its coalescing timer (R42 to R52, R543). -/

open Sys2Proof Sys2Proof.Machine Sys2Proof.Laws
namespace Sys2Proof.Proofs

/-! ## The register that a write reaches -/

/-- A write of PF0 or of a virtual function goes to its BAR0. -/
theorem exec_registerWrite {s : State} {port : Fin 2} {fn : Nat} (hlink : (look s.host.ports port).link = true)
    (hfn : fn < 256) (off : Nat) (wide : Bool) (v : Word64) :
    exec (.registerWrite port fn off wide v) s = .next (writeReg port fn off wide v s) := by
  have hreach : ¬ (!reached s port) = true := by simp [reached, hlink]
  have hconf : ¬ 512 ≤ fn := by omega
  have hpf1 : fn ≠ pf1 := by unfold pf1; omega
  exact congrArg _ ((if_neg hreach).trans ((if_neg hconf).trans (if_neg hpf1)))

/-- An aligned write of a function that is there is not discarded. -/
theorem writeReg_aligned {s : State} {port : Fin 2} {fn off : Nat} {wide : Bool} (hfn : fn < 256)
    (hthere : fnPresent s port fn = true) (h4 : off % 4 = 0) (h8 : wide = true → off % 8 = 0) :
    ¬ (!fnOk fn || !fnPresent s port fn || off % 4 ≠ 0 || (wide && off % 8 ≠ 0)) = true := by
  cases wide <;> simp_all [fnOk]

section Writes
variable {s : State} {port : Fin 2} {fn : Nat} (hlink : (look s.host.ports port).link = true) (hfn : fn < 256)
  (hthere : fnPresent s port fn = true)
include hlink hfn hthere

theorem write_reaches : (reached s port && fnOk fn && fnPresent s port fn) = true := by
  simp [reached, fnOk, hlink, hfn, hthere]

theorem write_reaches_pair {ring : Nat} (hring : ring < ringPairs fn) :
    (reached s port && pairOk fn ring && fnPresent s port fn) = true := by
  simp [reached, pairOk, fnOk, hlink, hfn, hthere, hring]

theorem exec_writeFunc {o : Nat} (ho : o < 0x100) (h8 : o % 8 = 0) (v : Word64) :
    exec (.registerWrite port fn o true v) s = .next (writeFunc port fn o false true v s) := by
  have hupper : decide (o % 8 = 4) = false := by simp; omega
  rw [exec_registerWrite hlink hfn, writeReg,
    if_neg (writeReg_aligned hfn hthere (by omega) fun _ => h8), if_pos ho, hupper,
    Nat.div_mul_cancel (Nat.dvd_of_mod_eq_zero h8)]

/-- A 64-bit write at offset `o` of a ring pair's block. -/
theorem exec_writePair {ring o : Nat} (hring : ring < ringPairs fn) (ho : o < 0x40) (h8 : o % 8 = 0) (v : Word64) :
    exec (.registerWrite port fn (0x1000 + 0x40 * ring + o) true v) s
      = .next (writePair (port, fn, ring) o false true v s) := by
  have hupper : decide ((0x1000 + 0x40 * ring + o) % 8 = 4) = false := by simp; omega
  have hblock : (0x1000 + 0x40 * ring + o - 0x1000) / 0x40 = ring := by omega
  have hplace : (0x1000 + 0x40 * ring + o - 0x1000) % 0x40 / 8 * 8 = o := by omega
  rw [exec_registerWrite hlink hfn, writeReg,
    if_neg (writeReg_aligned hfn hthere (by omega) fun _ => by omega),
    if_neg (by omega), if_pos (by omega), hupper, hblock, hplace]

/-- A write of a ring pair's doorbells, the submission tail in the lower half and the completion head in the upper. -/
theorem exec_writeDoorbell {ring o : Nat} {wide : Bool} (hring : ring < ringPairs fn)
    (ho : o = 0 ∨ o = 4 ∧ wide = false) (v : Word64) :
    exec (.registerWrite port fn (doorbellBase fn + 8 * ring + o) wide v) s
      = .next (if wide then s else if o = 4 then cqHead (port, fn, ring) (v.truncate 16) s
        else sqTail (port, fn, ring) (v.truncate 16) s) := by
  have hbase : doorbellBase fn % 8 = 0 ∧ 0x1000 + 0x40 * ringPairs fn ≤ doorbellBase fn := by
    unfold doorbellBase ringPairs; split <;> omega
  have hupper : (doorbellBase fn + 8 * ring + o) % 8 = 4 ↔ o = 4 := by omega
  have hblock : (doorbellBase fn + 8 * ring + o - doorbellBase fn) / 8 = ring := by omega
  have h8 : wide = true → (doorbellBase fn + 8 * ring + o) % 8 = 0 := by rintro rfl; simp at ho; omega
  rw [exec_registerWrite hlink hfn, writeReg,
    if_neg (writeReg_aligned hfn hthere (by omega) h8),
    if_neg (by omega), if_neg (by omega), if_pos (by omega), hblock]
  simp only [hupper]

end Writes

/-! ## The function registers -/

/-- Settles O5: each write reaches its register, and the register's own law is what the statement says. -/
theorem functionRegisterWrites : Obligations.FunctionRegisterWrites := by
  intro s port fn hlink hfn hthere f with_
  have hreach := write_reaches hlink hfn hthere
  exact ⟨fun _ => congrArg _ (if_pos hreach), fun _ => congrArg _ (if_pos hreach),
    fun _ => congrArg _ (if_pos hreach),
    exec_writeFunc hlink hfn hthere (by decide) (by decide), exec_writeFunc hlink hfn hthere (by decide) (by decide)⟩

/-! ## The registers and doorbells of a ring pair -/

/-- PF_INT_MOD: its condition as a proposition. -/
theorem writeMod_eq (k : PairKey) (count timeUs : BitVec 16) (s : State) :
    let p := pairOf s k
    writeMod k count timeUs s
      = if p.enable = true ∧ p.unsignalled ≠ 0 ∧ (timeUs = 0 ∨ max 1 count.toNat ≤ p.unsignalled) then
          raiseMsix k.1 k.2.1 p.vector.toNat (setPair k { p with count, timeUs, unsignalled := 0 } s)
        else setPair k { p with count, timeUs } s := by
  simp [writeMod, and_assoc]

/-- Settles O7: the offset picks the register or the doorbell, whose own law says the rest. -/
theorem ringPairRegisterWrites : Obligations.RingPairRegisterWrites := by
  intro s port fn ring v hlink hfn hthere hring p base bell
  have hpair : ∀ o, o < 0x40 → o % 8 = 0 → exec (.registerWrite port fn (base + o) true v) s
      = .next (writePair (port, fn, ring) o false true v s) :=
    fun _ ho h8 => exec_writePair hlink hfn hthere hring ho h8 v
  have hbell : ∀ o wide, o = 0 ∨ o = 4 ∧ wide = false → exec (.registerWrite port fn (bell + o) wide v) s
      = .next (if wide then s else if o = 4 then cqHead (port, fn, ring) (v.truncate 16) s
        else sqTail (port, fn, ring) (v.truncate 16) s) :=
    fun _ _ ho => exec_writeDoorbell hlink hfn hthere hring ho v
  have hreach := write_reaches_pair hlink hfn hthere hring
  refine ⟨fun hoff => ⟨?_, ?_⟩, fun hon => ⟨?_, ?_⟩, ?_, ?_, ?_, ?_, ?_⟩
  · exact (hpair 0 (by decide) (by decide)).trans (congrArg _ (if_neg (Bool.eq_false_iff.1 hoff)))
  · exact (hpair 8 (by decide) (by decide)).trans (congrArg _ (if_neg (Bool.eq_false_iff.1 hoff)))
  · exact (hpair 0 (by decide) (by decide)).trans (congrArg _ (if_pos hon))
  · exact (hpair 8 (by decide) (by decide)).trans (congrArg _ (if_pos hon))
  · exact hpair 0x18 (by decide) (by decide)
  · exact (hpair 0x20 (by decide) (by decide)).trans (congrArg _ (writeMod_eq (port, fn, ring) _ _ s))
  · exact hbell 0 true (.inl rfl)
  · exact (hbell 0 false (.inl rfl)).trans (congrArg _ (if_pos hreach).symm)
  · exact (hbell 4 false (.inr ⟨rfl, rfl⟩)).trans (congrArg _ (if_pos hreach).symm)

/-! ## Enabling and disabling a ring pair -/

theorem cfgOk_iff {fn : Nat} (hfn : fn < 256) (sq cq vec : Nat) : cfgOk fn sq cq vec = true
    ↔ 4 ≤ sq ∧ sq ≤ 16 ∧ 4 ≤ cq ∧ cq ≤ 16 ∧ 1 ≤ vec ∧ vec < if fn = 0 then 128 else 17 := by
  have hpf1 : fn ≠ 256 := by omega
  simp [cfgOk, vectors, hpf1, and_assoc]

/-- Without an outstanding CANCEL nothing is released. -/
theorem releaseCancels_none {s : State} (h : ∀ c ∈ s.cmds, c.op ≠ 6) : releaseCancels s = s := by
  have hnone : s.cmds.filter (fun c => c.op == 6 && c.phase == .running && c.begun
      && c.waits.all (fun w => (findCmd s w).isNone)) = [] := by
    rw [List.filter_eq_nil_iff]
    exact fun c hc => by simp [h c hc]
  rw [releaseCancels, hnone]
  rfl

@[simp] theorem pairOf_setPair (k : PairKey) (p : Pair) (s : State) : pairOf (setPair k p s) k = p := by
  simp [pairOf, setPair]

/-- With no completion waiting and no CANCEL outstanding, nothing is discarded. -/
theorem discardHeld_none {k : PairKey} {s : State} (hheld : (pairOf s k).held = [])
    (hcancel : ∀ c ∈ s.cmds, c.op ≠ 6) : discardHeld k s = setPair k { pairOf s k with held := [] } s := by
  rw [discardHeld, hheld]
  exact releaseCancels_none hcancel

/-- The commands of a ring pair. -/
def ofPair (k : PairKey) (c : Cmd) : Bool := c.port == k.1 && c.fn == k.2.1 && c.ring == k.2.2

theorem pairQuiet_eq (s : State) (k : PairKey) : pairQuiet s k = !s.cmds.any (ofPair k) := rfl

theorem cancelPair_eq (k : PairKey) (s : State) : cancelPair k s = cancelAll ((s.cmds.filter (ofPair k)).map (·.id))
    { s with cmds := s.cmds.map (fun c => if ofPair k c then { c with discard := true } else c) } := rfl

/-- A pair without outstanding commands has none to cancel. -/
theorem cancelPair_quiet {k : PairKey} {s : State} (h : pairQuiet s k = true) : cancelPair k s = s := by
  have hnone : ∀ c ∈ s.cmds, ¬ ofPair k c = true := by simpa [pairQuiet_eq] using h
  have hcmds : s.cmds.map (fun c => if ofPair k c then { c with discard := true } else c) = s.cmds :=
    (List.map_congr_left fun c hc => if_neg (hnone c hc)).trans (List.map_id' _)
  rw [cancelPair_eq, List.filter_eq_nil_iff.2 hnone, hcmds]
  rfl

/-- The registers of a pair that a write of ENABLE = 0 leaves (R50). -/
def switchedOff (p : Pair) : Pair := { p with enable := false, cqHold := false, unsignalled := 0 }

theorem disableRing_enabled {k : PairKey} {s : State} (hon : (pairOf s k).enable = true) :
    disableRing k s = cancelPair k (discardHeld k (setPair k (switchedOff (pairOf s k)) s)) := if_pos hon

/-- Nothing to discard, to cancel or to release: only the pair's registers change. -/
theorem disableRing_quiet {k : PairKey} {s : State} (hon : (pairOf s k).enable = true) (hquiet : pairQuiet s k = true)
    (hheld : (pairOf s k).held = []) (hcancel : ∀ c ∈ s.cmds, c.op ≠ 6) :
    disableRing k s
      = setPair k { switchedOff (pairOf s k) with held := [] } (setPair k (switchedOff (pairOf s k)) s) := by
  have hnone : (pairOf (setPair k (switchedOff (pairOf s k)) s) k).held = [] := by rw [pairOf_setPair]; exact hheld
  rw [disableRing_enabled hon, discardHeld_none hnone hcancel, pairOf_setPair]
  exact cancelPair_quiet hquiet

/-- Settles O8: an enable is judged by its fields and the pair, and a disable cancels what the pair has, which may be
nothing. -/
theorem ringEnableAndDisable : Obligations.RingEnableAndDisable := by
  intro s port fn ring sq cq vec hfn hthere hring k p fits
  refine ⟨fun hlink => ?_, fun hoff hquiet => ?idle⟩
  case idle => exact congrArg _ (if_pos (by simp [pairOk, fnOk, hfn, hring, hoff, hquiet, k, p]))
  have hreach := write_reaches_pair hlink hfn hthere hring
  have henable : exec (.ringEnable port fn ring sq cq vec) s = .next (enableRing k sq cq vec s) :=
    congrArg _ (if_pos hreach)
  have hdisable : exec (.ringDisable port fn ring) s = .next (disableRing k s) := congrArg _ (if_pos hreach)
  have haccept : (!p.enable && p.idle && cfgOk fn sq cq vec) = true
      ↔ p.enable = false ∧ p.idle = true ∧ fits := by
    simp [cfgOk_iff hfn, and_assoc, fits]
  rw [henable, hdisable]
  refine ⟨fun hoff hidle hfits =>
      ⟨enabledPair p sq cq vec, congrArg _ (if_pos (haccept.2 ⟨hoff, hidle, hfits⟩)), ?_⟩,
    fun hbad => congrArg _ (if_neg fun h => ?_), fun hon => ⟨congrArg _ (disableRing_enabled hon),
      fun hquiet hheld hcancel => congrArg _ (disableRing_quiet hon hquiet hheld hcancel)⟩⟩
  · exact ⟨rfl, rfl, rfl, rfl, rfl, rfl, rfl, rfl, rfl, rfl, rfl, rfl, rfl, rfl⟩
  · obtain ⟨hoff, hidle, hfits⟩ := haccept.1 h
    rcases hbad with h | h | h
    · exact Bool.false_ne_true (hoff.symm.trans h)
    · exact Bool.false_ne_true (h.symm.trans hidle)
    · exact h hfits

/-! ## The doorbells and the timer -/

section Doorbells
variable {k : PairKey} {s : State}

theorem sqTail_discarded (h : (pairOf s k).enable = false ∨ (pairOf s k).error = true) (t : BitVec 16) :
    sqTail k t s = s := if_pos (by simpa using h)

theorem cqHead_disabled (h : (pairOf s k).enable = false) (t : BitVec 16) : cqHead k t s = s := if_pos (by simp [h])

variable (hon : (pairOf s k).enable = true)
include hon

theorem sqTail_running (herr : (pairOf s k).error = false) (t : BitVec 16) :
    sqTail k t s = if 2 ^ (pairOf s k).sqLog2.toNat ≤ t.toNat then ringError k 0x01 s
      else setPair k { pairOf s k with tail := t } s := if_neg (by simp [hon, herr])

theorem cqHead_accepted {h : BitVec 16} (hfault : headFault (pairOf s k) h = none) :
    cqHead k h s = drain k (setPair k { pairOf s k with head := h } s) := by
  simp [cqHead, hon, hfault]

theorem cqHead_outside {h : BitVec 16} (hout : 2 ^ (pairOf s k).cqLog2.toNat ≤ h.toNat) :
    cqHead k h s = if (pairOf s k).error then s else ringError k 0x02 s := by
  have hfault : headFault (pairOf s k) h = some 0x02 := if_pos hout
  simp [cqHead, hon, hfault]

end Doorbells

/-- Settles O9: the doorbells by the state of the pair and the value written, the timer by its moment. -/
theorem doorbellsAndTimer : Obligations.DoorbellsAndTimer := by
  intro s port fn ring hfn hthere hring k p
  refine ⟨fun hlink => ?_, fun hon hwait htimer hdue => congrArg _ (if_pos ?_)⟩
  · have hreach := write_reaches_pair hlink hfn hthere hring
    have htail : ∀ t, exec (.pfSqTail port fn ring t) s = .next (sqTail k t s) := fun _ => congrArg _ (if_pos hreach)
    have hhead : ∀ h, exec (.pfCqHead port fn ring h) s = .next (cqHead k h s) := fun _ => congrArg _ (if_pos hreach)
    simp only [htail, hhead]
    exact ⟨fun t hon herr hin => congrArg _ ((sqTail_running hon herr t).trans (if_neg (Nat.not_le.2 hin))),
      fun t hon herr hout => congrArg _ ((sqTail_running hon herr t).trans (if_pos hout)),
      fun t h => congrArg _ (sqTail_discarded h t), fun h hoff => congrArg _ (cqHead_disabled hoff h),
      fun h hon hfault => congrArg _ (cqHead_accepted hon hfault),
      fun h hon hout => congrArg _ (cqHead_outside hon hout)⟩
  · simpa [hon, hwait, hdue, k, p] using htimer

end Sys2Proof.Proofs
end

section
/-! SUPPORT. Proofs about fetching, admission and dispatch, and refused host writes (R47, R61, R62, R74, R78, R173,
R544). -/

open Sys2Proof Sys2Proof.Machine Sys2Proof.Laws
namespace Sys2Proof.Proofs

/-! ## Fetching -/

section Fetch
variable {s : State} {k : PairKey}

theorem fetch_fenced {b : List Byte} (hfence : (readHeader s b).flags.getLsbD 0 = true) (hbusy : pairBusy s k = true)
    (lists : List SgData) : fetch k (some b) lists s = s := by
  by_cases hstop : (!mayFetch s k || slotsReady (pairOf s k) = 0) = true
  · exact if_pos hstop
  · exact (if_neg hstop).trans (if_pos (.inr ⟨hfence, hbusy⟩))

variable (hmay : mayFetch s k = true) (hready : slotsReady (pairOf s k) ≠ 0)
include hmay hready

theorem fetch_readError (lists : List SgData) : fetch k none lists s = ringError k 0x04 s :=
  if_neg (by simp [hmay, hready])

theorem fetch_whole {b : List Byte} (hwhole : slotsOf b ≤ slotsReady (pairOf s k))
    (hfree : (readHeader s b).flags.getLsbD 0 = false ∨ pairBusy s k = false) (lists : List SgData) :
    fetch k (some b) lists s = takeCommand k (padTo (64 * slotsOf b) b) lists s := by
  have hgo : ¬ (slotsReady (pairOf s k) < slotsOf b ∨ ((readHeader s b).flags.getLsbD 0 ∧ pairBusy s k)) := by
    rintro (hshort | ⟨hfence, hbusy⟩)
    · omega
    · rcases hfree with h | h
      · exact Bool.false_ne_true (h.symm.trans hfence)
      · exact Bool.false_ne_true (h.symm.trans hbusy)
  exact (if_neg (by simp [hmay, hready])).trans (if_neg hgo)

end Fetch

/-- SQ_HEAD past the slots of the command that they hold (R47). -/
def pastSlots (k : PairKey) (b : List Byte) (s : State) : State := setPair k { pairOf s k with
  sqHead := BitVec.ofNat 16 (((pairOf s k).sqHead.toNat + slotsOf b) % ringSize (pairOf s k).sqLog2) } s

/-- The command that the slots hold. -/
def heldCmd (k : PairKey) (b : List Byte) (s : State) : Cmd := cmdOf (pastSlots k b s) k.1 k.2.1 k.2.2 b

section Take
variable {k : PairKey} {b : List Byte} {lists : List SgData} {s : State}

theorem takeCommand_passes (h : checks (pastSlots k b s) (heldCmd k b s) lists = none) :
    takeCommand k b lists s = enrol (heldCmd k b s) (pastSlots k b s) := by
  rw [heldCmd, pastSlots] at h
  rw [takeCommand, h]
  rfl

theorem takeCommand_fails {r : Refused} (h : checks (pastSlots k b s) (heldCmd k b s) lists = some r) :
    takeCommand k b lists s = refuse (heldCmd k b s) r (pastSlots k b s) := by
  rw [heldCmd, pastSlots] at h
  rw [takeCommand, h]
  rfl

end Take

/-- A check that fails but for want of room leaves no count (R79). -/
theorem refuse_final {r : Refused} (h : r.status ≠ .busyRetry) (c : Cmd) (s : State) :
    refuse c r s = post c.pairKey (completionOf s c true
      { status := r.status, effect := .none, value := r.value, detail := r.detail }) s := by
  rw [refuse, if_neg h]

/-! ## Dispatch -/

/-- Taking an object changes objects alone. -/
theorem takeObject_frame (c : Cmd) (s : State) : takeObject c s = { s with obj := (takeObject c s).obj } := by
  unfold takeObject
  dsimp only
  repeat' split
  all_goals rfl

/-- What `beginCommand` notes with its command: that it holds an object, or a query's answer. -/
def noted (c : Cmd) (s : State) (x : Cmd) : Cmd :=
  if takesObject c then { x with holds := true } else { x with answer := queryAnswer s c }

theorem noted_kept (c : Cmd) (s : State) (x : Cmd) : (noted c s x).id = x.id ∧ (noted c s x).phase = x.phase
    ∧ (noted c s x).hdr = x.hdr ∧ (noted c s x).params = x.params := by
  unfold noted
  split <;> exact ⟨rfl, rfl, rfl, rfl⟩

/-- A command that begins changes its own record, the draws, and the object that it takes. -/
theorem beginCommand_frame (c : Cmd) (s : State) : beginCommand c s = { setCmd c.id (noted c s) s with
    obj := (beginCommand c s).obj, fresh := (beginCommand c s).fresh } := by
  by_cases htakes : takesObject c = true
  · have hnoted : noted c s = fun x => { x with holds := true } := funext fun _ => if_pos htakes
    have hframe := takeObject_frame c (setCmd c.id (noted c s) s)
    have hfresh := congrArg State.fresh hframe
    rw [beginCommand, if_pos htakes, ← hnoted, hfresh]
    exact hframe
  · have hnoted : noted c s = fun x => { x with answer := queryAnswer s c } := funext fun _ => if_neg htakes
    rw [beginCommand, if_neg htakes, hnoted]
    rfl

theorem beginCommand_cmds (c : Cmd) (s : State) : (beginCommand c s).cmds = (setCmd c.id (noted c s) s).cmds :=
  (congrArg State.cmds (beginCommand_frame c s) :)

theorem beginCommand_host (c : Cmd) (s : State) : (beginCommand c s).host = s.host :=
  (congrArg State.host (beginCommand_frame c s) :)

theorem beginCommand_eng (c : Cmd) (s : State) : (beginCommand c s).eng = s.eng :=
  (congrArg State.eng (beginCommand_frame c s) :)

theorem beginCommand_tenants (c : Cmd) (s : State) : (beginCommand c s).tenants = s.tenants :=
  (congrArg State.tenants (beginCommand_frame c s) :)

theorem beginCommand_obj {c : Cmd} (h : takesObject c = false) (s : State) : (beginCommand c s).obj = s.obj := by
  rw [beginCommand, h]
  rfl

/-- A dispatched command runs. -/
def dispatched (c : Cmd) (course : Fin 4) (s : State) (x : Cmd) : Cmd := { x with
  phase := .running, runnableAt := s.now, course := if retrievalOp c.op then some course else none
  template := templateNow s c }

theorem findCmd_dispatch (c : Cmd) (course : Fin 4) (s : State) :
    findCmd (dispatch c course s) c.id = (findCmd s c.id).map (dispatched c course s) :=
  findCmd_setCmd s c.id _ fun _ => rfl

theorem dispatch_counted (c : Cmd) (course : Fin 4) (s : State) :
    (look (dispatch c course s).tenants c.tenant).dispatched = (look s.tenants c.tenant).dispatched + 1 := by
  simp [dispatch, setTenant, setCmd]

/-- A command that its object lets run is in RUNNING, with what it found noted. -/
theorem findCmd_beginCommand (c : Cmd) (course : Fin 4) (s : State) :
    findCmd (beginCommand c (dispatch c course s)) c.id
      = (findCmd s c.id).map (noted c (dispatch c course s) ∘ dispatched c course s) := by
  rw [← Option.map_map, ← findCmd_dispatch, ← findCmd_setCmd _ _ _ fun x => (noted_kept c _ x).1]
  exact congrArg (List.find? (·.id == c.id)) (beginCommand_cmds c _)

section Admission
variable {course : Fin 4} {s : State} {c : Cmd} (hawake : awake s = true) (hnext : nextDispatch s course = some c)
include hawake hnext

theorem exec_admissionDispatch : exec (.admissionDispatch course) s
    = .next (orRefuse c (admitRefusal (dispatch c course s) c) (beginCommand c) (dispatch c course s)) := by
  show execAdmissionDispatch course s = _
  simp [execAdmissionDispatch, hawake, hnext, admitCmd]

end Admission

/-! ## Refused host writes -/

theorem writeFailed_buffer {s : State} {id o n : Nat} {c : Cmd} (hc : findCmd s id = some c) (hf : c.failed = none) :
    findCmd (writeFailed (.buffer id o n) s) id = some { c with failed := some (o, n) } := by
  have hfind := findCmd_setCmd s id (fun c => if c.failed.isSome then c else { c with failed := some (o, n) })
    fun c => by split <;> rfl
  rw [hc] at hfind
  exact hfind.trans (congrArg some (if_neg (by simp [hf])))

/-- Settles O10: a fetch ends with its checks, a dispatch with its object's, and a refused write marks its target. -/
theorem fetchAndDispatch : Obligations.FetchAndDispatch := by
  intro s port fn ring hfn hring k p
  refine ⟨fun hmay hready => ?fetch, fun course c hawake hnext => ?dispatch, fun id o n c hc hf => ?buffer,
    fun hon herr => ?completion⟩
  case fetch =>
    have hrun : ∀ slots lists, exec (.commandFetch port fn ring slots lists) s = .next (fetch k slots lists s) :=
      fun _ _ => congrArg _ (if_pos (by simp [pairOk, fnOk, hfn, hring]))
    refine ⟨fun lists => (hrun _ _).trans (congrArg _ (fetch_readError hmay hready lists)),
      fun b lists hfence hbusy => (hrun _ _).trans (congrArg _ (fetch_fenced hfence hbusy lists)),
      fun b lists hwhole hfree => ?_⟩
    have htake := (hrun (some b) lists).trans (congrArg _ (fetch_whole hmay hready hwhole hfree lists))
    intro moved c
    exact ⟨rfl, rfl,
      fun hpass => ⟨enrol c moved, htake.trans (congrArg _ (takeCommand_passes hpass)), rfl, rfl, rfl, rfl⟩,
      fun r hfail hfinal => htake.trans (congrArg _ ((takeCommand_fails hfail).trans (refuse_final hfinal c moved)))⟩
  case dispatch =>
    intro d
    have hrun := exec_admissionDispatch hawake hnext
    refine ⟨fun r h => hrun.trans (by rw [h, orRefuse]),
      fun h => ⟨beginCommand c d, hrun.trans (by rw [h, orRefuse]), fun x hx => ?_, ?_, beginCommand_host c d,
        beginCommand_eng c d, fun hkeeps => beginCommand_obj hkeeps d⟩⟩
    · obtain ⟨-, hphase, hhdr, hparams⟩ := noted_kept c d (dispatched c course s x)
      exact ⟨_, by rw [findCmd_beginCommand, hx]; rfl, hphase, hhdr, hparams⟩
    · rw [beginCommand_tenants, dispatch_counted]
  case buffer => exact ⟨_, rfl, writeFailed_buffer hc hf⟩
  case completion => exact congrArg _ (if_pos (by simp [k, p, hon, herr]))

end Sys2Proof.Proofs
end

section
/-! SUPPORT. Proofs about sessions and the port links: challenge, opening, adoption, closing, STATE_QUERY, links that go
down and come up, and the management failover (R64, R71 to R73, R438, R488 to R490). -/

open Sys2Proof Sys2Proof.Machine Sys2Proof.Laws
namespace Sys2Proof.Proofs

/-! ## Challenge and opening -/

theorem challenge_accepted {c : Cmd} {s : State} (husable : tenantUsable s c.tenant = true)
    (hlimit : proofLimited s c.tenant = false) (hquota : sessionsOf s c.tenant < (quotasOf s c.tenant).sessions)
    (htenant : sessionsOf s c.tenant < 64) (hall : s.sessions.length < 8192) :
    challenge c s = finish c { count := 32, value := s.nextSession
                               writes := [(outputOffset s, leBytes 32 (Config.nonce s.fresh).toNat)] }
      (openChallenge c s) := by
  have hroom : ¬ ((quotasOf s c.tenant).sessions ≤ sessionsOf s c.tenant ∨ 64 ≤ sessionsOf s c.tenant
      ∨ 8192 ≤ s.sessions.length) := by omega
  rw [challenge, if_neg (by simp [husable]), if_neg (by simp [hlimit]), if_neg hroom]

/-- A session that may be adopted is in no other state (R72). -/
theorem adoptable_state {x : Session} (h : x.state = .opened ∨ x.state = .detached) :
    ¬ (x.state ≠ .opened ∧ x.state ≠ .detached) := fun ⟨hopen, hdetached⟩ => h.elim hopen hdetached

section Session
variable {c : Cmd} {s : State} {x : Session} (hx : find? s.sessions c.sid = some x) (htenant : x.tenant = c.tenant)
include hx htenant

theorem adoptChallenge_accepted (husable : tenantUsable s c.tenant = true) (hlimit : proofLimited s c.tenant = false)
    (hport : x.port ≠ c.port) (hstate : x.state = .opened ∨ x.state = .detached) :
    adoptChallenge c s = finish c { count := 32, value := c.sid
                                    writes := [(outputOffset s, leBytes 32 (Config.nonce s.fresh).toNat)] }
      (setSession c.sid (fun y => { y with adoption := some (Config.nonce s.fresh, c.port, s.now) }) s.draw) := by
  have hfits : ¬ (x.port = c.port ∨ (x.state ≠ .opened ∧ x.state ≠ .detached)) :=
    not_or.2 ⟨hport, adoptable_state hstate⟩
  simp only [adoptChallenge, husable, hx, htenant, hlimit, if_neg hfits, Bool.not_true, Bool.false_eq_true, ne_eq,
    not_true_eq_false, if_false]

theorem openSession_challenged (hstate : x.state = .challenged) :
    openSession c s = if proofValid s c x.nonce x.nonceAt "KCP open" then
        finish c { count := 16, writes := [(outputOffset s,
            leBytes 16 (tagOf (tenantKey s c.tenant) x.nonce (paramResponse c)).toNat)] }
          (setSession c.sid (fun y => { y with state := .opened, port := c.port, fns := [c.fn]
                                               tag := tagOf (tenantKey s c.tenant) x.nonce (paramResponse c) }) s)
      else fail c .notAuthorized 2 (recordBadProof c.tenant (dropSession c.sid s)) := by
  simp only [openSession, hx, htenant, hstate, ne_eq, not_true_eq_false, if_false]

end Session

theorem find?_setSession (sid : Nat) (f : Session → Session) {s : State} {x : Session}
    (hx : find? s.sessions sid = some x) : find? (setSession sid f s).sessions sid = some (f x) := by
  simp [setSession, find?_adj, hx]

theorem recordBadProof_badProofs (t : Nat) (s : State) :
    (look (recordBadProof t s).tenants t).badProofs = recentBad s t ++ [s.now] := by
  simp [recordBadProof, setTenant]

/-- Settles O11: each row runs its command, whose checks pass; an invalid proof ends the session. -/
theorem sessionOpening : Obligations.SessionOpening := by
  intro s id c
  refine ⟨fun hr => congrArg _ (runCmd_runs hr _), ?challenge, ?adoption, ?opening⟩
  case challenge =>
    intro hr hsid husable hlimit hquota htenant hall
    have hrun : exec (.sessionChallenge id) s = .next (challenge c s) :=
      congrArg _ ((runCmd_runs hr _).trans (if_pos hsid))
    refine ⟨openChallenge c s, ?_, ⟨_, find?_put_self .., rfl, rfl, rfl, rfl, rfl⟩,
      fun n hn => find?_put_other _ _ hn.symm, rfl⟩
    rw [hrun, challenge_accepted husable hlimit hquota htenant hall]
  case adoption =>
    intro x hr hsid hx htenant hport hstate husable hlimit
    have hrun : exec (.adoptionChallenge id) s = .next (adoptChallenge c s) :=
      congrArg _ ((runCmd_runs hr _).trans (if_neg hsid))
    rw [hrun, adoptChallenge_accepted hx htenant husable hlimit hport hstate]
    exact ⟨_, rfl, find?_setSession _ _ hx, rfl⟩
  case opening =>
    intro x hr hx htenant hstate
    have hrun : exec (.sessionOpen id) s = .next (openSession c s) := congrArg _ (runCmd_runs hr _)
    rw [hrun, openSession_challenged hx htenant hstate]
    refine ⟨fun hvalid => ?_, fun hvalid => ?_⟩
    · rw [if_pos hvalid]
      exact ⟨_, rfl, find?_setSession _ _ hx, rfl⟩
    · rw [if_neg (Bool.eq_false_iff.1 hvalid)]
      exact ⟨_, rfl, find?_del_self .., recordBadProof_badProofs ..⟩

/-! ## Adoption -/

/-- A completion that waits for one of some commands. -/
def heldFor (ids : List Nat) (h : Held) : Bool := h.cmd.any ids.contains

theorem moveHeld_eq (ids : List Nat) (k : PairKey) (s : State) : moveHeld ids k s
    = foldS (fun s h => putEntry k { h with entry := { h.entry with adopted := true } } s)
      (s.host.pairs.flatMap (fun p => p.2.held.filter (heldFor ids))) { s with host := { s.host with
        pairs := mapTbl s.host.pairs (fun _ p => { p with held := p.held.filter (fun h => !heldFor ids h) }) } } := rfl

/-- Without commands to move no completion goes to another pair. -/
theorem moveHeld_none (k : PairKey) (s : State) : moveHeld [] k s = s := by
  have hmine : ∀ h, heldFor [] h = false := fun ⟨_, cmd⟩ => by cases cmd <;> rfl
  have hpairs : mapTbl s.host.pairs (fun _ p => { p with held := p.held.filter (fun h => !heldFor [] h) })
      = s.host.pairs := by
    simp [mapTbl, hmine]
  have hmoved : s.host.pairs.flatMap (fun p => p.2.held.filter (heldFor [])) = [] := by
    simp [hmine]
  rw [moveHeld_eq, hpairs, hmoved]
  rfl

/-- The functions of the old port hear of an adoption (R73). -/
def tellOldPort (old : Session) (s : State) : State :=
  foldS (fun s fn => raiseEvent old.port fn evAdoptedAway s) old.fns s

theorem tellOldPort_cmds (old : Session) (s : State) : (tellOldPort old s).cmds = s.cmds :=
  foldS_same State.cmds _ (fun _ _ => raiseEvent_cmds ..) _ _

/-- Where an adoption takes no command with it, it tells the functions of the old port and does no more. -/
theorem adoptActions_alone {c : Cmd} {old : Session} {s : State} (h : adoptedCmds s c old.port = []) :
    adoptActions c old s = tellOldPort old s := by
  have hnone : adoptedCmds (tellOldPort old s) c old.port = [] := by
    rw [adoptedCmds, tellOldPort_cmds]
    exact h
  rw [tellOldPort] at hnone ⊢
  simp only [adoptActions, hnone, List.map_nil, List.contains_nil, Bool.false_eq_true, if_false, List.map_id',
    moveHeld_none]
  rfl

/-- What a session is once its adoption stands (R72). -/
def adopted (c : Cmd) (tag : BitVec 128) (x : Session) : Session :=
  { x with state := .opened, port := c.port, tag, adoption := none, fns := [c.fn] }

section Adopt
variable {c : Cmd} {s : State} {x : Session} (hx : find? s.sessions c.sid = some x) (htenant : x.tenant = c.tenant)
  (hstate : x.state = .opened ∨ x.state = .detached) (husable : tenantUsable s c.tenant = true)
include hx htenant hstate husable

theorem adoptSession_valid {n : BitVec 256} {m : Nat} (hnonce : x.adoption = some (n, c.port, m))
    (hvalid : proofValid s c n m "KCP adopt" = true) :
    let tag := tagOf (tenantKey s c.tenant) (paramNonce c) (paramResponse c)
    let u := adoptActions c x (setSession c.sid (adopted c tag) s)
    adoptSession c s = finish c { count := 16, writes := [(outputOffset u, leBytes 16 tag.toNat)] } u := by
  have hfits := adoptable_state hstate
  simp only [adoptSession, husable, hx, htenant, if_neg hfits, hnonce, hvalid, beq_self_eq_true, Bool.not_true,
    Bool.false_eq_true, Bool.and_true, ne_eq, not_true_eq_false, if_false, if_true]
  rfl

/-- Without a valid proof for the nonce that was given on this port the session stays as it is. -/
theorem adoptSession_invalid
    (hbad : ∀ n m, x.adoption = some (n, c.port, m) → proofValid s c n m "KCP adopt" = false) :
    adoptSession c s = fail c .notAuthorized 2 (recordBadProof c.tenant s) := by
  have hfits := adoptable_state hstate
  cases hnonce : x.adoption with
  | none => simp [adoptSession, husable, hx, htenant, if_neg hfits, hnonce]
  | some a =>
    obtain ⟨n, p, m⟩ := a
    have hgood : (p == c.port && proofValid s c n m "KCP adopt") = false := by
      by_cases hp : p = c.port
      · rw [hbad n m (hp ▸ hnonce), Bool.and_false]
      · simp [hp]
    simp [adoptSession, husable, hx, htenant, if_neg hfits, hnonce, hgood]

end Adopt

/-- Settles O12: with no command to take along, an adoption changes the session and tells its old functions. -/
theorem sessionAdoption : Obligations.SessionAdoption := by
  intro s id c x hr hx htenant hstate husable halone tag
  have hrun : exec (.sessionAdopt id) s = .next (adoptSession c s) := congrArg _ (runCmd_runs hr _)
  rw [hrun]
  refine ⟨fun n m hnonce hvalid => ?_, fun hbad => ?_⟩
  · have hactions := adoptActions_alone (s := setSession c.sid (adopted c tag) s) halone
    exact ⟨_, congrArg _ (adoptSession_valid hx htenant hstate husable hnonce hvalid), hactions⟩
  · exact ⟨_, congrArg _ (adoptSession_invalid hx htenant hstate husable hbad), rfl⟩

/-! ## Closing -/

/-- A session that closes with no command but its SESSION_CLOSE has none to cancel (R72). -/
theorem beginClose_alone {sid : Nat} {keep : Option Nat} {s : State}
    (h : ∀ d ∈ s.cmds, d.sid = sid → some d.id = keep) :
    beginClose sid keep s = setSession sid (fun x => { x with state := .closing }) s := by
  have hnone : s.cmds.filter (fun t => t.sid == sid && some t.id != keep && t.op != 3) = [] := by
    rw [List.filter_eq_nil_iff]
    rintro d hd hmine
    simp only [Bool.and_eq_true, beq_iff_eq, bne_iff_ne] at hmine
    obtain ⟨⟨hsid, hother⟩, -⟩ := hmine
    exact hother (h d hd hsid)
  have hcmds : (setSession sid (fun x => { x with state := .closing }) s).cmds = s.cmds := rfl
  rw [beginClose, hcmds, hnone]
  rfl

theorem exec_sessionCloseFinish {sid : Nat} {s : State} {x : Session} (hx : find? s.sessions sid = some x)
    (hclosing : x.state = .closing) (hdrained : sessionDrained s sid = true) : exec (.sessionCloseFinish sid) s
      = .next (if sessionMoving s sid then dropTables sid s else finishClose sid s) := by
  show execSessionCloseFinish sid s = _
  simp [execSessionCloseFinish, hx, hclosing, hdrained]

/-- Settles O13: a session that nothing holds closes at once, and one whose unit moves waits. -/
theorem sessionClosing : Obligations.SessionClosing := by
  intro s id c x sid
  refine ⟨?close, ?finish, ?moving, ?nonce, ?hold, ?query⟩
  case close =>
    intro hr hb hx halone
    have hrun : exec (.sessionClose id) s = .next (closeSession c s) :=
      congrArg _ ((runCmd_runs hr _).trans (if_neg (Bool.eq_false_iff.1 hb)))
    rw [hrun, closeSession, hx]
    dsimp only
    rw [beginClose_alone fun d hd hsid => congrArg some (halone d hd hsid)]
    exact ⟨_, rfl, rfl, rfl, rfl⟩
  case finish =>
    intro hx hclosing hdrained hmoving
    rw [exec_sessionCloseFinish hx hclosing hdrained, hmoving]
    exact ⟨dropSession sid (releaseObjects sid s), rfl, find?_del_self .., releaseObjects_parts sid s⟩
  case moving =>
    intro hx hclosing hdrained hmoving
    rw [exec_sessionCloseFinish hx hclosing hdrained, hmoving]
    rfl
  case nonce =>
    intro hx hstate hold
    show execNonceExpiry sid s = _
    simp only [execNonceExpiry, hx]
    exact congrArg _ (if_pos ⟨hstate, hold⟩)
  case hold =>
    intro hx hstate hold hnone
    show execSessionHoldExpiry sid s = _
    simp only [execSessionHoldExpiry, hx]
    rw [if_pos ⟨hstate, hold⟩, beginClose_alone fun d hd hsid => absurd hsid (hnone d hd)]
    rfl
  case query =>
    intro k st hr hobj
    have hrun : exec (.stateQuery id) s = .next (queryState c s) := congrArg _ (runCmd_runs hr _)
    rw [hrun, queryState, hobj]

/-! ## Links -/

theorem linkDown_ports (p : Fin 2) (s : State) :
    look (linkDown p s).host.ports p = { look s.host.ports p with link := false, downSince := s.now } := by
  simp [linkDown, setPort]

theorem linkUp_ports (p : Fin 2) (s : State) :
    look (linkUp p s).host.ports p = { look s.host.ports p with link := true } := by
  have h : (linkUp p s).host.ports = upd s.host.ports p (fun x => { x with link := true }) :=
    (congrArg (fun t : State => t.host.ports) (linkUp_unreported p s) :)
  rw [h, look_upd_self]

theorem raiseMsix_funcs (p : Fin 2) (fn v : Nat) (s : State) : (raiseMsix p fn v s).host.funcs = s.host.funcs := by
  unfold raiseMsix
  repeat' split
  all_goals rfl

/-- An event sets its bits and clears none (R44). -/
theorem raiseEvent_event (p : Fin 2) (fn : Nat) (bits : BitVec 4) (s : State) :
    (funcOf (raiseEvent p fn bits s) p fn).event = (funcOf s p fn).event ||| bits := by
  have hfind : find? (raiseEvent p fn bits s).host.funcs (p, fn)
      = some { funcOf s p fn with event := (funcOf s p fn).event ||| bits } := by
    unfold raiseEvent
    dsimp only
    split
    · exact find?_put_self ..
    · rw [raiseMsix_funcs]
      exact find?_put_self ..
  rw [funcOf, hfind]
  rfl

theorem failover_primary (s : State) : (failover s).host.primary = otherPort s.host.primary :=
  (congrArg (fun t : State => t.host.primary) (raiseEvent_unreported (otherPort s.host.primary) 0 evFailover
    { s with host := { s.host with primary := otherPort s.host.primary } }) :)

/-- Settles O15: each row's condition holds, and the change of the link, of the sessions and of the primary port is its
own law. -/
theorem portLinks : Obligations.PortLinks := by
  intro s port p q
  refine ⟨fun hup => ?down, fun hdown hkept hisland hperst htime hstage => ?up,
    fun hstage hdown hlong hup hkept => ?failover⟩
  case down => exact ⟨linkDown port s, congrArg _ (if_pos hup), linkDown_ports port s, rfl⟩
  case up =>
    have hgo : !p.link ∧ !p.retired ∧ islandUp s (portClk port) ∧ !p.perst ∧ 10000000 ≤ s.now
        ∧ (s.dev.stage = .startup ∨ s.dev.stage = .service) := by
      simp [hdown, hkept, hisland, hperst, htime, hstage]
    exact ⟨linkUp port s, congrArg _ (if_pos hgo), linkUp_ports port s,
      (congrArg State.sessions (linkUp_unreported port s) :)⟩
  case failover =>
    have hgo : s.dev.stage = .service ∧ !(look s.host.ports s.host.primary).link
        ∧ 1000000000 ≤ s.now - (look s.host.ports s.host.primary).downSince ∧ q.link ∧ !q.retired := by
      simp [hstage, hdown, hlong, hup, hkept]
    exact ⟨failover s, congrArg _ (if_pos hgo), failover_primary s, raiseEvent_event ..⟩

end Sys2Proof.Proofs
end

section
/-! SUPPORT. Proofs about CANCEL: the commands that its scope names, and what it does with them (R64, R74, R75). -/

open Sys2Proof Sys2Proof.Machine Sys2Proof.Laws
namespace Sys2Proof.Proofs

theorem findCmd_setCmd_other {n id : Nat} (h : n ≠ id) {f : Cmd → Cmd} (hf : ∀ c, (f c).id = c.id) (s : State) :
    findCmd (setCmd id f s) n = findCmd s n := by
  have hkeeps : ((·.id == n) ∘ fun c => if c.id == id then f c else c) = ((·.id == n) : Cmd → Bool) := by
    funext c
    by_cases hc : c.id = id <;> simp [hc, hf]
  rw [findCmd, setCmd, List.find?_map, hkeeps, ← findCmd]
  cases hfind : findCmd s n with
  | none => rfl
  | some c =>
    have hc : c.id = n := by simpa using List.find?_some hfind
    simp [hc, h]

section Cancel
variable {s : State} {c d : Cmd}

/-- A target of a CANCEL is another command, which a cancel may still meet. -/
theorem target_cancellable {named : Cmd → Bool}
    (h : s.cmds.filter (fun t => named t && t.id != c.id && cancellable s t) = [d]) :
    d.id ≠ c.id ∧ cancellable s d = true := by
  have hd : d ∈ s.cmds.filter (fun t => named t && t.id != c.id && cancellable s t) := h ▸ List.mem_singleton_self d
  obtain ⟨-, hd⟩ := List.mem_filter.1 hd
  simp only [Bool.and_eq_true, bne_iff_ne] at hd
  obtain ⟨⟨-, hother⟩, hcan⟩ := hd
  exact ⟨hother, hcan⟩

theorem cancelAll_queued {u : State} (hd : findCmd u d.id = some d) (hqueued : d.phase = .queued)
    (hcan : (d.cancel || pastCommit u d) = false) : cancelAll [d.id] u = fail d .cancelled 0 u := by
  simp only [cancelAll, foldS, List.foldl, hd, hcan, cancelCmd, hqueued]
  rfl

/-- A queued target ends at once, and the CANCEL waits for it (R74, R75). -/
theorem cancelTargets_queued (hd : findCmd s d.id = some d) (hqueued : d.phase = .queued) (hother : d.id ≠ c.id)
    (hcan : cancellable s d = true) : cancelTargets c [d.id] s
      = fail d .cancelled 0 (setCmd c.id (fun x => { x with waits := [d.id], begun := true }) s) := by
  have hopen : (d.cancel || pastCommit s d) = false := by
    simp only [cancellable, Bool.and_eq_true, Bool.not_eq_true'] at hcan
    obtain ⟨⟨-, hcancel⟩, hpast⟩ := hcan
    rw [hcancel, hpast]
    rfl
  exact cancelAll_queued ((findCmd_setCmd_other hother (by intro; rfl) s).trans hd) hqueued hopen

variable {id : Nat} (hr : Runs s id 0x0006 c) (hb : c.begun = false)
include hr hb

theorem exec_cancelCommand (ha : c.arg 6 1 = 0) : exec (.cancelCommand id) s = .next (cancelOne c s) :=
  congrArg _ ((runCmd_runs hr _).trans (if_neg (by simp [hb, ha])))

theorem exec_cancelObject (ha : c.arg 6 1 = 1) : exec (.cancelObject id) s = .next (cancelNamed c s) :=
  congrArg _ ((runCmd_runs hr _).trans (if_neg (by simp [hb, ha])))

end Cancel

/-- Settles O14: the filter of each scope names the targets, and a CANCEL acts on them alike. -/
theorem cancelRows : Obligations.CancelRows := by
  intro s id c hr hb one named waiting
  refine ⟨fun ha => ?_, fun ha hobj => ?_⟩
  · have hone : cancelOne c s = cancelTargets c (one.map (·.id)) s := rfl
    rw [exec_cancelCommand hr hb ha, hone]
    refine ⟨fun h => by rw [h]; rfl, fun d h hd hq => ?_⟩
    obtain ⟨hother, hcan⟩ := target_cancellable h
    rw [h]
    exact congrArg _ (cancelTargets_queued hd hq hother hcan)
  · have hnamed : cancelNamed c s = cancelTargets c (named.map (·.id)) s :=
      if_neg (by simpa [Option.isSome_iff_ne_none] using hobj)
    rw [exec_cancelObject hr hb ha, hnamed]
    refine ⟨fun h => by rw [h]; rfl, fun d h hd hq => ?_⟩
    obtain ⟨hother, hcan⟩ := target_cancellable h
    rw [h]
    exact congrArg _ (cancelTargets_queued hd hq hother hcan)

end Sys2Proof.Proofs
end

section
/-! SUPPORT. Proofs about SEQ_CREATE: its checks and the entry that it fills (R65, R156 to R158). -/

open Sys2Proof Sys2Proof.Machine Sys2Proof.Laws
namespace Sys2Proof.Proofs

theorem placeSeq_fits {s : State} {c : Cmd} {course : Fin 4} {slot e : Nat} {m : Model} {ad : Option (Nat × Nat)}
    (hcontext : ceilDiv (imgContext m.image) 16 * imgLayers m.image * pageBytes m.image ≤ pagePool s course.val)
    (htable : 4 * tableEntries m.image + (if c.arg 24 8 = 0 then 0 else 520) ≤ pagePool s course.val)
    (had : bindAdapter s slot (c.arg 8 4) (c.arg 12 4) = .ok ad)
    (hfree : firstFree s.obj.seqs (course.val * 4096) 4096 = some e) (ss : List (List Byte)) :
    let reuse := (look s.obj.seqReuse e + 1) % 2 ^ 32
    placeSeq c course slot m ss s = finish c { value := mkHandle e reuse } { s with obj := { s.obj with
      seqs := put s.obj.seqs e (newSeq s c course reuse slot ad ss), seqReuse := put s.obj.seqReuse e reuse } } := by
  simp only [placeSeq, if_neg (Nat.not_lt.2 hcontext), if_neg (Nat.not_lt.2 htable), had, hfree]

theorem createSeq_placeable {s : State} {c : Cmd} {course : Fin 4} {b : List Byte} {slot : Nat} {m : Model}
    {ss : List (List Byte)} (hfault : createFault s c = none) (hmodel : modelOf s c.sid (c.arg 0 8) = some (slot, m))
    (hstops : stopStrings (c.arg 18 2) 0 b = .ok ss) (hplace : placeable s m course = true) :
    createSeq course b c s = placeSeq c course slot m ss s := by
  have hany : (List.finRange 4).any (placeable s m) = true :=
    List.any_eq_true.2 ⟨course, List.mem_finRange course, hplace⟩
  simp [createSeq, hfault, hmodel, hstops, hany, hplace]

/-- Settles O18: the checks pass, the course takes the sequence, and its entry is what the parameter block describes. -/
theorem sequenceCreation : Obligations.SequenceCreation := by
  intro s id c course b slot e m ss ad hr hfault hmodel hstops hplace hcontext htable had hfree reuse
  have hrun : exec (.seqCreate id course (.data b)) s = .next (createSeq course b c s) := congrArg _ (runCmd_runs hr _)
  refine ⟨newSeq s c course reuse slot ad ss, ?_, rfl, rfl, rfl, rfl, rfl, rfl, rfl, rfl, rfl, rfl, rfl, rfl, rfl, rfl,
    rfl, rfl, rfl, rfl, rfl, rfl⟩
  rw [hrun, createSeq_placeable hfault hmodel hstops hplace, placeSeq_fits hcontext htable had hfree]

end Sys2Proof.Proofs
end

section
/-! SUPPORT. Proofs about STEP_COMMIT: when a step commits, and what each lane commits (R100, R159, R160, R172). -/

open Sys2Proof Sys2Proof.Machine Sys2Proof.Laws
namespace Sys2Proof.Proofs

theorem mayCommit_iff {s : State} {c : Fin 4} {lane : Lane} {st : StepRec} : mayCommit s c lane st = true ↔
    courseActive s c = true ∧ stopped s (fabricClk c) = false ∧ chainsEmpty s c lane = true
      ∧ ∀ r ∈ st.rows, rowEnded s r = true ∧ rowRuns s r = true := by
  simp [mayCommit, and_assoc]

section Commit
variable {s : State} {c : Fin 4} {lane : Lane} {st : StepRec}

theorem exec_stepCommit_noStep (hstep : (laneOf s c lane).step = none) (d : CommitData) :
    exec (.stepCommit c lane d) s = .next s := by
  show execStepCommit c lane d s = _
  rw [execStepCommit, hstep]

theorem exec_stepCommit_waits (hstep : (laneOf s c lane).step = some st) (hmay : mayCommit s c lane st ≠ true)
    (d : CommitData) : exec (.stepCommit c lane d) s = .next s := by
  show execStepCommit c lane d s = _
  simp [execStepCommit, hstep, hmay]

/-- Whatever the step in flight, what holds its course, its fabric or its chains holds the commit (R159, R323). -/
theorem exec_stepCommit_held (h : ¬ (courseActive s c = true ∧ stopped s (fabricClk c) = false
    ∧ chainsEmpty s c lane = true)) (d : CommitData) : exec (.stepCommit c lane d) s = .next s := by
  cases hstep : (laneOf s c lane).step with
  | none => exact exec_stepCommit_noStep hstep d
  | some st =>
    refine exec_stepCommit_waits hstep (fun hmay => h ?_) d
    obtain ⟨hactive, hfabric, hchains, -⟩ := mayCommit_iff.1 hmay
    exact ⟨hactive, hfabric, hchains⟩

theorem exec_stepCommit_generation (hstep : (laneOf s c .generation).step = some st)
    (hmay : mayCommit s c .generation st = true) (d : CommitData) :
    exec (.stepCommit c .generation d) s = .next (commitGeneration c st d s) := by
  show execStepCommit c .generation d s = _
  simp [execStepCommit, hstep, hmay]

theorem exec_stepCommit_retrieval (hstep : (laneOf s c .retrieval).step = some st)
    (hmay : mayCommit s c .retrieval st = true) (d : CommitData) :
    exec (.stepCommit c .retrieval d) s = .next (if st.crossed then commitRetrieval c st d s else s) := by
  show execStepCommit c .retrieval d s = _
  simp [execStepCommit, hstep, hmay]

/-- A retrieval step waits for its cross-encoder stage (R159). -/
theorem exec_stepCommit_uncrossed (hstep : (laneOf s c .retrieval).step = some st) (hcrossed : st.crossed = false)
    (d : CommitData) : exec (.stepCommit c .retrieval d) s = .next s := by
  by_cases hmay : mayCommit s c .retrieval st = true
  · rw [exec_stepCommit_retrieval hstep hmay, hcrossed]
    rfl
  · exact exec_stepCommit_waits hstep hmay d

end Commit

/-- Settles O40: what the commit waits for is `mayCommit`; past it each lane runs its own commit, which ends with the
release. -/
theorem stepRelease : Obligations.StepRelease := by
  intro s c lane d
  refine ⟨?_, fun st hstep => ⟨?_, fun hactive hfabric hchains hrows => ?_⟩, fun u => release_spec c lane u⟩
  · rintro (hstep | hheld)
    · exact exec_stepCommit_noStep hstep d
    · refine exec_stepCommit_held (fun ⟨hactive, hfabric, hchains⟩ => ?_) d
      simp [hactive, hfabric, hchains] at hheld
  · rintro (⟨r, hr, hopen⟩ | ⟨rfl, hcrossed⟩)
    · refine exec_stepCommit_waits hstep (fun hmay => ?_) d
      obtain ⟨-, -, -, hrows⟩ := mayCommit_iff.1 hmay
      obtain ⟨hended, hruns⟩ := hrows r hr
      simp [hended, hruns] at hopen
    · exact exec_stepCommit_uncrossed hstep hcrossed d
  · have hmay : mayCommit s c lane st = true := mayCommit_iff.2 ⟨hactive, hfabric, hchains, hrows⟩
    refine ⟨?_, ?_⟩
    · rintro rfl
      exact exec_stepCommit_generation hstep hmay d
    · rintro rfl hcrossed
      exact (exec_stepCommit_retrieval hstep hmay d).trans (congrArg _ (if_pos hcrossed))

end Sys2Proof.Proofs
end

section
/-! SUPPORT. Proofs about PASS_COMMIT, the throttle and ARRAY_FAULT (R100 to R102, R106, R109 to R112). -/

open Sys2Proof Sys2Proof.Machine Sys2Proof.Laws
namespace Sys2Proof.Proofs

/-! ## PASS_COMMIT -/

section Passes
variable {s : State} {a : Fin 16} (busy : List (Nat × Nat))

theorem exec_passCommit_still (hruns : islandRuns s (arrayClk a) = false) :
    exec (.passCommit a busy) s = .next s := by
  show execPassCommit a busy s = _
  simp [execPassCommit, hruns]

variable (hruns : islandRuns s (arrayClk a) = true)
include hruns

theorem exec_passCommit_noPass (hpass : runningPass (turnWindow a s) a = none) :
    exec (.passCommit a busy) s = .next (turnWindow a s) := by
  show execPassCommit a busy s = _
  simp [execPassCommit, hruns, hpass]

variable {l : Lane} {p : Pass} (hpass : runningPass (turnWindow a s) a = some (l, p))
include hpass

theorem exec_passCommit_badHome (hbad : homeBad (turnWindow a s) l a p = true) :
    exec (.passCommit a busy) s = .next (loseGroup a l p (turnWindow a s)) := by
  show execPassCommit a busy s = _
  simp [execPassCommit, hruns, hpass, hbad]

variable (hgood : homeBad (turnWindow a s) l a p = false)
include hgood

theorem exec_passCommit_waits (hwaits : streamPass a l p busy (turnWindow a s) = none) :
    exec (.passCommit a busy) s = .next (turnWindow a s) := by
  show execPassCommit a busy s = _
  simp [execPassCommit, hruns, hpass, hgood, hwaits]

theorem exec_passCommit_drained {t : State} {x : Grid × Cycles}
    (hdrained : streamPass a l p busy (turnWindow a s) = some (t, x)) :
    exec (.passCommit a busy) s = .next (commitPass a l p x t) := by
  show execPassCommit a busy s = _
  simp [execPassCommit, hruns, hpass, hgood, hdrained]

end Passes

/-- Neither the turn of the window nor the stream of a pass through the grid changes an object. -/
theorem streamPass_turnWindow_obj {s t : State} {a : Fin 16} {l : Lane} {p : Pass} {busy : List (Nat × Nat)}
    {x : Grid × Cycles} (h : streamPass a l p busy (turnWindow a s) = some (t, x)) : t.obj = s.obj :=
  onlyEng_obj (onlyEng_trans (onlyEng_turnWindow a s) (streamPass_onlyEng h))

/-! ## The throttle (R106) -/

section Throttle
variable {s : State} {clk : ClockId}

theorem exec_throttlePause (hpausable : pausable s clk = true) (hgoes : (look s.islands clk).paused = false) :
    exec (.throttlePause clk) s
      = .next { s with islands := upd s.islands clk (fun i => { i with paused := true, pausedAt := s.now }) } := by
  show execThrottlePause clk s = _
  simp [execThrottlePause, hpausable, hgoes]

theorem exec_throttleResume (hpaused : (look s.islands clk).paused = true) :
    exec (.throttleResume clk) s = .next (issueFlash
      { countPaused clk s with islands := upd s.islands clk (fun i => { i with paused := false }) }) := by
  show execThrottleResume clk s = _
  simp only [execThrottleResume, hpaused, Bool.not_true, Bool.false_eq_true, if_false]

end Throttle

/-! ## ARRAY_FAULT -/

section Faults

/-- A fault is marked in its step, and it and the passes that it abandons are counted (R109, R115). -/
def faultCounted (a : Fin 16) (l : Lane) (s : State) : State :=
  bump (arrayClk a) 0x0009 1 (bump (arrayClk a) 0x0008 (abandoned (look s.eng.arrays a))
    (markFault (Fin.ofNat 4 (a.val / 4)) l s))

/-- Grid and staging of an array hold nothing any more (R109). -/
def gridCleared (a : Fin 16) (s : State) : State := setArray a (fun x => dropGrid { x with staged := [] }) s

/-- A third attempt in a row that fails withdraws the array; before it the pass replays (R112). -/
def replayOrWithdraw (a : Fin 16) (attempts : Nat) (s : State) : State :=
  if 2 ≤ attempts then withdraw a s else setArray a (fun x => { x with attempts := x.attempts + 1 }) s

variable (a : Fin 16) (l : Lane) (p : Pass) (s : State)

theorem arrayFault_arithmetic {kind : ArrayFaultKind} (hkind : kind = .residue ∨ kind = .parity) :
    arrayFault a kind l p s
      = replayOrWithdraw a (look s.eng.arrays a).attempts (gridCleared a (faultCounted a l s)) := by
  rcases hkind with rfl | rfl <;> rfl

theorem arrayFault_poison : arrayFault a .poison l p s
    = replayOrWithdraw a (look s.eng.arrays a).attempts
        (gridCleared a (bump (arrayClk a) 0x0A42 1 (faultCounted a l s))) := rfl

theorem arrayFault_window : arrayFault a (.window false) l p s
    = if 2 ≤ (look s.eng.arrays a).attempts then withdraw a (gridCleared a (faultCounted a l s))
      else refetch a (setArray a (fun x => { x with attempts := x.attempts + 1 })
        (gridCleared a (faultCounted a l s))) := rfl

theorem arrayFault_lostWindow : arrayFault a (.window true) l p s
    = loseGroup a l p (setArray a (fun x => { x with attempts := 0 }) (gridCleared a (faultCounted a l s))) := rfl

theorem arrayFault_stepOutput : arrayFault a .stepOutput l p s
    = replayStep (Fin.ofNat 4 (a.val / 4)) l false (gridCleared a (faultCounted a l s)) := rfl

theorem replayOrWithdraw_replays {n : Nat} (h : n < 2) :
    replayOrWithdraw a n s = setArray a (fun x => { x with attempts := x.attempts + 1 }) s :=
  if_neg (Nat.not_le.2 h)

theorem replayOrWithdraw_withdraws {n : Nat} (h : 2 ≤ n) : replayOrWithdraw a n s = withdraw a s := if_pos h

variable {a l p s}

theorem exec_arrayFault (hup : arrayUp s a = true) (hpass : runningPass s a = some (l, p)) (kind : ArrayFaultKind) :
    exec (.arrayFault a kind) s = .next (arrayFault a kind l p s) := by
  show execArrayFault a kind s = _
  simp [execArrayFault, hup, hpass]

end Faults

/-- Settles O37: a commit by what the window and the grid answer, a fault by its kind and the attempts before it. -/
theorem arrayPasses : Obligations.ArrayPasses := by
  intro s a busy c u
  refine ⟨exec_passCommit_still busy, exec_passCommit_noPass busy, fun l p hruns hpass => ⟨?_, ?_, ?_⟩,
    fun clk => exec_throttlePause, fun clk => exec_throttleResume, fun l p hup hpass => ?_⟩
  · exact exec_passCommit_badHome busy hruns hpass
  · exact exec_passCommit_waits busy hruns hpass
  · intro t x hgood hdrained
    obtain ⟨v, hcommit, hacts, hmine, hother, hstaged, hattempts, harrays, hobj⟩ := commitPass_spec a l p x t
    exact ⟨v, (exec_passCommit_drained busy hruns hpass hgood hdrained).trans (congrArg _ hcommit),
      hobj.trans (streamPass_turnWindow_obj hdrained), hacts, hmine, hother, hstaged, hattempts, harrays⟩
  · intro n v again clear
    have hfault := exec_arrayFault hup hpass
    refine ⟨fun kind hkind => ⟨fun hfew => ?_, fun hmany => ?_⟩, fun hfew => ?_, fun hmany => ?_, fun hfew => ?_,
      fun hmany => ?_, ?_, ?_⟩
    · rw [hfault, arrayFault_arithmetic a l p s hkind, replayOrWithdraw_replays a _ hfew]
      rfl
    · rw [hfault, arrayFault_arithmetic a l p s hkind, replayOrWithdraw_withdraws a _ hmany]
      rfl
    · rw [hfault, arrayFault_poison, replayOrWithdraw_replays a _ hfew]
      rfl
    · rw [hfault, arrayFault_poison, replayOrWithdraw_withdraws a _ hmany]
      rfl
    · rw [hfault, arrayFault_window, if_neg (Nat.not_le.2 hfew)]
      rfl
    · rw [hfault, arrayFault_window, if_pos hmany]
      rfl
    · rw [hfault, arrayFault_lostWindow]
      rfl
    · rw [hfault, arrayFault_stepOutput]
      rfl

end Sys2Proof.Proofs
end

section
/-! SUPPORT. Proofs about models: loading, unloading and the query's answer (R130 to R135). -/

open Sys2Proof Sys2Proof.Machine Sys2Proof.Laws
namespace Sys2Proof.Proofs

section Models
variable {s : State} {c : Cmd} {slot : Nat}

theorem loadModel_fits {b : List Byte} (hfault : baseImageFault b = none)
    (hfree : firstFree s.obj.models 0 64 = some slot)
    (hquota : tenantLpddr6 s c.tenant + weightBytes b ≤ (quotasOf s c.tenant).lpddr6)
    (hfits : homeFits s (homeOf s c.imm) (weightBytes b) (reserveWith s b) = true) :
    let reuse := (look s.obj.modelReuse slot + 1) % 2 ^ 32
    loadModel b c s = if imageCheckOk b then finish c { value := mkHandle slot reuse }
        (addModel slot { reuse, session := c.sid, tenant := c.tenant, home := homeOf s c.imm, image := b } s)
      else finish c { status := .checkMismatch, effect := .none, value := 104, detail := 64 } s := by
  cases hcheck : imageCheckOk b <;>
    simp [loadModel, hfault, hfree, Nat.not_lt.2 hquota, hfits, hcheck]

variable {m : Model} (hm : modelOf s c.sid c.handle = some (slot, m))
include hm

theorem unloadModelRefusal_none (h : m.state = .ready ∧ bindingsBefore s slot c.id = 0 ∨ m.state = .cold) :
    unloadModelRefusal s c = none := by
  obtain ⟨hready, hunbound⟩ | hcold := h
  · simp [unloadModelRefusal, hm, hready, hunbound]
  · simp [unloadModelRefusal, hm, hcold]

theorem unloadModelRefusal_inState
    (h : (m.state = .ready ∧ bindingsBefore s slot c.id ≠ 0) ∨ m.state = .moving ∨ m.state = .unloading) :
    unloadModelRefusal s c = inState 3 m.state.code := by
  obtain ⟨hready, hbound⟩ | hmoving | hunloading := h
  · simp [unloadModelRefusal, hm, hready, hbound, ModelState.code]
  · simp [unloadModelRefusal, hm, hmoving]
  · simp [unloadModelRefusal, hm, hunloading]

/-- A model that the command took at its dispatch, or that it may take now, leaves the table (R135). -/
theorem unloadModel_removes
    (h : c.holds = true ∨ (m.state = .ready ∧ bindingsBefore s slot c.id = 0) ∨ m.state = .cold) :
    unloadModel c s = finish c {} (removeModel slot s) := by
  obtain ⟨hslot, -⟩ := modelOf_slot hm
  have hnone : (if c.holds then none else unloadModelRefusal s c) = none := by
    obtain hholds | hfree := h
    · exact if_pos hholds
    · exact (congrArg _ (unloadModelRefusal_none hm hfree)).trans (ite_self none)
  rw [unloadModel, hnone, hslot]
  rfl

theorem unloadModel_conflict (hholds : c.holds = false)
    (h : (m.state = .ready ∧ bindingsBefore s slot c.id ≠ 0) ∨ m.state = .moving ∨ m.state = .unloading) :
    unloadModel c s = fail c .stateConflict (3 + 256 * m.state.code) s := by
  rw [unloadModel, hholds, if_neg Bool.false_ne_true, unloadModelRefusal_inState hm h]
  rfl

theorem modelAnswer_found : modelAnswer c s = recordResult s c (modelRecord s slot m) {} := by
  rw [modelAnswer, hm]

end Models

/-- Settles O16: a load past its checks is judged by IMAGE_CHECK, an unload by what its model allows, and a query
answers with its model's record. -/
theorem modelCommands : Obligations.ModelCommands := by
  intro s id c slot
  refine ⟨fun b hr hfault hfree hquota hfits => ?_, fun m hr hm => ?_, fun m hr hm => ?_⟩
  · have hrun : exec (.modelLoad id (.data b)) s = .next (loadModel b c s) := congrArg _ (runCmd_runs hr _)
    rw [hrun, loadModel_fits hfault hfree hquota hfits]
    rfl
  · have hrun : exec (.modelUnload id) s = .next (unloadModel c s) := congrArg _ (runCmd_runs hr _)
    rw [hrun]
    exact ⟨fun h => congrArg _ (unloadModel_removes hm h),
      fun hholds h => congrArg _ (unloadModel_conflict hm hholds h)⟩
  · have hrun : exec (.modelQuery id) s = .next (queryModel c s) := congrArg _ (runCmd_runs hr _)
    rw [hrun, queryModel, answerWith, modelAnswer_found hm]
    rfl

end Sys2Proof.Proofs
end

section
/-! SUPPORT. Proofs about adapter versions: which one a command names, loading and retiring one (R147, R148). -/

open Sys2Proof Sys2Proof.Machine Sys2Proof.Laws
namespace Sys2Proof.Proofs

/-- A listed version that is named by its number is found unless it is RETIRING (R148). -/
theorem pickVersion_listed {s : State} {slot ad ver : Nat} {a : Adapter} (htop : look s.obj.adapterTop (slot, ad) ≠ 0)
    (hver : ver ≠ 0) (ha : find? s.obj.adapters (slot, ad, ver) = some a) (hstate : a.state ≠ .retiring)
    (idOff verOff : Nat) : pickVersion s slot ad ver idOff verOff = .found ver := by
  simp [pickVersion, htop, hver, ha, hstate]

section Adapters
variable {s : State} {c : Cmd} {slot : Nat} {m : Model} (hm : modelOf s c.sid c.handle = some (slot, m))
include hm

theorem loadAdapter_fits {b : List Byte} (hready : m.state = .ready) (hfault : adapterFault m.image b = none)
    (hmine : (s.obj.adapters.filter (fun a => a.2.tenant == c.tenant)).length < (quotasOf s c.tenant).adapters)
    (hall : s.obj.adapters.length < 4096)
    (hquota : tenantLpddr6 s c.tenant + weightBytes b ≤ (quotasOf s c.tenant).lpddr6)
    (hfits : homeFits s m.home (weightBytes b) (reserveBytes s) = true) :
    let ver := look s.obj.adapterTop (slot, c.arg 0 4) + 1
    loadAdapter b c s = if imageCheckOk b then finish c { value := ver } (addAdapter slot (c.arg 0 4) ver c.tenant b s)
      else finish c { status := .checkMismatch, effect := .none, value := 104, detail := 72 } s := by
  have hallowed : loadAdapterRefusal s c = none := by simp [loadAdapterRefusal, hm, hready]
  cases hcheck : imageCheckOk b <;>
    simp [loadAdapter, hm, hallowed, hfault, Nat.not_le.2 hmine, Nat.not_le.2 hall, Nat.not_lt.2 hquota, hfits, hcheck]

theorem retireAdapter_found {ver : Nat} (hpick : pickVersion s slot (c.arg 0 4) (c.arg 4 4) 64 68 = .found ver) :
    retireAdapter c s = finish c {} (reapAdapters { s with obj := { s.obj with
      adapters := adj s.obj.adapters (slot, c.arg 0 4, ver) (fun a => { a with state := .retiring }) } }) := by
  obtain ⟨hslot, -⟩ := modelOf_slot hm
  have hfound : retireAdapterPick s c = .found ver := by rw [retireAdapterPick, hm]; exact hpick
  simp only [retireAdapter, hfound, hslot]

end Adapters

/-- Settles O17: a load past its checks is judged by IMAGE_CHECK, and a retirement acts on the version that it names. -/
theorem adapterCommands : Obligations.AdapterCommands := by
  intro s id c slot m hm
  refine ⟨fun b hr hready hfault hmine hall hquota hfits => ?_, fun a hr htop hver ha hstate => ?_⟩
  · have hrun : exec (.adapterLoad id (.data b)) s = .next (loadAdapter b c s) := congrArg _ (runCmd_runs hr _)
    rw [hrun, loadAdapter_fits hm hready hfault hmine hall hquota hfits]
    rfl
  · have hrun : exec (.adapterRetire id) s = .next (retireAdapter c s) := congrArg _ (runCmd_runs hr _)
    rw [hrun, retireAdapter_found hm (pickVersion_listed htop hver ha hstate 64 68)]

end Sys2Proof.Proofs
end

section
/-! SUPPORT. Proofs about SEQ_REBIND, SEQ_SWAP_OUT, SEQ_RELEASE and SEQ_QUERY (R148, R149, R155, R158, R182). -/

open Sys2Proof Sys2Proof.Machine Sys2Proof.Laws
namespace Sys2Proof.Proofs

theorem find?_setSeq {s : State} {e : Nat} {q : Machine.Seq} (hq : find? s.obj.seqs e = some q)
    (f : Machine.Seq → Machine.Seq) : find? (setSeq e f s).obj.seqs e = some (f q) := by
  simp [setSeq, find?_adj, hq]

theorem find?_setSeq_other {e n : Nat} (h : n ≠ e) (f : Machine.Seq → Machine.Seq) (s : State) :
    find? (setSeq e f s).obj.seqs n = find? s.obj.seqs n := by
  simp [setSeq, find?_adj, h.symm]

theorem freeSeq_seqs (e : Nat) (s : State) : (freeSeq e s).obj.seqs = del s.obj.seqs e := reapVocabs_seqs _

section Management
variable {s : State} {c : Cmd} {e : Nat} {q : Machine.Seq} (hq : seqOf s c.sid c.handle = some (e, q))
include hq

theorem rebind_found {ad : Nat × Nat} {v : Nat} (hfin : q.state ≠ .finishing) (hdone : q.state ≠ .done)
    (had : q.adapter = some ad) (hpick : pickVersion s q.model ad.1 (c.arg 0 4) 64 64 = .found v) :
    rebind c s = finish c {} (setSeq e (fun x => { x with rebind := some v, replaced := false }) s) := by
  have hfound : rebindPick s c q = .found v := by rw [rebindPick, had]; exact hpick
  have hallowed : rebindRefusal s c = none := by
    simp [rebindRefusal, hq, hfin, hdone, hfound, VersionPick.refusal]
  simp only [rebind, hq, hallowed, hfound]

theorem swapOut_evicts (hbegun : c.begun = false) (hstate : q.state = .blockedHost) (hmove : moveOf s (.seq e) = none)
    (hwritable : flashReadOnly s = false) (hfits : swapFits s q = true) :
    swapOut c s = setCmd c.id (fun x => { x with begun := true }) (evict e (some c.id) s) := by
  have hallowed : swapOutRefusal s c = none := by simp [swapOutRefusal, hq, hstate]
  simp [swapOut, hq, hbegun, hallowed, hmove, hwritable, hfits]

theorem release_frees (h : q.state = .blockedHost ∨ q.state = .swapped ∨ q.state = .done) :
    release? c s = finish c {} (freeSeq e s) := by
  obtain ⟨hslot, -⟩ := seqOf_slot hq
  have hallowed : releaseRefusal s c = none := by
    obtain h | h | h := h <;> simp [releaseRefusal, hq, h]
  rw [release?, hallowed, hslot]
  rfl

theorem release_conflict
    (h : q.state = .prefill ∨ q.state = .decode ∨ q.state = .blockedRetrieval ∨ q.state = .finishing)
    (hstranded : stranded s = false) : release? c s = fail c .stateConflict (2 + 256 * q.state.code) s := by
  have hrefused : releaseRefusal s c = inState 2 q.state.code := by
    obtain h | h | h | h := h <;> simp [releaseRefusal, hq, h, hstranded]
  rw [release?, hrefused]
  rfl

theorem seqAnswer_found : seqAnswer c s = recordResult s c (seqRecord s e q) { value := q.state.code } := by
  rw [seqAnswer, hq]

end Management

/-- Settles O21: each row's checks pass or refuse by the state of its sequence, and what a row does to the entry is the
law of its operation. -/
theorem sequenceManagement : Obligations.SequenceManagement := by
  intro s id c e q hq
  obtain ⟨-, hlisted⟩ := seqOf_slot hq
  refine ⟨fun ad v hr hfin hdone had hpick => ?_, fun hr hbegun hstate hmove hwritable hfits => ?_,
    fun hr => ?_, fun hr => ?_⟩
  · have hrun : exec (.seqRebind id) s = .next (rebind c s) := congrArg _ (runCmd_runs hr _)
    exact ⟨_, hrun.trans (congrArg _ (rebind_found hq hfin hdone had hpick)), find?_setSeq hlisted _,
      fun _ hn => find?_setSeq_other hn _ s⟩
  · have hrun : exec (.seqSwapOut id) s = .next (swapOut c s) := congrArg _ (runCmd_runs hr _)
    exact ⟨_, hrun.trans (congrArg _ (swapOut_evicts hq hbegun hstate hmove hwritable hfits)),
      find?_setSeq (s := orderMove _ s) hlisted _, rfl⟩
  · have hrun : exec (.seqRelease id) s = .next (release? c s) := congrArg _ (runCmd_runs hr _)
    rw [hrun]
    exact ⟨fun h => ⟨_, congrArg _ (release_frees hq h), by rw [freeSeq_seqs, find?_del_self]⟩,
      fun h hstranded => congrArg _ (release_conflict hq h hstranded)⟩
  · have hrun : exec (.seqQuery id) s = .next (querySeq c s) := congrArg _ (runCmd_runs hr _)
    rw [hrun, querySeq, answerWith, seqAnswer_found hq]
    rfl

end Sys2Proof.Proofs
end

section
/-! SUPPORT. Proofs about the commit of a token (R158, R160, R220, R234). -/

open Sys2Proof Sys2Proof.Machine Sys2Proof.Laws
namespace Sys2Proof.Proofs

/-- The grammar context of a sequence after a token: the trigger, and a token without a grammar, leave it (R220). -/
def ctxAfter (s : State) (q : Machine.Seq) (token : Nat) : Context :=
  match seqGrammar s q with
  | some g => if trigger? q == some token then q.ctx else advanceGrammar g q.ctx token
  | none => q.ctx

theorem ctxAfter_kept {s : State} {q : Machine.Seq} {token : Nat}
    (h : seqGrammar s q = none ∨ trigger? q = some token) : ctxAfter s q token = q.ctx := by
  obtain hfree | htrigger := h
  · simp [ctxAfter, hfree]
  · cases hg : seqGrammar s q <;> simp [ctxAfter, hg, htrigger]

theorem ctxAfter_advanced {s : State} {q : Machine.Seq} {token : Nat} {g : List Byte} (hg : seqGrammar s q = some g)
    (h : trigger? q ≠ some token) : ctxAfter s q token = advanceGrammar g q.ctx token := by
  simp [ctxAfter, hg, h]

theorem countSelected_obj (t : Fin 64) (x : Selected) (fallback : Bool) (s : State) :
    (countSelected t x fallback s).obj = s.obj := by simp only [countSelected, bump_obj]

theorem countSelected_tenants (t : Fin 64) (x : Selected) (fallback : Bool) (s : State) :
    (countSelected t x fallback s).tenants = s.tenants := by simp only [countSelected, bump_tenants]

/-- Before the check phase's decision is applied, the tenant has counted the selected token and the sequence has taken
it, with its grammar context. -/
theorem commitToken_eq {s : State} {e : Nat} {q : Machine.Seq} {x : Selected} {fallback : Bool} {logits : List F32}
    (hq : find? s.obj.seqs e = some q)
    (hx : selectToken (selectParams s e q fallback) (rowMask s q) logits q.tokens.length = x) (row : Row) :
    ∃ d f u, commitToken row fallback logits e s = applyDecision e d (setSeq e f u) ∧ u.obj = s.obj
      ∧ u.tenants = upd s.tenants q.tenant (fun t => { t with tokensCommitted := t.tokensCommitted + 1 })
      ∧ (f q).tokens = q.tokens ++ [x.token]
      ∧ (f q).generated = q.generated + 1 ∧ (f q).ctx = ctxAfter s q x.token := by
  simp only [commitToken, hq, hx]
  refine ⟨_, _, _, rfl, ?_, ?_, rfl, rfl, rfl⟩
  · simp only [setTenant_obj, bump_obj, countSelected_obj]
  · simp only [setTenant, bump_tenants, countSelected_tenants]

/-- Settles O41: the sequence has taken the token before the check phase decides, and no decision takes it back
(`keepTok_apply`). -/
theorem tokenCommits : Obligations.TokenCommits := by
  intro s row fallback logits e q hq x t
  obtain ⟨d, f, u, ht, hobj, htenants, htokens, hgenerated, hctx⟩ := commitToken_eq hq rfl row
  have hu : find? u.obj.seqs e = some q := by rw [hobj]; exact hq
  have hcounted : t.tenants = upd s.tenants q.tenant (fun t => { t with tokensCommitted := t.tokensCommitted + 1 }) :=
    (congrArg State.tenants ht).trans (commit_tenants.trans htenants)
  refine ⟨?_, by simp [hcounted], fun n hn => by rw [hcounted, look_upd_other _ _ hn.symm]⟩
  obtain ⟨q', hq', htok, hgen, hctx'⟩ :=
    commit_core (d := d) (P := (· = ctxAfter s q x.token)) hu htokens hgenerated hctx
  exact ⟨q', (congrArg (fun t : State => find? t.obj.seqs e) ht).trans hq', htok, hgen,
    fun h => hctx'.trans (ctxAfter_kept h), fun g hg h => hctx'.trans (ctxAfter_advanced hg h)⟩

end Sys2Proof.Proofs
end

section
/-! SUPPORT. Proofs about SEQUENCE_RESTORE, SEQUENCE_EVICT and SEQUENCE_RELOCATE (R178 to R181, R486). -/

open Sys2Proof Sys2Proof.Machine Sys2Proof.Laws
namespace Sys2Proof.Proofs

theorem restoreCourse_of {s : State} {q : Machine.Seq} {c : Fin 4} (hfits : seqFits s q c = true)
    (h : c = q.course ∨ seqFits s q q.course = false) : restoreCourse s q c = true := by
  obtain rfl | hother := h <;> simp [restoreCourse, *]

theorem exec_sequenceRestore {s : State} {e : Nat} {q : Machine.Seq} {c : Fin 4} (hq : find? s.obj.seqs e = some q)
    (hawake : awake s = true) (hwaits : waitsRestore q = true) (hfirst : restoreFirst s e q = true)
    (hcourse : restoreCourse s q c = true) : exec (.sequenceRestore e c) s = .next (bring e (.restoring c) s) := by
  show execSequenceRestore e c s = _
  simp [execSequenceRestore, hq, hawake, hwaits, hfirst, hcourse]

theorem exec_sequenceEvict {s : State} {c : Fin 4} (hactive : courseActive s c = true)
    (hlack : rowsLackPages s c = true ∨ restoreLacksPages s = true)
    (hnone : ∀ q ∈ s.obj.seqs, ¬ (q.2.course = c ∧ holdsSwap q.2 = true ∧ q.2.inFlash = false)) :
    exec (.sequenceEvict c) s = .next (evictFirst c s) := by
  have hidle : s.obj.seqs.any (fun q => q.2.course == c && holdsSwap q.2 && !q.2.inFlash) = false :=
    List.any_eq_false.2 fun q hq => by simpa [and_assoc] using hnone q hq
  have hneed : (rowsLackPages s c || restoreLacksPages s) = true := by simpa using hlack
  show execSequenceEvict c s = _
  simp [execSequenceEvict, hactive, hneed, hidle]

section Evict
variable (s : State) (c : Fin 4)

/-- The candidates that flash cannot take before the first that it can. -/
def evictSkipped : Nat := ((evictOrder s c).takeWhile (fun q => !swapFits s q.2)).length

theorem evictFirst_takes {q : Nat × Machine.Seq} (hq : (evictOrder s c)[evictSkipped s c]? = some q) :
    evictFirst c s = evict q.1 none (bump (fabricClk c) 0x0207 (evictSkipped s c) s) := by
  unfold evictSkipped at hq
  simp only [evictFirst, hq, evictSkipped]

theorem evictFirst_skipsAll (hnone : (evictOrder s c)[evictSkipped s c]? = none) :
    evictFirst c s = bump (fabricClk c) 0x0207 (evictSkipped s c) s := by
  unfold evictSkipped at hnone
  simp only [evictFirst, hnone, evictSkipped]

end Evict

theorem exec_sequenceRelocate {s : State} {e : Nat} {q : Machine.Seq} {c : Fin 4} (hq : find? s.obj.seqs e = some q)
    (hawake : awake s = true) (hleaves : leavesCourse s q.course = true) (hresident : q.inFlash = false)
    (hdone : q.state ≠ .done) (hswap : q.swap = .none) (hboundary : atStepBoundary s e q = true) (hother : c ≠ q.course)
    (hfits : seqFits s q c = true) (hstays : leavesCourse s c = false) :
    exec (.sequenceRelocate e c) s = .next (bring e (.relocating c) s) := by
  have hlive : isDone q = false := by simp [isDone, hdone]
  show execSequenceRelocate e c s = _
  simp [execSequenceRelocate, hq, hawake, hleaves, hresident, hlive, hswap, hboundary, hother, hfits, hstays]

/-- Settles O42: each row's conditions hold, and the move is the one that `bring` or `evict` orders. -/
theorem sequenceMovesByDevice : Obligations.SequenceMovesByDevice := by
  intro s hawake
  refine ⟨fun e q c hq hwaits hfirst hfits hcourse => ?_, fun c hlost hup hlack hnone => ?_,
    fun e q c hq hleaves hresident hdone hswap hboundary hother hfits hstays => ?_⟩
  · exact exec_sequenceRestore hq hawake hwaits hfirst (restoreCourse_of hfits hcourse)
  · have hactive : courseActive s c = true := by simp [courseActive, hawake, hlost, hup]
    rw [exec_sequenceEvict hactive hlack hnone]
    exact ⟨fun q hq => congrArg _ (evictFirst_takes s c hq), fun hq => congrArg _ (evictFirst_skipsAll s c hq)⟩
  · exact exec_sequenceRelocate hq hawake hleaves hresident hdone hswap hboundary hother hfits hstays

end Sys2Proof.Proofs
end

section
/-! SUPPORT. Proofs about STEP_BUILD and FILL_WAIT_EXPIRY: when a lane builds, and what a build of the generation lane
leaves in it (R162, R166, R172). -/

open Sys2Proof Sys2Proof.Machine Sys2Proof.Laws
namespace Sys2Proof.Proofs

section Build
variable {s : State} {c : Fin 4} {lane : Lane} (jobs : List Job) (early : Bool)

theorem buildWhen_held
    (h : (laneOf s c lane).step ≠ none ∨ courseActive s c = false ∨ stopped s (fabricClk c) = true) :
    buildWhen c lane jobs early s = s := by
  refine if_pos ?_
  obtain hstep | hactive | hfabric := h
  · simp [Option.isSome_iff_ne_none.2 hstep]
  · simp [hactive]
  · simp [hfabric]

section Open
variable (hstep : (laneOf s c lane).step = none) (hactive : courseActive s c = true)
  (hfabric : stopped s (fabricClk c) = false)
include hstep hactive hfabric

theorem buildWhen_open :
    let u := atBoundary c lane s
    let xs := candidatesOf u c lane
    buildWhen c lane jobs early s = if xs.isEmpty then u
      else if (early && filled u lane xs) || waited u c lane xs then buildStep c lane jobs (!filled u lane xs) u else u := by
  simp [buildWhen, hstep, hactive, hfabric]

theorem buildWhen_noCandidate (hnone : candidatesOf (atBoundary c lane s) c lane = []) :
    buildWhen c lane jobs early s = atBoundary c lane s := by
  simp [buildWhen_open jobs early hstep hactive hfabric, hnone]

theorem buildWhen_builds (hsome : candidatesOf (atBoundary c lane s) c lane ≠ [])
    (hdue : ((early && filled (atBoundary c lane s) lane (candidatesOf (atBoundary c lane s) c lane))
      || waited (atBoundary c lane s) c lane (candidatesOf (atBoundary c lane s) c lane)) = true) :
    buildWhen c lane jobs early s = buildStep c lane jobs
      (!filled (atBoundary c lane s) lane (candidatesOf (atBoundary c lane s) c lane)) (atBoundary c lane s) := by
  simp only [buildWhen_open jobs early hstep hactive hfabric, hdue, List.isEmpty_iff, hsome, if_true, if_false]

theorem buildWhen_waits
    (hearly : (early && filled (atBoundary c lane s) lane (candidatesOf (atBoundary c lane s) c lane)) = false)
    (hwait : waited (atBoundary c lane s) c lane (candidatesOf (atBoundary c lane s) c lane) = false) :
    buildWhen c lane jobs early s = atBoundary c lane s := by
  simp only [buildWhen_open jobs early hstep hactive hfabric, hearly, hwait, Bool.or_self, Bool.false_eq_true, if_false,
    ite_self]

end Open
end Build

/-! ## What a build of the generation lane leaves in its lane -/

theorem startJobs_courses (c : Fin 4) (lane : Lane) (rows : List Row) (s : State) :
    (startJobs c lane rows s).eng.courses = s.eng.courses := by
  refine foldS_courses _ (fun s r => ?_) rows s
  split
  · exact startJob_courses ..
  · split
    · exact startJob_courses ..
    · rfl
  · rfl

/-- After the step's rows and the deficits are set, neither its jobs, its chains nor the starvation counts change them. -/
theorem startGeneration_lane (c : Fin 4) (b : Building) (reserve : Bool) (s : State) :
    (laneOf (startGeneration c b reserve s) c .generation).deficits = b.deficits
      ∧ (laneOf (startGeneration c b reserve s) c .generation).step.map (·.rows) = some b.rows := by
  unfold startGeneration
  dsimp only
  obtain ⟨hdeficits, hrows⟩ := sameRows_trans (sameRows_of ((startJobs_courses c .generation b.rows _).trans
    (countStarved_courses b _))) (sameRows_startActs c .generation (rowGroups s b.rows) _)
  rw [stepOf_setLane] at hdeficits hrows
  exact ⟨hdeficits, hrows⟩

section Generation
variable (s : State) (c : Fin 4) (jobs : List Job)

/-- What a build of the generation lane finds. -/
def generationBuild : Building × Bool :=
  buildGeneration s c jobs (newDeficits s (laneOf s c .generation)
    (firstMet ((candidatesOf s c .generation).map (·.tenant))))

theorem buildStep_generation (expired : Bool) : buildStep c .generation jobs expired s =
    if (generationBuild s c jobs).1.rows.isEmpty then s
    else startGeneration c (generationBuild s c jobs).1 (generationBuild s c jobs).2
      (countBuild c (generationBuild s c jobs).1 (generationBuild s c jobs).2 expired s) := rfl

variable {s c jobs}

theorem buildStep_noRows (hrows : (generationBuild s c jobs).1.rows = []) (expired : Bool) :
    buildStep c .generation jobs expired s = s := by
  simp [buildStep_generation, hrows]

theorem buildStep_rows (hrows : (generationBuild s c jobs).1.rows ≠ []) (expired : Bool) :
    (laneOf (buildStep c .generation jobs expired s) c .generation).deficits = (generationBuild s c jobs).1.deficits
      ∧ (laneOf (buildStep c .generation jobs expired s) c .generation).step.map (·.rows)
        = some (generationBuild s c jobs).1.rows := by
  rw [buildStep_generation, if_neg (by simpa using hrows)]
  exact startGeneration_lane ..

end Generation

/-- Settles O39: the two rows are `buildWhen` with and without the fill target, and a build of the generation lane
starts the step that it found. -/
theorem stepBuilds : Obligations.StepBuilds := by
  intro s c lane jobs
  refine ⟨fun h => ⟨congrArg _ (buildWhen_held jobs true h), congrArg _ (buildWhen_held jobs false h)⟩,
    fun hstep hactive hfabric => ?_, fun expired => ⟨fun hrows => buildStep_noRows hrows expired, fun hrows => ?_⟩⟩
  · refine ⟨fun hnone => ?_, fun hsome hfull => ?_, fun hsome hwaited => ?_, fun hopen hwaits => ?_, fun hwaits => ?_⟩
    · exact ⟨congrArg _ (buildWhen_noCandidate jobs true hstep hactive hfabric hnone),
        congrArg _ (buildWhen_noCandidate jobs false hstep hactive hfabric hnone)⟩
    · have hbuild := buildWhen_builds jobs true hstep hactive hfabric hsome (Bool.or_eq_true_iff.2 (.inl hfull))
      exact congrArg _ (hbuild.trans (by rw [show filled (atBoundary c lane s) lane _ = true from hfull]; rfl))
    · exact ⟨congrArg _ (buildWhen_builds jobs true hstep hactive hfabric hsome (Bool.or_eq_true_iff.2 (.inr hwaited))),
        congrArg _ (buildWhen_builds jobs false hstep hactive hfabric hsome hwaited)⟩
    · exact ⟨congrArg _ (buildWhen_waits jobs true hstep hactive hfabric hopen hwaits),
        congrArg _ (buildWhen_waits jobs false hstep hactive hfabric rfl hwaits)⟩
    · exact congrArg _ (buildWhen_waits jobs false hstep hactive hfabric rfl hwaits)
  · obtain ⟨hdeficits, hstep⟩ := buildStep_rows hrows expired
    exact ⟨hstep, hdeficits⟩

end Sys2Proof.Proofs
end

section
/-! SUPPORT. Proofs about SEQ_APPEND in its step and the carry flush (R158, R205, R210, R548). -/

open Sys2Proof Sys2Proof.Machine Sys2Proof.Laws
namespace Sys2Proof.Proofs

/-! ## A command's job on its thread (R17) -/

theorem startJob_obj (owner : JobOwner) (c : Fin 4) (lane : Lane) (core : Nat) (s : State) :
    (startJob owner c lane core s).obj = s.obj := by
  unfold startJob
  split <;> rfl

section Thread
variable {s : State} {id : Nat} {c : Fin 4} {lane : Lane} {row : Row} (body : State → State)

theorem withThread_runs
    (hthread : onThread (startJob (.command id) c lane (coreNumber row.tile row.core) s) (.command id) = true)
    (hclock : stopped (startJob (.command id) c lane (coreNumber row.tile row.core) s) (tileClk row.tile) = false) :
    withThread id c lane row body s
      = runJobs (body (startJob (.command id) c lane (coreNumber row.tile row.core) s)) := by
  simp [withThread, hthread, hclock]

theorem withThread_waits
    (h : onThread (startJob (.command id) c lane (coreNumber row.tile row.core) s) (.command id) = false
      ∨ stopped (startJob (.command id) c lane (coreNumber row.tile row.core) s) (tileClk row.tile) = true) :
    withThread id c lane row body s = startJob (.command id) c lane (coreNumber row.tile row.core) s := by
  obtain hthread | hclock := h
  · simp [withThread, hthread]
  · simp [withThread, hclock]

end Thread

/-! ## SEQ_APPEND -/

theorem inputRefusal_none {s : State} {c : Cmd} {e : Nat} {q : Machine.Seq} (hq : seqOf s c.sid c.handle = some (e, q))
    (hstranded : stranded s = false) (htakes : takesInput q = true) : inputRefusal s c = none := by
  simp [inputRefusal, hq, hstranded, htakes]

/-- The work of a SEQ_APPEND on its thread: text is tokenized after the carry, tokens are checked. -/
def appendWork (c : Cmd) (e : Nat) (q : Machine.Seq) (tile : Fin 64) (b : List Byte) (s : State) : State :=
  if c.arg 16 1 = 0 then
    let r := appendText s e q b
    setCmd c.id (fun x => { x with result := some r.1 }) (countTokens tile b.length r.2.1 r.2.2 0 s)
  else setCmd c.id (fun x => { x with result := some (appendTokens s e q (tokenList b)) }) s

theorem exec_seqAppend {s : State} {id : Nat} {c : Cmd} {e : Nat} {q : Machine.Seq} {row : Row} (hr : Runs s id 0x0201 c)
    (hq : seqOf s c.sid c.handle = some (e, q)) (hstranded : stranded s = false) (htakes : takesInput q = true)
    (hrow : appendRow s c q = some row) (b : Input) : exec (.seqAppend id b) s
      = .next (withThread c.id q.course .generation row (withInput c b (appendWork c e q row.tile)) s) := by
  have hrun : exec (.seqAppend id b) s = .next (appendJob b c s) := congrArg _ (runCmd_runs hr _)
  rw [hrun, appendJob, hq]
  simp only [inputRefusal_none hq hstranded htakes, hrow]
  rfl

/-- Tokens below TOKENS are judged by CONTEXT alone (R144). -/
theorem appendTokens_known {s : State} {q : Machine.Seq} {ts : List Nat} (h : ∀ t ∈ ts, t < vocTokens (seqVocab s q))
    (e : Nat) : appendTokens s e q ts
      = if overflows s q ts then { status := .contextFull, effect := .none } else { act := .append e ts [] } := by
  have hknown : ts.findIdx? (fun t => vocTokens (seqVocab s q) ≤ t) = none :=
    List.findIdx?_eq_none_iff.2 fun t ht => by simpa using h t ht
  simp only [appendTokens, hknown]

/-! ## CARRY_FLUSH_DONE -/

theorem runnableNow_obj (s : State) (e : Nat) (t : State) : (runnableNow s e t).obj = t.obj :=
  foldS_same State.obj _ (fun t c => by split <;> rfl) _ _

theorem find?_addInput {s : State} {e : Nat} {q : Machine.Seq} {bos ts : List Nat} (hq : find? s.obj.seqs e = some q)
    (hbos : bosFor s q ts = bos) : find? (addInput e ts s).obj.seqs e
      = some { q with input := q.input ++ bos ++ ts, started := q.started || !ts.isEmpty } := by
  simp only [addInput, hq, hbos]
  exact find?_setSeq hq _

theorem countTokens_obj (t : Fin 64) (bytes tokens invalid dropped : Nat) (s : State) :
    (countTokens t bytes tokens invalid dropped s).obj = s.obj := by simp only [countTokens, bump_obj]

/-- BOS is placed by the vocabularies and by whether input has begun, whatever the carry (R205). -/
theorem bosFor_congr {s t : State} {q x : Machine.Seq} (hvocabs : t.obj.vocabs = s.obj.vocabs) (hvocab : x.vocab = q.vocab)
    (hstarted : x.started = q.started) (ts : List Nat) : bosFor t x ts = bosFor s q ts := by
  have hv : seqVocab t x = seqVocab s q := by simp only [seqVocab, hvocabs, hvocab]
  unfold bosFor
  rw [hv, hstarted]

theorem find?_flush {s : State} {e : Nat} {q : Machine.Seq} (hq : find? s.obj.seqs e = some q) :
    let ts := (flushCarry (seqVocab s q) (ruleOf s (seqVocab s q)) q.carry).1
    find? (flush e s).obj.seqs e
      = some { q with carry := [], input := q.input ++ bosFor s q ts ++ ts, started := q.started || !ts.isEmpty } := by
  intro ts
  simp only [flush, hq]
  exact find?_addInput (find?_setSeq (by rw [countTokens_obj]; exact hq) (fun x => { x with carry := [] }))
    (bosFor_congr (congrArg Objects.vocabs (countTokens_obj ..)) rfl rfl ts)

theorem exec_carryFlushDone_append {s : State} {e : Nat} {q : Machine.Seq} (hq : find? s.obj.seqs e = some q)
    (hcarry : q.carry ≠ []) (hrun : q.run = none) (hwaits : flushWaits s e = true) :
    exec (.carryFlushDone e) s = .next (runnableNow s e (flush e s)) := by
  show execCarryFlushDone e s = _
  simp [execCarryFlushDone, hq, hcarry, hrun, hwaits]

/-- Settles O19: a SEQ_APPEND in its step does its work once its job holds a thread, and the flush leaves the carry's
tokens in the input. -/
theorem sequenceInput : Obligations.SequenceInput := by
  intro s id c e q row
  refine ⟨fun hr hq hstranded htakes hrow => ?_, fun hq hcarry hrun hwaits =>
    ⟨_, exec_carryFlushDone_append hq hcarry hrun hwaits, by rw [runnableNow_obj]; exact find?_flush hq⟩⟩
  have hexec := exec_seqAppend hr hq hstranded htakes hrow
  refine ⟨fun hwaits b => (hexec b).trans (congrArg _ (withThread_waits _ hwaits)),
    fun hthread hclock => ⟨fun b hkind hknown => ?_, fun b hkind => ?_⟩⟩
  · rw [hexec, withThread_runs _ hthread hclock, withInput, appendWork, if_neg hkind, appendTokens_known]
    rw [seqVocab, startJob_obj]
    exact hknown
  · rw [hexec, withThread_runs _ hthread hclock, withInput, appendWork, if_pos hkind]

end Sys2Proof.Proofs
end

section
/-! SUPPORT. Proofs about SEQ_GENERATE at its dispatch (R158, R191, R548). -/

open Sys2Proof Sys2Proof.Machine Sys2Proof.Laws
namespace Sys2Proof.Proofs

/-! ## The start of a run on resident pages -/

theorem dma_nil (c : Cmd) (offset at_ : Nat) (s : State) : dma c offset at_ [] s = s := by simp [dma]

section Start
variable {s : State} {e : Nat} {q : Machine.Seq} (hq : find? s.obj.seqs e = some q)
include hq

theorem find?_enter (st : SeqState) : find? (enter e st s).obj.seqs e
    = some { q with state := st, enteredAt := s.now, enteredCycles := cyclesOf s (fabricClk q.course)
                    enteredCourse := q.course } := find?_setSeq hq _

theorem askMask_free (hfree : q.grammar = none) : askMask e s = s := by simp [askMask, hq, hfree]

theorem find?_askMask_enter (hfree : q.grammar = none) (st : SeqState) : find? (askMask e (enter e st s)).obj.seqs e
    = some { q with state := st, enteredAt := s.now, enteredCycles := cyclesOf s (fabricClk q.course)
                    enteredCourse := q.course } := by
  rw [askMask_free (find?_enter hq st) hfree]
  exact find?_enter hq st

variable {r : Run} {c : Cmd} (hrun : q.run = some r) (hc : findCmd s r.cmd = some c) (htext : q.undelivered = [])
include hrun hc htext

/-- Without undelivered text OUTPUT takes nothing. -/
theorem deliver_nothing : deliver e s = setSeq e (fun x => { x with run := some r }) s := by
  simp [deliver, hq, hrun, hc, htext, dma_nil]

theorem find?_deliver_nothing : find? (deliver e s).obj.seqs e = some q := by
  rw [deliver_nothing hq hrun hc htext, find?_setSeq hq, ← hrun]

variable (hbroken : outputBroken s c = false) (hstop : q.heldStop = none)
include hbroken hstop

theorem startRun_begins (hwork : q.input ≠ [] ∨ q.tokens ≠ []) : startRun e s = askMask e
    (if q.input ≠ [] then
        enter e .prefill (setSeq e (fun x => { x with runnable := true, runnableAt := s.now }) (deliver e s))
      else enter e .decode (setSeq e (fun x => { x with runnable := true, runnableAt := s.now, span := [] })
        (deliver e s))) := by
  have hdelivered := deliver_nothing hq hrun hc htext
  have hleft : textLeft (deliver e s) e = false :=
    textLeft_of (find?_deliver_nothing hq hrun hc htext) htext hrun (by rw [hdelivered]; exact hc)
      (by rw [hdelivered]; exact hbroken)
  have hnow : (deliver e s).now = s.now := by rw [hdelivered]; rfl
  by_cases hinput : q.input = []
  · have htokens : q.tokens ≠ [] := hwork.resolve_left (fun h => h hinput)
    simp [startRun, hq, hrun, hc, hleft, hstop, hinput, htokens, hnow]
  · simp [startRun, hq, hrun, hc, hleft, hstop, hinput, hnow]

/-- The sequence enters PREFILL for its pending input, else DECODE (R158). -/
theorem find?_startRun (hfree : q.grammar = none) (hwork : q.input ≠ [] ∨ q.tokens ≠ []) :
    ∃ x, find? (startRun e s).obj.seqs e = some x ∧ (x.state = if q.input ≠ [] then .prefill else .decode)
      ∧ x.runnable = true ∧ x.run = some r ∧ x.tokens = q.tokens ∧ x.input = q.input := by
  have hdelivered := find?_deliver_nothing hq hrun hc htext
  rw [startRun_begins hq hrun hc htext hbroken hstop hwork]
  by_cases hinput : q.input = []
  · rw [if_neg (not_not.2 hinput), if_neg (not_not.2 hinput)]
    exact ⟨_, find?_askMask_enter (find?_setSeq hdelivered _) hfree _, rfl, rfl, hrun, rfl, rfl⟩
  · rw [if_pos hinput, if_pos hinput]
    exact ⟨_, find?_askMask_enter (find?_setSeq hdelivered _) hfree _, rfl, rfl, hrun, rfl, rfl⟩

end Start

/-! ## The command at its dispatch -/

/-- The run that a SEQ_GENERATE starts; with a carry it waits for the flush. -/
def generationRun (c : Cmd) (q : Machine.Seq) : Run :=
  { cmd := c.id, interval := c.arg 0 2, maxNew := if c.arg 4 4 = 0 then q.maxNew else c.arg 4 4
    flushing := !q.carry.isEmpty }

/-- A sequence with a new run. -/
def withRun (r : Run) (q : Machine.Seq) : Machine.Seq := { q with run := some r, stopReason := 0 }

/-- A sequence whose run waits for no flush. -/
def flushed (q : Machine.Seq) : Machine.Seq := { q with run := q.run.map (fun r => { r with flushing := false }) }

/-- Without a carry the run is the same before and after it takes effect. -/
theorem flushed_withRun {c : Cmd} {q : Machine.Seq} (hcarry : q.carry = []) :
    flushed (withRun (generationRun c q) q) = withRun (generationRun c q) q := by
  simp [flushed, withRun, generationRun, hcarry]

section Effect
variable {s : State} {e : Nat} {q : Machine.Seq} (hq : find? s.obj.seqs e = some q)
include hq

theorem takeEffect_waits (h : q.state = .swapped ∨ q.swap ≠ .none) : takeEffect e s
    = setSeq e (fun x => { x with runnable := true, runnableAt := s.now }) (setSeq e flushed s) := by
  simp only [takeEffect, hq, if_pos h]
  rfl

theorem takeEffect_starts (hstate : q.state ≠ .swapped) (hswap : q.swap = .none) :
    takeEffect e s = startRun e (setSeq e flushed s) := by
  simp only [takeEffect, hq, hstate, hswap, ne_eq, not_true_eq_false, or_self, if_false]
  rfl

end Effect

theorem exec_seqGenerate {s : State} {id : Nat} {c : Cmd} {e : Nat} {q : Machine.Seq} (hr : Runs s id 0x0202 c)
    (hq : seqOf s c.sid c.handle = some (e, q)) (hstranded : stranded s = false) (hrun : q.run = none)
    (htakes : takesInput q = true) (hsome : nothingYet q = false) : exec (.seqGenerate id) s = .next
      (if q.carry.isEmpty then takeEffect e (setSeq e (withRun (generationRun c q)) s)
        else setSeq e (withRun (generationRun c q)) s) := by
  have hexec : exec (.seqGenerate id) s = .next (generate c s) := congrArg _ (runCmd_runs hr _)
  have hallowed : generateRefusal s c = none := by
    simp [generateRefusal, inputRefusal, hq, hstranded, htakes, hsome]
  rw [hexec]
  simp only [generate, hq, hrun, hallowed, Option.any_none, Bool.false_eq_true, if_false]
  rfl

/-- Settles O20: the run waits for the flush of a carry, for the restore of a sequence in flash, or starts at once. -/
theorem generationStart : Obligations.GenerationStart := by
  intro s id c e q hr hq hstranded hrun htakes run
  obtain ⟨-, hlisted⟩ := seqOf_slot hq
  have hstart := exec_seqGenerate hr hq hstranded hrun htakes
  have hnew := find?_setSeq hlisted (withRun (generationRun c q))
  refine ⟨fun hcarry => ⟨_, hstart (by simp [nothingYet, hcarry]), ?_⟩, fun hcarry hwaits => ⟨_, hstart ?_, ?_⟩,
    fun hcarry hstate hswap htext hstop hfree hbroken hid hwork => ?_⟩
  · rw [if_neg (by simpa using hcarry), hnew]
    simp [withRun, generationRun, run, hcarry]
  · obtain hstate | ⟨-, hsome⟩ := hwaits
    · simp [nothingYet, hstate]
    · exact hsome
  · rw [if_pos (by simpa using hcarry), takeEffect_waits hnew (hwaits.imp_right And.left),
      find?_setSeq (find?_setSeq hnew flushed), flushed_withRun hcarry]
    simp [withRun, generationRun, run, hcarry]
  · have hplain : generationRun c q = run := by simp [generationRun, run, hcarry]
    have hsome : nothingYet q = false := by obtain h | h := hwork <;> simp [nothingYet, h]
    have hbegun := find?_setSeq hnew flushed
    rw [flushed_withRun hcarry, hplain] at hbegun
    have hfound : findCmd s c.id = some c := by obtain ⟨hfound, -⟩ := hr; rw [hid]; exact hfound
    obtain ⟨x, hx⟩ := find?_startRun (r := run) (c := c) hbegun rfl hfound htext hbroken hstop hfree hwork
    refine ⟨_, x, hstart hsome, ?_⟩
    rw [if_pos (by simpa using hcarry), takeEffect_starts hnew (by simp [withRun, hstate]) hswap, hplain]
    exact hx

end Sys2Proof.Proofs
end

section
/-! SUPPORT. Proofs about RETRIEVE, RERANK, PACK and RETRIEVE_RERANK_PACK in their step (R159, R283 to R286, R303, R304,
R309, R316, R320). -/

open Sys2Proof Sys2Proof.Machine Sys2Proof.Laws
namespace Sys2Proof.Proofs

section Rows
variable {s u : State} {id : Nat} {c : Cmd} {row : Row} (hrow : laneRow s c = some row)
include hrow

/-- A row that lost its weights keeps the status of the loss. -/
theorem retrievalJob_lost {st : Status} (hfate : row.fate = some st) (body : Row → State → State) :
    retrievalJob c body s = startWaiting (hold c { status := st, effect := .none } s) := by
  simp [retrievalJob, laneUse, hrow, hfate]

variable (hfate : row.fate = none)
  (hu : startJob (.command c.id) (c.course.getD 0) .retrieval (coreNumber row.tile row.core) s = u)
  (hthread : onThread u (.command c.id) = true) (hclock : stopped u (tileClk row.tile) = false)
include hfate hu hthread hclock

theorem retrievalJob_runs (body : Row → State → State) :
    retrievalJob c body s = startWaiting (runJobs (body row u)) := by
  subst hu
  simp only [retrievalJob, laneUse, hrow, hfate, withThread_runs _ hthread hclock]

theorem exec_retrieve (hr : Runs s id 0x0300 c) :
    exec (.retrieve id) s = .next (startWaiting (runJobs (retrieveRun c row u))) := by
  have hexec : exec (.retrieve id) s = .next (retrievalJob c (retrieveRun c) s) := congrArg _ (runCmd_runs hr _)
  rw [hexec, retrievalJob_runs hrow hfate hu hthread hclock]

theorem exec_retrieveRerankPack (hr : Runs s id 0x0303 c) :
    exec (.retrieveRerankPack id) s = .next (startWaiting (runJobs (rrpRun c row u))) := by
  have hexec : exec (.retrieveRerankPack id) s = .next (retrievalJob c (rrpRun c) s) := congrArg _ (runCmd_runs hr _)
  rw [hexec, retrievalJob_runs hrow hfate hu hthread hclock]

variable (hcrossed : crossDone u (c.course.getD 0) = true)
include hcrossed

theorem exec_pack (hr : Runs s id 0x0302 c) (b : List Byte) :
    exec (.pack id (.data b)) s = .next (startWaiting (runJobs (packSet c row b u))) := by
  have hexec : exec (.pack id (.data b)) s = .next (retrievalJob c (fun row s =>
      if crossDone s (c.course.getD 0) then laneInput c (.data b) (packSet c row) s else s) s) :=
    congrArg _ (runCmd_runs hr _)
  rw [hexec, retrievalJob_runs hrow hfate hu hthread hclock, if_pos hcrossed, laneInput]

theorem exec_rerank (hr : Runs s id 0x0301 c) (hfeatures : featuresRun u (reqOfCmd c) = true) (b : List Byte) :
    exec (.rerank id (.data b)) s = .next (startWaiting (runJobs (rerankSet c row b u))) := by
  have hexec : exec (.rerank id (.data b)) s = .next (retrievalJob c (fun row s =>
      if crossDone s (c.course.getD 0) && featuresRun s (reqOfCmd c) then laneInput c (.data b) (rerankSet c row) s
      else s) s) :=
    congrArg _ (runCmd_runs hr _)
  rw [hexec, retrievalJob_runs hrow hfate hu hthread hclock, if_pos (Bool.and_eq_true_iff.2 ⟨hcrossed, hfeatures⟩),
    laneInput]

end Rows

/-- Settles O25: the row's job does the work of its command on its thread, and the work past its checks is what the
statement writes out. -/
theorem retrievalLaneCommands : Obligations.RetrievalLaneCommands := by
  intro s id c row hrow
  refine ⟨fun st hfate hr => ?_, ?_⟩
  · have hexec : exec (.retrieve id) s = .next (retrievalJob c (retrieveRun c) s) := congrArg _ (runCmd_runs hr _)
    rw [hexec, retrievalJob_lost hrow hfate]
    rfl
  intro hfate u
  have hu : startJob (.command c.id) (c.course.getD 0) .retrieval (coreNumber row.tile row.core) s = u := rfl
  clear_value u
  refine fun hthread hclock => ⟨fun hr hended => ?_, fun b hr hcrossed hfeatures hset hrefusal => ?_,
    fun b hr hcrossed hset => ?_, fun hr hwalked hcrossed hfeatures => ?_⟩
  · rw [exec_retrieve hrow hfate hu hthread hclock hr, retrieveRun, hended]
    rfl
  · rw [exec_rerank hrow hfate hu hthread hclock hcrossed hr hfeatures b]
    simp only [rerankSet, hset, hrefusal]
    rfl
  · rw [exec_pack hrow hfate hu hthread hclock hcrossed hr b]
    refine ⟨fun a hpacked => ?_, fun hbad => ?_⟩
    · simp only [packSet, hset, hpacked]
      rfl
    · simp only [packSet, hset, hbad]
      rfl
  · rw [exec_retrieveRerankPack hrow hfate hu hthread hclock hr]
    have hready : (!walked u false c.id || !crossDone u (c.course.getD 0) || !featuresRun u (reqOfCmd c)) = false := by
      simp [hwalked, hcrossed, hfeatures]
    refine ⟨fun a hpacked => ?_, fun hbad => ?_⟩
    · simp only [rrpRun, hready, Bool.false_eq_true, if_false, hpacked]
      rfl
    · simp only [rrpRun, hready, Bool.false_eq_true, if_false, hbad]
      rfl

end Sys2Proof.Proofs
end

section
/-! SUPPORT. Proofs about VOCAB_LOAD, VOCAB_UNLOAD, GRAMMAR_LOAD and GRAMMAR_UNLOAD (R195 to R201, R215, R216). -/

open Sys2Proof Sys2Proof.Machine Sys2Proof.Laws
namespace Sys2Proof.Proofs

/-! ## Vocabularies -/

theorem slotNumber_eq (cls slot : Nat) : slotNumber cls slot = slot + (if cls = 0 then 0 else 8) := by
  unfold slotNumber
  split
  · rfl
  · exact Nat.add_comm 8 slot

section Vocabularies
variable {s : State} {c : Cmd} {slot : Nat}

theorem takeVocab_fits {v : List Byte} {ex : List Nat} (hheader : vocHeaderFault v = none)
    (hslot : slot = c.arg 16 1 + (if vocClass v = 0 then 0 else 8))
    (hclass : c.arg 16 1 < (if vocClass v = 0 then 8 else 4))
    (hempty : (look s.obj.vocabs slot).state = .empty) (hroom : takeExtents s (extents (vocFootprint v)) = some ex) :
    takeVocab v c s = setCmd c.id (fun x => { x with holds := true }) { s with obj := { s.obj with
      vocabs := put s.obj.vocabs slot { state := .loading, tenant := c.tenant, session := c.sid, image := v
                                        extents := ex, worker := some c.id } } } := by
  have hnumber : slotNumber (vocClass v) (c.arg 16 1) = slot := (slotNumber_eq ..).trans hslot.symm
  simp [takeVocab, hheader, hnumber, Nat.not_le.2 hclass, hempty, hroom]

section Check
variable {x : Vocab}
  (hfound : s.obj.vocabs.find? (fun x => x.2.state == .loading && x.2.worker == some c.id) = some (slot, x))
include hfound

theorem checkVocab_badTrailer (htrailer : trailerOk x.image = false) :
    checkVocab c s = imageFault c .checkMismatch (x.image.length - 8) (clearVocab slot s) := by
  simp [checkVocab, hfound, htrailer]

variable (htrailer : trailerOk x.image = true)
include htrailer

theorem checkVocab_badEntry {o : Nat} (hentry : vocEntryFault x.image = some o) :
    checkVocab c s = imageFault c .invalidField o (clearVocab slot s) := by
  simp [checkVocab, hfound, htrailer, hentry]

theorem checkVocab_ready (hentries : vocEntryFault x.image = none) :
    checkVocab c s = finish c { value := vocFootprint x.image } { s with obj := { s.obj with
      vocabs := put s.obj.vocabs slot { x with state := .ready, worker := none } } } := by
  simp [checkVocab, hfound, htrailer, hentries]

end Check

theorem unloadVocab_taken (htaken : (look s.obj.vocabs (unloadSlot c)).worker = some c.id) :
    unloadVocab c s = finish c {} (clearVocab (unloadSlot c) s) := if_pos htaken

variable (hready : (look s.obj.vocabs (unloadSlot c)).state = .ready)
include hready

/-- A READY slot that nothing binds is emptied for its owner and for tenant 0 (R196, R197). -/
theorem unloadVocab_free (howner : c.tenant = (look s.obj.vocabs (unloadSlot c)).tenant ∨ c.tenant = 0)
    (hunbound : vocabBound s (unloadSlot c) = false) :
    unloadVocab c s = finish c {} (clearVocab (unloadSlot c) s) := by
  have hauthority : ¬(c.tenant ≠ (look s.obj.vocabs (unloadSlot c)).tenant ∧ c.tenant ≠ 0) := by
    simpa [or_iff_not_imp_left] using howner
  have hallowed : unloadVocabRefusal s c = none := by
    simp only [unloadVocabRefusal, hready, hauthority, hunbound]
    simp
  rw [unloadVocab, hallowed]
  exact ite_self _

theorem unloadVocab_foreign (hother : c.tenant ≠ (look s.obj.vocabs (unloadSlot c)).tenant) (hnot0 : c.tenant ≠ 0)
    (huntaken : (look s.obj.vocabs (unloadSlot c)).worker ≠ some c.id) :
    unloadVocab c s = fail c .notAuthorized 3 s := by
  have hrefused : unloadVocabRefusal s c = refuseWith .notAuthorized 3 := by
    simp [unloadVocabRefusal, hready, hother, hnot0]
  rw [unloadVocab, if_neg huntaken, hrefused]
  rfl

end Vocabularies

/-! ## Grammars -/

section Grammars
variable {s : State} {c : Cmd} {slot : Nat}

section Load
variable {g : List Byte} {ex : List Nat} (hheader : gramHeaderFault g = none)
  (hfree : firstFree s.obj.grammars 0 256 = some slot) (hroom : takeExtents s (extents (gramFootprint g)) = some ex)
include hheader hfree hroom

theorem loadGrammar_badTrailer (htrailer : trailerOk g = false) :
    loadGrammar g c s = imageFault c .checkMismatch (g.length - 8) s := by
  simp [loadGrammar, hheader, hfree, hroom, htrailer]

variable (htrailer : trailerOk g = true)
include htrailer

theorem loadGrammar_badEntry {o : Nat} (hentry : gramEntryFault g = some o) :
    loadGrammar g c s = imageFault c .invalidField o s := by
  simp [loadGrammar, hheader, hfree, hroom, htrailer, hentry]

theorem loadGrammar_fits (hentries : gramEntryFault g = none) :
    let reuse := (look s.obj.grammarReuse slot + 1) % 2 ^ 32
    loadGrammar g c s = finish c { value := mkHandle slot reuse } { s with obj := { s.obj with
      grammars := put s.obj.grammars slot { reuse, session := c.sid, tenant := c.tenant, image := g, extents := ex }
      grammarReuse := put s.obj.grammarReuse slot reuse } } := by
  simp [loadGrammar, hheader, hfree, hroom, htrailer, hentries]

end Load

variable {g : Grammar} (hg : grammarOf s c.sid c.handle = some (slot, g))
include hg

/-- A grammar that the command took at its dispatch, or that no sequence binds, leaves its slot (R216). -/
theorem unloadGrammar_removes
    (h : c.holds = true ∨ (g.unloading = false ∧ ∀ q ∈ s.obj.seqs, q.2.grammar ≠ some slot)) :
    unloadGrammar c s = finish c {} (removeGrammar slot s) := by
  obtain ⟨hslot, -⟩ := grammarOf_slot hg
  have hallowed : (if c.holds then none else unloadGrammarRefusal s c) = none := by
    obtain hholds | ⟨hstays, hunbound⟩ := h
    · exact if_pos hholds
    · have hnone : s.obj.seqs.any (fun q => q.2.grammar == some slot) = false := by simpa using hunbound
      simp [unloadGrammarRefusal, hg, hstays, hnone]
  rw [unloadGrammar, hallowed, hslot]
  rfl

theorem unloadGrammar_bound (hholds : c.holds = false) (hstays : g.unloading = false)
    (hbound : ∃ q ∈ s.obj.seqs, q.2.grammar = some slot) :
    unloadGrammar c s = fail c .stateConflict (8 + 256 * 1) s := by
  have hany : s.obj.seqs.any (fun q => q.2.grammar == some slot) = true := by simpa using hbound
  have hrefused : unloadGrammarRefusal s c = inState 8 1 := by simp [unloadGrammarRefusal, hg, hstays, hany]
  rw [unloadGrammar, hholds, if_neg Bool.false_ne_true, hrefused]
  rfl

end Grammars

/-- Settles O22: a load past its header is judged by its trailer and its entries, and an unload by what the command
took at its dispatch, by its tenant and by the bindings. -/
theorem vocabularyAndGrammarCommands : Obligations.VocabularyAndGrammarCommands := by
  intro s id c slot ex
  refine ⟨fun v hr hholds hheader hslot hclass hempty hroom => ?_, fun i x hr hholds hfound => ?_,
    fun hr hslot htaken => ?_, fun hr hslot hready => ?_, fun g hr hheader hfree hroom => ?_, fun g hr hg => ?_⟩
  · have hrun : exec (.vocabLoad id (.data v)) s = .next (loadVocab (.data v) c s) := congrArg _ (runCmd_runs hr _)
    rw [hrun, loadVocab, hholds, if_neg Bool.false_ne_true, withInput,
      takeVocab_fits hheader hslot hclass hempty hroom]
  · have hrun : exec (.vocabLoad id i) s = .next (loadVocab i c s) := congrArg _ (runCmd_runs hr _)
    rw [hrun, loadVocab, if_pos hholds]
    cases htrailer : trailerOk x.image with
    | false => exact congrArg _ (checkVocab_badTrailer hfound htrailer)
    | true =>
      cases hentry : vocEntryFault x.image with
      | some o => exact congrArg _ (checkVocab_badEntry hfound htrailer hentry)
      | none => exact congrArg _ (checkVocab_ready hfound htrailer hentry)
  · obtain rfl : slot = unloadSlot c := hslot.trans (slotNumber_eq ..).symm
    have hrun : exec (.vocabUnload id) s = .next (unloadVocab c s) := congrArg _ (runCmd_runs hr _)
    exact hrun.trans (congrArg _ (unloadVocab_taken htaken))
  · obtain rfl : slot = unloadSlot c := hslot.trans (slotNumber_eq ..).symm
    have hrun : exec (.vocabUnload id) s = .next (unloadVocab c s) := congrArg _ (runCmd_runs hr _)
    exact ⟨fun howner hunbound => hrun.trans (congrArg _ (unloadVocab_free hready howner hunbound)),
      fun hother hnot0 huntaken => hrun.trans (congrArg _ (unloadVocab_foreign hready hother hnot0 huntaken))⟩
  · have hrun : exec (.grammarLoad id (.data g)) s = .next (loadGrammar g c s) := congrArg _ (runCmd_runs hr _)
    rw [hrun]
    cases htrailer : trailerOk g with
    | false => exact congrArg _ (loadGrammar_badTrailer hheader hfree hroom htrailer)
    | true =>
      cases hentry : gramEntryFault g with
      | some o => exact congrArg _ (loadGrammar_badEntry hheader hfree hroom htrailer hentry)
      | none => exact congrArg _ (loadGrammar_fits hheader hfree hroom htrailer hentry)
  · have hrun : exec (.grammarUnload id) s = .next (unloadGrammar c s) := congrArg _ (runCmd_runs hr _)
    exact ⟨fun h => hrun.trans (congrArg _ (unloadGrammar_removes hg h)),
      fun hholds hstays hbound => hrun.trans (congrArg _ (unloadGrammar_bound hg hholds hstays hbound))⟩

end Sys2Proof.Proofs
end

section
/-! SUPPORT. Proofs about TOKENIZE and DETOKENIZE in their step (R211, R235, R236, R238). -/

open Sys2Proof Sys2Proof.Machine Sys2Proof.Laws
namespace Sys2Proof.Proofs

theorem textSlot_tokenize {c : Cmd} (hop : c.op = 0x0704) :
    textSlot c = c.arg 17 1 + (if c.arg 16 1 = 0 then 0 else 8) := by
  rw [textSlot, if_pos hop, slotNumber_eq]

theorem textSlot_detokenize {c : Cmd} (hop : c.op = 0x0705) : textSlot c = c.arg 16 1 := by
  simp [textSlot, hop]

/-! ## The results -/

section Results
variable {c : Cmd} {v b : List Byte} {s : State}

theorem tokenizeText_accepts (row : Row) {ts : List Nat} {cy : List Byte} {bad : Nat}
    (h : tokenizeFinal v (ruleOf s v) b = .ok ts cy bad) : tokenizeText c v row b s
      = hold c (outResult s c (tokenBytesOf ts) { value := ts.length })
          (countTokens row.tile b.length ts.length bad 0 s) := by
  simp only [tokenizeText, h]

theorem tokenizeText_rejects (row : Row) {o : Nat} (h : tokenizeFinal v (ruleOf s v) b = .reject o) :
    tokenizeText c v row b s = hold c (badResult s 64 o) (countTokens row.tile b.length 0 1 0 s) := by
  simp only [tokenizeText, h]

theorem detokenizeTokens_known (row : Row) (h : ∀ t ∈ tokenList b, t < vocTokens v) : detokenizeTokens c v row b s
      = hold c (outResult s c (detokenize v none (tokenList b)) { value := (tokenList b).length })
          (bump (tileClk row.tile) 0x0704 (detokenize v none (tokenList b)).length s) := by
  have hknown : (tokenList b).findIdx? (fun t => vocTokens v ≤ t) = none :=
    List.findIdx?_eq_none_iff.2 fun t ht => by simpa using h t ht
  simp only [detokenizeTokens, hknown]

theorem detokenizeTokens_unknown (row : Row) {i : Nat}
    (h : (tokenList b).findIdx? (fun t => vocTokens v ≤ t) = some i) :
    detokenizeTokens c v row b s = hold c (badResult s 64 i) s := by
  simp only [detokenizeTokens, h]

end Results

/-! ## The job on its thread -/

section Job
variable {s u : State} {id : Nat} {c : Cmd} {row : Row} (hrow : laneRow s c = some row) (hfate : row.fate = none)
  (hu : startJob (.command c.id) (c.course.getD 0) .retrieval (coreNumber row.tile row.core) s = u)
  (hthread : onThread u (.command c.id) = true) (hclock : stopped u (tileClk row.tile) = false)
include hrow hfate hu hthread hclock

/-- The start of a job changes no vocabulary, so the job reads the one of its dispatch. -/
theorem textJob_runs (b : List Byte) (body : List Byte → Row → List Byte → State → State) :
    textJob c (.data b) body s = runJobs (body (look s.obj.vocabs (textSlot c)).image row b u) := by
  subst hu
  simp only [textJob, laneUse, hrow, hfate, withThread_runs _ hthread hclock, laneInput, startJob_obj]

theorem exec_tokenize (hr : Runs s id 0x0704 c) {b : List Byte} {t : State}
    (hwork : tokenizeText c (look s.obj.vocabs (textSlot c)).image row b u = t) :
    exec (.tokenize id (.data b)) s = .next (runJobs t) := by
  have hrun : exec (.tokenize id (.data b)) s = .next (textJob c (.data b) (tokenizeText c) s) :=
    congrArg _ (runCmd_runs hr _)
  rw [hrun, textJob_runs hrow hfate hu hthread hclock, hwork]

theorem exec_detokenize (hr : Runs s id 0x0705 c) {b : List Byte} {t : State}
    (hwork : detokenizeTokens c (look s.obj.vocabs (textSlot c)).image row b u = t) :
    exec (.detokenize id (.data b)) s = .next (runJobs t) := by
  have hrun : exec (.detokenize id (.data b)) s = .next (textJob c (.data b) (detokenizeTokens c) s) :=
    congrArg _ (runCmd_runs hr _)
  rw [hrun, textJob_runs hrow hfate hu hthread hclock, hwork]

end Job

/-- Settles O23: the job does its work on its thread with the vocabulary that the command names, and its result is the
accepted text's or the first fault's. -/
theorem tokenizeAndDetokenize : Obligations.TokenizeAndDetokenize := by
  intro s id c slot row b hrow hfate v u
  have hu : startJob (.command c.id) (c.course.getD 0) .retrieval (coreNumber row.tile row.core) s = u := rfl
  clear_value u
  intro hthread hclock held
  refine ⟨fun hr hslot => ?_, fun hr hslot => ?_⟩
  · have ⟨_, hop, _⟩ := hr
    obtain rfl : slot = textSlot c := hslot.trans (textSlot_tokenize hop).symm
    have hexec {t : State} := exec_tokenize (b := b) (t := t) hrow hfate hu hthread hclock hr
    exact ⟨fun ts cy bad hok => hexec (tokenizeText_accepts row hok),
      fun o hreject => hexec (tokenizeText_rejects row hreject)⟩
  · have ⟨_, hop, _⟩ := hr
    obtain rfl : slot = textSlot c := hslot.trans (textSlot_detokenize hop).symm
    have hexec {t : State} := exec_detokenize (b := b) (t := t) hrow hfate hu hthread hclock hr
    exact ⟨fun hknown => hexec (detokenizeTokens_known row hknown),
      fun i hunknown => hexec (detokenizeTokens_unknown row hunknown)⟩

end Sys2Proof.Proofs
end

section
/-! SUPPORT. Proofs about SELECTION_UNIT_FAULT and MASK_JOB_DONE (R223, R258, R259). -/

open Sys2Proof Sys2Proof.Machine Sys2Proof.Laws
namespace Sys2Proof.Proofs

/-! ## A fault of a selection unit -/

theorem courseOf_setCourse (c : Fin 4) (f : Course → Course) (s : State) :
    courseOf (setCourse c f s) c = f (courseOf s c) := by
  simp [courseOf, setCourse]

/-- A mark on a lane's step leaves the course in or out of recovery as it was. -/
theorem courseOf_markFault_recovery (c : Fin 4) (lane : Lane) (s : State) :
    (courseOf (markFault c lane s) c).recovery = (courseOf s c).recovery := by
  cases lane <;> simp [markFault, setStep, setLane, courseOf_setCourse]

/-- The tile's record after a fault of its selection unit: a second one in a step retires the unit (R259). -/
def faultedUnit (x : TileRec) : TileRec :=
  { x with selFaults := x.selFaults + 1, selRetired := x.selRetired || 1 ≤ x.selFaults }

/-- A fault of a selection unit is counted, in its tile's record too, and marked in its course's steps. -/
def unitFaultCounted (t : Fin 64) (s : State) : State :=
  let c : Fin 4 := Fin.ofNat 4 (t.val / 16)
  let w := markFault c .retrieval (markFault c .generation (bump (tileClk t) 0x0908 1 s))
  { w with eng := { w.eng with tiles := upd w.eng.tiles t faultedUnit } }

theorem courseOf_unitFaultCounted_recovery (t : Fin 64) (s : State) :
    (courseOf (unitFaultCounted t s) (Fin.ofNat 4 (t.val / 16))).recovery
      = (courseOf s (Fin.ofNat 4 (t.val / 16))).recovery :=
  (courseOf_markFault_recovery _ .retrieval _).trans (courseOf_markFault_recovery _ .generation _)

section Selection
variable {s : State} {t : Fin 64}

theorem exec_selectionUnitFault (hup : tileUp s t = true) (hserves : (look s.eng.tiles t).selRetired = false) :
    exec (.selectionUnitFault t) s = .next (selectionFault t s) := by
  show execSelectionUnitFault t s = _
  simp [execSelectionUnitFault, hup, hserves]

theorem selectionFault_first (hfirst : (look s.eng.tiles t).selFaults = 0) :
    selectionFault t s = unitFaultCounted t s := if_pos hfirst

theorem selectionFault_again (hagain : 1 ≤ (look s.eng.tiles t).selFaults) :
    selectionFault t s = setCourse (Fin.ofNat 4 (t.val / 16)) (fun k => { k with recovery := true, clean := 0 })
      (logFault (tileClk t) 5 3 0 1 (unitFaultCounted t s)) := if_neg (Nat.one_le_iff_ne_zero.1 hagain)

theorem selectionFault_tiles : (selectionFault t s).eng.tiles = upd s.eng.tiles t faultedUnit := by
  obtain hfirst | hagain := Nat.eq_zero_or_pos (look s.eng.tiles t).selFaults
  · rw [selectionFault_first hfirst]
    rfl
  · rw [selectionFault_again hagain]
    rfl

theorem selectionFault_obj : (selectionFault t s).obj = s.obj := by
  obtain hfirst | hagain := Nat.eq_zero_or_pos (look s.eng.tiles t).selFaults
  · rw [selectionFault_first hfirst]
    rfl
  · rw [selectionFault_again hagain, setCourse_obj, logFault_obj]
    rfl

end Selection

/-! ## The end of a mask job -/

section Mask
variable {s : State} {t : Fin 64}

theorem exec_maskJobDone (hup : tileUp s t = true) : exec (.maskJobDone t) s = .next (maskDone t s) :=
  congrArg _ (if_pos hup)

theorem maskDone_waits (h : 16 ≤ masksHeld s t ∨ stopped s (tileClk t) = true) : maskDone t s = s := by
  unfold maskDone
  split
  · rfl
  · exact if_pos h

/-- The oldest job leaves its unit and is counted, and its sequence has its mask (R223, R238). -/
theorem maskDone_readies {e : Nat} {rest : List Nat} {q : Machine.Seq} {g : List Byte}
    (hmasks : (look s.eng.tiles t).masks = e :: rest) (hroom : masksHeld s t < 16)
    (hclock : stopped s (tileClk t) = false) (hq : find? s.obj.seqs e = some q) (hg : seqGrammar s q = some g) :
    maskDone t s = setSeq e (fun x => { x with maskReady := true })
      (bump (tileClk t) 0x0705 1 (bump (tileClk t) 0x0706 (maskCycles g q.ctx) (bump (tileClk t) 0x0707 (b2n q.maskLate)
        { s with eng := { s.eng with tiles := upd s.eng.tiles t (fun x => { x with masks := rest }) } }))) := by
  have hgo : ¬(16 ≤ masksHeld s t ∨ stopped s (tileClk t) = true) := by simp [hroom, hclock]
  have hgrammar (eng : Engines) : seqGrammar { s with eng := eng } q = some g := hg
  simp only [maskDone, hmasks, hgo, if_false, hq, hgrammar]

end Mask

/-- Settles O38: a fault leaves its tile's record as `faultedUnit` says, and only a second one reaches the log and the
course's recovery; the oldest mask job ends where a buffer is free and the tile runs. -/
theorem tileFaultsAndMasks : Obligations.TileFaultsAndMasks := by
  intro s t hup c
  refine ⟨fun hserves => ⟨_, exec_selectionUnitFault hup hserves, ?_⟩, fun hwaits => ?_,
    fun e rest q g hmasks hroom hclock hq hg => ?_⟩
  · have htile : look (selectionFault t s).eng.tiles t = faultedUnit (look s.eng.tiles t) := by
      rw [selectionFault_tiles, look_upd_self]
    rw [htile]
    refine ⟨rfl, rfl, fun hfirst => ⟨?_, ?_, ?_⟩, fun hagain => ⟨?_, ?_⟩, fun x hx => ?_, selectionFault_obj⟩
    · simp [faultedUnit, hserves, hfirst]
    · rw [selectionFault_first hfirst]
      rfl
    · rw [selectionFault_first hfirst]
      exact courseOf_unitFaultCounted_recovery t s
    · simp [faultedUnit, hagain]
    · rw [selectionFault_again hagain, courseOf_setCourse]
      exact ⟨rfl, rfl⟩
    · rw [selectionFault_tiles, look_upd_other _ _ hx.symm]
  · rw [exec_maskJobDone hup, maskDone_waits hwaits]
  · refine ⟨_, (exec_maskJobDone hup).trans (congrArg _ (maskDone_readies hmasks hroom hclock hq hg)), ?_,
      find?_setSeq hq _, fun n hn => find?_setSeq_other hn _ _⟩
    simp

end Sys2Proof.Proofs
end

section
/-! SUPPORT. Proofs about the batches of cold pages, SLOT_FREE, and the messages that act on a walk (R273, R276, R278 to
R280, R295, R304). -/

open Sys2Proof Sys2Proof.Machine Sys2Proof.Laws
namespace Sys2Proof.Proofs

theorem received_now (m : HopMsg) (s : State) : (received m s).now = s.now := by
  unfold received countPoison
  split <;> rfl

theorem indexAt_received (m : HopMsg) (s : State) (slot : Nat) : indexAt (received m s) slot = indexAt s slot :=
  indexAt_congr (received_obj m s) slot

/-! ## Requests for cold nodes -/

/-- The batches once a request has joined that of its page, or has opened one (R295). -/
def joined (index now : Nat) (l : List ColdBatch) (m : HopMsg) : List ColdBatch :=
  if l.any (fun b => b.index == index && b.page == coldPage m.node)
  then l.map (fun b => if b.index == index && b.page == coldPage m.node then { b with msgs := b.msgs ++ [m] } else b)
  else l ++ [{ index, page := coldPage m.node, since := now, msgs := [m] }]

def withCold (l : List ColdBatch) (s : State) : State := { s with eng := { s.eng with cold := l } }

theorem joinBatch_eq (m : HopMsg) (index : Nat) (s : State) :
    joinBatch m index s = withCold (joined index s.now s.eng.cold m) s := by
  unfold joinBatch joined
  dsimp only
  split <;> rfl

section Cold
variable {m : HopMsg} {w : Walk} {s : State} (hp : m.poisoned = false) (hd : m.dst < 160)
include hp hd

theorem onNode_cold (hc : coldNode (indexAt s w.index) m.node = true) :
    onNode m w s = withCold (joined w.index s.now s.eng.cold m) s := by
  simp only [onNode, hp, hd, hc, joinBatch_eq, Bool.false_eq_true, if_false, and_self, if_true]

/-- A hop counts toward its region first; it is the region as it is then that decides (R294). -/
theorem onRequest_req_cold (hk : m.kind = .req)
    (hc : coldNode (indexAt (countRegion w m.node s) w.index) m.node = true) :
    onRequest m w s = withCold (joined w.index s.now s.eng.cold m) (countRegion w m.node s) := by
  simp only [onRequest, hk, hd, if_true]
  exact onNode_cold hp hd hc

/-- Each node of a RESOLVE joins the batch of its own page, in order. -/
theorem onRequest_resolve_cold {ns : List Nat} (hk : m.kind = .resolve ns)
    (hc : ∀ n ∈ ns, coldNode (indexAt s w.index) n = true) :
    onRequest m w s = withCold (ns.foldl (fun l n => joined w.index s.now l { m with node := n, kind := .resolve [n] })
      s.eng.cold) s := by
  simp only [onRequest, hk]
  clear hk
  induction ns generalizing s with
  | nil => rfl
  | cons n ns ih =>
    obtain ⟨hn, hns⟩ := List.forall_mem_cons.1 hc
    have hstep := onNode_cold (m := { m with node := n, kind := .resolve [n] }) (w := w) (s := s) hp hd hn
    rw [foldS_cons, hstep]
    exact ih (s := withCold _ s) hns

end Cold

/-! ## The end of a batch's wait -/

section Batch
variable {s : State} {b : ColdBatch}
  (hb : s.eng.cold.find? (fun y => y.index == b.index && y.page == b.page) = some b)
include hb

theorem exec_coldBatchExpiry_early (h : s.now < b.since + idxBatchUs (indexAt s b.index) * 1000) (lost : Bool) :
    exec (.coldBatchExpiry b.index b.page lost) s = .next s := by
  show execColdBatchExpiry b.index b.page lost s = _
  simp only [execColdBatchExpiry, hb]
  rw [if_neg]
  omega

theorem exec_coldBatchExpiry_due (h : b.since + idxBatchUs (indexAt s b.index) * 1000 ≤ s.now)
    (hdie : dieHeld s (Config.pageDie b.index b.page) = false)
    (hruns : ∀ m ∈ b.msgs, islandRuns s (endpointClk m.dst) = true) (lost : Bool) :
    exec (.coldBatchExpiry b.index b.page lost) s = .next (servePage b lost s) := by
  show execColdBatchExpiry b.index b.page lost s = _
  simp only [execColdBatchExpiry, hb]
  rw [if_pos ⟨h, by rw [hdie]; rfl, List.all_eq_true.2 hruns⟩]

end Batch

/-- A request whose walk is gone is dropped, any other is served. -/
theorem servePage_eq (b : ColdBatch) (lost : Bool) (s : State) :
    let clk := (b.msgs.head?.map (fun m => endpointClk m.dst)).getD 0
    servePage b lost s = foldS (fun t m => ((walkOf t m.walk).map (fun w => serve lost m w t)).getD t) b.msgs
      (bump clk 0x0304 1 (bump clk 0x0303 b.msgs.length
        (withCold (s.eng.cold.filter (fun y => !(y.index == b.index && y.page == b.page))) s))) := by
  have hserve : (fun (t : State) (m : HopMsg) => match walkOf t m.walk with
      | none => t
      | some w => serve lost m w t)
      = fun t m => ((walkOf t m.walk).map (fun w => serve lost m w t)).getD t := by
    funext t m
    cases walkOf t m.walk <;> rfl
  intro clk
  rw [← hserve]
  rfl

/-! ## SLOT_FREE -/

/-- The state once a SLOT_FREE has left the network and its engine has freed the slots of the query. -/
def freed (m : HopMsg) (s : State) : State :=
  countPoison m { s with eng := { s.eng with
    net := s.eng.net.filter (·.id != m.id)
    slots := s.eng.slots.filter (fun q => !(q.1.1 == m.dst && q.2.walk == m.walk)) } }

theorem freeSlots_arrived {s : State} {m : HopMsg}
    (hf : s.eng.net.find? (fun y => y.id == m.id && y.kind == .free) = some m) (ha : arrives s m = true) :
    freeSlots m.id s = freed m s := by
  simp only [freeSlots, hf, ha, Bool.not_true, Bool.false_eq_true, if_false]
  rfl

theorem freed_eng (m : HopMsg) (s : State) : (freed m s).eng = { s.eng with
    net := s.eng.net.filter (·.id != m.id)
    slots := s.eng.slots.filter (fun q => !(q.1.1 == m.dst && q.2.walk == m.walk)) } := by
  unfold freed countPoison
  split <;> rfl

theorem freed_frame (m : HopMsg) (s : State) : { freed m s with eng := s.eng, counters := s.counters } = s := by
  unfold freed countPoison
  split <;> rfl

/-- Settles O27: a cold node's request joins its batch, a batch is served when its wait is over, and SLOT_FREE frees
the slots of its query alone. -/
theorem coldBatches : Obligations.ColdBatches := by
  intro s m w got
  refine ⟨?cold,
    fun b lost hb => ⟨fun hearly => exec_coldBatchExpiry_early hb hearly lost, fun hdue hdie hruns => ?served⟩,
    fun hf ha => ?free⟩
  case cold =>
    intro hf ha hw hd hp hpath done join
    refine ⟨fun ns hk hc => ?resolve, fun hk hc => ?req⟩
    case resolve =>
      have hcold := onRequest_resolve_cold (s := received m s) (w := w) hp hd hk
        (fun n hn => (indexAt_received m s w.index).symm ▸ hc n hn)
      rw [received_now] at hcold
      exact (deliver_request hf ha hw hpath (hk ▸ rfl) (.inr (.inr (hk ▸ rfl))) onRequest).trans
        (congrArg (hopDone w) hcold)
    case req =>
      have hcold := onRequest_req_cold (s := received m s) hp hd hk hc
      rw [received_now] at hcold
      exact (deliver_request hf ha hw hpath (hk ▸ rfl) (.inl (hk ▸ rfl)) onRequest).trans
        (congrArg (hopDone w) hcold)
  case served =>
    rw [exec_coldBatchExpiry_due hb hdue hdie hruns, servePage_eq]
    rfl
  case free =>
    refine ⟨freed m s, congrArg _ (freeSlots_arrived hf ha), fun q => ?_, fun y => ?_, freed_frame m s⟩
    · simp [freed_eng, imp_iff_not_or]
    · simp [freed_eng]

/-! ## The messages that act on a walk -/

theorem safe_load {m : HopMsg} (hk : m.kind = .load) : m.safe = m := by
  unfold HopMsg.safe
  split
  · rfl
  · rw [hk]

theorem onAck_eq {m : HopMsg} {n : Nat} {bad : Bool} (hk : m.kind = .ack n bad) (w : Walk) (s : State) :
    onAck m w s = goOn w.id (setWalk w.id (fun w => { w with
      unreadable := w.unreadable + (if bad then 1 else 0)
      out := w.out.map (fun h => if h.tag == m.tag then { h with expected := some n } else h) }) s) := by
  simp only [onAck, hk]
  rfl

/-- The walker once a PAIR has counted for its hop: unless it is unreadable it waits for the hop's end on a greedy
layer, and enters the lists of the search on the others (R273, R280). -/
def tookPair (tag n d ef : Nat) (bad : Bool) (x : Walk) : Walk :=
  let y := updOut tag (fun h => { h with got := h.got + 1 }) x
  if bad then { y with unreadable := x.unreadable + 1 }
  else if 2 ≤ x.layer then { y with cand := place (d, n) x.cand }
  else takePair ef (d, n) y

theorem onPair_eq {m : HopMsg} {n d : Nat} {cold bad : Bool} (hk : m.kind = .pair n d cold bad) (w : Walk)
    (s : State) : onPair m w s
      = goOn w.id (setWalk w.id (tookPair m.tag n d (queueSize (indexAt s w.index) w) bad) s) := by
  simp only [onPair, hk]
  rfl

theorem onEntry_eq {m : HopMsg} {ident d : Nat} {cold : Bool} (hk : m.kind = .entry ident d cold) (w : Walk)
    (s : State) : onEntry m w s = setWalk w.id (fun w => { w with
      owed := w.owed - 1
      done := w.owed ≤ 1
      nulled := w.nulled + (if ident = nullIdent then 1 else 0)
      result := if ident = nullIdent then w.result else w.result ++ [(ident, d, cold)] }) s := by
  simp only [onEntry, hk, b2n, decide_eq_true_eq]

section Walker
variable {s : State} {m : HopMsg} {w : Walk} (hf : s.eng.net.find? (·.id == m.id) = some m) (ha : arrives s m = true)
  (hw : walkOf s m.walk = some w) (hpath : pathUp s (endpointCourse m.src) (endpointCourse m.dst) = true)
include hf ha hw hpath

theorem deliver_safe {isKind : HopKind → Bool} (hk : isKind m.kind = true) (act : HopMsg → Walk → State → State) :
    Host.Outcome.next (deliverMsg m.id isKind act s) = hopDone w (act m.safe w (received m s)) := by
  rw [deliver_eq hf hk ha hw act, hpath]
  rfl

/-- SLOT_LOAD waits for the encoder stage of its step (R304). -/
theorem exec_slotLoad (hk : m.kind = .load) (henc : encodersDone s w.course = true) :
    exec (.slotLoad m.id) s = .next (crossStage w.course (runJobs (onLoad m w (received m s)))) := by
  show execSlotLoad m.id s = _
  have hload : isLoad m.kind = true := hk ▸ rfl
  simp only [execSlotLoad, afterMessage, hf, hw, henc, if_true, receive_eq hf hload ha hw onLoad, hpath,
    safe_load hk]

end Walker

theorem onLoad_eq (m : HopMsg) (w : Walk) (s : State) :
    let u := bump (endpointClk m.dst) 0x0302 1 s
    onLoad m w s = if m.poisoned = true then stopQuery .uncorrectable w u
      else if w.done = true ∨ u.eng.net.any (fun y => y.walk == w.id && y.kind == .load) = true then u
      else beginWalk w.id (startWalk w.id) u := by
  simp only [onLoad]
  split
  · rfl
  · cases w.done <;> simp

/-- Settles O28: each message acts on its walk as its own law says, with what `safe` leaves of it. -/
theorem walkerMessages : Obligations.WalkerMessages := by
  intro s m w hf ha hw hpath got done
  refine ⟨fun hk henc => ?load, fun n bad hk hsafe => ?ack, fun n d cold bad hk hsafe => ?pair,
    fun ident d cold hk hsafe => ?entry⟩
  case load =>
    rw [exec_slotLoad hf ha hw hpath hk henc, onLoad_eq]
    rfl
  case ack =>
    have hact := onAck_eq hsafe w (received m s)
    rw [safe_tag] at hact
    exact (deliver_safe hf ha hw hpath hk onAck).trans (congrArg (hopDone w) hact)
  case pair =>
    have hact := onPair_eq hsafe w (received m s)
    rw [indexAt_received, safe_tag] at hact
    exact (deliver_safe hf ha hw hpath hk onPair).trans (congrArg (hopDone w) hact)
  case entry =>
    exact (deliver_safe hf ha hw hpath hk onEntry).trans (congrArg (hopDone w) (onEntry_eq hsafe w (received m s)))

end Sys2Proof.Proofs
end

section
/-! SUPPORT. Proofs about INDEX_CREATE and INDEX_INSERT (R270, R271, R289, R290). -/

open Sys2Proof Sys2Proof.Machine Sys2Proof.Laws
namespace Sys2Proof.Proofs

/-! ## One index of the device -/

theorem find?_setIndex {s : State} {slot : Nat} {x : Index} (hx : find? s.obj.indices slot = some x)
    (f : Index → Index) : find? (setIndex slot f s).obj.indices slot = some (f x) := by
  simp [setIndex, find?_adj, hx]

theorem find?_setIndex_other {slot j : Nat} (h : j ≠ slot) (f : Index → Index) (s : State) :
    find? (setIndex slot f s).obj.indices j = find? s.obj.indices j := by
  simp [setIndex, find?_adj, h.symm]

theorem indexAt_of_find? {s : State} {slot : Nat} {x : Index} (hx : find? s.obj.indices slot = some x) :
    indexAt s slot = x := by
  rw [indexAt, look, hx, Option.getD_some]

/-! ## Creation -/

theorem exec_indexCreate {s : State} {id : Nat} {c : Cmd} (hr : Runs s id 0x0400 c) (b : List Byte) :
    exec (.indexCreate id (.data b)) s = .next (createIndex b c s) :=
  congrArg _ (runCmd_runs hr _)

/-- The index that a configuration record describes, with the reuse counter that it takes. -/
def describedIndex (s : State) (c : Cmd) (b : List Byte) (reuse : Nat) : Index :=
  { reuse, session := c.sid, tenant := c.tenant, extended := c.arg 16 1 == 1, config := b
    quarter := upperQuarter s (field b 8 1), epoch := 1 }

section Create
variable {s : State} {c : Cmd} {b : List Byte}

theorem createIndex_misfits {o : Nat} (h : configFault (c.arg 16 1) b = some o) :
    createIndex b c s = finish c { status := .invalidField, effect := .none, value := o, detail := 64 } s := by
  simp only [createIndex, h]

theorem createIndex_fits {slot : Nat} (hfields : configFault (c.arg 16 1) b = none)
    (hslot : firstFree s.obj.indices 0 64 = some slot) :
    let reuse := (look s.obj.indexReuse slot + 1) % 2 ^ 32
    let x := describedIndex s c b reuse
    hotRegionsOk s x = true → createLimit s c x = none →
    createIndex b c s = finish c { value := mkHandle slot reuse } { s with obj := { s.obj with
      indices := put s.obj.indices slot x, indexReuse := put s.obj.indexReuse slot reuse } } := by
  intro reuse x hhot hlimit
  have hhot' : ¬ (!hotRegionsOk s x) = true := by simp [hhot]
  simp only [createIndex, hfields, hslot]
  exact (if_neg hhot').trans (by rw [← describedIndex, hlimit])

end Create

/-! ## A batch of inserts -/

theorem exec_indexInsert {s : State} {id : Nat} {c : Cmd} (hr : Runs s id 0x0401 c) (b : List Byte) :
    exec (.indexInsert id (.data b)) s = .next (insertNodes b c s) :=
  congrArg _ (runCmd_runs hr _)

def insertStatus (r : Batch) : Status := if r.rejected = 0 then .ok else if r.full then .indexFull else .partialDone
def insertEffect (r : Batch) : Effect := if r.rejected = 0 then .full else if r.done = 0 then .none else .part

/-- What a batch of inserts completes with (R290). -/
def insertResult (r : Batch) : Result :=
  { status := insertStatus r, effect := insertEffect r
    value := r.done + r.rejected * 2 ^ 32, detail := r.first.getD 0 }

theorem insertResult_rejected :
    insertResult { rejected := 1, first := some 0 } = { status := .partialDone, effect := .none, value := 2 ^ 32 } := by
  decide

theorem insertResult_linked : insertResult { done := 1 } = { value := 1 } := by
  decide

theorem insertStatus_ok_iff (r : Batch) : insertStatus r = .ok ↔ r.rejected = 0 := by
  unfold insertStatus
  split
  · next h => simp [h]
  · next h => split <;> simp [h]

theorem insertStatus_cases (r : Batch) :
    insertStatus r = .ok ∨ insertStatus r = .indexFull ∨ insertStatus r = .partialDone := by
  unfold insertStatus
  split
  · exact .inl rfl
  · split
    · exact .inr (.inl rfl)
    · exact .inr (.inr rfl)

section Insert
variable {s : State} {c : Cmd} {slot : Nat} {x : Index} {b : List Byte}
  (hx : indexOf s c.sid c.handle = some (slot, x)) (hwrites : (x.extended && flashReadOnly s) = false)
include hx hwrites

theorem insertNodes_pendingFull (h : 16777216 < countState x .pending + (chunksOf 48 b).length) :
    insertNodes b c s = fail c .pendingFull 0 s := by
  simp only [insertNodes, hx, hwrites, Bool.false_eq_true, if_false]
  exact if_pos h

theorem insertNodes_links (h : countState x .pending + (chunksOf 48 b).length ≤ 16777216) :
    let p := insertAll slot 0 (chunksOf 48 b) (s, {})
    insertNodes b c s = finish c (insertResult p.2) p.1 := by
  intro p
  simp only [insertNodes, hx, hwrites, Bool.false_eq_true, if_false]
  exact if_neg (Nat.not_lt.2 h)

end Insert

/-! ## One record -/

theorem insertAll_rejected {slot : Nat} {r : List Byte} {s : State} (h : insertRecord slot r s = (s, .rejected)) :
    insertAll slot 0 [r] (s, {}) = (s, { rejected := 1, first := some 0 }) := by
  simp only [insertAll, h]
  rfl

theorem insertAll_linked {slot : Nat} {r : List Byte} {s t : State} (h : insertRecord slot r s = (t, .linked)) :
    insertAll slot 0 [r] (s, {}) = (t, { done := 1 }) := by
  simp only [insertAll, h]

section Record
variable {s : State} {slot : Nat} {x : Index} {r : List Byte} (hx : find? s.obj.indices slot = some x)
include hx

theorem insertRecord_rejected
    (h : field r 0 8 = nullIdent ∨ (nodesOf x (field r 0 8) ≠ [] ∧ bitOf (field r 8 8) 0 = false)) :
    insertRecord slot r s = (s, .rejected) := by
  simp only [insertRecord, indexAt_of_find? hx]
  refine if_pos ?_
  obtain hnull | ⟨hnamed, hkeep⟩ := h
  · exact .inl hnull
  · exact .inr (.inr (by simp [hnamed, hkeep]))

theorem insertRecord_links (hident : field r 0 8 ≠ nullIdent) (hbad : x.badIdents = [])
    (hnew : nodesOf x (field r 0 8) = []) :
    insertRecord slot r s = linkNode s slot (field r 0 8) (BitVec.ofNat 256 (field r 16 32)) [] := by
  simp only [insertRecord, indexAt_of_find? hx, hnew]
  refine if_neg ?_
  simp [hident, hbad]

end Record

/-! ## The first node of an index -/

theorem shards_congr {s t : State} (h : chans t = chans s) (mask : Nat) : shards t mask = shards s mask := by
  have hchannels : t.eng.channels = s.eng.channels := congrArg Prod.fst h
  have hislands : t.islands = s.islands := congrArg Prod.snd h
  simp [shards, positions, hchannels, hislands]

theorem shardFor_congr {s t : State} (h : chans t = chans s) (x : Index) (live : List Nat) :
    shardFor t x live = shardFor s x live := by
  unfold shardFor shardCapacity
  rw [shards_congr h]

/-- A slot of each engine of an index is loaded (R288). -/
def slotsLoaded (x : Index) (s : State) : State :=
  foldS (fun s e => bump (endpointClk e) 0x0302 1 s) (enginesOf s x) s

theorem chans_slotsLoaded (x : Index) (s : State) : chans (slotsLoaded x s) = chans s :=
  foldS_same chans (fun s e => bump (endpointClk e) 0x0302 1 s) (fun _ _ => rfl) _ s

/-- An index whose one node is the first of a shard, PENDING and the entry point (R290; log 31). -/
def withFirstNode (x : Index) (sh ident : Nat) (code : Code) : Index :=
  { x with
    nodes := [(sh * 2 ^ 33, { code, ident, epoch := x.epoch + 1, state := .pending })]
    entry := some (sh * 2 ^ 33) }

theorem freeNode_empty {x : Index} (hnodes : x.nodes = []) (sh : Nat) : freeNode x sh = sh * 2 ^ 33 := by
  simp [freeNode, hnodes, find?, List.range_succ]

theorem layersOf_congr {x y : Index} (h : y.config = x.config) (ident : Nat) : layersOf y ident = layersOf x ident := by
  have hratio : idxUpperRatio y = idxUpperRatio x := by rw [idxUpperRatio, idxUpperRatio, idxField, idxField, h]
  unfold layersOf
  rw [hratio]

/-- Without a node there is nothing to search: no neighbour, and no upper layer where the identifier enters none. -/
theorem linkNode_first {s : State} {slot : Nat} {x : Index} {sh ident : Nat} (hx : find? s.obj.indices slot = some x)
    (hnodes : x.nodes = []) (hentry : x.entry = none) (hreplaced : x.replaced = [])
    (hshard : shardFor s x [] = some sh) (hlayers : layersOf x ident = 0) (code : Code) :
    linkNode s slot ident code []
      = (setIndex slot (fun _ => withFirstNode x sh ident code) (slotsLoaded x s), .linked) := by
  have hpoints : entryPoints x code = ([], []) := by rw [entryPoints, hentry]
  have hcounted : countSearches s x [] [] = slotsLoaded x s := rfl
  have hshard' : shardFor (slotsLoaded x s) x [] = some sh := (shardFor_congr (chans_slotsLoaded x s) x []).trans hshard
  have htrim : trim x code [] = [] := rfl
  have hnoLayer (y : Index) (hy : y.config = x.config) : layersOf y ident = 0 := (layersOf_congr hy ident).trans hlayers
  simp only [linkNode, indexAt_of_find? hx, hpoints, hcounted, List.map_nil, List.flatMap_nil, isort, List.foldr_nil,
    List.filter_nil, hshard', htrim, freeNode_empty hnodes, hnodes, hentry, hreplaced, List.foldl_nil, List.nil_append,
    Option.orElse, hnoLayer, List.range_zero, withFirstNode]

/-- Settles O29: a creation by its fields and limits, a batch of inserts by its counts, one record by what the index
holds. -/
theorem indexCreationAndInput : Obligations.IndexCreationAndInput := by
  intro s id c slot x b
  refine ⟨fun hr => ⟨fun o hfault => ?misfit, ?fits⟩,
    fun hr hx hwrites => ⟨fun hfull => ?full, fun hroom => ?room⟩⟩
  case misfit => rw [exec_indexCreate hr, createIndex_misfits hfault]
  case fits =>
    intro hfields hslot reuse new hhot hlimit
    exact (exec_indexCreate hr b).trans (congrArg _ (createIndex_fits hfields hslot hhot hlimit))
  case full => rw [exec_indexInsert hr, insertNodes_pendingFull hx hwrites hfull]
  case room =>
    have hfind := indexOf_find hx
    rw [exec_indexInsert hr, insertNodes_links hx hwrites hroom]
    refine ⟨?counts, fun r hone hold => ?rejected,
      fun r sh hone hident hbad hnodes hentry hreplaced hshard hlayers => ?first⟩
    case counts =>
      have hcount := insertAll_count slot (chunksOf 48 b) 0 s {}
      generalize insertAll slot 0 (chunksOf 48 b) (s, {}) = p at hcount ⊢
      exact ⟨p.1, p.2.done, p.2.rejected, p.2.first.getD 0, insertStatus p.2, insertEffect p.2, rfl, rfl,
        hcount.trans (Nat.zero_add _), insertStatus_ok_iff p.2, insertStatus_cases p.2⟩
    case rejected =>
      rw [hone, insertAll_rejected (insertRecord_rejected hfind hold), insertResult_rejected]
    case first =>
      have hnew : nodesOf x (field r 0 8) = [] := by rw [nodesOf, hnodes]; rfl
      rw [hone, insertAll_linked ((insertRecord_links hfind hident hbad hnew).trans
        (linkNode_first hfind hnodes hentry hreplaced hshard hlayers _)), insertResult_linked]
      rfl

end Sys2Proof.Proofs
end

section
/-! SUPPORT. Proofs about INDEX_COMMIT and INDEX_DELETE (R291, R292). -/

open Sys2Proof Sys2Proof.Machine Sys2Proof.Laws
namespace Sys2Proof.Proofs

/-! ## The next epoch -/

section Epoch
variable {s : State} {id : Nat} {c : Cmd} {slot : Nat} {x : Index} (hx : indexOf s c.sid c.handle = some (slot, x))
include hx

theorem exec_indexCommit_limit (hr : Runs s id 0x0402 c) (hlast : x.epoch = 0xFFFFFFFF) :
    exec (.indexCommit id) s = .next (fail c .epochLimit 0 s) := by
  have hrun : exec (.indexCommit id) s = .next (commitIndex c s) := congrArg _ (runCmd_runs hr _)
  simp only [hrun, commitIndex, hx, hlast, if_true]

theorem exec_indexCommit (hr : Runs s id 0x0402 c) (hmore : x.epoch ≠ 0xFFFFFFFF) :
    exec (.indexCommit id) s = .next (finish c { value := x.epoch + 1 } (setIndex slot nextEpoch s)) := by
  have hrun : exec (.indexCommit id) s = .next (commitIndex c s) := congrArg _ (runCmd_runs hr _)
  simp only [hrun, commitIndex, hx, hmore, if_false]

end Epoch

/-- A PENDING node becomes LIVE, and one that an insert replaces TOMBSTONED (R291). -/
theorem find?_nextEpoch {x : Index} {n : Nat} {v : Node} (hv : find? x.nodes n = some v) :
    find? (nextEpoch x).nodes n = some
      (if n ∈ x.replaced ∧ (v.state = .live ∨ v.state = .pending) then
        { v with state := .tombstoned, deadEpoch := some (x.epoch + 1) }
      else if v.state = .pending then { v with state := .live } else v) := by
  simp [nextEpoch, find?_mapTbl, hv]

/-! ## Deletes -/

theorem deleteAll_epoch (is : List Nat) (x : Index) : (deleteAll x is).1.epoch = x.epoch := by
  induction is generalizing x with
  | nil => rfl
  | cons i is ih =>
    rw [deleteAll]
    refine (ih _).trans ?_
    split <;> rfl

def deleteStatus (miss : Nat) : Status := if miss = 0 then .ok else .partialDone
def deleteEffect (n miss : Nat) : Effect := if miss = 0 then .full else if n = 0 then .none else .part

/-- What an INDEX_DELETE completes with (R292). -/
def deleteResult (n miss : Nat) : Result :=
  { status := deleteStatus miss, effect := deleteEffect n miss, value := n + miss * 2 ^ 32 }

theorem delete_found {n miss : Nat} (h : miss = 0) : deleteStatus miss = .ok ∧ deleteEffect n miss = .full :=
  ⟨if_pos h, if_pos h⟩

theorem delete_missing {n miss : Nat} (h : miss ≠ 0) :
    deleteStatus miss = .partialDone ∧ deleteEffect n miss ≠ .full := by
  refine ⟨if_neg h, ?_⟩
  unfold deleteEffect
  rw [if_neg h]
  split <;> exact fun h => nomatch h

/-- The index after a delete by command `id`: a delete that waits keeps the courses it waits for. -/
def afterDelete (x : Index) (is : List Nat) (id : Nat) (wait : List Nat) : Index :=
  let y := (deleteAll x is).1
  if wait = [] then y else { y with deletes := put y.deletes id wait }

theorem afterDelete_epoch (x : Index) (is : List Nat) (id : Nat) (wait : List Nat) :
    (afterDelete x is id wait).epoch = x.epoch := by
  unfold afterDelete
  split <;> exact deleteAll_epoch is x

theorem afterDelete_nodes (x : Index) (is : List Nat) (id : Nat) (wait : List Nat) :
    (afterDelete x is id wait).nodes = (deleteAll x is).1.nodes := by
  unfold afterDelete
  split <;> rfl

section Delete
variable {s : State} {c : Cmd} {slot : Nat} {x : Index} {b : List Byte} (hx : indexOf s c.sid c.handle = some (slot, x))
include hx

theorem deleteNodes_completes (h : coursesUsing s slot = []) :
    let r := deleteAll x (idents b)
    deleteNodes b c s = finish c (deleteResult r.2.1 r.2.2)
      (setIndex slot (fun _ => afterDelete x (idents b) c.id (coursesUsing s slot)) s) := by
  simp only [deleteNodes, hx, h, List.isEmpty_nil, if_true, afterDelete]
  rfl

theorem deleteNodes_waits (h : coursesUsing s slot ≠ []) :
    let r := deleteAll x (idents b)
    deleteNodes b c s = setCmd c.id (fun k => { k with result := some (deleteResult r.2.1 r.2.2), begun := true })
      (setIndex slot (fun _ => afterDelete x (idents b) c.id (coursesUsing s slot)) s) := by
  have hwait : ¬ (coursesUsing s slot).isEmpty = true := by simpa using h
  simp only [deleteNodes, hx, hwait, if_false, afterDelete, h]
  rfl

end Delete

/-- Settles O30: a commit makes the next epoch's index, a delete that of `deleteAll`, at once or once the steps in
flight have left the index. -/
theorem indexCommitAndDelete : Obligations.IndexCommitAndDelete := by
  intro s id c slot x hx
  have hfind := indexOf_find hx
  refine ⟨fun hr hlast => exec_indexCommit_limit hx hr hlast, fun hr hmore => ?commit, fun b hr => ?delete⟩
  case commit =>
    exact ⟨_, nextEpoch x, exec_indexCommit hx hr hmore, find?_setIndex hfind _, rfl, fun n v => find?_nextEpoch,
      fun j hj => find?_setIndex_other hj _ _, rfl⟩
  case delete =>
    have hrun : exec (.indexDelete id (.data b)) s = .next (deleteNodes b c s) := congrArg _ (runCmd_runs hr _)
    rw [hrun]
    refine ⟨_, afterDelete x (idents b) c.id (coursesUsing s slot), (deleteAll x (idents b)).2.1,
      (deleteAll x (idents b)).2.2, _, _, fun h => congrArg _ (deleteNodes_completes hx h),
      fun h => congrArg _ (deleteNodes_waits hx h), deleteAll_count (idents b) x, delete_found, delete_missing,
      find?_setIndex hfind _, afterDelete_epoch .., fun n v hv => ?_, fun j hj => find?_setIndex_other hj _ _, rfl⟩
    obtain ⟨-, -, hnode⟩ := deleteAll_nodes (idents b) x n v hv
    rw [afterDelete_nodes, hnode]

end Sys2Proof.Proofs
end

section
/-! SUPPORT. Proofs about INDEX_REPAIR, the end of its sweep and the drain (R272, R293). -/

open Sys2Proof Sys2Proof.Machine Sys2Proof.Laws
namespace Sys2Proof.Proofs

/-! ## INDEX_REPAIR -/

section Repair
variable {s : State} {id : Nat} {c : Cmd} {slot : Nat} {x : Index} (hx : indexOf s c.sid c.handle = some (slot, x))
  (hr : Runs s id 0x0404 c)
include hx hr

theorem exec_indexRepairStart (ha : c.arg 0 1 = 0) : exec (.indexRepairStart id) s
    = .next (orRefuse c (if x.state ≠ .ready then inState 5 x.state.code else none)
      (fun s => finish c { value := countState x .tombstoned } (setIndex slot startRepair s)) s) := by
  have hrun : exec (.indexRepairStart id) s = .next (if c.arg 0 1 = 0 then repairStart c s else s) :=
    congrArg _ (runCmd_runs hr _)
  rw [hrun, if_pos ha]
  simp only [repairStart, repairRefusal, hx]

theorem exec_indexRepairStatus (ha : c.arg 0 1 = 1) : exec (.indexRepairStatus id) s
    = .next (finish c (c.answer.getD { value := repairProgress s x + countState x .detached * 65536
                                       detail := b2n x.repair.running }) s.draw) := by
  have hrun : exec (.indexRepairStatus id) s = .next (if c.arg 0 1 = 1 then repairStatus c s else s) :=
    congrArg _ (runCmd_runs hr _)
  rw [hrun, if_pos ha]
  simp only [repairStatus, answerWith, repairAnswer, hx]

end Repair

theorem repairProgress_running {x : Index} (h : x.repair.running = true) (s : State) : repairProgress s x ≤ 1000 := by
  rw [repairProgress, if_pos h]
  omega

theorem repairProgress_still {x : Index} (h : x.repair.running = false) (s : State) :
    repairProgress s x = x.repair.progress := by
  rw [repairProgress, h, if_neg Bool.false_ne_true]

/-! ## The end of a sweep -/

/-- A node after the sweep of a pass, `using_` being the courses with a step in flight on the index (R293). -/
def sweptNode (using_ : List Nat) (x : Index) (n : Nat) (v : Node) : Node :=
  if x.repair.covered.contains n then { v with state := .detached, draining := using_, upper := [] }
  else { v with
    neighbours := mend x n v
    upper := v.upper.map (fun l => l.filter (fun m => !x.repair.covered.contains m)) }

/-- The choice of another entry point changes no node. -/
theorem sweepEnd_nodes (using_ : List Nat) (x : Index) :
    (sweepEnd using_ x).nodes = mapTbl x.nodes (sweptNode using_ x) := by
  unfold sweepEnd
  dsimp only
  split
  · split <;> rfl
  · rfl

theorem sweepEnd_epoch (using_ : List Nat) (x : Index) : (sweepEnd using_ x).epoch = x.epoch := by
  unfold sweepEnd
  dsimp only
  split
  · split <;> rfl
  · rfl

theorem sweptNode_keeps (using_ : List Nat) (x : Index) (n : Nat) (v : Node) :
    (sweptNode using_ x n v).code = v.code ∧ (sweptNode using_ x n v).ident = v.ident
      ∧ (sweptNode using_ x n v).epoch = v.epoch := by
  unfold sweptNode
  split <;> exact ⟨rfl, rfl, rfl⟩

theorem sweptNode_covered {x : Index} {n : Nat} (h : n ∈ x.repair.covered) (using_ : List Nat) (v : Node) :
    sweptNode using_ x n v = { v with state := .detached, draining := using_, upper := [] } :=
  if_pos (List.contains_iff_mem.2 h)

theorem sweptNode_other {x : Index} {n : Nat} (h : n ∉ x.repair.covered) (using_ : List Nat) (v : Node) :
    sweptNode using_ x n v = { v with
      neighbours := mend x n v
      upper := v.upper.map (fun l => l.filter (fun m => !x.repair.covered.contains m)) } :=
  if_neg (fun hin => h (List.contains_iff_mem.1 hin))

/-- The upper entries that are left name no node of the pass. -/
theorem sweptNode_upper {x : Index} {n : Nat} (h : n ∉ x.repair.covered) (using_ : List Nat) (v : Node) :
    ∀ l ∈ (sweptNode using_ x n v).upper, ∀ m ∈ l, m ∉ x.repair.covered := by
  rw [sweptNode_other h]
  intro l hl m hm
  obtain ⟨k, -, rfl⟩ := List.mem_map.1 hl
  simpa using (List.mem_filter.1 hm).2

/-- Each adjacency slot that a pass has swept is counted at its engine. -/
def sweepCounted (x : Index) (s : State) : State :=
  foldS (fun s n => bump (endpointClk (homeEngine s x n.1)) 0x0309 1 s) x.nodes s

theorem exec_repairSweepEnd {s : State} {slot : Nat} {x : Index} (hx : find? s.obj.indices slot = some x)
    (hruns : x.repair.running = true) :
    exec (.repairSweepEnd slot) s = .next (setIndex slot (sweepEnd (coursesUsing s slot)) (sweepCounted x s)) := by
  have hwalks : coursesUsing (sweepCounted x s) slot = coursesUsing s slot := by
    simp only [coursesUsing, sweepCounted, (sweep_bumps x x.nodes s).2]
  show execRepairSweepEnd slot s = _
  simp only [execRepairSweepEnd, hx, hruns, if_true]
  rw [← sweepCounted, hwalks]

/-! ## The start by the Quoin, and the drain -/

theorem exec_repairAutoStart {s : State} {slot : Nat} {x : Index} (hx : find? s.obj.indices slot = some x)
    (hdue : repairDue x = true) : exec (.repairAutoStart slot) s = .next (setIndex slot startRepair s) := by
  show execRepairAutoStart slot s = _
  simp only [execRepairAutoStart, hx, hdue, if_true]

def drained (x : Index) : Index :=
  { x with nodes := x.nodes.filter (fun n => !(n.2.state == .detached && n.2.draining.isEmpty)) }

theorem mem_drained {x : Index} {n : Nat × Node} :
    n ∈ (drained x).nodes ↔ n ∈ x.nodes ∧ ¬ (n.2.state = .detached ∧ n.2.draining = []) := by
  simp [drained, imp_iff_not_or]

/-- Settles O31: a start is refused but in READY, a status reports the pass, the sweep's end acts on each node as
`sweptNode` says, and the drain frees what no course holds. -/
theorem indexRepair : Obligations.IndexRepair := by
  intro s id c slot x
  refine ⟨fun hx hr => ⟨fun ha hready => ?start, fun ha hbusy => ?refused, fun ha => ?status⟩,
    fun hx => ⟨fun hdue => exec_repairAutoStart hx hdue, fun hruns => ?swept, ?drained⟩⟩
  case start =>
    rw [exec_indexRepairStart hx hr ha, if_neg (not_not.2 hready)]
    rfl
  case refused =>
    rw [exec_indexRepairStart hx hr ha, if_pos hbusy]
    rfl
  case status =>
    exact ⟨repairProgress s x, exec_indexRepairStatus hx hr ha, fun h => repairProgress_running h s,
      fun h => repairProgress_still h s⟩
  case swept =>
    obtain ⟨hobj, -⟩ := sweep_bumps x x.nodes s
    refine ⟨_, sweepEnd (coursesUsing s slot) x, exec_repairSweepEnd hx hruns,
      find?_setIndex (by rw [sweepCounted, hobj, hx]) _, rfl, rfl, sweepEnd_epoch .., fun n v hv => ?node,
      fun j hj => by rw [find?_setIndex_other hj, sweepCounted, hobj]⟩
    have hnode : find? (sweepEnd (coursesUsing s slot) x).nodes n = some (sweptNode (coursesUsing s slot) x n v) := by
      rw [sweepEnd_nodes, find?_mapTbl, hv, Option.map_some]
    obtain ⟨hcode, hident, hepoch⟩ := sweptNode_keeps (coursesUsing s slot) x n v
    refine ⟨_, hnode, hcode, hident, hepoch, fun hin => ?_, fun hout => ⟨?_, sweptNode_upper hout _ v⟩⟩
    · rw [sweptNode_covered hin]
      exact ⟨rfl, rfl, rfl⟩
    · rw [sweptNode_other hout]
  case drained =>
    exact ⟨_, drained x, rfl, find?_setIndex hx _, fun n => mem_drained, rfl, rfl⟩

end Sys2Proof.Proofs
end

section
/-! SUPPORT. Proofs about INDEX_QUERY, INDEX_DROP and the placement of regions (R272, R294, R297). -/

open Sys2Proof Sys2Proof.Machine Sys2Proof.Laws
namespace Sys2Proof.Proofs

/-! ## INDEX_QUERY and INDEX_DROP -/

theorem indexRecord_length (s : State) (slot : Nat) (x : Index) : (indexRecord s slot x).length = 64 := by
  simp only [indexRecord, List.length_append, leBytes_length]

section Commands
variable {s : State} {id : Nat} {c : Cmd} {slot : Nat} {x : Index}

theorem exec_indexQuery (hr : Runs s id 0x0405 c) :
    exec (.indexQuery id) s = .next (finish c (c.answer.getD (indexAnswer c s)) s.draw) :=
  congrArg _ (runCmd_runs hr _)

theorem exec_indexDrop (hr : Runs s id 0x0406 c) : exec (.indexDrop id) s = .next (dropIndex c s) :=
  congrArg _ (runCmd_runs hr _)

section Found
variable (hx : indexOf s c.sid c.handle = some (slot, x))
include hx

theorem indexAnswer_found : indexAnswer c s = if c.outLen < 64 then
      { status := .partialDone, effect := .none, count := 64 }
    else { count := 64, writes := [(outputOffset s, indexRecord s slot x)] } := by
  simp only [indexAnswer, hx, recordResult, indexRecord_length]

theorem dropIndex_drops (h : c.holds = true ∨ (x.state = .ready ∧ indexBound s c slot c.handle = false)) :
    dropIndex c s = finish c {} (removeIndex slot s) := by
  obtain ⟨hslot, -⟩ := indexOf_slot hx
  have hnone : (if c.holds then none else dropIndexRefusal s c) = none := by
    obtain hholds | ⟨hready, hfree⟩ := h
    · exact if_pos hholds
    · simp [dropIndexRefusal, hx, hready, hfree]
  rw [dropIndex, hnone, hslot]
  rfl

theorem dropIndex_conflict (hholds : c.holds = false) (h : x.state ≠ .ready ∨ indexBound s c slot c.handle = true) :
    dropIndex c s = fail c .stateConflict (5 + 256 * x.state.code) s := by
  have hrefused : dropIndexRefusal s c = inState 5 x.state.code := by
    simp only [dropIndexRefusal, hx]
    exact if_pos h
  rw [dropIndex, hholds, if_neg Bool.false_ne_true, hrefused]
  rfl

end Found

end Commands

/-- With an index its corpus and the moves of both leave. -/
theorem removeIndex_moves (slot : Nat) (s : State) :
    ∀ m ∈ (removeIndex slot s).eng.moves, m.2.obj ≠ .region slot ∧ m.2.obj ≠ .corpus slot := by
  intro m hm
  have hgone : movesOfIndex slot m.2.obj = false := by simpa using (List.mem_filter.1 hm).2
  refine ⟨fun hobj => ?_, fun hobj => ?_⟩ <;> simp [hobj, movesOfIndex] at hgone

/-! ## Placement -/

/-- The move of one region that the Quoin orders (R294). -/
def regionMove (slot region : Nat) (hot : Bool) : Move :=
  { obj := .region slot, toFlash := !hot, device := true, first := region, units := 1 }

def recentMoves (s : State) : List Nat := s.eng.regionMoves.filter (fun t => s.now - t < 1000000000)

/-- The state in which the move is ordered: it is among those of the last second, and a region on its way to LPDDR6 is
marked. -/
def placing (s : State) (slot region : Nat) (hot : Bool) : State :=
  setIndex slot (fun x => { x with regions := upd x.regions region (fun r => { r with moving := hot }) })
    { s with eng := { s.eng with regionMoves := recentMoves s ++ [s.now] } }

section Placement
variable {s : State} {slot region : Nat} {x : Index} (hx : find? s.obj.indices slot = some x)
  (hextended : x.extended = true) (hunpinned : (regionAt x region).pinned = false)
  (hrests : (regionAt x region).moving = false) (hshard : region / 65536 < (shards s (idxCourses x)).length)
  (hregion : region % 65536 < shardRegions s x) (hrate : (recentMoves s).length < 16)
  (hchanges : wantedHot s x region ≠ (regionAt x region).hot)
  (hidle : ∀ m ∈ s.eng.moves, ¬ (m.2.obj = .region slot ∧ m.2.state ≠ .idle))
  (hroom : wantedHot s x region = true → hotCount x < idxHotRegions x)

include hidle in
theorem region_moves_idle : s.eng.moves.any (fun m => m.2.obj == .region slot && moveRuns m.2) = false := by
  rw [List.any_eq_false]
  intro m hm
  simpa [moveRuns] using hidle m hm

include hx hextended hunpinned hrests hshard hregion hrate hchanges hidle hroom in
theorem placeRegion_orders : placeRegion slot region s
    = orderMove (regionMove slot region (wantedHot s x region)) (placing s slot region (wantedHot s x region)) := by
  have hroom' : (!wantedHot s x region || hotCount x < idxHotRegions x) = true := by
    cases hhot : wantedHot s x region
    · rfl
    · simpa using hroom hhot
  simp only [placeRegion, hx]
  refine if_pos ?_
  simp only [Bool.and_eq_true, decide_eq_true_eq, Bool.not_eq_true', bne_iff_ne]
  exact ⟨⟨⟨⟨⟨⟨⟨⟨hextended, hunpinned⟩, hrests⟩, hshard⟩, hregion⟩, hrate⟩, hchanges⟩, region_moves_idle hidle⟩,
    hroom'⟩

include hidle in
/-- No move of the region runs, so the new one takes the place of all that are listed. -/
theorem orderMove_region_moves {t : State} (ht : t.eng.moves = s.eng.moves) (hot : Bool) :
    (orderMove (regionMove slot region hot) t).eng.moves
      = s.eng.moves.filter (fun m => m.2.obj != .region slot) ++ [(t.eng.nextMove, regionMove slot region hot)] := by
  have hkept : t.eng.moves.filter (fun m => !(m.2.obj == .region slot && !moveRuns m.2))
      = s.eng.moves.filter (fun m => m.2.obj != .region slot) := by
    rw [ht]
    refine List.filter_congr (fun m hm => ?_)
    by_cases hobj : m.2.obj = .region slot
    · have hstate : m.2.state = .idle := not_not.1 (fun h => hidle m hm ⟨hobj, h⟩)
      simp [hobj, moveRuns, hstate]
    · have hother : (m.2.obj == .region slot) = false := beq_eq_false_iff_ne.2 hobj
      simp [bne, hother]
  exact congrArg (· ++ [(t.eng.nextMove, regionMove slot region hot)]) hkept

end Placement

/-- Settles O32: a query by what fits OUTPUT, a drop by what binds the index, a region's move by the Quoin's rules. -/
theorem indexQueryDropAndPlacement : Obligations.IndexQueryDropAndPlacement := by
  intro s id c slot x
  refine ⟨fun hx => ⟨fun hr => ⟨indexRecord_length s slot x, ?query⟩, fun hr hdrops => ?drop,
    fun hr hholds h => ?conflict⟩,
    ?placement⟩
  case query => rw [exec_indexQuery hr, indexAnswer_found hx]
  case drop =>
    exact ⟨_, (exec_indexDrop hr).trans (congrArg _ (dropIndex_drops hx hdrops)), find?_del_self ..,
      find?_del_self .., fun j hj => (find?_del ..).trans (if_neg hj.symm), removeIndex_moves slot s⟩
  case conflict => rw [exec_indexDrop hr, dropIndex_conflict hx hholds h]
  case placement =>
    intro region hx hextended r recent hunpinned hrests hshard hregion hrate hchanges hidle hroom
    have horders := placeRegion_orders hx hextended hunpinned hrests hshard hregion hrate hchanges hidle hroom
    exact ⟨_, congrArg Host.Outcome.next horders,
      orderMove_region_moves hidle rfl _, rfl, rfl⟩

end Sys2Proof.Proofs
end

section
/-! SUPPORT. Proofs about CORPUS_WRITE, CORPUS_READ and CORPUS_DELETE (R302, R305, R367). -/

open Sys2Proof Sys2Proof.Machine Sys2Proof.Laws
namespace Sys2Proof.Proofs

/-! ## What a CORPUS_WRITE completes with -/

def corpusStatus (b : Batch) (stop : Option Status) : Status := stop.getD (if b.rejected = 0 then .ok else .partialDone)
def corpusEffect (n : Nat) (b : Batch) : Effect := if b.done = n then .full else if b.done = 0 then .none else .part

/-- What a write of `n` records completes with; DETAIL names the quota that stops it, else the first record that is not
written (R302; log 89). -/
def corpusResult (c : Cmd) (n : Nat) (b : Batch) (stop : Option Status) : Result :=
  { status := corpusStatus b stop, effect := corpusEffect n b, value := b.done + b.rejected * 2 ^ 32
    detail := if stop = some .quotaExceeded then (if c.imm = 1 then 5 else 4) else b.first.getD 0 }

theorem corpusResult_written (c : Cmd) : corpusResult c 1 { done := 1 } none = { value := 1 } := rfl

theorem corpusResult_rejected (c : Cmd) :
    corpusResult c 1 { rejected := 1, first := some 0 } none
      = { status := .partialDone, effect := .none, value := 2 ^ 32 } := rfl

/-- A status that stops a write is neither OK nor PARTIAL. -/
theorem corpusStatus_ended {b : Batch} {stop : Option Status}
    (hstop : ∀ st, stop = some st → ¬ (st = .ok ∨ st = .partialDone))
    (h : corpusStatus b stop = .ok ∨ corpusStatus b stop = .partialDone) : stop = none := by
  cases stop with
  | none => rfl
  | some st => exact absurd h (hstop st rfl)

theorem corpusStatus_ok {b : Batch} (h : corpusStatus b none = .ok) : b.rejected = 0 := by
  by_contra hrejected
  simp [corpusStatus, hrejected] at h

theorem corpusEffect_full_iff (n : Nat) (b : Batch) : corpusEffect n b = .full ↔ b.done = n := by
  unfold corpusEffect
  split
  · next h => simp [h]
  · next h => split <;> simp [h]

/-! ## CORPUS_WRITE -/

/-- The bytes of records written to flash are counted there (R302; log 89). -/
def corpusCounted (c : Cmd) (rs : List (List Byte)) (n : Nat) (s : State) : State :=
  if c.imm = 1 then countIn (sumBy List.length ((rs.filter recordOk).take n)) s else s

/-- The count of bytes to flash is outside every corpus. -/
theorem corpusCounted_frame {slot : Nat} {s t : State} (h : onlyCorpus slot s t) (c : Cmd) (rs : List (List Byte))
    (n : Nat) :
    let u := corpusCounted c rs n t
    (∀ j, j ≠ slot → find? u.obj.corpora j = find? s.obj.corpora j)
      ∧ { u with obj := { u.obj with corpora := s.obj.corpora }
                 flash := { u.flash with bytesIn := s.flash.bytesIn } } = s := by
  obtain ⟨hother, hrest⟩ := h
  have hflash : t.flash.bytesIn = s.flash.bytesIn := congrArg (·.flash.bytesIn) hrest
  unfold corpusCounted
  split
  · refine ⟨hother, Eq.trans ?_ hrest⟩
    rw [← hflash]
    rfl
  · refine ⟨hother, Eq.trans ?_ hrest⟩
    rw [← hflash]

/-- A record as a write stores it: whole, with its check value, in the tier of IMMEDIATE (R302; log 89). -/
def storeRecord (slot : Nat) (flash : Bool) (r : List Byte) (s : State) : State :=
  setCorpus slot (fun k => put k (recIdent r) { bytes := r, check := crc64 (recText r), inFlash := flash }) s

theorem writeRecords_stored {c : Cmd} {slot : Nat} {x : Index} {flash : Bool} {r : List Byte} {s : State}
    (hok : recordOk r = true) (hroom : writeStop s c slot x flash r = none) :
    writeRecords c slot x flash 0 [r] (s, {}) = (storeRecord slot flash r s, { done := 1 }, none) := by
  simp [writeRecords, hok, hroom, storeRecord]

theorem writeRecords_rejected {r : List Byte} (hbad : recordOk r = false) (c : Cmd) (slot : Nat) (x : Index)
    (flash : Bool) (s : State) :
    writeRecords c slot x flash 0 [r] (s, {}) = (s, { rejected := 1, first := some 0 }, none) := by
  simp [writeRecords, hbad]

theorem exec_corpusWrite {s : State} {id : Nat} {c : Cmd} (hr : Runs s id 0x0500 c) (b : List Byte) :
    exec (.corpusWrite id (.data b)) s = .next (corpusWrite b c s) :=
  congrArg _ (runCmd_runs hr _)

section Write
variable {s : State} {c : Cmd} {slot : Nat} {x : Index} {b : List Byte} (hx : indexOf s c.sid c.handle = some (slot, x))
include hx

theorem corpusWrite_misfits (hsplit : splitRecords (b.length / 64 + 1) b = none) :
    corpusWrite b c s = badField c 72 0 s := by
  simp only [corpusWrite, hx, hsplit]

variable {rs : List (List Byte)} (hsplit : splitRecords (b.length / 64 + 1) b = some rs) (hfew : rs.length ≤ 1048576)
  (hstill : ∀ r ∈ rs, unitMoving s (.corpus slot) (recIdent r) = false)
include hsplit hfew hstill

/-- Past its checks a write waits for flash, or its records are written in order (R302, R367, R403). -/
theorem corpusWrite_eq :
    let p := writeRecords c slot x (c.imm = 1) 0 rs (s, {})
    corpusWrite b c s = if c.imm = 1 ∧ s.flash.writesHeld = true then s
      else finish c (corpusResult c rs.length p.2.1 p.2.2) (corpusCounted c rs p.2.1.done p.1) := by
  have hmoving : ¬ rs.any (fun r => unitMoving s (.corpus slot) (recIdent r)) = true := by simpa using hstill
  simp only [corpusWrite, hx, hsplit]
  rw [if_neg (Nat.not_lt.2 hfew), if_neg hmoving]
  rfl

theorem corpusWrite_waits (hflash : c.imm = 1) (hheld : s.flash.writesHeld = true) : corpusWrite b c s = s :=
  (corpusWrite_eq hx hsplit hfew hstill).trans (if_pos ⟨hflash, hheld⟩)

theorem corpusWrite_writes (hgoes : c.imm ≠ 1 ∨ s.flash.writesHeld = false) :
    let p := writeRecords c slot x (c.imm = 1) 0 rs (s, {})
    corpusWrite b c s = finish c (corpusResult c rs.length p.2.1 p.2.2) (corpusCounted c rs p.2.1.done p.1) := by
  refine (corpusWrite_eq hx hsplit hfew hstill).trans (if_neg (fun ⟨hflash, hheld⟩ => ?_))
  simp [hflash, hheld] at hgoes

end Write

section Single
variable {s : State} {c : Cmd} {slot : Nat} {x : Index} {b r : List Byte}
  (hx : indexOf s c.sid c.handle = some (slot, x)) (hsplit : splitRecords (b.length / 64 + 1) b = some [r])
  (hstill : ∀ r' ∈ [r], unitMoving s (.corpus slot) (recIdent r') = false)
  (hgoes : c.imm ≠ 1 ∨ s.flash.writesHeld = false)
include hx hsplit hstill hgoes

theorem corpusWrite_stores (hok : recordOk r = true) (hroom : writeStop s c slot x (c.imm = 1) r = none) :
    let u := storeRecord slot (c.imm = 1) r s
    corpusWrite b c s = finish c { value := 1 } (if c.imm = 1 then countIn r.length u else u) := by
  rw [corpusWrite_writes hx hsplit (by simp) hstill hgoes, writeRecords_stored hok hroom]
  have hbytes : sumBy List.length (([r].filter recordOk).take 1) = r.length := by simp [hok, sumBy]
  rw [List.length_singleton, corpusResult_written, corpusCounted, hbytes]

theorem corpusWrite_rejects (hbad : recordOk r = false) :
    corpusWrite b c s = finish c { status := .partialDone, effect := .none, value := 2 ^ 32 }
      (if c.imm = 1 then countIn 0 s else s) := by
  rw [corpusWrite_writes hx hsplit (by simp) hstill hgoes, writeRecords_rejected hbad]
  have hbytes : sumBy List.length (([r].filter recordOk).take 0) = 0 := rfl
  rw [List.length_singleton, corpusResult_rejected, corpusCounted, hbytes]

end Single

/-! ## CORPUS_READ and CORPUS_DELETE -/

section Identifiers
variable {s : State} {id : Nat} {c : Cmd} {slot : Nat} {x : Index} {b : List Byte}
  (hx : indexOf s c.sid c.handle = some (slot, x))
include hx

theorem exec_corpusRead_readable (hr : Runs s id 0x0501 c)
    (hread : (unreadables (corpusOf s slot) (idents b)).head? = none) :
    exec (.corpusRead id (.data b)) s
      = .next (withRecord c ((idents b).flatMap (recordOut (corpusOf s slot))) {} s) := by
  have hrun : exec (.corpusRead id (.data b)) s = .next (corpusRead b c s) := congrArg _ (runCmd_runs hr _)
  simp only [hrun, corpusRead, hx, hread]

theorem exec_corpusRead_unreadable (hr : Runs s id 0x0501 c) {r : Record}
    (hlost : (unreadables (corpusOf s slot) (idents b)).head? = some r) :
    exec (.corpusRead id (.data b)) s
      = .next (withRecord c ((idents b).flatMap (recordOut (corpusOf s slot)))
          { status := if r.inFlash then .dataLost else .uncorrectable, effect := .part } s) := by
  have hrun : exec (.corpusRead id (.data b)) s = .next (corpusRead b c s) := congrArg _ (runCmd_runs hr _)
  simp only [hrun, corpusRead, hx, hlost]

/-- A CORPUS_DELETE counts and completes as an INDEX_DELETE does (R292, R302). -/
theorem exec_corpusDelete (hr : Runs s id 0x0502 c)
    (hstill : ∀ i ∈ idents b, unitMoving s (.corpus slot) i = false) :
    let r := deleteRecords (idents b) (corpusOf s slot)
    exec (.corpusDelete id (.data b)) s
      = .next (finish c (deleteResult r.2.1 r.2.2) (setCorpus slot (fun _ => r.1) s)) := by
  have hrun : exec (.corpusDelete id (.data b)) s = .next (corpusDelete b c s) := congrArg _ (runCmd_runs hr _)
  have hmoving : ¬ (idents b).any (unitMoving s (.corpus slot)) = true := by simpa using hstill
  simp only [hrun, corpusDelete, hx]
  rw [if_neg hmoving]
  rfl

end Identifiers

theorem find?_setCorpus_other {slot j : Nat} (h : j ≠ slot) (f : Tbl Nat Record → Tbl Nat Record) (s : State) :
    find? (setCorpus slot f s).obj.corpora j = find? s.obj.corpora j :=
  find?_put_other s.obj.corpora _ h.symm

theorem corpusOf_setCorpus (slot : Nat) (f : Tbl Nat Record → Tbl Nat Record) (s : State) :
    corpusOf (setCorpus slot f s) slot = f (corpusOf s slot) :=
  look_upd_self s.obj.corpora slot f

/-- Settles O33: a write by what its buffer holds and what flash allows, its counts and its frame by those of
`writeRecords`, a read by the first record that cannot be read, a delete by those of `deleteRecords`. -/
theorem corpusCommands : Obligations.CorpusCommands := by
  intro s id c slot x b hx
  refine ⟨fun hr hsplit => ?misfit, fun rs hr hsplit hfew hstill => ⟨fun hflash hheld => ?waits,
    fun hgoes => ⟨?counts, ?stored, ?rejected⟩⟩, fun hr => ?read, fun hr hstill => ?delete⟩
  case misfit => rw [exec_corpusWrite hr, corpusWrite_misfits hx hsplit]
  case waits => rw [exec_corpusWrite hr, corpusWrite_waits hx hsplit hfew hstill hflash hheld]
  case counts =>
    obtain ⟨hcorpus, hmost, hall⟩ := writeRecords_frame c slot x (c.imm = 1) rs 0 s {}
    have hstop := stop_status c slot x (c.imm = 1) rs 0 s {}
    rw [exec_corpusWrite hr, corpusWrite_writes hx hsplit hfew hstill hgoes]
    generalize writeRecords c slot x (c.imm = 1) 0 rs (s, {}) = p at hcorpus hmost hall hstop ⊢
    obtain ⟨t, w, stop⟩ := p
    obtain ⟨hother, hrest⟩ := corpusCounted_frame hcorpus c rs w.done
    have hnone := corpusStatus_ended (b := w) hstop
    refine ⟨corpusCounted c rs w.done t, w.done, w.rejected, corpusStatus w stop, corpusEffect rs.length w, _, rfl,
      by simpa using hmost, fun hended => by simpa using hall (hnone hended), fun hok => ?_,
      corpusEffect_full_iff rs.length w, hother, hrest⟩
    obtain rfl := hnone (.inl hok)
    exact corpusStatus_ok hok
  case stored =>
    rintro r rfl hok hroom
    exact (exec_corpusWrite hr b).trans (congrArg _ (corpusWrite_stores hx hsplit hstill hgoes hok hroom))
  case rejected =>
    rintro r rfl hbad
    rw [exec_corpusWrite hr, corpusWrite_rejects hx hsplit hstill hgoes hbad]
  case read =>
    intro k bytes
    cases hlost : (unreadables k (idents b)).head? with
    | none => exact exec_corpusRead_readable hx hr hlost
    | some r => exact exec_corpusRead_unreadable hx hr hlost
  case delete =>
    obtain ⟨hcount, hleft⟩ := deleteRecords_spec (idents b) (corpusOf s slot)
    refine ⟨_, _, _, _, _, exec_corpusDelete hx hr hstill, hcount, fun h => if_pos h, fun h => if_neg h, fun i => ?_,
      fun j hj => find?_setCorpus_other hj _ s, rfl⟩
    rw [corpusOf_setCorpus, hleft]

end Sys2Proof.Proofs
end

section
/-! SUPPORT. Proofs about TEMPLATE_LOAD in its three forms and PROFILE_SET (R311, R314). -/

open Sys2Proof Sys2Proof.Machine Sys2Proof.Laws
namespace Sys2Proof.Proofs

/-! ## Templates -/

section Load
variable {s : State} {c : Cmd} {slot : Nat} {b : List Byte} (hheader : tplHeaderFault b = none)
  (hfree : firstFree s.obj.templates 0 4096 = some slot) (hfew : templatesOfSession s c.sid < 16)
include hheader hfree hfew

theorem loadTemplate_fits (hbody : templateBodyFault b = none) :
    let reuse := (look s.obj.templateReuse slot + 1) % 2 ^ 32
    loadTemplate b c s = finish c { value := mkHandle slot reuse } { s with obj := { s.obj with
      templates := put s.obj.templates slot { reuse, session := c.sid, tenant := c.tenant, image := b }
      templateReuse := put s.obj.templateReuse slot reuse } } := by
  simp [loadTemplate, hheader, hfree, Nat.not_le.2 hfew, hbody]

theorem loadTemplate_badBody {st : Status} {o : Nat} (hbody : templateBodyFault b = some (st, o)) :
    loadTemplate b c s = imageFault c st o s := by
  simp [loadTemplate, hheader, hfree, Nat.not_le.2 hfew, hbody]

end Load

section Named
variable {s : State} {c : Cmd} {slot : Nat} {x : Template} (hx : templateOf s c.sid c.imm = some (slot, x))
include hx

theorem replaceTemplate_fits {b : List Byte} (hheader : tplHeaderFault b = none) (hbody : templateBodyFault b = none) :
    replaceTemplate b c s = finish c { value := c.imm } { s with obj := { s.obj with
      templates := adj s.obj.templates slot (fun x => { x with image := b }) } } := by
  simp only [replaceTemplate, hx, hheader, hbody, Option.orElse]

theorem freeTemplate_frees : freeTemplate c s
    = finish c {} { s with obj := { s.obj with templates := del s.obj.templates slot } } := by
  simp only [freeTemplate, hx]

end Named

section Forms
variable {s : State} {id : Nat} {c : Cmd} (hr : Runs s id 0x0304 c)
include hr

theorem exec_templateLoad (himm : c.imm = 0) (b : List Byte) :
    exec (.templateLoad id (.data b)) s = .next (loadTemplate b c s) :=
  (congrArg Host.Outcome.next (runCmd_runs hr _)).trans (congrArg _ (if_pos himm))

theorem exec_templateReplace (himm : c.imm ≠ 0) (hlen : c.bdLen 0 ≠ 0) (b : List Byte) :
    exec (.templateReplace id (.data b)) s = .next (replaceTemplate b c s) :=
  (congrArg Host.Outcome.next (runCmd_runs hr _)).trans (congrArg _ (if_pos ⟨himm, hlen⟩))

theorem exec_templateFree (himm : c.imm ≠ 0) (hlen : c.bdLen 0 = 0) :
    exec (.templateFree id) s = .next (freeTemplate c s) :=
  (congrArg Host.Outcome.next (runCmd_runs hr _)).trans (congrArg _ (if_pos ⟨himm, hlen⟩))

end Forms

/-! ## Profiles -/

/-- A profile of zeros clears its slot (R311). -/
theorem find?_putProfile (t : Tbl Nat (List Byte)) (n : Nat) (b : List Byte) :
    find? (putProfile t n b) n = if leNat b = 0 then none else some b := by
  unfold putProfile
  split
  · exact find?_del_self t n
  · exact find?_put_self t n b

/-- A tenant with the profile that a PROFILE_SET stores. -/
def withProfile (c : Cmd) (t : Tenant) : Tenant :=
  let n := c.arg 0 4 % 16
  let b := slice c.params 64 64
  if c.arg 0 4 < 2 ^ 31 then { t with retrievalProfiles := putProfile t.retrievalProfiles n (storedProfile true b) }
  else { t with featureProfiles := putProfile t.featureProfiles n b }

theorem withProfile_retrieval {c : Cmd} (h : c.arg 0 4 < 2 ^ 31) (t : Tenant) : withProfile c t
    = { t with retrievalProfiles := putProfile t.retrievalProfiles (c.arg 0 4 % 16)
                 (storedProfile true (slice c.params 64 64)) } := if_pos h

theorem withProfile_feature {c : Cmd} (h : 2 ^ 31 ≤ c.arg 0 4) (t : Tenant) : withProfile c t
    = { t with featureProfiles := putProfile t.featureProfiles (c.arg 0 4 % 16) (slice c.params 64 64) } :=
  if_neg (Nat.not_lt.2 h)

theorem exec_profileSet {s : State} {id : Nat} {c : Cmd} (hr : Runs s id 0x0305 c) :
    exec (.profileSet id) s = .next (finish c {} (setTenant c.tenant (withProfile c) s)) :=
  congrArg _ (runCmd_runs hr _)

theorem look_setTenant_self (t : Nat) (f : Tenant → Tenant) (s : State) :
    look (setTenant t f s).tenants t = f (look s.tenants t) :=
  look_upd_self s.tenants t f

theorem look_setTenant_other {t n : Nat} (h : n ≠ t) (f : Tenant → Tenant) (s : State) :
    look (setTenant t f s).tenants n = look s.tenants n :=
  look_upd_other s.tenants f h.symm

/-- Settles O24: a load by the checks past its header, a replacement and a free by the template that IMMEDIATE names,
and a profile by bit 31 of its slot field. -/
theorem templateAndProfileCommands : Obligations.TemplateAndProfileCommands := by
  intro s id c slot
  refine ⟨fun b hr himm hheader hfree hfew => ⟨fun hbody => ?fits, fun st o hbody => ?badBody⟩,
    fun b x hr himm hx => ⟨fun hlen hheader hbody => ?replaces, fun hlen => ?frees⟩,
    fun hr => ⟨_, exec_profileSet hr, fun t ht => look_setTenant_other ht _ s, fun hretrieval => ?retrieval,
      fun hfeature => ?feature, rfl⟩⟩
  case fits => exact (exec_templateLoad hr himm b).trans (congrArg _ (loadTemplate_fits hheader hfree hfew hbody))
  case badBody => exact (exec_templateLoad hr himm b).trans (congrArg _ (loadTemplate_badBody hheader hfree hfew hbody))
  case replaces => rw [exec_templateReplace hr himm hlen, replaceTemplate_fits hx hheader hbody]
  case frees => rw [exec_templateFree hr himm hlen, freeTemplate_frees hx]
  case retrieval =>
    rw [look_setTenant_self, withProfile_retrieval hretrieval]
    exact ⟨find?_putProfile .., rfl⟩
  case feature =>
    rw [look_setTenant_self, withProfile_feature hfeature]
    exact ⟨find?_putProfile .., rfl⟩

end Sys2Proof.Proofs
end

section
/-! SUPPORT. Proofs about TABLE_CREATE, TABLE_QUERY, TABLE_DROP and ROWS_WRITE (R325, R328, R329, R338, R343). -/

open Sys2Proof Sys2Proof.Machine Sys2Proof.Laws
namespace Sys2Proof.Proofs

/-! ## One table of the device -/

theorem tableAt_of_find? {s : State} {slot : Nat} {t : Table} (ht : find? s.obj.tables slot = some t) :
    tableAt s slot = t := by
  rw [tableAt, look, ht, Option.getD_some]

theorem find?_setTable {s : State} {slot : Nat} {t : Table} (ht : find? s.obj.tables slot = some t)
    (f : Table → Table) : find? (setTable slot f s).obj.tables slot = some (f t) := by
  simp [setTable, find?_adj, ht]

theorem find?_setTable_other {slot j : Nat} (h : j ≠ slot) (f : Table → Table) (s : State) :
    find? (setTable slot f s).obj.tables j = find? s.obj.tables j := by
  simp [setTable, find?_adj, h.symm]

/-! ## TABLE_CREATE and TABLE_QUERY -/

/-- The table that the parameters of a TABLE_CREATE describe (R325), with the reuse counter that it takes. -/
def describedTable (c : Cmd) (reuse : Nat) : Table :=
  { reuse, session := c.sid, tenant := c.tenant, rows := if c.arg 0 4 = 0 then 4294967296 else c.arg 0 4
    width := c.arg 4 2, pooling := c.arg 6 1, courses := if c.imm = 0 then 15 else c.imm }

theorem createTable_fits {s : State} {c : Cmd} {slot : Nat} (hslot : firstFree s.obj.tables 0 256 = some slot) :
    let reuse := (look s.obj.tableReuse slot + 1) % 2 ^ 32
    let new := describedTable c reuse
    tenantLpddr6 s c.tenant + (shards s new.courses).length * shardBytes s new ≤ (quotasOf s c.tenant).lpddr6 →
    shards s new.courses ≠ [] → tableFits s new = true →
    createTable c s = finish c { value := mkHandle slot reuse } { s with obj := { s.obj with
      tables := put s.obj.tables slot new, tableReuse := put s.obj.tableReuse slot reuse } } := by
  intro reuse new hquota hshards hfits
  have hhome : ¬ ((shards s new.courses).isEmpty = true ∨ (!tableFits s new) = true) := by simp [hshards, hfits]
  simp only [createTable, hslot]
  exact (if_neg (Nat.not_lt.2 hquota)).trans (if_neg hhome)

theorem tableAnswer_found {s : State} {c : Cmd} {slot : Nat} {t : Table}
    (ht : tableOf s c.sid c.handle = some (slot, t)) :
    tableAnswer c s = recordResult s c (tableRecord s slot t) {} := by
  rw [tableAnswer, ht]

/-! ## TABLE_DROP -/

/-- A table in DROPPING for a command, whose storage is to be freed (R328). -/
def droppedBy (c : Cmd) (t : Table) : Table :=
  { t with dropping := true, ending := true, queue := [], dropCmd := some c.id }

/-- The effect of a TABLE_DROP has begun: its table is DROPPING. -/
def dropBegun (slot : Nat) (c : Cmd) (s : State) : State :=
  setCmd c.id (fun k => { k with begun := true }) (setTable slot (droppedBy c) s)

section Refusal
variable {s : State} {c : Cmd} {slot : Nat} {t : Table} (ht : tableOf s c.sid c.handle = some (slot, t))
include ht

theorem dropTableRefusal_dropping (h : t.dropping = true) : dropTableRefusal s c = inState 6 2 := by
  simp [dropTableRefusal, ht, h]

theorem dropTableRefusal_live (h : t.dropping = false) :
    dropTableRefusal s c = if tableBound s c = true then inState 6 1 else none := by
  simp [dropTableRefusal, ht, h]

end Refusal

section Drop
variable {s : State} {c : Cmd} {slot : Nat} {t : Table} (ht : tableOf s c.sid c.handle = some (slot, t))
  (hbegun : c.begun = false)
include ht hbegun

theorem dropTable_conflict {state : Nat} (hholds : c.holds = false) (h : dropTableRefusal s c = inState 6 state) :
    dropTable c s = fail c .stateConflict (6 + 256 * state) s := by
  simp only [dropTable, ht, hbegun, hholds, h, Bool.false_eq_true, if_false]
  rfl

theorem dropTable_begins (h : c.holds = true ∨ (t.dropping = false ∧ tableBound s c = false)) :
    dropTable c s = endDrop slot (dropBegun slot c s) := by
  have hallowed : (if c.holds = true then none else dropTableRefusal s c) = none := by
    obtain hholds | ⟨hready, hfree⟩ := h
    · exact if_pos hholds
    · simp [dropTableRefusal_live ht hready, hfree]
  simp only [dropTable, ht, hbegun, hallowed, Bool.false_eq_true, if_false]
  rfl

end Drop

theorem find?_dropBegun {s : State} {slot : Nat} {t : Table} (ht : find? s.obj.tables slot = some t) (c : Cmd) :
    find? (dropBegun slot c s).obj.tables slot = some (droppedBy c t) :=
  find?_setTable ht _

/-- The drop of a table leaves every other table. -/
theorem find?_dropBegun_other {slot j : Nat} (h : j ≠ slot) (c : Cmd) (s : State) :
    find? (dropBegun slot c s).obj.tables j = find? s.obj.tables j :=
  find?_setTable_other h _ s

theorem findCmd_dropBegun {s : State} {c : Cmd} (hc : findCmd s c.id = some c) (slot : Nat) :
    findCmd (dropBegun slot c s) c.id = some { c with begun := true } := by
  have hfound : findCmd (setTable slot (droppedBy c) s) c.id = some c := hc
  exact (findCmd_setCmd _ c.id (fun k => { k with begun := true }) (fun _ => rfl)).trans
    (congrArg (Option.map _) hfound)

/-- A table's slot and storage are free (R328). -/
def withoutTable (slot : Nat) (s : State) : State :=
  { s with obj := { s.obj with tables := del s.obj.tables slot } }

theorem find?_withoutTable_other {slot j : Nat} (h : j ≠ slot) (s : State) :
    find? (withoutTable slot s).obj.tables j = find? s.obj.tables j := by
  simp [withoutTable, find?_del, h.symm]

section EndDrop
variable {s : State} {slot : Nat} {t : Table} (ht : find? s.obj.tables slot = some t)
include ht

theorem endDrop_migrating (hopen : t.migrations ≠ []) : endDrop slot s = s := by
  simp [endDrop, ht, hopen]

theorem endDrop_frees {c : Cmd} (hending : t.ending = true) (hnone : t.migrations = [])
    (hcmd : t.dropCmd.bind (findCmd s) = some c) :
    endDrop slot s = finish c {} (withoutTable slot s) := by
  simp [endDrop, withoutTable, ht, hending, hnone, hcmd]

end EndDrop

/-! ## ROWS_WRITE -/

/-- What a ROWS_WRITE completes with (R329): the counts of an INDEX_DELETE, and the first record rejected. -/
def rowsResult (b : Batch) : Result := { deleteResult b.done b.rejected with detail := b.first.getD 0 }

theorem rowsResult_written : rowsResult { done := 1 } = { value := 1 } := by decide

theorem rowsResult_rejected :
    rowsResult { rejected := 1, first := some 0 } = { status := .partialDone, effect := .none, value := 2 ^ 32 } := by
  decide

section Write
variable {s : State} {c : Cmd} {slot : Nat} {t : Table} (ht : tableOf s c.sid c.handle = some (slot, t))
  (hlive : t.dropping = false) {b : List Byte} {p : State × Batch}
  (hp : writeRows slot c.id 0 (chunksOf (rowRecord t.width) b) (s, {}) = p)
include ht hlive hp

theorem rowsWrite_completes (h : heldWrites p.1 c.id = false) : rowsWrite b c s = finish c (rowsResult p.2) p.1 := by
  subst hp
  simp only [rowsWrite, ht, hlive, h, Bool.false_eq_true, if_false]
  rfl

theorem rowsWrite_waits (h : heldWrites p.1 c.id = true) : rowsWrite b c s
    = setCmd c.id (fun k => { k with result := some (rowsResult p.2), begun := true }) p.1 := by
  subst hp
  simp only [rowsWrite, ht, hlive, h, Bool.false_eq_true, if_false, if_true]
  rfl

end Write

/-- The elements that a record gives its row, none with ZERO (R329). -/
def rowElements (t : Table) (r : List Byte) : List Byte :=
  if bitOf (field r 4 1) 0 then [] else slice r 8 (2 * t.width)

section Record
variable {s : State} {slot : Nat} {t : Table} (ht : find? s.obj.tables slot = some t) {r : List Byte} (cmd : Nat)
include ht

theorem writeRows_written (hok : rowRecordOk t r = true) (hfree : locked t (field r 0 4) = false) :
    writeRows slot cmd 0 [r] (s, {})
      = (setTable slot (writeRow (field r 0 4) (rowElements t r)) s, { done := 1 }) := by
  simp [writeRows, applyRow, tableAt_of_find? ht, hok, hfree, rowElements]

theorem writeRows_rejected (hbad : rowRecordOk t r = false) :
    writeRows slot cmd 0 [r] (s, {}) = (s, { rejected := 1, first := some 0 }) := by
  simp [writeRows, tableAt_of_find? ht, hbad]

end Record

theorem writeRow_eq (row : Nat) (bytes : List Byte) (t : Table) : writeRow row bytes t
    = { t with poisoned := t.poisoned.filter (· != row)
               data := if bytes = [] then del t.data row else put t.data row bytes } := by
  cases bytes <;> rfl

theorem exec_rowsWrite {s : State} {id : Nat} {c : Cmd} (hr : Runs s id 0x0601 c) (b : List Byte) :
    exec (.rowsWrite id (.data b)) s = .next (rowsWrite b c s) :=
  congrArg _ (runCmd_runs hr _)

theorem exec_tableDrop {s : State} {id : Nat} {c : Cmd} (hr : Runs s id 0x0604 c) :
    exec (.tableDrop id) s = .next (dropTable c s) :=
  congrArg _ (runCmd_runs hr _)

/-- Settles O34: a creation by its room, a drop by what binds the table and by its open migrations, a write by the
counts of `writeRows`, one record by its check and its row's lock. -/
theorem tableCommands : Obligations.TableCommands := by
  intro s id c slot
  refine ⟨fun hr hslot => ?create, fun t ht => ⟨fun hr => ?query,
    fun hr hbegun => ⟨fun hholds hdropping => ?dropping, fun hholds hready hbound => ?bound,
      fun hallowed hopen => ?drops, fun hallowed hnone => ?frees⟩,
    fun b hr hlive => ⟨?batch, fun r hone => ⟨fun hok hfree hheld => ?written, fun hbad hheld => ?rejected⟩⟩⟩⟩
  case create =>
    intro reuse new hquota hshards hfits
    have hrun : exec (.tableCreate id) s = .next (createTable c s) := congrArg _ (runCmd_runs hr _)
    exact hrun.trans (congrArg _ (createTable_fits hslot hquota hshards hfits))
  case query =>
    have hrun : exec (.tableQuery id) s = .next (queryTable c s) := congrArg _ (runCmd_runs hr _)
    rw [hrun, queryTable, answerWith, tableAnswer_found ht]
    rfl
  case dropping =>
    rw [exec_tableDrop hr, dropTable_conflict ht hbegun hholds (dropTableRefusal_dropping ht hdropping)]
  case bound =>
    have hrefused := (dropTableRefusal_live ht hready).trans (if_pos hbound)
    rw [exec_tableDrop hr, dropTable_conflict ht hbegun hholds hrefused]
  case drops =>
    have hfind := find?_dropBegun (tableOf_find ht) c
    obtain rfl := runs_id hr
    rw [exec_tableDrop hr, dropTable_begins ht hbegun hallowed, endDrop_migrating hfind hopen]
    obtain ⟨hcmd, -⟩ := hr
    exact ⟨_, _, rfl, hfind, rfl, rfl, rfl, findCmd_dropBegun hcmd slot⟩
  case frees =>
    have hfind := find?_dropBegun (tableOf_find ht) c
    obtain rfl := runs_id hr
    rw [exec_tableDrop hr, dropTable_begins ht hbegun hallowed]
    obtain ⟨hcmd, -⟩ := hr
    rw [endDrop_frees hfind rfl hnone (findCmd_dropBegun hcmd slot)]
    exact ⟨_, rfl, find?_del_self .., fun j hj =>
      (find?_withoutTable_other hj _).trans (find?_dropBegun_other hj c s)⟩
  case batch =>
    have hcount := writeRows_count slot c.id (chunksOf (rowRecord t.width) b) 0 s {}
    generalize hp : writeRows slot c.id 0 (chunksOf (rowRecord t.width) b) (s, {}) = p at hcount
    rw [exec_rowsWrite hr]
    exact ⟨p.1, p.2.done, p.2.rejected, _, _, _, fun h => congrArg _ (rowsWrite_completes ht hlive hp h),
      fun h => congrArg _ (rowsWrite_waits ht hlive hp h), hcount.trans (Nat.zero_add _), delete_found,
      fun h => (delete_missing (n := p.2.done) h).1⟩
  case written =>
    have hp := writeRows_written (tableOf_find ht) c.id hok hfree
    rw [← hone] at hp
    rw [exec_rowsWrite hr, rowsWrite_completes ht hlive hp hheld, rowsResult_written]
    exact congrArg (fun f => Host.Outcome.next (finish c { value := 1 } (setTable slot f s)))
      (funext (writeRow_eq _ _))
  case rejected =>
    have hp := writeRows_rejected (tableOf_find ht) c.id hbad
    rw [← hone] at hp
    rw [exec_rowsWrite hr, rowsWrite_completes ht hlive hp hheld, rowsResult_rejected]

end Sys2Proof.Proofs
end

section
/-! SUPPORT. Proofs about MIGRATION_INTERVAL, MOVE_START and ROW_DONE (R336 to R339). -/

open Sys2Proof Sys2Proof.Machine Sys2Proof.Laws
namespace Sys2Proof.Proofs

/-! ## MIGRATION_INTERVAL -/

/-- The interval ends: every table's counts become those of the last, and the engines' lists are empty (R336). -/
def countsTurned (s : State) : State :=
  { s with
    obj := { s.obj with
      tables := mapTbl s.obj.tables (fun _ t => { t with lastCounts := t.shardCounts, shardCounts := [] }) }
    eng := { s.eng with topRows := [], lastInterval := s.now } }

theorem endInterval_eq (s : State) :
    endInterval s = openAll (countsTurned (chooseAll s.obj.tables s.dev.cfg.emb.migrateMax s)) := rfl

theorem exec_migrationInterval_over {s : State} (hawake : awake s = true)
    (h : s.eng.lastInterval + s.dev.cfg.emb.intervalMs * 1000000 ≤ s.now) :
    exec .migrationInterval s = .next (endInterval s) :=
  congrArg _ (if_pos (by simp [hawake, h]))

theorem exec_migrationInterval_early {s : State}
    (h : s.now < s.eng.lastInterval + s.dev.cfg.emb.intervalMs * 1000000) :
    exec .migrationInterval s = .next s :=
  congrArg _ (if_neg (by simp [Nat.not_le.2 h]))

theorem endInterval_eng (s : State) :
    (endInterval s).eng.topRows = [] ∧ (endInterval s).eng.lastInterval = s.now := by
  rw [endInterval_eq, openAll_eng]
  exact ⟨rfl, chooseAll_now _ _ s⟩

/-- The choice of migrations and their opening leave a table's counts, rows and homes, so only the turn changes them. -/
theorem endInterval_table {s : State} {slot : Nat} {t : Table} (ht : find? s.obj.tables slot = some t) :
    ∃ t', find? (endInterval s).obj.tables slot = some t' ∧ t'.shardCounts = []
      ∧ t'.lastCounts = t.shardCounts ∧ t'.data = t.data ∧ t'.homes = t.homes := by
  obtain ⟨hchosen, -⟩ := keepsT_chooseAll s.obj.tables s.dev.cfg.emb.migrateMax s
  obtain ⟨t₁, ht₁, hcounts₁, -, hdata₁, hhomes₁, -⟩ := hchosen slot t ht
  have hturned : find? (countsTurned (chooseAll s.obj.tables s.dev.cfg.emb.migrateMax s)).obj.tables slot
      = some { t₁ with lastCounts := t₁.shardCounts, shardCounts := [] } := by
    rw [countsTurned, find?_mapTbl, ht₁, Option.map_some]
  obtain ⟨t₂, ht₂, hcounts₂, hlast₂, hdata₂, hhomes₂, -⟩ := keepsT_openAll _ slot _ hturned
  exact ⟨t₂, ht₂, hcounts₂, hlast₂.trans hcounts₁, hdata₂.trans hdata₁, hhomes₂.trans hhomes₁⟩

/-! ## A row with an open migration -/

section Migrating
variable {s : State} {slot row : Nat} {t : Table} {m : Migration} (ht : find? s.obj.tables slot = some t)
  (hm : migrationOf t row = some m) (hruns : tableRuns s t = true)
include ht hm hruns

theorem exec_moveStart (hlocked : m.switched = false) (good : Bool) :
    exec (.moveStart slot row good) s = .next (copyDone slot m good s) := by
  show execMoveStart slot row good s = _
  simp [execMoveStart, tableAt_of_find? ht, hm, hruns, hlocked]

theorem exec_rowDone (hcounted : m.draining ≠ 0) (fwd : Bool) :
    exec (.rowDone slot row fwd) s = .next (rowReturned slot m fwd s) := by
  show execRowDone slot row fwd s = _
  simp [execRowDone, tableAt_of_find? ht, hm, hruns, hcounted]

end Migrating

/-- A counted request is served at the row's old slot, or, forwarded by its stub, at the new one (R338). -/
def servedOnce (slot : Nat) (t : Table) (m : Migration) (fwd : Bool) (s : State) : State :=
  if fwd = true ∧ m.switched = true then bump (tableClk s t m.old) 0x0504 1 (serveRow slot m.row m.new s)
  else serveRow slot m.row m.old s

theorem rowReturned_eq {s : State} {slot : Nat} {t : Table} (ht : find? s.obj.tables slot = some t) (m : Migration)
    (fwd : Bool) : rowReturned slot m fwd s
    = if m.draining = 1 ∧ m.switched = true then closeMigration slot m.row (servedOnce slot t m fwd s)
      else setMigration slot m.row (fun m => { m with draining := m.draining - 1 }) (servedOnce slot t m fwd s) := by
  simp only [rowReturned, tableAt_of_find? ht, Bool.and_eq_true]
  rfl

/-- Settles O36: an interval is turned once it is over, a copy leaves the homes and data of `copyDone_spec`, and a
request that returns is the last one of an unlocked row or is not. -/
theorem rowMigration : Obligations.RowMigration := by
  intro s
  refine ⟨fun hawake => ⟨fun hover => ?ended, exec_migrationInterval_early⟩,
    fun slot row t m ht hm hruns => ⟨fun good hlocked hrow hkept => ?copied, fun fwd => ?served⟩⟩
  case ended =>
    obtain ⟨htop, hlast⟩ := endInterval_eng s
    exact ⟨_, exec_migrationInterval_over hawake hover, htop, hlast, fun _ _ ht => endInterval_table ht⟩
  case copied =>
    subst hrow
    obtain ⟨t', ht', hhomes, hdata⟩ := copyDone_spec s slot t m good ht hkept
    exact ⟨_, t', exec_moveStart ht hm hruns hlocked good, ht', hhomes, hdata⟩
  case served =>
    refine ⟨fun hlast hopen hrow => ?_, fun hcounted hmore hrow => ?_⟩
    · subst hrow
      rw [exec_rowDone ht hm hruns (by simp [hlast]), rowReturned_eq ht, if_pos ⟨hlast, hopen⟩]
      rfl
    · subst hrow
      rw [exec_rowDone ht hm hruns hcounted, rowReturned_eq ht, if_neg hmore]
      rfl

end Sys2Proof.Proofs
end

section
/-! SUPPORT. Proofs about LOOKUP in its step (R331 to R335). -/

open Sys2Proof Sys2Proof.Machine Sys2Proof.Laws
namespace Sys2Proof.Proofs

/-! ## The job on its thread -/

/-- A LOOKUP of a READY table whose engines work does its reduction once its job holds a thread. -/
theorem exec_lookup {s u : State} {id : Nat} {c : Cmd} {slot : Nat} {t : Table} {row : Row} (hr : Runs s id 0x0602 c)
    (ht : tableOf s c.sid c.handle = some (slot, t)) (hlive : t.dropping = false) (hruns : tableRuns s t = true)
    (hrow : laneRow s c = some row) (hfate : row.fate = none)
    (hu : startJob (.command c.id) (c.course.getD 0) .retrieval (coreNumber row.tile row.core) s = u)
    (hthread : onThread u (.command c.id) = true) (hclock : stopped u (tileClk row.tile) = false)
    {i w b : List Byte} {x : State} (hwork : lookupRun c slot t row i w b u = x) :
    exec (.lookup id (.data i) (.data w) (.data b)) s = .next (runJobs x) := by
  subst hu hwork
  have hrun : exec (.lookup id (.data i) (.data w) (.data b)) s
      = .next (lookupJob (.data i) (.data w) (.data b) c s) := congrArg _ (runCmd_runs hr _)
  rw [hrun, lookupJob, ht]
  simp only [hlive, hruns, Bool.not_true, Bool.false_eq_true, if_false, laneJob, laneUse, hrow, hfate,
    withThread_runs _ hthread hclock, laneInput]

/-! ## The operands of a reduction -/

/-- The bag starts, one bag without the descriptor of them (R331). -/
def bagStarts (c : Cmd) (b : List Byte) : List Nat := if c.bdLen 32 = 0 then [0] else words b

/-- The occurrences: position, row and weight, of 1.0 without the descriptor of weights (R331). -/
def occurrences (c : Cmd) (rows : List Nat) (w : List Byte) : List (Nat × Nat × F32) :=
  let ws := if c.bdLen 16 = 0 then rows.map (fun _ => oneF32) else (words w).map (BitVec.ofNat 32)
  (rows.zip ws).zipIdx.map (fun p => (p.2, p.1.1, p.1.2))

/-- The pooling in force: the command's, or in compatibility mode the table's (R331). -/
def poolingOf (s : State) (c : Cmd) (t : Table) : Nat :=
  if c.arg 48 1 = 0xFF then (if compatMode s then t.pooling else 0) else c.arg 48 1

/-- The output elements, bag by bag (R332 to R334). -/
def lookupOutputs (s : State) (c : Cmd) (t : Table) (rows bags : List Nat) (w : List Byte) :
    List (List Byte × Bool × Bool) :=
  ((bagRanges rows.length bags).flatMap (fun r =>
    reduceBag t (poolingOf s c t) (((occurrences c rows w).drop r.1).take (r.2 - r.1)))).map (outElem (c.arg 49 1))

/-- The first bag with an uncorrectable row (R335). -/
def badRowBag (t : Table) (rows bags : List Nat) : Option Nat :=
  (bagRanges rows.length bags).findIdx? (fun r => ((rows.drop r.1).take (r.2 - r.1)).any (t.poisoned.contains ·))

/-- What a LOOKUP completes with, where its result fits (R331, R335). -/
def lookupResult (t : Table) (rows bags : List Nat) : Result :=
  let value := (bagRanges rows.length bags).length + (firstMet rows).length * 2 ^ 32
  match badRowBag t rows bags with
  | some k => { status := .uncorrectable, effect := .part, value, detail := k }
  | none => { value }

theorem lookupResult_value (t : Table) (rows bags : List Nat) : (lookupResult t rows bags).value
    = (bagRanges rows.length bags).length + (firstMet rows).length * 2 ^ 32 := by
  unfold lookupResult
  split <;> rfl

theorem lookupResult_good {t : Table} {rows bags : List Nat} (h : badRowBag t rows bags = none) :
    (lookupResult t rows bags).status = .ok := by
  simp only [lookupResult, h]

theorem lookupResult_bad {t : Table} {rows bags : List Nat} {k : Nat} (h : badRowBag t rows bags = some k) :
    (lookupResult t rows bags).status = .uncorrectable ∧ (lookupResult t rows bags).effect = .part
      ∧ (lookupResult t rows bags).detail = k := by
  simp only [lookupResult, h, and_self]

/-! ## The reduction -/

/-- The fetches of a LOOKUP and its counts (R333, R334, R342). -/
def lookupCounted (c : Cmd) (slot : Nat) (tile : Fin 64) (rows : List Nat) (outs : List (List Byte × Bool × Bool))
    (s : State) : State :=
  bump (tileClk tile) 0x0514 ((outs.filter (·.2.2)).length)
    (bump (tileClk tile) 0x0513 ((outs.filter (·.2.1)).length) (bump (tileClk tile) 0x0512 rows.length
      (fetchRows slot (firstMet rows) (countSort (c.course.getD 0) rows (firstMet rows) s))))

section Run
variable {s : State} {c : Cmd} {slot : Nat} {t : Table} {row : Row} {i w b : List Byte}

theorem lookupRun_badRow {n : Nat} (hrow : (words i).findIdx? (fun r => t.rows ≤ r) = some n) :
    lookupRun c slot t row i w b s = hold c (badResult s 64 n) s := by
  simp only [lookupRun, hrow]

variable (hrows : (words i).findIdx? (fun r => t.rows ≤ r) = none)
include hrows

theorem lookupRun_badBag {n : Nat} (hbag : badBag (words i).length 0 0 (bagStarts c b) = some n) :
    lookupRun c slot t row i w b s = hold c (badResult s 96 n) s := by
  unfold bagStarts at hbag
  simp only [lookupRun, hrows, hbag]

theorem lookupRun_reduces (hbags : badBag (words i).length 0 0 (bagStarts c b) = none) :
    let outs := lookupOutputs s c t (words i) (bagStarts c b) w
    let u := lookupCounted c slot row.tile (words i) outs s
    lookupRun c slot t row i w b s
      = hold c (outResult u c (outs.flatMap (·.1)) (lookupResult t (words i) (bagStarts c b))) u := by
  have hbags' := hbags
  unfold bagStarts at hbags'
  simp only [lookupRun, hrows, hbags']
  rfl

end Run

/-- Settles O35: the job on its thread reports the first row, else the first bag start, that is out of range, or holds
the outputs with the result of `lookupResult`. -/
theorem lookupInItsStep : Obligations.LookupInItsStep := by
  intro s id c slot t row i w b hr ht hlive hruns hrow hfate v hthread hclock keep rows bags ws occ pooling outs value
  have hexec {x : State} := exec_lookup (i := i) (w := w) (b := b) (x := x) hr ht hlive hruns hrow hfate rfl hthread
    hclock
  refine ⟨fun n hbad => hexec (lookupRun_badRow hbad), fun n hrows hbad => hexec (lookupRun_badBag hrows hbad),
    fun hrows hbags => ?_⟩
  exact ⟨_, lookupResult t rows bags, hexec (lookupRun_reduces hrows hbags), lookupResult_value t rows bags,
    lookupResult_good, fun _ => lookupResult_bad⟩

end Sys2Proof.Proofs
end

section
/-! SUPPORT. Proofs about TIER_MOVE, MOVE_QUERY and the units of a move of corpus records (R366 to R376). -/

open Sys2Proof Sys2Proof.Machine Sys2Proof.Laws
namespace Sys2Proof.Proofs

/-! ## TIER_MOVE (R371, R372, R403) -/

section Accept
variable {s : State} {c : Cmd} {m : Move} {bytes : Nat}

theorem acceptMove_quota {q : Nat} (hquota : quotaStops s c.tenant m.toFlash bytes = some q) (room : Bool)
    (mark : State → State) :
    acceptMove c m bytes room mark s = fail c .quotaExceeded q (letGo c s) := by
  simp only [acceptMove, hquota]

variable (hquota : quotaStops s c.tenant m.toFlash bytes = none)
include hquota

theorem acceptMove_readOnly (hflash : m.toFlash = true) (hreadOnly : flashReadOnly s = true) (room : Bool)
    (mark : State → State) : acceptMove c m bytes room mark s = fail c .flashReadOnly 0 (letGo c s) := by
  simp only [acceptMove, hquota]
  exact if_pos (by simp [hflash, hreadOnly])

variable (hwritable : (m.toFlash && flashReadOnly s) = false)
include hwritable

theorem acceptMove_noRoom (mark : State → State) :
    acceptMove c m bytes false mark s = fail c .moveNoRoom 0 (letGo c s) := by
  simp [acceptMove, hquota, hwritable]

theorem acceptMove_orders (mark : State → State) : acceptMove c m bytes true mark s
    = setCmd c.id (fun x => { x with begun := true }) (orderMove { m with cmd := some c.id } (mark s)) := by
  simp [acceptMove, hquota, hwritable]

end Accept

section Records
variable {s : State} {c : Cmd} {slot : Nat} {x : Index}

theorem exec_tierMove_records {id : Nat} (hr : Runs s id 0x0503 c) (hbegun : c.begun = false) (hkind : c.arg 0 1 = 1) :
    exec (.tierMove id) s = .next (moveRecords c (c.arg 1 1 == 1) s) := by
  refine congrArg _ ((runCmd_runs hr _).trans ?_)
  simp [tierMove, hbegun, hkind]

/-- The move of the records of a range that a TIER_MOVE names, before the device looks where they are. -/
def recordsMove (c : Cmd) (slot : Nat) (toFlash : Bool) : Move :=
  { obj := .corpus slot, toFlash, first := c.arg 8 8, units := c.arg 16 8 }

/-- Records of the range that are at the target already. -/
def recordsThere (s : State) (c : Cmd) (slot : Nat) (toFlash : Bool) : Nat :=
  (recordsIn s slot (c.arg 8 8) (c.arg 16 8)).length - (unitsLeft s (recordsMove c slot toFlash)).length

/-- The move that is ordered, with the counts of what it finds. -/
def recordsOrder (s : State) (c : Cmd) (slot : Nat) (toFlash : Bool) : Move :=
  { recordsMove c slot toFlash with
    ordered := (unitsLeft s (recordsMove c slot toFlash)).length, already := recordsThere s c slot toFlash }

def recordSizes (s : State) (c : Cmd) (slot : Nat) (toFlash : Bool) : List Nat :=
  (unitsLeft s (recordsMove c slot toFlash)).map (unitBytes s (.corpus slot))

/-- Whether the target has room for the records that are left (R372). -/
def recordsFit (s : State) (c : Cmd) (slot : Nat) (x : Index) (toFlash : Bool) : Bool :=
  if toFlash then decide (sumBy blocksOf (recordSizes s c slot toFlash) ≤ flashFree s)
    && mapFits s (sumBy blocksOf (recordSizes s c slot toFlash))
  else spreadFits s (idxCourses x) (sumBy (fun n => n) (recordSizes s c slot toFlash))

variable (hx : indexOf s c.sid c.handle = some (slot, x)) {toFlash : Bool}
include hx

theorem moveRecords_there (hnone : unitsLeft s (recordsMove c slot toFlash) = []) :
    moveRecords c toFlash s = finish c { value := recordsThere s c slot toFlash % 2 ^ 32 * 2 ^ 32 } s := by
  simp only [recordsMove] at hnone
  simp [moveRecords, hx, hnone, moveResult, recordsThere, recordsMove]

theorem moveRecords_asks (hsome : unitsLeft s (recordsMove c slot toFlash) ≠ []) : moveRecords c toFlash s
    = acceptMove c (recordsOrder s c slot toFlash) (sumBy (fun n => n) (recordSizes s c slot toFlash))
        (recordsFit s c slot x toFlash) id s := by
  simp only [moveRecords, hx]
  exact if_neg (by simpa [recordsMove] using hsome)

end Records

section Models
variable {s : State} {c : Cmd} {slot : Nat} {m : Model}

theorem exec_tierMove_model {id : Nat} (hr : Runs s id 0x0503 c) (hbegun : c.begun = false) (hkind : c.arg 0 1 = 0) :
    exec (.tierMove id) s = .next (moveModel c (c.arg 1 1 == 1) s) := by
  refine congrArg _ ((runCmd_runs hr _).trans ?_)
  simp [tierMove, hbegun, hkind]

/-- Whether a model is in the state that its move starts from (R135). -/
def movesFrom (s : State) (c : Cmd) (slot : Nat) (m : Model) : Prop :=
  if c.arg 1 1 = 1 then m.state = .ready ∧ bindingsBefore s slot c.id = 0 else m.state = .cold

variable (hm : modelOf s c.sid c.handle = some (slot, m))
include hm

theorem moveModelRefusal_none (h : movesFrom s c slot m) : moveModelRefusal s c (c.arg 1 1 == 1) = none := by
  unfold movesFrom at h
  split at h <;> simp [moveModelRefusal, *]

theorem moveModelRefusal_conflict (h : ¬ movesFrom s c slot m) :
    moveModelRefusal s c (c.arg 1 1 == 1) = inState 3 m.state.code := by
  unfold movesFrom at h
  split at h <;> simp_all [moveModelRefusal]

theorem moveModel_conflict (hholds : c.holds = false) (h : ¬ movesFrom s c slot m) :
    moveModel c (c.arg 1 1 == 1) s = fail c .stateConflict (3 + 256 * m.state.code) s := by
  simp only [moveModel, hm, hholds, moveModelRefusal_conflict hm h]
  rfl

/-- Room for a model at the target of its move (R372). -/
def modelFits (s : State) (c : Cmd) (slot : Nat) (m : Model) : Bool :=
  if c.arg 1 1 = 1 then flashFits s (modelUnit s slot)
  else homeFits s m.home (modelUnit s slot) (reserveWith s m.image)

def modelMarked (slot : Nat) (s : State) : State :=
  { s with obj := { s.obj with models := adj s.obj.models slot (fun x => { x with state := .moving }) } }

theorem moveModel_orders (h : c.holds = true ∨ movesFrom s c slot m)
    (hquota : quotaStops s c.tenant (c.arg 1 1 == 1) (modelUnit s slot) = none) (hwritable : flashReadOnly s = false)
    (hroom : modelFits s c slot m = true) : moveModel c (c.arg 1 1 == 1) s
    = setCmd c.id (fun x => { x with begun := true })
        (orderMove { obj := .model slot, toFlash := c.arg 1 1 == 1, units := 1, cmd := some c.id }
          (modelMarked slot s)) := by
  have hpasses : (if c.holds then none else moveModelRefusal s c (c.arg 1 1 == 1)) = none := by
    obtain hholds | hfrom := h
    · exact if_pos hholds
    · rw [moveModelRefusal_none hm hfrom, ite_self]
  have hfits : (if (c.arg 1 1 == 1) = true then flashFits s (modelUnit s slot)
      else homeFits s m.home (modelUnit s slot) (reserveWith s m.image)) = true := by
    simpa [modelFits] using hroom
  simp only [moveModel, hm, hpasses, hfits, orRefuse]
  exact acceptMove_orders (m := { obj := .model slot, toFlash := c.arg 1 1 == 1, units := 1 }) hquota
    (by simp [hwritable]) (modelMarked slot)

theorem find?_modelMarked : find? (modelMarked slot s).obj.models slot = some { m with state := .moving } :=
  find?_adj_self' (fun x : Model => { x with state := .moving }) (modelOf_slot hm).2

end Models

/-! ## MOVE_QUERY (R376) -/

theorem exec_moveQuery {s : State} {id : Nat} {c : Cmd} (hr : Runs s id 0x0504 c) :
    exec (.moveQuery id) s = .next (finish c (c.answer.getD (moveAnswer c s)) s) :=
  congrArg _ (runCmd_runs hr _)

theorem moveRecord_length (h k : Nat) (m : Option Move) : (moveRecord h k m).length = 48 := by
  cases m <;> simp [moveRecord, leBytes_length]

/-! ## The units of a move (R367, R368) -/

theorem find?_setMove {s : State} {k : Nat} {m : Move} (hm : find? s.eng.moves k = some m) (f : Move → Move) :
    find? (setMove k f s).eng.moves k = some (f m) :=
  find?_adj_self' f hm

/-- A unit that may start has its move's turn and its room. -/
theorem mayStart_spec {s : State} {k u : Nat} {m : Move} (hmay : mayStart s k m = true)
    (hleft : (unitsLeft s m).head? = some u) : (m.state = .queued ∨ m.state = .copying) ∧ unitFits s m u = true := by
  simp only [mayStart, startable, hleft, Bool.and_eq_true, Bool.or_eq_true, beq_iff_eq] at hmay
  obtain ⟨⟨⟨⟨⟨hstate, -⟩, -⟩, hfits, -⟩, -⟩, -⟩ := hmay
  exact ⟨hstate, hfits⟩

/-- The state in which a verified unit's locator names its new home. -/
def unitCommitted (k : Nat) (m : Move) (u : Nat) (s : State) : State :=
  if m.toFlash then countIn (unitBytes s m.obj u) (commitUnit k m u s) else commitUnit k m u s

section Unit
variable {s : State} {k u : Nat} {m : Move} (hm : find? s.eng.moves k = some m)
include hm

theorem exec_moveUnitStart (hidle : m.unit = none) (hawake : awake s = true)
    (hleft : (unitsLeft s m).head? = some u) (hmay : mayStart s k m = true) :
    exec (.moveUnitStart k) s = .next (startUnit k m u s) := by
  obtain ⟨hstate, hfits⟩ := mayStart_spec hmay hleft
  show execMoveUnitStart k s = _
  obtain hstate | hstate := hstate <;> simp [execMoveUnitStart, hm, hidle, hawake, hleft, hmay, hfits, hstate]

variable (hunit : m.unit = some u)
include hunit

theorem exec_moveUnitVerify_early (h : s.now < m.ready ∨ unitRuns s m.obj u = false) (r : MoveResult) :
    exec (.moveUnitVerify k r) s = .next s := by
  show execMoveUnitVerify k r s = _
  simp [execMoveUnitVerify, hm, hunit, h]

variable (hready : m.ready ≤ s.now) (hruns : unitRuns s m.obj u = true)
include hready hruns

theorem exec_moveUnitVerify_ok (hkept : swapCancelled s m = none) : exec (.moveUnitVerify k .ok) s
    = .next (pastUnit k u (fun x => { x with committed := x.committed + 1, bytes := x.bytes + unitBytes s m.obj u })
        (unitCommitted k m u s)) := by
  show execMoveUnitVerify k .ok s = _
  simp only [execMoveUnitVerify, hm, hunit, hruns, hkept, Nat.not_lt.2 hready]
  rfl

theorem exec_moveUnitVerify_first (hfirst : m.attempts = 0) : exec (.moveUnitVerify k .mismatch) s
    = .next (takeShare k m u (setMove k (fun m => { m with attempts := 1 }) s)) := by
  show execMoveUnitVerify k .mismatch s = _
  simp [execMoveUnitVerify, hm, hunit, hruns, Nat.not_lt.2 hready, hfirst]

theorem exec_moveUnitVerify_again (hagain : m.attempts ≠ 0) : exec (.moveUnitVerify k .mismatch) s
    = .next (abandonUnit k m u s) := by
  show execMoveUnitVerify k .mismatch s = _
  simp [execMoveUnitVerify, hm, hunit, hruns, Nat.not_lt.2 hready, hagain]

end Unit

/-! ## The units of a corpus -/

section Corpus
variable {s : State} {k u slot : Nat} {m : Move} (hobj : m.obj = .corpus slot)
include hobj

theorem takeShare_corpus : takeShare k m u s
    = setMove k (fun x => { x with ready := max (s.now + unitTime s m.obj u) (hodDone s (unitBytes s m.obj u)) })
        { s with flash := { s.flash with hodFree := hodDone s (unitBytes s m.obj u) } } := by
  have hcrosses : crossesFlash s m = true := by simp [crossesFlash, hobj]
  simp [takeShare, hcrosses]

/-- The copy of a record may end when its share of the flash tier lets it (R370, R408). -/
theorem find?_takeShare_corpus {m' : Move} (hm : find? s.eng.moves k = some m') :
    find? (takeShare k m u s).eng.moves k = some { m' with
      ready := max (s.now + unitTime s m.obj u) (hodDone s (unitBytes s m.obj u)) } := by
  rw [takeShare_corpus hobj]
  -- As a variable, since the kernel would compute the moment to tell the two flash tiers apart.
  generalize hodDone s (unitBytes s m.obj u) = free
  exact find?_setMove (s := { s with flash := { s.flash with hodFree := free } }) hm _

theorem takeShare_corpus_obj : (takeShare k m u s).obj = s.obj := by
  rw [takeShare_corpus hobj]
  rfl

theorem startUnit_corpus : startUnit k m u s
    = setMove k (fun x => reserveUnit (takeShare k m u s) u { x with state := .copying, unit := some u, attempts := 0 })
        (takeShare k m u s) := by
  simp only [startUnit, hobj]

/-- The old home of a verified record waits for its reads, and the directory entry names the target. -/
theorem unitCommitted_corpus (hm : find? s.eng.moves k = some m) :
    corpusOf (unitCommitted k m u s) slot = adj (corpusOf s slot) u (fun r => { r with inFlash := m.toFlash })
    ∧ ∃ lp fl sw, find? (unitCommitted k m u s).eng.moves k
        = some { m with heldLp := m.heldLp ++ lp, heldFlash := m.heldFlash + fl, heldSwap := m.heldSwap + sw } := by
  have hcommit : commitUnit k m u s = commitRecord k slot u m.toFlash s := by simp only [commitUnit, hobj]
  have hcounted : (unitCommitted k m u s).obj = (commitRecord k slot u m.toFlash s).obj
      ∧ (unitCommitted k m u s).eng = (commitRecord k slot u m.toFlash s).eng := by
    rw [unitCommitted, hcommit]
    split <;> exact ⟨rfl, rfl⟩
  obtain ⟨hcountedObj, hcountedEng⟩ := hcounted
  constructor
  · rw [corpusOf, hcountedObj]
    exact corpusOf_setCorpus slot _ s
  · rw [hcountedEng]
    exact ⟨_, _, _, find?_setMove hm _⟩

/-- An abandoned record is counted at a channel, and its move goes past it. -/
theorem abandonUnit_corpus : ∃ w,
    abandonUnit k m u s = pastUnit k u (fun m => { m with abandoned := m.abandoned + 1 }) w
    ∧ w.obj = s.obj ∧ w.eng = s.eng := by
  cases hchannel : moveChannel s (.corpus slot) with
  | none => exact ⟨s, by simp only [abandonUnit, unmark, hobj, hchannel], rfl, rfl⟩
  | some ch => exact ⟨bump (channelClk ch) 0x060F 1 s, by simp only [abandonUnit, unmark, hobj, hchannel], rfl, rfl⟩

end Corpus

theorem corpusOf_congr {s t : State} (h : t.obj = s.obj) (slot : Nat) : corpusOf t slot = corpusOf s slot := by
  rw [corpusOf, h, corpusOf]

/-- Settles O43: a TIER_MOVE by what is left of its range and by what `acceptMove` answers, a unit by its moment, its
channels and the attempts before it. -/
theorem tierMoves : Obligations.TierMoves := by
  intro s
  refine ⟨fun id c slot x hr hbegun hkind hx flash m hflash hmove => ?records,
    fun id c slot m hr hbegun hkind hm => ⟨fun hholds h => ?conflict, fun h hquota hwritable hroom => ?model⟩,
    fun id c hr => ?query, moveRecord_length,
    fun k slot u m hm hobj => ⟨fun hidle hawake hleft hmay => ?start, exec_moveUnitVerify_early hm,
      fun hunit hready hruns hkept => ?committed, fun hunit hready hruns hfirst => ?repeated,
      fun hunit hready hruns hagain => ?abandoned⟩,
    fun k m hm => ?released⟩
  case records =>
    subst hflash hmove
    rw [exec_tierMove_records hr hbegun hkind]
    refine ⟨fun hnone => congrArg _ (moveRecords_there hx hnone), fun hsome q hquota => ?_,
      fun hsome hquota hflash hreadOnly => ?_, fun hsome hquota hwritable hroom => ?_,
      fun hsome hquota hwritable hroom => ?_⟩
    all_goals refine congrArg _ ((moveRecords_asks hx hsome).trans ?_)
    · exact acceptMove_quota hquota _ _
    · exact acceptMove_readOnly hquota hflash hreadOnly _ _
    · rw [show recordsFit s c slot x (c.arg 1 1 == 1) = false from hroom]
      exact acceptMove_noRoom hquota hwritable _
    · rw [show recordsFit s c slot x (c.arg 1 1 == 1) = true from hroom]
      exact acceptMove_orders (m := recordsOrder s c slot (c.arg 1 1 == 1)) hquota hwritable _
  case conflict => rw [exec_tierMove_model hr hbegun hkind, moveModel_conflict hm hholds h]
  case model =>
    refine ⟨_, (exec_tierMove_model hr hbegun hkind).trans (congrArg _ (moveModel_orders hm h hquota hwritable hroom)),
      ?_, rfl⟩
    obtain ⟨-, hslot⟩ := modelOf_slot hm
    rw [hslot]
    exact congrArg (Option.map (·.state)) (find?_modelMarked hm)
  case query =>
    rw [exec_moveQuery hr]
    refine ⟨fun slot h => ?_, fun slot h => ?_, fun e h => ?_⟩ <;> simp only [moveAnswer, h]
  case start =>
    rw [exec_moveUnitStart hm hidle hawake hleft hmay, startUnit_corpus hobj, takeShare_corpus hobj]
  case committed =>
    obtain ⟨hcorpus, lp, fl, sw, hheld⟩ := unitCommitted_corpus (u := u) hobj hm
    obtain ⟨hpast, st, cmd, hmoved⟩ := pastUnit_spec k u
      (fun x => { x with committed := x.committed + 1, bytes := x.bytes + unitBytes s m.obj u }) _ _ hheld
    refine ⟨_, exec_moveUnitVerify_ok hm hunit hready hruns hkept, ?_, fun i hi => ?_,
      _, hmoved, rfl, rfl, rfl, rfl, rfl⟩
    · rw [corpusOf_congr hpast, hcorpus, find?_adj, if_pos rfl]
    · rw [corpusOf_congr hpast, hcorpus, find?_adj, if_neg hi.symm]
  case repeated =>
    have hcounted := find?_setMove hm (fun m => { m with attempts := 1 })
    exact ⟨_, exec_moveUnitVerify_first hm hunit hready hruns hfirst, takeShare_corpus_obj hobj,
      find?_takeShare_corpus hobj hcounted⟩
  case abandoned =>
    obtain ⟨w, habandon, hobj', heng⟩ := abandonUnit_corpus (s := s) (k := k) (u := u) hobj
    obtain ⟨hpast, st, cmd, hmoved⟩ := pastUnit_spec k u (fun m => { m with abandoned := m.abandoned + 1 }) m w
      (heng ▸ hm)
    exact ⟨_, (exec_moveUnitVerify_again hm hunit hready hruns hagain).trans (congrArg _ habandon), hpast.trans hobj',
      _, hmoved, rfl, rfl, rfl⟩
  case released => exact ⟨_, _, rfl, find?_setMove hm _, rfl, rfl, rfl, fun h => if_pos h, rfl⟩

end Sys2Proof.Proofs
end

section
/-! SUPPORT. Proofs about channel roles: CHANNEL_RETRAIN, the course of an evacuation, AUTO_RETRAIN and calibration
(R359 to R361, R380 to R383). -/

open Sys2Proof Sys2Proof.Machine Sys2Proof.Laws
namespace Sys2Proof.Proofs

/-! ## One channel of the device -/

theorem look_setChannel_self (ch : Fin 96) (f : Channel → Channel) (s : State) :
    look (setChannel ch f s).eng.channels ch = f (look s.eng.channels ch) :=
  look_upd_self s.eng.channels ch f

theorem look_setChannel_other {ch x : Fin 96} (h : x ≠ ch) (f : Channel → Channel) (s : State) :
    look (setChannel ch f s).eng.channels x = look s.eng.channels x :=
  look_upd_other s.eng.channels f h.symm

theorem counters_bump_self (clk : ClockId) (sel n : Nat) (s : State) :
    look (bump clk sel n s).counters (clk, sel) = (look s.counters (clk, sel) + n) % 2 ^ 64 := by
  simp only [bump, look_upd_self]

theorem counters_bump_other {clk : ClockId} {sel sel' : Nat} (h : sel ≠ sel') (n : Nat) (s : State) :
    look (bump clk sel n s).counters (clk, sel') = look s.counters (clk, sel') := by
  have hkey : (clk, sel) ≠ (clk, sel') := fun heq => h (congrArg Prod.snd heq)
  simp only [bump, look_upd_other _ _ hkey]

/-! ## The start of an evacuation (R381 steps 1 and 2) -/

/-- The receiver is the highest-numbered of the course's spares in service, and another channel than any in use. -/
theorem spareOf_ne {s : State} {n : Nat} {ch r : Fin 96} (hr : spareOf s n = some r)
    (hch : channelAtRole s ch ≠ .spare) : r ≠ ch := by
  rintro rfl
  exact hch (spareOf_spec s n r hr).2.1

/-- The two channels of an evacuation have taken their roles. -/
def rolesTaken (ch r : Fin 96) (s : State) : State :=
  setChannel r (fun k => { k with role := .receiving }) (setChannel ch (fun k => { k with role := .evacuating }) s)

theorem startEvacuation_eng (s : State) (ch r : Fin 96) (action : Nat) (cmd : Option Nat) :
    (startEvacuation ch r action cmd s).eng.channels = (rolesTaken ch r s).eng.channels
    ∧ (startEvacuation ch r action cmd s).eng.evacuations = put s.eng.evacuations ch { receiver := r, action, cmd } :=
  ⟨rfl, rfl⟩

theorem startEvacuation_frame (s : State) (ch r : Fin 96) (action : Nat) (cmd : Option Nat) :
    (startEvacuation ch r action cmd s).obj = s.obj ∧ (startEvacuation ch r action cmd s).islands = s.islands
    ∧ (startEvacuation ch r action cmd s).cmds = s.cmds := by
  simp only [startEvacuation, orderMove, setChannel_obj, setChannel_islands, setChannel_cmds, and_self]

/-- The move of the allocated chunks is ordered last. -/
theorem startEvacuation_move (s : State) (ch r : Fin 96) (action : Nat) (cmd : Option Nat) : ∃ n, (s.eng.nextMove,
    ({ obj := .evacuation ch, device := true, units := n, ordered := n } : Move))
      ∈ (startEvacuation ch r action cmd s).eng.moves :=
  ⟨_, List.mem_append_right _ (List.mem_singleton_self _)⟩

section Started
variable {s t : State} {ch r : Fin 96} {action : Nat} {cmd : Option Nat} (hne : r ≠ ch)
  (heng : t.eng = (startEvacuation ch r action cmd s).eng)
include heng

theorem started_receiver : channelAtRole t r = .receiving := by
  rw [channelAtRole, heng, (startEvacuation_eng ..).1, rolesTaken, look_setChannel_self]

include hne in
theorem started_leaver : channelAtRole t ch = .evacuating := by
  rw [channelAtRole, heng, (startEvacuation_eng ..).1, rolesTaken, look_setChannel_other hne.symm, look_setChannel_self]

theorem started_other {x : Fin 96} (hch : x ≠ ch) (hr : x ≠ r) :
    look t.eng.channels x = look s.eng.channels x := by
  rw [heng, (startEvacuation_eng ..).1, rolesTaken, look_setChannel_other hr, look_setChannel_other hch]

theorem started_evacuation : find? t.eng.evacuations ch = some { receiver := r, action, cmd } := by
  rw [heng, (startEvacuation_eng ..).2, find?_put_self]

end Started

/-! ## CHANNEL_RETRAIN (R380) -/

theorem exec_retrain {s : State} {id action : Nat} {c : Cmd} {i : Instr} {ch : Fin 96}
    (hi : i = .channelRetrain id ∧ action = 0 ∨ i = .channelActivateSpare id ∧ action = 1) (hr : Runs s id 0x0F08 c)
    (hbegun : c.begun = false) (haction : c.arg 1 1 = action) (hch : ch = Fin.ofNat 96 (c.arg 0 1)) :
    exec i s = .next (orderEvacuation c ch action s) := by
  have hrun : runCmd id 0x0F08 (retrain action) s = orderEvacuation c ch action s := by
    rw [runCmd_runs hr, hch]
    exact if_neg (by simp [hbegun, haction])
  obtain ⟨rfl, rfl⟩ | ⟨rfl, rfl⟩ := hi <;> exact congrArg _ hrun

section Order
variable {s : State} {c : Cmd} {ch : Fin 96} {action : Nat}

theorem orderEvacuation_notActive (h : channelAtRole s ch ≠ .active) :
    orderEvacuation c ch action s = fail c .channelNotActive (channelAtRole s ch).code s :=
  if_pos h

variable (hactive : channelAtRole s ch = .active)
include hactive

theorem orderEvacuation_noSpare (hspare : spareOf s (ch.val / 24) = none) :
    orderEvacuation c ch action s = fail c .noSpare 0 s := by
  simp [orderEvacuation, hactive, hspare]

variable {r : Fin 96} (hspare : spareOf s (ch.val / 24) = some r)
include hspare

theorem orderEvacuation_conflict {k : Fin 96} {e : Evacuation}
    (hruns : evacuatingIn s (ch.val / 24) = some (k, e)) :
    orderEvacuation c ch action s = fail c .stateConflict (0x0C + 256 * evacState e) s := by
  simp [orderEvacuation, hactive, hspare, hruns, conflict]

theorem orderEvacuation_starts (hnone : evacuatingIn s (ch.val / 24) = none) :
    orderEvacuation c ch action s
      = setCmd c.id (fun x => { x with begun := true }) (startEvacuation ch r action (some c.id) s) := by
  simp [orderEvacuation, hactive, hspare, hnone]

end Order

/-! ## The map switch (R381 step 3) -/

theorem exec_evacuationMapSwitch {s : State} {course : Fin 4} {ch : Fin 96} {e : Evacuation} {p : Nat}
    (hruns : evacuatingIn s course.val = some (ch, e)) (hmap : e.switched = false) (hawake : awake s = true)
    (hposition : (look s.eng.channels ch).position = some p) (hstill : migratesAt s p = false)
    (hcopied : allCopied s ch = true) : exec (.evacuationMapSwitch course) s = .next (switchMap ch e s) := by
  show execEvacuationMapSwitch course s = _
  simp [execEvacuationMapSwitch, hruns, hmap, hawake, hposition, hstill, hcopied]

/-- The position has passed to the receiver. -/
def positionPassed (ch : Fin 96) (e : Evacuation) (s : State) : State :=
  setChannel e.receiver (fun k => { k with role := .active, position := (look s.eng.channels ch).position })
    (setChannel ch (fun k => { k with position := none }) s)

/-- The evacuation after the switch, which waits for the walks whose slots are loaded now. -/
def evacuationSwitched (ch : Fin 96) (s : State) (e : Evacuation) : Evacuation :=
  { e with
    switched := true
    bytes := copiedBytes s ch
    walks := (s.eng.slots.filter (fun q => q.1.1 == 64 + ch.val)).map (fun q => q.2.walk) }

/-- The progress completion and the migrations that open leave the engines as the switch made them. -/
theorem switchMap_eng (ch : Fin 96) (e : Evacuation) (s : State) : (switchMap ch e s).eng
    = (setEvacuation ch (evacuationSwitched ch s) (forwardHops ch e.receiver (positionPassed ch e s))).eng := by
  unfold switchMap
  rw [openA_eng]
  split
  · split
    · exact moves_un' (post_unreported ..)
    · rfl
  · rfl

section Switched
variable {s : State} {ch : Fin 96} {e : Evacuation}

theorem switchMap_channels : (switchMap ch e s).eng.channels = (positionPassed ch e s).eng.channels := by
  rw [switchMap_eng]
  rfl

theorem switchMap_receiver (hne : e.receiver ≠ ch) : look (switchMap ch e s).eng.channels e.receiver
    = { look s.eng.channels e.receiver with role := .active, position := (look s.eng.channels ch).position } := by
  rw [switchMap_channels, positionPassed, look_setChannel_self, look_setChannel_other hne]

theorem switchMap_leaver (hne : e.receiver ≠ ch) :
    look (switchMap ch e s).eng.channels ch = { look s.eng.channels ch with position := none } := by
  rw [switchMap_channels, positionPassed, look_setChannel_other hne.symm, look_setChannel_self]

theorem switchMap_other {x : Fin 96} (hch : x ≠ ch) (hr : x ≠ e.receiver) :
    look (switchMap ch e s).eng.channels x = look s.eng.channels x := by
  rw [switchMap_channels, positionPassed, look_setChannel_other hr, look_setChannel_other hch]

theorem switchMap_evacuation {e' : Evacuation} (he : find? s.eng.evacuations ch = some e') :
    find? (switchMap ch e s).eng.evacuations ch = some (evacuationSwitched ch s e') := by
  rw [switchMap_eng]
  exact look_adj s.eng.evacuations ch (evacuationSwitched ch s) e' he

end Switched

/-! ## The end of an evacuation (R381 steps 4 to 6) -/

theorem endEvacuation_channels (ch : Fin 96) (e : Evacuation) (st : Status) (s : State) :
    (endEvacuation ch e st s).eng.channels = s.eng.channels := by
  rw [(endEv_eng ch e st s).1]

theorem endEvacuation_gone (ch : Fin 96) (e : Evacuation) (st : Status) (s : State) :
    find? (endEvacuation ch e st s).eng.evacuations ch = none := by
  rw [(endEv_eng ch e st s).1]
  exact find?_del_self ..

/-- A channel that is retired at the end of its evacuation has its island out of service. -/
theorem endEvacuation_retires (ch : Fin 96) (e : Evacuation) (st : Status) (s : State) :
    let t := endEvacuation ch e st (retireChannel ch s)
    channelAtRole t ch = .retired ∧ (look t.islands (channelClk ch)).retired = true
      ∧ find? t.eng.evacuations ch = none := by
  obtain ⟨hchannel, hisland, -⟩ := chan_retire ch s
  refine ⟨?_, ?_, endEvacuation_gone ..⟩
  · rw [channelAtRole, endEvacuation_channels, hchannel]
  · rw [(endEv_eng ch e st _).2, hisland]

section Drain
variable {s : State} {course : Fin 4} {ch : Fin 96} {e : Evacuation}

theorem exec_evacuationDrainDone (hruns : evacuatingIn s course.val = some (ch, e)) (hmap : e.switched = true)
    (hwalks : s.eng.walks.any (fun w => e.walks.contains w.id) = false) :
    exec (.evacuationDrainDone course) s = .next (leavePosition ch e s) := by
  show execEvacuationDrainDone course s = _
  simp only [execEvacuationDrainDone, hruns, hmap, hwalks]
  rfl

theorem leavePosition_trains (haction : e.action = 0) :
    leavePosition ch e s = setChannel ch (fun k => { k with role := .training }) s := by
  simp only [leavePosition, haction]

theorem leavePosition_retires (haction : e.action = 1 ∨ e.action = 2) :
    leavePosition ch e s = endEvacuation ch e .ok (retireChannel ch s) := by
  obtain haction | haction := haction <;> simp only [leavePosition, haction]

/-- The channel of an evacuation for SERVICE is a spare again, whether its island stands aside or not (log 58). -/
theorem leavePosition_spare (haction : e.action = 3) :
    channelAtRole (leavePosition ch e s) ch = .spare ∧ find? (leavePosition ch e s).eng.evacuations ch = none := by
  simp only [leavePosition, haction]
  refine ⟨?_, endEvacuation_gone ..⟩
  rw [channelAtRole, endEvacuation_channels]
  split <;> exact congrArg Channel.role (look_setChannel_self ch (fun k => { k with role := .spare }) s)

end Drain

/-! ## Training and test (R381 step 5) -/

section Training
variable {s : State} {ch : Fin 96}

theorem exec_channelTrainingDone_pass (h : channelAtRole s ch = .training) : exec (.channelTrainingDone ch true) s
    = .next (bump (channelClk ch) 0x060B 1 (setChannel ch (fun k => { k with role := .testing }) s)) := by
  show execChannelTrainingDone ch true s = _
  simp [execChannelTrainingDone, h]

theorem exec_channelTrainingDone_fail (h : channelAtRole s ch = .training) : exec (.channelTrainingDone ch false) s
    = .next (endEvacuation ch (evacuationOf s ch) .trainingFailed (retireChannel ch s)) := by
  show execChannelTrainingDone ch false s = _
  simp [execChannelTrainingDone, h]

variable {e : Evacuation} (hrole : channelAtRole s ch = .testing) (he : find? s.eng.evacuations ch = some e)
include hrole he

theorem exec_channelTestDone_pass : exec (.channelTestDone ch true) s
    = .next (endEvacuation ch e .ok (setChannel ch (fun k => { k with role := .spare }) s)) := by
  show execChannelTestDone ch true s = _
  simp [execChannelTestDone, hrole, he, evacuationOf, look]

theorem exec_channelTestDone_fail : exec (.channelTestDone ch false) s
    = .next (endEvacuation ch e .trainingFailed (retireChannel ch s)) := by
  show execChannelTestDone ch false s = _
  simp [execChannelTestDone, hrole, he, evacuationOf, look]

end Training

/-- The command of an evacuation reports the bytes moved and the role that its channel has at the end. -/
theorem endEvacuation_reports {s : State} {e : Evacuation} {c : Cmd} (hc : e.cmd.bind (findCmd s) = some c)
    (ch : Fin 96) (st : Status) : endEvacuation ch e st s
    = finish c { status := st, value := e.bytes, detail := (channelAtRole s ch).code } { s with eng := { s.eng with
        evacuations := del s.eng.evacuations ch
        moves := s.eng.moves.filter (fun m => !(m.2.obj == .evacuation ch)) } } := by
  have hc' (eng : Engines) : e.cmd.bind (findCmd { s with eng := eng }) = some c := hc
  simp only [endEvacuation, dropMoves, hc']
  rfl

/-! ## AUTO_RETRAIN (R361) -/

/-- The need is met: the count of corrected words and the mark of the failed retune start anew. -/
def retrainMet (ch : Fin 96) (s : State) : State :=
  setChannel ch (fun k => { k with retuneFailed := false, corrected := [] }) s

section Retrain
variable {s : State} {ch : Fin 96} (hawake : awake s = true) (hneeds : needsRetrain s (look s.eng.channels ch) = true)

include hneeds in
theorem needsRetrain_active : channelAtRole s ch = .active := by
  simp only [needsRetrain, Bool.and_eq_true, beq_iff_eq] at hneeds
  exact hneeds.1

include hawake hneeds

theorem exec_autoRetrain_noSpare (hspare : spareOf s (ch.val / 24) = none) :
    exec (.autoRetrain ch) s = .next (logFault (channelClk ch) 1 0 0 1 (retrainMet ch s)) := by
  show execAutoRetrain ch s = _
  simp [execAutoRetrain, hawake, hneeds, autoRetrain, hspare, retrainMet]

theorem exec_autoRetrain_starts {r : Fin 96} (hspare : spareOf s (ch.val / 24) = some r)
    (hnone : evacuatingIn s (ch.val / 24) = none) :
    exec (.autoRetrain ch) s = .next (startEvacuation ch r 0 none (retrainMet ch s)) := by
  show execAutoRetrain ch s = _
  simp [execAutoRetrain, hawake, hneeds, autoRetrain, hspare, hnone, retrainMet]

end Retrain

/-! ## Calibration (R359, R360) -/

section Calibration
variable {s : State} {ch : Fin 96} (drift : Nat) (ok : Bool)

theorem exec_channelCalibration (hawake : awake s = true) (htrained : trained (channelAtRole s ch) = true)
    (hup : islandUp s (channelClk ch) = true) (hdue : calDue s ch = true) :
    exec (.channelCalibration ch drift ok) s = .next (calibrate ch drift ok s) := by
  show execChannelCalibration ch drift ok s = _
  simp [execChannelCalibration, hawake, htrained, hup, hdue]

/-- A channel that has calibrated, and holds its requests for the time that takes. -/
def calibrated (ch : Fin 96) (drift : Nat) (s : State) : State :=
  setIsland (channelClk ch) (fun i => { i with relockEnd := max i.relockEnd (s.now + calHold s ch drift) })
    (bump (channelClk ch) 0x0609 1 (setChannel ch (fun k => { k with lastCal := some s.now }) s))

theorem calibrate_eq : calibrate ch drift ok s
    = if 4 < drift then bump (channelClk ch) 0x060A 1
        (setChannel ch (fun k => { k with retuneFailed := k.retuneFailed || !ok }) (calibrated ch drift s))
      else calibrated ch drift s := rfl

theorem calibrated_channel : look (calibrated ch drift s).eng.channels ch
    = { look s.eng.channels ch with lastCal := some s.now } :=
  look_setChannel_self ch _ s

theorem calibrate_channel : look (calibrate ch drift ok s).eng.channels ch = { look s.eng.channels ch with
    lastCal := some s.now
    retuneFailed := (look s.eng.channels ch).retuneFailed || (decide (4 < drift) && !ok) } := by
  rw [calibrate_eq]
  split
  case isTrue h => simp [look_setChannel_self, calibrated_channel, h]
  case isFalse h => simp [calibrated_channel, h]

theorem calibrate_island : (look (calibrate ch drift ok s).islands (channelClk ch)).relockEnd
    = max (look s.islands (channelClk ch)).relockEnd (s.now + calHold s ch drift) := by
  have hisland : look (calibrated ch drift s).islands (channelClk ch) = { look s.islands (channelClk ch) with
      relockEnd := max (look s.islands (channelClk ch)).relockEnd (s.now + calHold s ch drift) } :=
    look_upd_self s.islands (channelClk ch)
      (fun i => { i with relockEnd := max i.relockEnd (s.now + calHold s ch drift) })
  rw [calibrate_eq]
  split <;> simp [hisland]

theorem calibrate_counted : look (calibrate ch drift ok s).counters (channelClk ch, 0x0609)
    = (look s.counters (channelClk ch, 0x0609) + 1) % 2 ^ 64 := by
  have hcounted : look (calibrated ch drift s).counters (channelClk ch, 0x0609)
      = (look s.counters (channelClk ch, 0x0609) + 1) % 2 ^ 64 := counters_bump_self ..
  rw [calibrate_eq]
  split
  · exact (counters_bump_other (by decide) _ _).trans hcounted
  · exact hcounted

theorem calibrate_retunes : look (calibrate ch drift ok s).counters (channelClk ch, 0x060A)
    = if 4 < drift then (look s.counters (channelClk ch, 0x060A) + 1) % 2 ^ 64
      else look s.counters (channelClk ch, 0x060A) := by
  have hkept : look (calibrated ch drift s).counters (channelClk ch, 0x060A)
      = look s.counters (channelClk ch, 0x060A) := counters_bump_other (by decide) _ _
  rw [calibrate_eq]
  split
  · rw [counters_bump_self, setChannel_counters, hkept]
  · exact hkept

end Calibration

/-- Settles O44: a CHANNEL_RETRAIN by the checks of `orderEvacuation`, each later step by the role of the channel, and
the channels of the device by the laws above. -/
theorem channelEvacuation : Obligations.ChannelEvacuation := by
  intro s
  refine ⟨fun id c i action ch hi hr hbegun haction hch => ?retrain,
    fun course ch e p hruns he hmap hawake hposition hstill hcopied hne => ?switched,
    fun course ch e hruns hmap hwalks => ⟨fun haction => ?trains, fun haction => ?retires, fun haction => ?spare⟩,
    fun ch hrole => ?training, fun ch e c hrole he hc => ?testing,
    fun ch hawake hneeds => ⟨exec_autoRetrain_noSpare hawake hneeds, fun r hspare hnone => ?auto⟩,
    fun ch drift ok hawake htrained hup hdue => ?calibrates⟩
  case retrain =>
    rw [exec_retrain hi hr hbegun haction hch]
    refine ⟨fun h => congrArg _ (orderEvacuation_notActive h),
      fun hactive hspare => congrArg _ (orderEvacuation_noSpare hactive hspare),
      fun r hactive hspare => ⟨fun k e hruns => congrArg _ (orderEvacuation_conflict hactive hspare hruns),
        fun hnone => ?_⟩⟩
    obtain ⟨hcourse, hrole, -, hhighest⟩ := spareOf_spec s _ r hspare
    have hne : r ≠ ch := spareOf_ne hspare (by simp [hactive])
    have heng := setCmd_eng c.id (fun x => { x with begun := true }) (startEvacuation ch r action (some c.id) s)
    obtain ⟨hobj, hislands, hcmds⟩ := startEvacuation_frame s ch r action (some c.id)
    refine ⟨hcourse, hrole, hhighest, _, congrArg _ (orderEvacuation_starts hactive hspare hnone),
      started_leaver hne heng, started_receiver heng, fun x hx hxr => started_other heng hx hxr,
      started_evacuation heng, ?_, ?_, (setCmd_obj ..).trans hobj, (setCmd_islands ..).trans hislands⟩
    · rw [setCmd, hcmds]
    · rw [heng]
      exact startEvacuation_move ..
  case switched =>
    have hreceiver := switchMap_receiver (s := s) hne
    rw [hposition] at hreceiver
    exact ⟨_, exec_evacuationMapSwitch hruns hmap hawake hposition hstill hcopied, hreceiver, switchMap_leaver hne,
      fun x hx hxr => switchMap_other hx hxr, _, switchMap_evacuation he, rfl, rfl, rfl, rfl⟩
  case trains =>
    rw [exec_evacuationDrainDone hruns hmap hwalks, leavePosition_trains haction]
    exact ⟨_, rfl, congrArg Channel.role (look_setChannel_self ch _ s), rfl⟩
  case retires =>
    rw [exec_evacuationDrainDone hruns hmap hwalks, leavePosition_retires haction]
    exact ⟨_, rfl, endEvacuation_retires ch e .ok s⟩
  case spare => exact ⟨_, exec_evacuationDrainDone hruns hmap hwalks, leavePosition_spare haction⟩
  case training =>
    exact ⟨⟨_, exec_channelTrainingDone_pass hrole, congrArg Channel.role (look_setChannel_self ch _ s),
      counters_bump_self ..⟩, _, exec_channelTrainingDone_fail hrole, endEvacuation_retires ..⟩
  case testing =>
    refine ⟨?_, _, exec_channelTestDone_fail hrole he, endEvacuation_retires ..⟩
    have hspare : channelAtRole (setChannel ch (fun k => { k with role := .spare }) s) ch = .spare :=
      congrArg Channel.role (look_setChannel_self ch _ s)
    rw [exec_channelTestDone_pass hrole he,
      endEvacuation_reports (s := setChannel ch (fun k => { k with role := .spare }) s) hc ch .ok, hspare]
    rfl
  case auto =>
    have hne : r ≠ ch := spareOf_ne hspare (by simp [needsRetrain_active hneeds])
    exact ⟨_, exec_autoRetrain_starts hawake hneeds hspare hnone, started_leaver hne rfl,
      started_receiver rfl, started_evacuation rfl⟩
  case calibrates =>
    exact ⟨_, exec_channelCalibration drift ok hawake htrained hup hdue, calibrate_channel .., calibrate_counted ..,
      calibrate_island .., calibrate_retunes ..⟩

end Sys2Proof.Proofs
end

section
/-! SUPPORT. Proofs about fault reports, heartbeats, patrols, refresh, restarts of a supervisor and the fault log (R354
to R358, R459 to R467). -/

open Sys2Proof Sys2Proof.Machine Sys2Proof.Laws
namespace Sys2Proof.Proofs

/-! ## Fault reports (R461, R462, R464) -/

section Report
variable {s : State} {clk : ClockId} {r : FaultReport}

theorem exec_islandFaultReport (hservice : s.dev.stage = .service) (hname : (islandName clk).isSome = true)
    (hup : islandUp s clk = true) (hcls : 1 ≤ r.cls ∧ r.cls ≤ 9) :
    exec (.islandFaultReport clk r) s = .next (faultReport clk r s) := by
  show execIslandFaultReport clk r s = _
  simp [execIslandFaultReport, inService, hservice, hname, hup, between, hcls]

/-- A report is counted, at its channel too, before its class decides (R354, R462). -/
def reportCounted (clk : ClockId) (r : FaultReport) (s : State) : State :=
  channelErrors clk r (bump clk 0x0A43 r.count s)

theorem faultReport_corrected (h : r.cls = 1) :
    faultReport clk r s = bump clk 0x0A40 r.count (reportCounted clk r s) := by
  simp only [faultReport, h, reportCounted]

theorem faultReport_uncorrectable (h : r.cls = 2) :
    faultReport clk r s = uncorrectable clk r.addr r.count (reach r.datum (reportCounted clk r s)) := by
  simp only [faultReport, h, reportCounted]

theorem faultReport_retried (h : r.cls = 3) :
    faultReport clk r s = logFault clk 3 1 r.addr r.count (reportCounted clk r s) := by
  simp only [faultReport, h, reportCounted]

theorem faultReport_logged (h : 4 ≤ r.cls) :
    faultReport clk r s = logFault clk r.cls 0 r.addr r.count (reportCounted clk r s) := by
  unfold faultReport
  split
  case h_1 hcls | h_2 hcls | h_3 hcls => omega
  case h_4 => rfl

section Channel
variable {ch : Fin 96} (hname : islandName clk = some (.channel ch))
include hname

theorem channelErrors_corrected (h : r.cls = 1) : channelErrors clk r s = correctedWords ch r.count s := by
  simp only [channelErrors, hname, h]

theorem channelErrors_uncorrectable (h : r.cls = 2) :
    channelErrors clk r s = bump clk (if r.tag then 0x0606 else 0x0605) r.count s := by
  simp only [channelErrors, hname, h]

end Channel

end Report

/-! ## Uncorrectable errors (R464) -/

theorem uncorrectable_none (clk : ClockId) (addr : Nat) (s : State) : uncorrectable clk addr 0 s = s := if_pos rfl

/-- The errors of an island in the last hour, with those that it reports now. -/
def errorsWith (s : State) (clk : ClockId) (n : Nat) : List Nat := recentErrors s clk ++ List.replicate (min n 16) s.now

/-- Uncorrectable errors are counted, logged with action 4 and kept. -/
def errorsKept (clk : ClockId) (addr n : Nat) (s : State) : State :=
  { logFault clk 2 4 addr n (bump clk 0x0A41 n s) with
    islands := upd s.islands clk (fun i => { i with errors := errorsWith s clk n }) }

theorem uncorrectable_some (clk : ClockId) (addr : Nat) {n : Nat} (hn : 0 < n) (s : State) : uncorrectable clk addr n s
    = if 16 ≤ (errorsWith s clk n).length then autoRetire clk (errorsKept clk addr n s) else errorsKept clk addr n s :=
  if_neg (Nat.ne_of_gt hn)

/-! ## The fault log (R462, R463) -/

section Log
variable {clk : ClockId} {cls action addr n : Nat} {s : State}

/-- The entry that a fault makes. -/
def faultEntry (s : State) (clk : ClockId) (cls action addr n : Nat) : FaultEntry :=
  { seq := s.log.next, time := s.now, clk, cls, action, addr, count := n }

theorem logFault_entries : (logFault clk cls action addr n s).log.entries
    = (s.log.entries ++ [faultEntry s clk cls action addr n]).drop (s.log.entries.length + 1 - 65536) := by
  simp only [logFault, List.length_append, List.length_singleton]
  rfl

/-- The log keeps the newest 65,536 entries. -/
theorem logFault_entries_length : (logFault clk cls action addr n s).log.entries.length ≤ 65536 := by
  rw [logFault_entries, List.length_drop, List.length_append, List.length_singleton]
  omega

theorem logFault_newest (hlog : s.log.entries.length ≤ 65536) :
    (logFault clk cls action addr n s).log.entries.getLast? = some (faultEntry s clk cls action addr n) := by
  have hkept : ¬ (s.log.entries ++ [faultEntry s clk cls action addr n]).length ≤ s.log.entries.length + 1 - 65536 := by
    simp only [List.length_append, List.length_singleton]
    omega
  rw [logFault_entries, List.getLast?_drop, if_neg hkept, List.getLast?_concat]

theorem logFault_appends (hlog : s.log.entries.length < 65536) : (logFault clk cls action addr n s).log.entries
    = s.log.entries ++ [faultEntry s clk cls action addr n] := by
  rw [logFault_entries, Nat.sub_eq_zero_of_le hlog, List.drop_zero]

/-- An entry of class 5 or above asserts ALERT_N (log 72). -/
theorem logFault_alert :
    (logFault clk cls action addr n s).pins.alert = true ↔ s.pins.alert = true ∨ 5 ≤ cls := by
  simp [logFault]

end Log

theorem faultEntry_bytes_length (e : FaultEntry) : e.bytes.length = 32 := by
  simp only [FaultEntry.bytes, List.length_append, leBytes_length]

section Read
variable {s : State} {id : Nat} {c : Cmd}

/-- The visible entries that a FAULT_LOG_READ asks for and OUTPUT has room for. -/
def entriesRead (c : Cmd) (s : State) : List FaultEntry :=
  (((visibleLog s).filter (fun e => c.arg 0 4 ≤ e.seq)).take (c.arg 4 4)).take (c.outLen / 32)

/-- The result with the entries that are written and the newest number; see log 122. -/
def readResult (c : Cmd) (s : State) : Result :=
  { count := 32 * (entriesRead c s).length, value := (entriesRead c s).length
    detail := ((s.log.entries.getLast?).map (·.seq)).getD 0
    writes := [(outputOffset s, (entriesRead c s).flatMap FaultEntry.bytes)] }

theorem exec_faultLogRead (hr : Runs s id 0x0F0B c) (hgate : gate s c.op c.tenant ≠ .held) :
    exec (.faultLogRead id) s = .next (finish c { readResult c s with
      status := if c.outLen < 32 * c.arg 4 4 then .partialDone else .ok
      effect := if !decide (c.outLen < 32 * c.arg 4 4) then .full
        else if (entriesRead c s).isEmpty then .none else .part } s) :=
  congrArg _ ((runCmd_runs hr _).trans (if_neg hgate))

end Read

theorem exec_faultLogSave {s : State} (hservice : s.dev.stage = .service)
    (hdue : 10000000000 ≤ s.now - s.log.savedAt) : exec .faultLogSave s = .next { s with
      log := { s.log with nor := s.log.entries.drop (s.log.entries.length - 1024), savedAt := s.now } } :=
  congrArg _ (if_pos ⟨hservice, hdue⟩)

/-! ## Heartbeats (R464) -/

section Heartbeat
variable {s : State} {clk : ClockId}

/-- The heartbeats missed in a row with the one missed now (log 124). -/
def missesNow (s : State) (clk : ClockId) : Nat :=
  if (look s.islands clk).misses ≠ 0 ∧ s.now - (look s.islands clk).missAt ≤ 100000 then (look s.islands clk).misses + 1
  else 1

theorem exec_heartbeatMiss (hservice : s.dev.stage = .service) (hname : (islandName clk).isSome = true)
    (hup : islandUp s clk = true) : exec (.heartbeatMiss clk) s = .next (missed clk s) := by
  show execHeartbeatMiss clk s = _
  simp [execHeartbeatMiss, inService, hservice, hname, hup]

def missCounted (clk : ClockId) (s : State) : State :=
  setIsland clk (fun i => { i with misses := missesNow s clk, missAt := s.now }) s

theorem missed_eq : missed clk s = if 3 ≤ missesNow s clk then
    autoRetire clk (setIsland clk (fun i => { i with misses := 0 }) (missCounted clk s)) else missCounted clk s := rfl

end Heartbeat

/-! ## Patrols (R354, R356, R459) -/

theorem exec_sramPatrol_first {s : State} {clk : ClockId} (hservice : s.dev.stage = .service)
    (hname : (islandName clk).isSome = true) (hup : islandUp s clk = true) (hclock : stopped s clk = false)
    (hfirst : (look s.islands clk).patrolAt = none) (corrected poisoned : Nat) :
    exec (.sramPatrol clk corrected poisoned) s = .next (uncorrectable clk 0 poisoned
      (bump clk 0x0A40 corrected (setIsland clk (fun i => { i with patrolAt := some s.now }) s))) := by
  show execSramPatrol clk corrected poisoned s = _
  simp [execSramPatrol, inService, hservice, hname, hup, hclock, hfirst]

section Scrub
variable {s : State} {ch : Fin 96} {d : ScrubData}

/-- The roles that a scrub reads; those in which the channel serves a position. -/
def serves (r : Role) : Prop := r = .active ∨ r = .evacuating ∨ r = .receiving

theorem exec_lpddr6PatrolScrub (hawake : awake s = true) (hup : islandUp s (channelClk ch) = true)
    (hdue : scrubDue s ch = true) (htrained : trained (channelAtRole s ch) = true) :
    exec (.lpddr6PatrolScrub ch d) s = .next (scrub ch d s) := by
  show execLpddr6PatrolScrub ch d s = _
  simp [execLpddr6PatrolScrub, hawake, hup, hdue, htrained]

theorem trained_of_serves {r : Role} (h : serves r) : trained r = true := by
  obtain rfl | rfl | rfl := h <;> rfl

def scrubbed (ch : Fin 96) (s : State) : State := setChannel ch (fun k => { k with scrubAt := some s.now }) s

theorem scrubbed_channel :
    look (scrubbed ch s).eng.channels ch = { look s.eng.channels ch with scrubAt := some s.now } :=
  look_setChannel_self ch _ s

theorem scrubbed_role : channelAtRole (scrubbed ch s) ch = channelAtRole s ch := by
  rw [channelAtRole, scrubbed_channel, channelAtRole]

theorem scrub_serving (h : serves (channelAtRole s ch)) : scrub ch d s = scrubServing ch d (scrubbed ch s) := by
  unfold scrub
  dsimp only
  rw [← scrubbed, scrubbed_role]
  obtain h | h | h := h <;> simp only [h]

theorem scrub_spare (h : channelAtRole s ch = .spare) : scrub ch d s
    = if d.patternOk then scrubbed ch s else logFault (channelClk ch) 5 3 0 1 (retireChannel ch (scrubbed ch s)) := by
  unfold scrub
  dsimp only
  rw [← scrubbed, scrubbed_role]
  simp only [h]

theorem correctedWords_channel (ch : Fin 96) (n : Nat) (s : State) : look (correctedWords ch n s).eng.channels ch
    = { look s.eng.channels ch with
        corrected := (look s.eng.channels ch).corrected.filter (fun m => s.now - m.1 < anHour) ++ [(s.now, n)] } :=
  look_setChannel_self ch _ s

section Clean
variable (hdouble : d.doubleErrors = 0) (htag : d.tagErrors = 0)
include hdouble htag

/-- A pass without uncorrectable words counts the slots that it read and the words that it corrected. -/
theorem scrubServing_clean : scrubServing ch d s = correctedWords ch d.corrected (bump (channelClk ch) 0x0608 d.slots
    (bump (channelClk ch) 0x0605 0 (bump (channelClk ch) 0x0606 0 s))) := by
  simp only [scrubServing, hdouble, htag, Nat.add_zero, uncorrectable_none]

theorem scrubServing_slots : look (scrubServing ch d s).counters (channelClk ch, 0x0608)
    = (look s.counters (channelClk ch, 0x0608) + d.slots) % 2 ^ 64 := by
  rw [scrubServing_clean hdouble htag, correctedWords, counters_bump_other (by decide), setChannel_counters,
    counters_bump_self, counters_bump_other (by decide), counters_bump_other (by decide)]

theorem scrubServing_corrected : look (scrubServing ch d s).counters (channelClk ch, 0x0604)
    = (look s.counters (channelClk ch, 0x0604) + d.corrected) % 2 ^ 64 := by
  rw [scrubServing_clean hdouble htag, correctedWords, counters_bump_self, setChannel_counters,
    counters_bump_other (by decide), counters_bump_other (by decide), counters_bump_other (by decide)]

theorem scrubServing_channel :
    (look (scrubServing ch d s).eng.channels ch).scrubAt = (look s.eng.channels ch).scrubAt
    ∧ channelAtRole (scrubServing ch d s) ch = channelAtRole s ch := by
  rw [scrubServing_clean hdouble htag, channelAtRole, correctedWords_channel]
  exact ⟨rfl, rfl⟩

theorem scrubServing_islands : (scrubServing ch d s).islands = s.islands := by
  simp only [scrubServing_clean hdouble htag, correctedWords, bump_islands, setChannel_islands]

end Clean

end Scrub

/-! ## Refresh (R357, R358) -/

/-- A poll leaves a channel that is RETIRED as it is. -/
def refreshed (r : RefreshRange) (k : Channel) : Channel := if k.role = .retired then k else refreshOf r k

def refreshOne (r : RefreshRange) (s : State) (ch : Fin 96) : State :=
  if channelAtRole s ch = .retired then s else setChannel ch (refreshOf r) s

theorem refreshOne_self (r : RefreshRange) (s : State) (ch : Fin 96) :
    look (refreshOne r s ch).eng.channels ch = refreshed r (look s.eng.channels ch) := by
  unfold refreshOne refreshed channelAtRole
  split
  · rfl
  · exact look_setChannel_self ch _ s

theorem refreshOne_other (r : RefreshRange) (s : State) {ch x : Fin 96} (h : x ≠ ch) :
    look (refreshOne r s ch).eng.channels x = look s.eng.channels x := by
  unfold refreshOne
  split
  · rfl
  · exact look_setChannel_other h _ s

theorem refreshAll_other (r : RefreshRange) {x : Fin 96} (chs : List (Fin 96)) (s : State) (h : x ∉ chs) :
    look (foldS (refreshOne r) chs s).eng.channels x = look s.eng.channels x := by
  induction chs generalizing s with
  | nil => rfl
  | cons ch chs ih =>
    obtain ⟨hne, hrest⟩ := List.ne_and_not_mem_of_not_mem_cons h
    rw [foldS_cons, ih _ hrest, refreshOne_other r s hne]

theorem refreshAll_mem (r : RefreshRange) {x : Fin 96} (chs : List (Fin 96)) (s : State) (hnodup : chs.Nodup)
    (h : x ∈ chs) : look (foldS (refreshOne r) chs s).eng.channels x = refreshed r (look s.eng.channels x) := by
  induction chs generalizing s with
  | nil => cases h
  | cons ch chs ih =>
    obtain ⟨hfresh, hrest⟩ := List.nodup_cons.1 hnodup
    rw [foldS_cons]
    obtain rfl | hin := List.mem_cons.1 h
    · rw [refreshAll_other r chs _ hfresh, refreshOne_self]
    · have hne : x ≠ ch := fun heq => hfresh (heq ▸ hin)
      rw [ih _ hrest hin, refreshOne_other r s hne]

theorem mem_packageChannels {p : Fin 24} {ch : Fin 96} : ch ∈ packageChannels p ↔ ch.val / 4 = p.val := by
  simp [packageChannels]

theorem exec_refreshTempPoll {s : State} (hawake : awake s = true) (p : Fin 24) (r : RefreshRange) :
    exec (.refreshTempPoll p r) s = .next (foldS (refreshOne r) (packageChannels p) s) :=
  congrArg _ (if_pos hawake)

/-- A poll refreshes the channels of its package and leaves the others. -/
theorem refreshTempPoll_channel (s : State) (p : Fin 24) (r : RefreshRange) (ch : Fin 96) :
    look (foldS (refreshOne r) (packageChannels p) s).eng.channels ch
      = if ch.val / 4 = p.val then refreshed r (look s.eng.channels ch) else look s.eng.channels ch := by
  split
  case isTrue h => exact refreshAll_mem r _ s ((List.nodup_finRange 96).filter _) (mem_packageChannels.2 h)
  case isFalse h => exact refreshAll_other r _ s (fun hin => h (mem_packageChannels.1 hin))

/-! ## Restarts of a supervisor (R466, R467) -/

section Supervisor
variable {s : State} {c : Fin 4}

theorem exec_supervisorLockstepMismatch (hservice : s.dev.stage = .service) (hlost : (courseOf s c).lost = false)
    (hup : islandUp s (fabricClk c) = true) :
    exec (.supervisorLockstepMismatch c) s = .next (supervisorMismatch c s) := by
  show execSupervisorLockstepMismatch c s = _
  simp [execSupervisorLockstepMismatch, inService, hservice, hlost, hup]

/-- The moment of a supervisor's mismatch is kept. -/
def mismatchKept (c : Fin 4) (s : State) : State :=
  { s with dev := { s.dev with supervisorMismatch := put s.dev.supervisorMismatch c s.now } }

theorem supervisorMismatch_first (hfirst : find? s.dev.supervisorMismatch c = none) : supervisorMismatch c s
    = replayStep c .retrieval true (replayStep c .generation true
        (count 0x0A21 1 (logFault (fabricClk c) 4 2 0 1 (mismatchKept c s)))) := by
  simp only [supervisorMismatch, hfirst]
  exact if_neg Bool.false_ne_true

theorem supervisorMismatch_again {t : Nat} (hlast : find? s.dev.supervisorMismatch c = some t)
    (hrecent : s.now - t < 1000000000) : supervisorMismatch c s
    = loseCourse c (logFault (fabricClk c) 6 4 0 1 (mismatchKept c s)) := by
  simp only [supervisorMismatch, hlast]
  exact if_pos (decide_eq_true hrecent)

end Supervisor

/-- Settles O46: a report by its class, an error and a missed heartbeat by how many there are, a scrub by the role of
its channel, a mismatch by the one before it, and the log by what `logFault` leaves in it. -/
theorem faultsAndPatrols : Obligations.FaultsAndPatrols := by
  intro s
  refine ⟨fun clk r hservice hname hup => ?report, fun clk addr n hn => ?errors, fun clk cls action addr n hlog => ?log,
    fun clk hservice hname hup => ?heartbeat, fun clk corrected hservice hname hup hclock hfirst => ?sram,
    fun ch d hawake hup hdue => ⟨fun hserves hdouble htag => ?serving, fun hspare hgood => ?sparePasses,
      fun hspare hbad => ?spareFails⟩,
    fun p r hawake => ?refresh, fun c hservice hlost hup => ⟨fun hfirst => ?firstMismatch,
      fun t hlast hrecent => ?nextMismatch⟩,
    fun id c hr hgate => ?read, faultEntry_bytes_length, exec_faultLogSave⟩
  case report =>
    have hexec (hcls : 1 ≤ r.cls ∧ r.cls ≤ 9) := exec_islandFaultReport hservice hname hup hcls
    refine ⟨fun h => ?_, fun h => ?_, fun h => ?_, fun hlow hhigh => ?_, fun ch u hchannel =>
      ⟨channelErrors_corrected hchannel, channelErrors_uncorrectable hchannel⟩⟩
    · exact (hexec (by omega)).trans (congrArg _ (faultReport_corrected h))
    · exact (hexec (by omega)).trans (congrArg _ (faultReport_uncorrectable h))
    · exact (hexec (by omega)).trans (congrArg _ (faultReport_retried h))
    · exact (hexec (by omega)).trans (congrArg _ (faultReport_logged hlow))
  case errors =>
    rw [uncorrectable_some clk addr hn]
    exact ⟨fun hfew => if_neg (Nat.not_le.2 hfew), fun hmany => if_pos hmany⟩
  case log =>
    exact ⟨logFault_entries_length, logFault_newest hlog, logFault_appends, logFault_alert, rfl⟩
  case heartbeat =>
    rw [exec_heartbeatMiss hservice hname hup, missed_eq]
    exact ⟨fun hfew => congrArg _ (if_neg (Nat.not_le.2 hfew)), fun hmany => congrArg _ (if_pos hmany)⟩
  case sram =>
    rw [exec_sramPatrol_first hservice hname hup hclock hfirst, uncorrectable_none]
    rfl
  case serving =>
    have hexec := exec_lpddr6PatrolScrub (d := d) hawake hup hdue (trained_of_serves hserves)
    rw [scrub_serving hserves] at hexec
    obtain ⟨hat, hrole⟩ := scrubServing_channel (s := scrubbed ch s) (ch := ch) hdouble htag
    exact ⟨_, hexec, scrubServing_slots hdouble htag, scrubServing_corrected hdouble htag,
      hat.trans (congrArg Channel.scrubAt scrubbed_channel), hrole.trans scrubbed_role,
      scrubServing_islands hdouble htag⟩
  case sparePasses =>
    rw [exec_lpddr6PatrolScrub hawake hup hdue (by rw [hspare]; rfl), scrub_spare hspare, if_pos hgood]
    rfl
  case spareFails =>
    rw [exec_lpddr6PatrolScrub hawake hup hdue (by rw [hspare]; rfl), scrub_spare hspare, if_neg (by simp [hbad])]
    obtain ⟨hrole, hisland, -⟩ := chan_retire' ch (scrubbed ch s)
    exact ⟨_, rfl, hrole, hisland⟩
  case refresh =>
    refine ⟨_, exec_refreshTempPoll hawake p r, fun ch hp hserves => ?_, fun ch h => ?_⟩
    all_goals rw [refreshTempPoll_channel]
    · exact (if_pos hp).trans (if_neg hserves)
    · split
      case isTrue hp => exact if_pos (h.resolve_left (not_not.2 hp))
      case isFalse => rfl
  case firstMismatch =>
    exact (exec_supervisorLockstepMismatch hservice hlost hup).trans (congrArg _ (supervisorMismatch_first hfirst))
  case nextMismatch =>
    exact (exec_supervisorLockstepMismatch hservice hlost hup).trans
      (congrArg _ (supervisorMismatch_again hlast hrecent))
  case read =>
    rw [exec_faultLogRead hr hgate]
    refine ⟨fun hwhole => ?_, fun hshort => ?_⟩
    · simp only [Nat.not_lt.2 hwhole, if_false, decide_false, Bool.not_false, if_true]
      rfl
    · simp only [hshort, if_true, decide_true, Bool.not_true, Bool.false_eq_true, if_false]
      rfl

end Sys2Proof.Proofs
end

section
/-! SUPPORT. Proofs about the shape of a step and of a command row, the end of a command, the state after reset, and the
SMBus endpoint (R10, R49, R58, R74, R75, R480, R538, R539). -/

open Sys2Proof Sys2Proof.Machine Sys2Proof.Laws
namespace Sys2Proof.Proofs

/-! ## A step -/

/-- Settles O1: `step` takes the front of the queue, whatever the rest. -/
theorem stepRunsFrontCommand : Obligations.StepRunsFrontCommand := fun _ _ _ => rfl

theorem step_empty {s : State} (h : s.pending = []) : step s = .next (tick s) := by simp only [step, h]

theorem countPower_frame (s : State) : ∃ n, countPower s = { s with counters := n } := by
  unfold countPower
  split
  · exact ⟨_, rfl⟩
  · split
    · exact ⟨_, rfl⟩
    · exact ⟨_, rfl⟩
    · exact ⟨_, rfl⟩

theorem tick_off {s : State} (h : s.dev.stage = .off) : tick s = s := if_pos h

theorem tick_powered {s : State} (h : s.dev.stage ≠ .off) : ∃ n, tick s = { s with now := s.now + 1, counters := n } := by
  obtain ⟨n, hn⟩ := countPower_frame { s with now := s.now + 1 }
  exact ⟨n, (if_neg h).trans hn⟩

/-- Settles O2: the step is a tick, which in P4 does nothing and otherwise adds a cycle and may count it. -/
theorem emptyQueueTicks : Obligations.EmptyQueueTicks := by
  intro s hempty
  refine ⟨tick s, step_empty hempty, tick_off, fun h => ?_⟩
  obtain ⟨n, hn⟩ := tick_powered h
  rw [hn]
  exact ⟨rfl, rfl⟩

/-! ## Command rows -/

theorem runCmd_absent {s : State} {id : Nat} (h : findCmd s id = none) (op : Nat) (body : Cmd → State → State) :
    runCmd id op body s = s := by
  simp only [runCmd, h]

theorem runCmd_idle {s : State} {id op : Nat} {c : Cmd} (hc : findCmd s id = some c)
    (h : c.phase ≠ .running ∨ c.op ≠ op ∨ c.result.isSome = true) (body : Cmd → State → State) :
    runCmd id op body s = s := by
  have hout : ¬ (c.op = op ∧ c.phase = .running ∧ c.result.isNone = true) := by
    rintro ⟨hop, hphase, hnone⟩
    rcases h with h | h | h
    · exact h hphase
    · exact h hop
    · simp [Option.isNone_iff_eq_none.1 hnone] at h
  simp only [runCmd, hc, if_neg hout]

theorem runCmd_cancelled {s : State} {id op : Nat} {c : Cmd} (hc : findCmd s id = some c) (hop : c.op = op)
    (hphase : c.phase = .running) (hnone : c.result.isNone = true) (hcancel : c.cancel = true)
    (body : Cmd → State → State) : runCmd id op body s = cancelled c (letGo c s) := by
  simp only [runCmd, hc, if_pos (And.intro hop (And.intro hphase hnone)), hcancel, if_true]

/-- What a command held goes back to its state, and nothing else changes. -/
theorem letGo_frame (c : Cmd) (s : State) : { letGo c s with obj := s.obj } = s := by
  simp only [letGo]
  split <;> rfl

theorem letGo_free {c : Cmd} (h : c.holds = false) (s : State) : letGo c s = s := by simp [letGo, h]

/-- Settles O3: by the branches of `runCmd`, and what `letGo` and `finish` leave. -/
theorem rowsOfRunningCommands : Obligations.RowsOfRunningCommands := by
  intro s id op body
  refine ⟨fun h => runCmd_absent h op body, fun c hc h => runCmd_idle hc h body,
    fun c hc hop hphase hnone hcancel => ⟨_, rfl, runCmd_cancelled hc hop hphase hnone hcancel body, ?_, fun hfree => ?_⟩⟩
  all_goals rw [runCmd_cancelled hc hop hphase hnone hcancel body, cancelled, fail, finish_unreported]
  · exact congrArg State.unreported (letGo_frame c s)
  · rw [letGo_free hfree]

/-! ## The end of a command (R49, R58, R74) -/

section Finish
variable {s : State} {c : Cmd} {r : Result}

theorem dma_host (c : Cmd) (o a : Nat) (b : List Byte) (s : State) : (dma c o a b s).host = s.host := by
  unfold dma
  dsimp only
  repeat' split
  all_goals rfl

/-- Bytes written change the trace only. -/
theorem writeAll_host (c : Cmd) (ws : List (Nat × List Byte)) (s : State) : (writeAll c ws s).host = s.host :=
  foldS_same State.host _ (fun _ _ => dma_host ..) _ _

theorem pairOf_congr {s t : State} (hhost : t.host = s.host) (hdev : t.dev = s.dev) (k : PairKey) :
    pairOf t k = pairOf s k := by
  unfold pairOf factoryBar
  rw [hhost, hdev]

theorem writeAll_dev (c : Cmd) (ws : List (Nat × List Byte)) (s : State) : (writeAll c ws s).dev = s.dev := by
  have h := congrArg State.dev (writeAll_unreported c ws s); exact h

/-- A pair that takes a completion at once has it written. -/
theorem putEntry_written {k : PairKey} (h : Takes s k) (e : Held) :
    putEntry k e s = dropCmd e.cmd (writeEntry k e.entry s) := by
  obtain ⟨henable, hlink, hheld, hroom⟩ := h
  simp [putEntry, henable, hlink, hheld, hroom]

theorem takes_congr {s t : State} (hhost : t.host = s.host) (hdev : t.dev = s.dev) {k : PairKey} (h : Takes s k) :
    Takes t k := by
  rw [Takes, pairOf_congr hhost hdev, hhost]
  exact h

theorem findCmd_dropCmd (id : Nat) (s : State) : findCmd (dropCmd (some id) s) id = none := by
  rw [findCmd, dropCmd, List.find?_eq_none]
  intro x hx
  have hkept := (List.mem_filter.1 hx).2
  simpa using hkept

/-- The command as it stands once its bytes are written and it has committed. -/
def committedBy (c : Cmd) (r : Result) (s : State) : State :=
  setCmd c.id (fun x => { x with phase := .committed }) (writeAll c r.writes s)

theorem finish_written (htakes : Takes s c.pairKey) (hfailed : c.failed = none) (hkept : c.discard = false) :
    finish c r s = releaseCancels (dropCmd (some c.id)
      (writeEntry c.pairKey (completionOf (committedBy c r s) c true r) (committedBy c r s))) := by
  have hgoes : Takes (committedBy c r s) c.pairKey :=
    takes_congr (writeAll_host c r.writes s) (writeAll_dev c r.writes s) htakes
  rw [← putEntry_written hgoes ⟨completionOf (committedBy c r s) c true r, some c.id⟩]
  simp [finish, conclude, hkept, afterFailure, hfailed, committedBy]

end Finish

/-- Settles O4: the entry is written at once, the command is dropped, and released CANCELs only add to the trace. -/
theorem endOfCommandReports : Obligations.EndOfCommandReports := by
  intro s c r htakes hfailed hkept
  have hpair : pairOf (committedBy c r s) c.pairKey = pairOf s c.pairKey :=
    pairOf_congr (writeAll_host c r.writes s) (writeAll_dev c r.writes s) _
  dsimp only
  refine ⟨⟨completionOf (committedBy c r s) c true r, ?_⟩, ?_, finish_unreported c r s⟩
  · obtain ⟨m, hm⟩ := writeEntry_out c.pairKey (completionOf (committedBy c r s) c true r) (committedBy c r s)
    obtain ⟨n, hn⟩ := release_out (dropCmd (some c.id)
      (writeEntry c.pairKey (completionOf (committedBy c r s) c true r) (committedBy c r s)))
    rw [hpair] at hm
    refine ⟨m ++ n, ?_, rfl, rfl, rfl, rfl, rfl, rfl, rfl, rfl, rfl⟩
    rw [finish_written htakes hfailed hkept, hn, dropCmd_out, hm, List.append_assoc]
    rfl
  · rw [finish_written htakes hfailed hkept]
    exact release_find _ _ (findCmd_dropCmd _ _)

/-! ## Writes over a link that is down (R72) -/

theorem reached_down {s : State} {port : Fin 2} (h : (look s.host.ports port).link = false) (rest : Bool) :
    ¬ (reached s port && rest) = true := by simp [reached, h]

/-- Settles O6: each of the rows asks first whether its write arrives. -/
theorem downLinkDiscardsWrites : Obligations.DownLinkDiscardsWrites := by
  intro s port fn ring hdown
  have hlost : (reached s port && fnOk fn && fnPresent s port fn) = false := by simp [reached, hdown]
  have hlostPair : (reached s port && pairOk fn ring && fnPresent s port fn) = false := by simp [reached, hdown]
  have hlostFunc {t : State} :
      Host.Outcome.next (if reached s port && fnOk fn && fnPresent s port fn then t else s)
        = (.next s : Host.Outcome State Fault Refusal) := congrArg _ (if_neg (by simp [hlost]))
  have hlostRing {t : State} :
      Host.Outcome.next (if reached s port && pairOk fn ring && fnPresent s port fn then t else s)
        = (.next s : Host.Outcome State Fault Refusal) := congrArg _ (if_neg (by simp [hlostPair]))
  exact ⟨fun off w v => congrArg _ (if_pos (by simp [reached, hdown])), fun _ => hlostFunc, fun _ => hlostFunc,
    fun _ => hlostFunc, fun _ _ _ => hlostRing, hlostRing, fun _ => hlostRing, fun _ => hlostRing⟩

/-! ## A second FIRMWARE_UPDATE (R480) -/

/-- Settles O54: the update that runs refuses another one, and a refusal changes only what a report changes. -/
theorem oneFirmwareUpdateAtATime : Obligations.OneFirmwareUpdateAtATime := by
  intro s id c image u hr hbegun hu
  refine ⟨_, 0x0B + 256 * lifecycleValue s, exec_firmwareUpdate image hr, ?_, by omega, ?_, ?_⟩
  all_goals rw [updateFirmware_second image hbegun (by simp [hu])]
  · rfl
  · exact finish_unreported ..
  · exact (congrArg Security.update (finish_sec ..)).trans hu

/-! ## The SMBus endpoint (R538, R539) -/

section Sideband
variable {s : State}

theorem exec_mctpControl (h : s.dev.stage ≠ .off) (e : Byte) : exec (.mctpControl e) s = .next (assignEid e s) :=
  congrArg _ (if_pos (by simpa [answers] using h))

theorem exec_pldmMessage (h : s.dev.stage ≠ .off) (m : Pldm) : exec (.pldmMessage m) s = .next (pldm m s) :=
  congrArg _ (if_pos (by simpa [answers] using h))

theorem exec_alertResponse (h : s.dev.stage ≠ .off) :
    exec .alertResponse s = .next (if s.pins.alert then alertResponse s else s) := by
  have hanswers : answers s = true := by simpa [answers] using h
  show execAlertResponse s = _
  simp [execAlertResponse, hanswers]

theorem pldm_read {n : Nat} {v : Int} (h : sensor s n = some v) : pldm (.readSensor n) s = reply 2 [n, v] s := by
  simp only [pldm, h]

theorem pldm_threshold {n : Nat} (h : (sensor s n).isSome = true) (v : Int) : pldm (.setThreshold n v) s
    = reply 4 [n, v] { s with smb := { s.smb with thresholds := put s.smb.thresholds n v } } := if_pos h

theorem pldm_noSensor {n : Nat} (h : sensor s n = none) (v : Int) : pldm (.setThreshold n v) s = reply 3 [n] s :=
  if_neg (by simp [h])

/-- A PLDM message reaches the endpoint's settings and the trace only. -/
theorem pldm_frame (m : Pldm) (s : State) : { pldm m s with smb := s.smb, out := s.out } = s := by
  cases m with
  | discover | setReceiver | other => rfl
  | readSensor n => simp only [pldm]; split <;> rfl
  | setThreshold n v => simp only [pldm]; split <;> rfl

/-- The courses' sensors are those from 2 to 5. -/
theorem sensor_course (s : State) (c : Fin 4) : sensor s (2 + c.val) = some (courseTemp s c / 16) := by
  fin_cases c <;> rfl

theorem sensor_above {n : Nat} (h : 10 < n) : sensor s n = none := by
  unfold sensor
  split
  case h_11 => rfl
  all_goals omega

end Sideband

/-- Settles O57: each message by its constructor, each sensor by its number. -/
theorem sidebandMessages : Obligations.SidebandMessages := by
  intro s
  refine ⟨fun h => ?powered, fun h => ?off, rfl, sensor_course s, rfl, rfl, rfl, rfl, rfl, rfl, fun n => sensor_above⟩
  case powered =>
    refine ⟨exec_mctpControl h, exec_pldmMessage h .discover,
      fun n v hv => (exec_pldmMessage h _).trans (congrArg _ (pldm_read hv)),
      fun n v hn => ⟨_, (exec_pldmMessage h _).trans (congrArg _ (pldm_threshold hn v)), find?_put_self .., rfl, rfl,
        fun k hk => find?_put_other _ _ (Ne.symm hk)⟩,
      fun n v hn => (exec_pldmMessage h _).trans (congrArg _ (pldm_noSensor hn v)),
      fun e => exec_pldmMessage h (.setReceiver e), exec_pldmMessage h .other, fun m t ht => ?_,
      fun halert => (exec_alertResponse h).trans (congrArg _ (if_pos halert)),
      fun halert => (exec_alertResponse h).trans (congrArg _ (if_neg (by simp [halert])))⟩
    cases (exec_pldmMessage h m).symm.trans ht
    exact pldm_frame m s
  case off =>
    have hsilent : answers s = false := by simp [answers, h]
    exact ⟨fun e => congrArg _ (if_neg (by simp [hsilent])), fun m => congrArg _ (if_neg (by simp [hsilent])),
      congrArg _ (if_neg (by simp [hsilent]))⟩

/-! ## The state after reset (R10, R511, R515, R542) -/

/-- The reset state stands in start-up with good pins and factory parameters. -/
theorem reset_inv : State.Inv State.reset := by
  refine ⟨factory_ok, by decide, fun _ => rfl, fun _ => ⟨rfl, rfl⟩, rfl, fun _ => rfl⟩

/-- Settles O58: the fields as `State.reset` gives them, and its invariant. -/
theorem resetState : Obligations.ResetState :=
  ⟨rfl, rfl, rfl, rfl, rfl, rfl, fun _ => ⟨rfl, rfl⟩, fun _ => rfl, fun _ => rfl, rfl, rfl, rfl, rfl, rfl, rfl, rfl, rfl,
    rfl, reset_inv⟩

end Sys2Proof.Proofs
end

section
/-! SUPPORT. Proofs about check-value scans: the CRC, the commands, the grant of a context and the end of a scan (R469 to
R476). -/

open Sys2Proof Sys2Proof.Machine Sys2Proof.Laws
namespace Sys2Proof.Proofs

/-! ## The check value (R470) -/

theorem scanBit_eq (w poly reg : Nat) (b : Bool) : scanBit w poly reg b
    = if reg.testBit (w - 1) != b then Nat.xor (reg * 2 % 2 ^ w) poly else reg * 2 % 2 ^ w := by
  simp only [scanBit, bitOf_test]

/-- The bits of a byte in the order in which a scan takes them. -/
def bitOrder (reflect : Bool) : List Nat := if reflect then [0, 1, 2, 3, 4, 5, 6, 7] else [7, 6, 5, 4, 3, 2, 1, 0]

/-- Reflecting a byte and taking its highest bit first is taking its lowest bit first. -/
theorem scanByte_bits (w poly reg : Nat) (reflect : Bool) (b : Byte) : scanByte w poly reflect reg b
    = (bitOrder reflect).foldl (fun x i => scanBit w poly x (b.toNat.testBit i)) reg := by
  cases reflect with
  | false => simp only [scanByte, bitOf_test]; rfl
  | true =>
    have hbit : ∀ i ∈ bitOrder false, bitOf (reverseBits 8 b.toNat) i = b.toNat.testBit (7 - i) := fun i hi => by
      rw [bitOf_test, reverse_test 8 _ i (by simp [bitOrder] at hi; omega)]
    rw [show bitOrder true = (bitOrder false).map (7 - ·) from rfl, List.foldl_map]
    exact List.foldl_ext _ _ _ fun r i hi => congrArg _ (hbit i hi)

theorem scanRun_append (w poly reg : Nat) (reflect : Bool) (a b : List Byte) :
    scanRun w poly reflect reg (a ++ b) = scanRun w poly reflect (scanRun w poly reflect reg a) b :=
  List.foldl_append

theorem scanFinal_reflected {w i : Nat} (h : i < w) (xor reg : Nat) :
    (scanFinal w true xor reg).testBit i = (reg.testBit (w - 1 - i) ^^ xor.testBit i) :=
  (Nat.testBit_xor ..).trans (congrArg (· ^^ _) (reverse_test w reg i h))

theorem scanFinal_plain (w xor reg i : Nat) :
    (scanFinal w false xor reg).testBit i = (reg.testBit i ^^ xor.testBit i) := Nat.testBit_xor ..

/-! ## SCAN_START (R471 to R473) -/

section Start
variable {s : State} {id : Nat} {c : Cmd} (hr : Runs s id 0x0800 c) (hbegun : c.begun = false)
  (hfree : find? s.obj.scans (scanHandle c) = none)
include hr hbegun hfree

theorem exec_scanStart_bad {o : Nat} {os : List Nat} (h : scanFaults s c = o :: os) :
    exec (.scanStart id) s = .next (badField c o 0 s) := by
  refine congrArg _ ((runCmd_runs hr _).trans ?_)
  simp [startScan, hbegun, hfree, h]

theorem exec_scanStart (h : scanFaults s c = []) :
    exec (.scanStart id) s = .next (setCmd c.id (fun x => { x with begun := true })
      { s with obj := { s.obj with scans := put s.obj.scans (scanHandle c) (newScan c) } }) := by
  refine congrArg _ ((runCmd_runs hr _).trans ?_)
  simp [startScan, hbegun, hfree, h]

end Start

/-! ## SCAN_SUSPEND, SCAN_RESUME and SCAN_QUERY (R474) -/

/-- The handle of a scan is its key. -/
theorem scanOf_found {s : State} {sid k h : Nat} {x : Scan} (e : scanOf s sid k = some (h, x)) :
    h = k ∧ find? s.obj.scans h = some x := by
  simp only [scanOf, Option.bind_eq_bind, Option.bind_eq_some_iff] at e
  obtain ⟨y, hy, e⟩ := e
  split at e
  · simp only [Option.some.injEq, Prod.mk.injEq] at e
    obtain ⟨rfl, rfl⟩ := e
    exact ⟨rfl, hy⟩
  · cases e

theorem find?_setScan {s : State} {h : Nat} {x : Scan} (hx : find? s.obj.scans h = some x) (f : Scan → Scan) :
    find? (setScan h f s).obj.scans h = some (f x) := by
  show find? (adj s.obj.scans h f) h = _
  rw [find?_adj, if_pos rfl, hx, Option.map_some]

theorem exec_scanSuspend {s : State} {id : Nat} {c : Cmd} (hr : Runs s id 0x0801 c) (bytes : List Byte) :
    exec (.scanSuspend id bytes) s = .next (suspend bytes c s) := congrArg _ (runCmd_runs hr _)

theorem exec_scanResume {s : State} {id : Nat} {c : Cmd} (hr : Runs s id 0x0802 c) :
    exec (.scanResume id) s = .next (resume c s) := congrArg _ (runCmd_runs hr _)

theorem exec_scanQuery {s : State} {id : Nat} {c : Cmd} (hr : Runs s id 0x0803 c) :
    exec (.scanQuery id) s = .next (finish c (c.answer.getD (scanAnswer c s)) s.draw.draw) :=
  congrArg _ (runCmd_runs hr _)

theorem countChecked_obj (x : Scan) (n : Nat) (s : State) : (countChecked x n s).obj = s.obj := by
  unfold countChecked
  split <;> rfl

section NoScan
variable {s : State} {c : Cmd} (h : scanOf s c.sid c.handle = none)
include h

theorem suspend_none (bytes : List Byte) : suspend bytes c s = badField c 32 0 s := by simp only [suspend, h]

theorem resume_none : resume c s = badField c 32 0 s := by
  simp only [resume, orRefuse, resumeRefusal, h]
  rfl

theorem scanAnswer_none : scanAnswer c s = badResult s 32 0 := by simp only [scanAnswer, h]

end NoScan

section OfScan
variable {s : State} {c : Cmd} {h : Nat} {x : Scan} (hx : scanOf s c.sid c.handle = some (h, x))
include hx

theorem suspend_again (hstate : x.state = .suspended) (bytes : List Byte) :
    suspend bytes c s = fail c .stateConflict (9 + 256 * 3) s := by
  simp only [suspend, hx, hstate]
  rfl

theorem suspend_queued (hstate : x.state = .queued) (bytes : List Byte) : suspend bytes c s
    = finish c { value := x.running } (setScan h (fun x => { x with state := .suspended }) s) := by
  simp only [suspend, hx, hstate]

theorem suspend_running (hstate : x.state = .running) {bytes : List Byte} (hedge : (x.take bytes).atBoundary = true)
    (hreached : scanReached s x bytes.length = true) : suspend bytes c s
    = finish c { value := (x.take bytes).running } (countChecked x bytes.length
        (setScan h (fun _ => { x.take bytes with state := .suspended, unit := none }) s)) := by
  simp only [suspend, hx, hstate]
  exact if_pos ⟨hedge, hreached⟩

theorem resume_wide (hwide : 2 ^ x.width ≤ c.imm) : resume c s = badField c 56 0 s := by
  simp only [resume, orRefuse, resumeRefusal, hx, if_pos hwide]
  rfl

theorem resume_conflict (hfits : c.imm < 2 ^ x.width) (hstate : x.state ≠ .suspended) :
    resume c s = fail c .stateConflict (9 + 256 * x.state.code) s := by
  simp only [resume, orRefuse, resumeRefusal, hx, if_neg (Nat.not_le.2 hfits),
    if_pos (show x.state ≠ .suspended ∨ x.orphan = true from .inl hstate)]
  rfl

theorem resume_suspended (hfits : c.imm < 2 ^ x.width) (hstate : x.state = .suspended) (hplace : x.orphan = false) :
    resume c s = finish c {} (setScan h (fun x => { x with state := .queued, running := c.imm }) s) := by
  obtain ⟨rfl, -⟩ := scanOf_found hx
  simp only [resume, orRefuse, resumeRefusal, hx, if_neg (Nat.not_le.2 hfits),
    if_neg (show ¬ (x.state ≠ .suspended ∨ x.orphan = true) by simp [hstate, hplace])]

theorem scanAnswer_still (hstate : x.state ≠ .running) : scanAnswer c s
    = { count := x.left / 2 ^ 32 % 16, value := x.running, detail := x.left % 2 ^ 32 } := by
  simp only [scanAnswer, hx, if_neg hstate, unitsOf]

theorem scanAnswer_running (hstate : x.state = .running) : (scanAnswer c s).status = .ok := by
  simp only [scanAnswer, hx, if_pos hstate]

end OfScan

/-! ## The grant of a context and the end of a scan (R469, R474, R476) -/

section Found
variable {s : State} {h : Nat} {x : Scan} (hx : find? s.obj.scans h = some x) (hawake : awake s = true)
include hx hawake

theorem exec_scanContextGrant (u : Fin 4) (hstate : x.state = .queued) : exec (.scanContextGrant h u) s
    = .next (if contextsBusy s u < 16 then
        setScan h (fun x => { x with state := .running, unit := some u, since := s.now }) s else s) := by
  show execScanContextGrant h u s = _
  simp only [execScanContextGrant, hx, hstate, hawake, true_and, and_true]

theorem exec_scanEnd {bytes : List Byte} (hstate : x.state = .running)
    (hreached : scanReached s x bytes.length = true) (bad : Bool) :
    exec (.scanEnd h bytes bad) s = .next (endScan h x bytes bad s) := by
  show execScanEnd h bytes bad s = _
  simp [execScanEnd, hx, hstate, hawake, hreached]

/-- A scan that ends is gone, and its command completes with the scan's result, or as cancelled. -/
theorem exec_scanEnd_ends {bytes : List Byte} {bad : Bool} {k : Cmd} (hstate : x.state = .running)
    (hreached : scanReached s x bytes.length = true) (hk : findCmd s x.cmd = some k)
    (hends : if bad = true then (x.take bytes).atBoundary = true else x.done + bytes.length = x.length) :
    ∃ u, find? u.obj.scans h = none ∧ exec (.scanEnd h bytes bad) s
      = .next (if k.cancel = true then cancelled k u else finish k (scanResult (x.take bytes) bad) u) := by
  obtain ⟨u, hgone, hu⟩ := endScan_ok s h x bytes bad k hk hends
  exact ⟨u, hgone, (exec_scanEnd hx hawake hstate hreached bad).trans (congrArg _ hu)⟩

end Found

/-- The value that the end of a range reports (R470). -/
def finalValue (x : Scan) : Nat := scanFinal x.width (bitOf x.reflect 1) x.finalXor x.running

theorem scanResult_match {x : Scan} (h : finalValue x = x.expected) : scanResult x false
    = { count := (unitsOf x.scanned).1, value := finalValue x, detail := (unitsOf x.scanned).2 } := if_pos h

theorem scanResult_mismatch {x : Scan} (h : finalValue x ≠ x.expected) : scanResult x false
    = { status := .checkMismatch, effect := .none, count := (unitsOf x.scanned).1, value := finalValue x
        detail := (unitsOf x.scanned).2, urgent := true } := if_neg h

theorem scanResult_value (x : Scan) : (scanResult x false).value = finalValue x := by
  by_cases h : finalValue x = x.expected
  · rw [scanResult_match h]
  · rw [scanResult_mismatch h]

/-- Settles O50: bit by bit, byte by byte, then the bits of the final value, and the two rows that use them. -/
theorem scanCheckValue : Obligations.ScanCheckValue := by
  refine ⟨fun w poly reg reflect b => ?_, fun w poly reg reflect a b => ⟨rfl, scanRun_append w poly reg reflect a b⟩,
    fun w xor reg i hi => ⟨scanFinal_reflected hi xor reg, scanFinal_plain w xor reg i⟩,
    fun s id c hr hbegun hfree hok => ⟨_, _, exec_scanStart hr hbegun hfree hok, find?_put_self .., rfl, rfl, rfl, rfl,
      rfl, rfl, rfl⟩,
    fun s h x c bytes hawake hx hstate hreached hends hc hcancel => ?_⟩
  · show scanByte w poly reflect reg b = _
    simp only [scanByte_bits, bitOrder, scanBit_eq]
  · obtain ⟨u, hgone, hu⟩ := exec_scanEnd_ends (bad := false) hx hawake hstate hreached hc hends
    rw [hcancel] at hu
    have hvalue := scanResult_value (x.take bytes)
    refine ⟨u, _, hu, hgone, hvalue, fun hmatch => ?_, fun hdiff => ?_⟩
    · rw [scanResult_match (hvalue.symm.trans hmatch)]
      exact ⟨rfl, rfl⟩
    · rw [scanResult_mismatch fun e => hdiff (hvalue.trans e)]
      exact ⟨rfl, rfl, rfl⟩

/-- Settles O51: each command by the scan that its handle names, and that scan's state. -/
theorem scanCommands : Obligations.ScanCommands := by
  intro s id c
  refine ⟨fun hr hbegun hfree => ⟨fun o os => exec_scanStart_bad hr hbegun hfree, exec_scanStart hr hbegun hfree⟩,
    fun bytes hnone => ⟨fun hr => ?_, fun hr => ?_, fun hr => ?_⟩,
    fun h x hx => ⟨fun bytes hr => ⟨fun hstate => ?_, fun hstate => ?_, fun hstate hedge hreached => ?_⟩,
      fun hr => ⟨fun hwide => ?_, fun hfits hstate => ?_, fun hfits hstate hplace => ?_⟩,
      fun hr => ⟨fun hstate => ?_, fun hstate => ?_⟩⟩,
    fun h x u hx hawake => ⟨fun hstate hroom => ?_, fun hstate hfull => ?_,
      fun bytes k hstate hreached hedge hk hcancel => ?_, fun bytes k hstate hreached hends hk hcancel => ?_⟩⟩
  · rw [exec_scanSuspend hr, suspend_none hnone]
  · rw [exec_scanResume hr, resume_none hnone]
  · rw [exec_scanQuery hr, scanAnswer_none hnone]
  · rw [exec_scanSuspend hr, suspend_again hx hstate]
  · rw [exec_scanSuspend hr, suspend_queued hx hstate]
    rfl
  · refine ⟨_, (exec_scanSuspend hr bytes).trans (congrArg _ (suspend_running hx hstate hedge hreached)), ?_⟩
    rw [countChecked_obj]
    exact find?_setScan (scanOf_found hx).2 _
  · rw [exec_scanResume hr, resume_wide hx hwide]
  · rw [exec_scanResume hr, resume_conflict hx hfits hstate]
  · rw [exec_scanResume hr, resume_suspended hx hfits hstate hplace]
    rfl
  · rw [exec_scanQuery hr, scanAnswer_still hx hstate]
  · exact ⟨s.draw.draw, _, exec_scanQuery hr, rfl, scanAnswer_running hx hstate⟩
  · exact (exec_scanContextGrant hx hawake u hstate).trans (congrArg _ (if_pos hroom))
  · exact (exec_scanContextGrant hx hawake u hstate).trans (congrArg _ (if_neg (Nat.not_lt.2 hfull)))
  · obtain ⟨v, hgone, hv⟩ := exec_scanEnd_ends (bad := true) hx hawake hstate hreached hk hedge
    rw [hcancel] at hv
    exact ⟨v, _, hv, hgone, rfl, rfl, rfl⟩
  · obtain ⟨v, hgone, hv⟩ := exec_scanEnd_ends (bad := false) hx hawake hstate hreached hk hends
    rw [hcancel] at hv
    exact ⟨v, hv, hgone⟩

end Sys2Proof.Proofs
end

section
/-! SUPPORT. Proofs about tenants, attestation and Heleri images (R429 to R449). -/

open Sys2Proof Sys2Proof.Machine Sys2Proof.Laws
namespace Sys2Proof.Proofs

/-! ## TENANT_SET with action 0 (R434, R436) -/

/-- The record that a TENANT_SET starts from: an UNSET tenant gets a data key of the device. -/
def tenantBase (s : State) (old : Tenant) : Tenant :=
  if old.state = .unset then { state := .active, dataKey := some (Config.dataKey s.fresh), badProofs := old.badProofs }
  else old

/-- The same with the weight and the depth of the command. -/
def tenantNamed (s : State) (c : Cmd) : Tenant :=
  { tenantBase s (look s.tenants (c.arg 0 2)) with weight := some (c.arg 2 2), depth := some (c.arg 4 2) }

/-- A tenant's record is written, and a value drawn for its data key. -/
def withTenant (t : Nat) (r : Tenant) (s : State) : State :=
  { s with tenants := put s.tenants t r, fresh := s.fresh + 1 }

theorem newTenant_eq (s : State) (c : Cmd) (key : Option (BitVec 256)) (q : Option Quotas) :
    newTenant s c (look s.tenants (c.arg 0 2)) key q = { tenantNamed s c with
      key := key.getD (tenantNamed s c).key, quotas := q.orElse (fun _ => (tenantNamed s c).quotas) } := by
  simp only [newTenant, tenantNamed, tenantBase, beq_iff_eq]

section SetTenant
variable {s : State} {c : Cmd}

theorem exec_tenantSet {id : Nat} (hr : Runs s id 0x0F02 c) (himm : c.imm = 0) (key quotas : Input) :
    exec (.tenantSet id key quotas) s = .next (tenantInputs c key quotas s) :=
  congrArg _ ((runCmd_runs hr _).trans (if_pos himm))

theorem tenantInputs_none (hkey : c.bdLen 8 = 0) (hquotas : c.bdLen 24 = 0) (key quotas : Input) :
    tenantInputs c key quotas s = setTenantRecord c none none s := by
  simp only [tenantInputs, hkey, hquotas, if_true]

theorem tenantInputs_key (hkey : c.bdLen 8 ≠ 0) (hquotas : c.bdLen 24 = 0) (b : List Byte) (quotas : Input) :
    tenantInputs c (.data b) quotas s = setTenantRecord c (some b) none s := by
  simp only [tenantInputs, hkey, hquotas, if_true, if_false, withInput]

theorem tenantInputs_quotas (hkey : c.bdLen 8 = 0) (hquotas : c.bdLen 24 ≠ 0) (key : Input) (b : List Byte) :
    tenantInputs c key (.data b) s = setTenantRecord c none (some b) s := by
  simp only [tenantInputs, hkey, hquotas, if_true, if_false, withInput]

theorem setTenantRecord_revoking (h : (look s.tenants (c.arg 0 2)).state = .revoking)
    (key quotas : Option (List Byte)) :
    setTenantRecord c key quotas s = fail c .stateConflict (0x0A + 256 * 2) s := if_pos h

variable (hset : (look s.tenants (c.arg 0 2)).state ≠ .revoking)
include hset

theorem setTenantRecord_plain :
    setTenantRecord c none none s = finish c {} (withTenant (c.arg 0 2) (tenantNamed s c) s) := by
  simp only [setTenantRecord, if_neg hset, newTenant_eq]
  rfl

theorem setTenantRecord_badKey {b : List Byte} (h : Config.keyUnwrap (wrapKey s c.sid) b = none) :
    setTenantRecord c (some b) none s = badField c 72 0 s := by
  simp only [setTenantRecord, if_neg hset, Option.map_some, h, if_true]

theorem setTenantRecord_key {b : List Byte} {k : BitVec 256} (h : Config.keyUnwrap (wrapKey s c.sid) b = some k) :
    setTenantRecord c (some b) none s
      = finish c {} (withTenant (c.arg 0 2) { tenantNamed s c with key := k } s) := by
  simp only [setTenantRecord, if_neg hset, newTenant_eq, Option.map_some, h]
  rfl

theorem setTenantRecord_badQuotas {b : List Byte} {st : Status} {o : Nat}
    (h : firstFail (quotaChecks b) = some (st, o)) : setTenantRecord c none (some b) s = badField c 88 o s := by
  simp only [setTenantRecord, if_neg hset, Option.bind_some, h]
  rfl

theorem setTenantRecord_quotas {b : List Byte} (h : firstFail (quotaChecks b) = none) :
    setTenantRecord c none (some b) s
      = finish c {} (withTenant (c.arg 0 2) { tenantNamed s c with quotas := some (quotasFrom b) } s) := by
  simp only [setTenantRecord, if_neg hset, newTenant_eq, Option.bind_some, h]
  rfl

end SetTenant

/-! ## Revocation (R436, R437) -/

/-- The tenant loses its data key, and with it the blocks of its namespaces. -/
def revoked (t : Nat) (s : State) : State :=
  setTenant t (fun r => { r with state := .revoking, dataKey := none }) (loseBlocks t s)

section Revoke
variable {s : State} {id : Nat} {c : Cmd}

theorem exec_tenantRevoke (hr : Runs s id 0x0F02 c) (himm : c.imm = 1) :
    exec (.tenantRevoke id) s = .next (revokeTenant c s) :=
  congrArg _ ((runCmd_runs hr _).trans (if_pos himm))

theorem revokeTenant_conflict (h : (look s.tenants (c.arg 0 2)).state ≠ .active) : revokeTenant c s
    = fail c .stateConflict (0x0A + 256 * (look s.tenants (c.arg 0 2)).state.code) s := if_pos h

theorem revokeTenant_active (h : (look s.tenants (c.arg 0 2)).state = .active) :
    revokeTenant c s = finish c {} (closeTenant (c.arg 0 2) (revoked (c.arg 0 2) s)) := if_neg (not_not.2 h)

theorem revoked_blocks (t nsid : Nat) (s : State) :
    (find? (revoked t s).flash.namespaces nsid).map (·.blocks) = (find? s.flash.namespaces nsid).map (fun n =>
      if n.tenant = t then n.blocks.map (fun b => (b.1, .lost)) else n.blocks) := by
  simp only [revoked, setTenant, loseBlocks, find?_mapTbl, Option.map_map]
  refine congrArg (Option.map · _) (funext fun n => ?_)
  simp only [Function.comp]
  split <;> rfl

theorem exec_tenantRevokeFinish {t : Nat} (hstate : (look s.tenants t).state = .revoking)
    (hlast : s.sessions.any (fun x => x.2.tenant == t) = false) :
    exec (.tenantRevokeFinish t) s = .next { s with tenants := del s.tenants t } :=
  congrArg _ (if_pos ⟨hstate, by simp [hlast]⟩)

end Revoke

/-! ## Attestation (R442 to R446) -/

/-- The reservation that an index needs is in the log before the index is used (R443). -/
def reserved (k : Security) : Security := if k.attNext = k.attEnd then appendIndex k (k.attEnd + 16) else k

theorem appendIndex_keeps (k : Security) (n : Nat) : (appendIndex k n).attSerial = k.attSerial
    ∧ (appendIndex k n).attOk = k.attOk ∧ (appendIndex k n).attEnd = n := by
  simp only [appendIndex]
  repeat' split
  all_goals exact ⟨rfl, rfl, rfl⟩

theorem reserved_keeps (k : Security) : (reserved k).attSerial = k.attSerial ∧ (reserved k).attOk = k.attOk := by
  unfold reserved
  split
  · obtain ⟨hserial, hok, -⟩ := appendIndex_keeps k (k.attEnd + 16)
    exact ⟨hserial, hok⟩
  · exact ⟨rfl, rfl⟩

theorem reserved_ahead {k : Security} (h : k.attNext ≠ k.attEnd) : (reserved k).attEnd = k.attEnd := by
  rw [reserved, if_neg h]

theorem reserved_block {k : Security} (h : k.attNext = k.attEnd) : (reserved k).attEnd = k.attEnd + 16 := by
  rw [reserved, if_pos h]
  exact (appendIndex_keeps k _).2.2

theorem useIndex_next {s : State} (h : s.sec.attNext + 1 < 2 ^ 20) :
    useIndex s = { s with sec := { reserved s.sec with attNext := s.sec.attNext + 1 } } := if_pos h

theorem useIndex_last {s : State} (h : ¬ s.sec.attNext + 1 < 2 ^ 20) : useIndex s
    = if s.sec.attNextReady then { s with sec := { reserved s.sec with
        attSerial := s.sec.attSerial + 1, attNext := 0, attEnd := 0, attNextReady := false } }
      else { s with sec := { reserved s.sec with attNext := s.sec.attNext + 1, attOk := false } } := if_neg h

/-- An index is used once: the serial and the index together rise by one. -/
theorem useIndex_counts {s : State} (h : s.sec.attNext < 2 ^ 20) :
    (useIndex s).sec.attSerial * 2 ^ 20 + (useIndex s).sec.attNext
        = s.sec.attSerial * 2 ^ 20 + s.sec.attNext + 1
      ∧ ((useIndex s).sec.attOk = true → (useIndex s).sec.attNext < 2 ^ 20) := by
  obtain ⟨hserial, -⟩ := reserved_keeps s.sec
  by_cases hmore : s.sec.attNext + 1 < 2 ^ 20
  · rw [useIndex_next hmore]
    refine ⟨?_, fun _ => hmore⟩
    dsimp only
    omega
  · rw [useIndex_last hmore]
    split
    · refine ⟨?_, fun _ => Nat.two_pow_pos 20⟩
      dsimp only
      omega
    · refine ⟨?_, fun hok => by cases hok⟩
      dsimp only
      omega

section Attest
variable {s : State} {id : Nat} {c : Cmd}

theorem exec_attest (hr : Runs s id 0x0F03 c) : exec (.attest id) s = .next (attestNow c s) :=
  congrArg _ (runCmd_runs hr _)

theorem attestNow_unavailable (h : s.sec.lifecycle = .quarantine ∨ s.sec.attOk = false) :
    attestNow c s = fail c .attestUnavailable 0 s := if_pos (h.imp_right fun h => by simp [h])

variable (hlife : s.sec.lifecycle ≠ .quarantine) (hok : s.sec.attOk = true)
include hlife hok

theorem attest_available : ¬ (s.sec.lifecycle = .quarantine ∨ (!s.sec.attOk) = true) := by simp [hlife, hok]

theorem attestNow_short (hlen : c.outLen < 11661) :
    attestNow c s = finish c { status := .partialDone, effect := .none, count := 11661 } s :=
  (if_neg (attest_available hlife hok)).trans (if_pos hlen)

theorem attestNow_signs (hlen : 11661 ≤ c.outLen) : attestNow c s
    = finish c { count := 11661, writes := [(outputOffset s, attestOutput s c)] } (count 0x0922 1 (useIndex s)) :=
  (if_neg (attest_available hlife hok)).trans (if_neg (Nat.not_lt.2 hlen))

end Attest

theorem exec_attestKeyGenerate {s : State} (hstage : s.dev.stage = .service) (hnone : s.sec.attNextReady = false)
    (hfew : 2 ^ 20 ≤ 131072 + s.sec.attNext) : exec .attestKeyGenerate s
    = .next (if s.sec.attOk then { s with sec := { s.sec with attNextReady := true } }
        else { s with sec := { s.sec with
          attSerial := s.sec.attSerial + 1, attNext := 0, attEnd := 0, attOk := true } }) := by
  have hdue : ¬ (s.sec.attNextReady = true ∨ 131072 + s.sec.attNext < keyUses ∨ s.dev.stage ≠ .service) := by
    simp [hnone, hstage, keyUses]
    omega
  exact congrArg _ (if_neg hdue)

/-! ## IMAGE_WRITE (R447, R448) -/

section Write
variable {s : State} {c : Cmd} {img : List Byte}

theorem exec_imageWrite {id : Nat} (hr : Runs s id 0x0F04 c) (img : List Byte) :
    exec (.imageWrite id (.data img)) s = .next (writeImage img c s) := congrArg _ (runCmd_runs hr _)

theorem writeImage_inUse (hfactory : s.dev.factory = false) (hslot : s.dev.usedB = decide (c.arg 16 1 = 1)) :
    writeImage img c s = badField c 80 0 s := by
  simp only [writeImage]
  exact if_pos (by simp [hfactory, hslot])

variable (hslot : s.dev.factory = true ∨ s.dev.usedB ≠ decide (c.arg 16 1 = 1))
include hslot

theorem slot_writable : ¬ (!(s.dev.factory || decide ((c.arg 16 1 = 1) ≠ (s.dev.usedB = true)))) = true := by
  rcases hslot with h | h
  · simp [h]
  · cases hused : s.dev.usedB <;> simp_all

theorem writeImage_badEnvelope {st : Status} {o : Nat} (h : envelopeFault img = some (st, o)) : writeImage img c s
    = finish c { status := st, effect := .none, value := o, detail := 64 } s := by
  simp only [writeImage, if_neg (slot_writable hslot), h]

variable (henvelope : envelopeFault img = none) (hkind : envKind img = 1)
include henvelope hkind

theorem writeImage_rollback (hold : envVersion img < s.sec.heleriFloor) :
    writeImage img c s = fail c .imageRollback 0 (count 0x0924 1 s) := by
  simp only [writeImage, if_neg (slot_writable hslot), henvelope, hkind, hold, and_self, if_true, one_ne_zero, if_false]

theorem writeImage_judged (hnew : s.sec.heleriFloor ≤ envVersion img) : writeImage img c s
    = if imageVerifies s img then finish c {} (setSlot (decide (c.arg 16 1 = 1)) img s)
      else fail c .imageRejected 0 (count 0x0924 1 (setSlot (decide (c.arg 16 1 = 1)) [] s)) := by
  simp only [writeImage, if_neg (slot_writable hslot), henvelope, hkind, Nat.not_lt.2 hnew, false_and, one_ne_zero,
    if_false]

end Write

/-! ## IMAGE_ACTIVATE (R429, R449) -/

/-- The slot becomes the active one, and the image's version the floor. -/
def activated (b : Bool) (img : List Byte) (s : State) : State :=
  let t := { s with sec := { s.sec with activeB := b, heleriFloor := envVersion img } }
  if (ownerSectionOf img).isEmpty then t
  else { t with sec := { t.sec with ownerKeys := keysOf (ownerSectionOf img), ownerSection := ownerSectionOf img } }

theorem activated_sec (b : Bool) (img : List Byte) (s : State) : (activated b img s).sec.activeB = b
    ∧ (activated b img s).sec.heleriFloor = envVersion img
    ∧ (activated b img s).sec.lifecycle = s.sec.lifecycle := by
  simp only [activated]
  split <;> exact ⟨rfl, rfl, rfl⟩

section Activate
variable {s : State} {id : Nat} {c : Cmd} {b : Bool} (hb : decide (c.arg 0 1 = 1) = b)
include hb

theorem exec_imageActivate (hr : Runs s id 0x0F05 c) : exec (.imageActivate id) s = .next (
    if (slotImage s b).isEmpty then conflictDevice c s
    else if !imageVerifies s (slotImage s b) then fail c .imageRejected 0 (count 0x0924 1 s)
    else if envKind (slotImage s b) = 2 then
      if s.sec.lifecycle = .factory then finish c {} { s with sec := { s.sec with lifecycle := .unowned } }
      else conflictDevice c s
    else if envVersion (slotImage s b) < s.sec.heleriFloor then fail c .imageRollback 0 (count 0x0924 1 s)
    else if envClaim (slotImage s b) then
      if s.sec.lifecycle = .unowned ∧ c.tenant = 0 then finish c {} (claim (slotImage s b) s) else conflictDevice c s
    else if envRelease (slotImage s b) then
      if (s.sec.lifecycle = .owned ∨ s.sec.lifecycle = .quarantine) ∧ s.sec.service.isNone then release c s
      else conflictDevice c s
    else finish c {} (activated b (slotImage s b) s)) := by
  subst hb
  exact congrArg _ (runCmd_runs hr _)

end Activate

/-- Settles O52: each command by its checks in order, and what is left of the keys, the blocks and the slots. -/
theorem tenantsImagesAttestation : Obligations.TenantsImagesAttestation := by
  intro s id c
  refine ⟨fun key quotas hr himm => ?set, fun hr himm => ?revoke, fun t hstate hlast => ?finish, fun hr => ?attest,
    fun hstage hnone hfew => ?generate, fun img hr => ?write, fun hr => ?activate⟩
  case set =>
    have hexec := exec_tenantSet hr himm (.data key) (.data quotas)
    refine ⟨fun h hkey hquotas => ?_, fun h hkey hquotas => ?_, fun h hkey hquotas => ⟨fun hbad => ?_, fun k hk => ?_⟩,
      fun h hkey hquotas => ⟨fun st o hbad => ?_, fun hgood => ?_⟩⟩
    · rw [hexec, tenantInputs_none hkey hquotas, setTenantRecord_revoking h]
    · rw [hexec, tenantInputs_none hkey hquotas, setTenantRecord_plain h]
      rfl
    · rw [hexec, tenantInputs_key hkey hquotas, setTenantRecord_badKey h hbad]
    · rw [hexec, tenantInputs_key hkey hquotas, setTenantRecord_key h hk]
      rfl
    · rw [hexec, tenantInputs_quotas hkey hquotas, setTenantRecord_badQuotas h hbad]
    · rw [hexec, tenantInputs_quotas hkey hquotas, setTenantRecord_quotas h hgood]
      rfl
  case revoke =>
    refine ⟨fun h => (exec_tenantRevoke hr himm).trans (congrArg _ (revokeTenant_conflict h)), fun h =>
      ⟨revoked (c.arg 0 2) s, (exec_tenantRevoke hr himm).trans (congrArg _ (revokeTenant_active h)), ?_, ?_,
        fun nsid => revoked_blocks ..⟩⟩
    · rw [revoked, look_setTenant_self]
    · rw [revoked, look_setTenant_self]
  case finish =>
    exact ⟨_, exec_tenantRevokeFinish hstate hlast, find?_del_self .., fun k hk =>
      (find?_del ..).trans (if_neg (Ne.symm hk))⟩
  case attest =>
    rw [exec_attest hr]
    refine ⟨fun h => congrArg _ (attestNow_unavailable h), fun hlife hok hlen => congrArg _ (attestNow_short hlife hok hlen),
      fun hlife hok hlen hnext => ⟨count 0x0922 1 (useIndex s), congrArg _ (attestNow_signs hlife hok hlen), ?_⟩⟩
    rw [count_sec]
    obtain ⟨hcount, hbound⟩ := useIndex_counts hnext
    refine ⟨hcount, fun hahead hmore => ?_, fun hedge hmore => ?_, hbound⟩
    · rw [useIndex_next hmore]
      exact reserved_ahead hahead
    · rw [useIndex_next hmore]
      exact reserved_block hedge
  case generate =>
    rw [exec_attestKeyGenerate hstage hnone hfew]
    exact ⟨fun hok => congrArg _ (if_pos hok), fun hok => congrArg _ (if_neg (by simp [hok]))⟩
  case write =>
    rw [exec_imageWrite hr]
    refine ⟨fun hfactory hused => congrArg _ (writeImage_inUse hfactory hused), fun hslot =>
      ⟨fun st o h => congrArg _ (writeImage_badEnvelope hslot h),
        fun henvelope hkind hold => congrArg _ (writeImage_rollback hslot henvelope hkind hold),
        fun henvelope hkind hnew => ?_⟩⟩
    rw [writeImage_judged hslot henvelope hkind hnew]
    exact ⟨fun h => congrArg _ (if_pos h), fun h => congrArg _ (if_neg (by simp [h]))⟩
  case activate =>
    dsimp only
    rw [exec_imageActivate rfl hr]
    generalize decide (c.arg 0 1 = 1) = b
    refine ⟨fun hempty => ?_, fun hfull hbad => ?_, fun hfull hgood => ⟨fun hkind hlife => ?_, fun hkind hold => ?_,
      fun hkind hnew hclaim hlife htenant => ⟨claim (slotImage s b) s, ?_, rfl, rfl, ?_⟩,
      fun hkind hnew hclaim hrelease => ⟨activated b (slotImage s b) s, ?_, activated_sec ..⟩⟩⟩
    · simp only [hempty, List.isEmpty_nil, if_true]
      rfl
    · simp [hfull, hbad]
    · simp [hfull, hgood, hkind, hlife]
    · simp [hfull, hgood, hkind, hold]
    · simp [hfull, hgood, hkind, Nat.not_lt.2 hnew, hclaim, hlife, htenant]
    · simp [claim]
    · simp [hfull, hgood, hkind, Nat.not_lt.2 hnew, hclaim, hrelease]

end Sys2Proof.Proofs
end

section
/-! SUPPORT. Proofs about POWER_CAP, P2 and P3, the governor's samples and windows, the pause duty and temperatures (R502
to R509). -/

open Sys2Proof Sys2Proof.Machine Sys2Proof.Laws
namespace Sys2Proof.Proofs

/-! ## POWER_CAP (R503 to R505) -/

section PowerCap
variable {s : State} {id : Nat} {c : Cmd} (hr : Runs s id 0x0F09 c)

section
include hr

theorem exec_powerCap (himm : c.imm = 0) : exec (.powerCap id) s = .next (finish c {} (setCap c s)) :=
  congrArg _ ((runCmd_runs hr _).trans (if_pos himm))

theorem exec_powerEnterP3 (himm : c.imm = 1) (hservice : s.dev.stage = .service) :
    exec (.powerEnterP3 id) s = .next (enterP3 c s) :=
  congrArg _ ((if_pos (beq_iff_eq.2 hservice)).trans ((runCmd_runs hr _).trans (if_pos himm)))

theorem exec_powerLeaveP3 (himm : c.imm = 2) :
    exec (.powerLeaveP3 (some id)) s = .next (finish c {} (setCap c (if s.dev.asleep then wake s else s))) :=
  congrArg _ ((runCmd_runs hr _).trans (if_pos himm))

end

theorem enterP3_asleep (h : s.dev.asleep = true) : enterP3 c s = finish c {} (setCap c s) := if_pos h

/-- The entry to P3 has begun: nothing more is dispatched. -/
def drowsy (c : Cmd) (s : State) : State :=
  setCmd c.id (fun x => { x with begun := true }) { s with dev := { s.dev with drowsy := true } }

theorem drained_drowsy (c : Cmd) (s : State) : Machine.drained (drowsy c s) = Machine.drained s := rfl

/-- Step 1 of the entry waits; otherwise the device sleeps as soon as nothing is in flight. -/
theorem enterP3_awake (hasleep : s.dev.asleep = false) : enterP3 c s
    = if !c.begun && (s.sec.update.isSome || !s.eng.evacuations.isEmpty) then s
      else if Machine.drained (drowsy c s) then fallAsleep { c with begun := true } (drowsy c s) else drowsy c s :=
  if_neg (by simp [hasleep])

theorem enterP3_waits (hasleep : s.dev.asleep = false) (hbegun : c.begun = false)
    (h : s.sec.update.isSome = true ∨ s.eng.evacuations ≠ []) : enterP3 c s = s :=
  (enterP3_awake hasleep).trans (if_pos (by simpa [hbegun] using h))

theorem enterP3_goes (hasleep : s.dev.asleep = false) (hupdate : s.sec.update = none)
    (hstay : s.eng.evacuations = []) : enterP3 c s
    = if Machine.drained s then fallAsleep { c with begun := true } (drowsy c s) else drowsy c s :=
  (enterP3_awake hasleep).trans ((if_neg (by simp [hupdate, hstay])).trans (by rw [drained_drowsy]))

end PowerCap

theorem exec_wakeOnWork {s : State} (hservice : s.dev.stage = .service) (hasleep : s.dev.asleep = true)
    (hparam : s.dev.cfg.sys.wakeOnWork = true) (hwork : holdsWork s = true) :
    exec (.powerLeaveP3 none) s = .next (wake s) := by
  show execPowerLeaveP3 none s = _
  simp [execPowerLeaveP3, inService, hservice, hasleep, hparam, hwork]

theorem exec_idleTimeout {s : State} (hawake : awake s = true) (hgated : s.dev.gated = false)
    (hidle : chainRuns s = false) (hlong : s.gov.lastChain + s.dev.cfg.sys.idleMs * 1000000 ≤ s.now) :
    exec .idleTimeout s = .next { s with dev := { s.dev with gated := true } } :=
  congrArg _ (if_pos (by simp [hawake, hgated, hidle, hlong]))

/-! ## Samples and windows (R506 to R508) -/

theorem exec_governorSample {s : State} (hservice : s.dev.stage = .service) (hfew : s.gov.samples.length < 20)
    (w : Nat) : exec (.governorSample w) s = .next (takeSample w s) :=
  congrArg _ (if_pos (by simp [inService, hservice, hfew]))

/-- The governor's ladder once a single sample has raised its duty to 4/8. -/
def jumped (l : Ladder) : Ladder := { l with duty := 4, taken := .jump l.duty :: l.taken }

theorem takeSample_jumps {s : State} {w : Nat} (habove : 115 * s.gov.cap < 100 * w) (hduty : s.gov.ladder.duty < 4) :
    (takeSample w s).gov = { s.gov with ladder := jumped s.gov.ladder, samples := [] } := by
  have hgov := setLadder_gov (jumped s.gov.ladder) s
  rw [takeSample, if_pos ⟨habove, hduty⟩]
  exact congrArg (fun g : Governor => { g with samples := [] }) hgov

theorem takeSample_joins {s : State} {w : Nat} (h : 100 * w ≤ 115 * s.gov.cap ∨ 4 ≤ s.gov.ladder.duty) :
    takeSample w s = { s with gov := { s.gov with samples := s.gov.samples ++ [w] } } :=
  if_neg (by omega)

/-- The state in which a window of sum `n` is judged. -/
def averaged (n : Nat) (s : State) : State := { s with gov := { s.gov with average := n / 20, samples := [] } }

section Window
variable {s : State} {n : Nat}

theorem judgeWindow_over (h : 20 * s.gov.cap < n) : (judgeWindow n s).gov.ladder
      = (ladderStep s.gov.ladder).getD s.gov.ladder ∧ (judgeWindow n s).gov.below = 0 := by
  simp only [judgeWindow, if_pos h]
  cases ladderStep s.gov.ladder with
  | none => exact ⟨rfl, rfl⟩
  | some l =>
    rw [count_gov, setLadder_gov]
    exact ⟨rfl, rfl⟩

theorem judgeWindow_below (h : n + 300 < 20 * s.gov.cap) (hfew : s.gov.below < 9) :
    (judgeWindow n s).gov = { s.gov with below := s.gov.below + 1 } := by
  have hcap : ¬ 20 * s.gov.cap < n := by omega
  have hten : s.gov.below + 1 < 10 := by omega
  simp only [judgeWindow, if_neg hcap, if_pos h, if_pos hten]

theorem judgeWindow_tenth (h : n + 300 < 20 * s.gov.cap) (hten : 9 ≤ s.gov.below) :
    (judgeWindow n s).gov = { s.gov with ladder := undoStep s.gov.ladder, below := 0 } := by
  have hcap : ¬ 20 * s.gov.cap < n := by omega
  have hmany : ¬ s.gov.below + 1 < 10 := by omega
  simp only [judgeWindow, if_neg hcap, if_pos h, if_neg hmany, setLadder_gov]

theorem judgeWindow_inside (hcap : n ≤ 20 * s.gov.cap) (hnear : 20 * s.gov.cap ≤ n + 300) :
    (judgeWindow n s).gov = { s.gov with below := 0 } := by
  simp only [judgeWindow, if_neg (Nat.not_lt.2 hcap), if_neg (Nat.not_lt.2 hnear)]

theorem exec_governorWindow (hservice : s.dev.stage = .service) (hfull : s.gov.samples.length = 20) :
    exec .governorWindow s = .next (watchThresholds s (endWindow s)) :=
  congrArg _ (if_pos (by simp [inService, hservice, hfull]))

/-- The ladder and the count of a window are those that its judgement leaves; the courses' ladders are others. -/
theorem watched_endWindow (h : s.gov.samples.foldl (· + ·) 0 = n) :
    (watchThresholds s (endWindow s)).gov.ladder = (judgeWindow n (averaged n s)).gov.ladder
      ∧ (watchThresholds s (endWindow s)).gov.below = (judgeWindow n (averaged n s)).gov.below
      ∧ (watchThresholds s (endWindow s)).gov.average = n / 20
      ∧ (watchThresholds s (endWindow s)).gov.samples = [] := by
  obtain ⟨hladder, hbelow, haverage, hsamples, -⟩ := window_gov s n h
  rw [watch_gov]
  exact ⟨hladder, hbelow, haverage, hsamples⟩

end Window

/-! ## Ladders (R507, R508) -/

section Ladder
variable {l : Ladder}

theorem ladderStep_array (h : l.arraySteps < 17) :
    ladderStep l = some { l with arraySteps := l.arraySteps + 1, taken := .array :: l.taken } := if_pos h

theorem ladderStep_tile (harray : 17 ≤ l.arraySteps) (h : l.tileSteps < 12) :
    ladderStep l = some { l with tileSteps := l.tileSteps + 1, taken := .tile :: l.taken } :=
  (if_neg (Nat.not_lt.2 harray)).trans (if_pos h)

theorem ladderStep_duty (harray : 17 ≤ l.arraySteps) (htile : 12 ≤ l.tileSteps) (h : l.duty < 6) :
    ladderStep l = some { l with duty := l.duty + 1, taken := .duty :: l.taken } :=
  (if_neg (Nat.not_lt.2 harray)).trans ((if_neg (Nat.not_lt.2 htile)).trans (if_pos h))

theorem ladderStep_floors (harray : 17 ≤ l.arraySteps) (htile : 12 ≤ l.tileSteps) (hduty : 6 ≤ l.duty) :
    ladderStep l = none :=
  (if_neg (Nat.not_lt.2 harray)).trans ((if_neg (Nat.not_lt.2 htile)).trans (if_neg (Nat.not_lt.2 hduty)))

end Ladder

/-! ## The pause duty (R507) -/

theorem exec_pauseDutyInterval {s : State} (hawake : awake s = true) (hgated : s.dev.gated = false) :
    exec .pauseDutyInterval s = .next (if s.gov.dutyAt.all (fun t => t + 100000 ≤ s.now) then
        foldS (fun s a => pauseFor a s) (List.finRange 16) { s with gov := { s.gov with dutyAt := some s.now } }
      else s) := by
  show execPauseDutyInterval s = _
  simp only [execPauseDutyInterval, hawake, hgated, Bool.not_false, Bool.true_and]

/-! ## Temperatures (R509) -/

/-- The island reports its temperature. -/
def atTemp (clk : ClockId) (temp : Int) (s : State) : State := setIsland clk (fun i => { i with temp }) s

theorem exec_thermalReport {s : State} {clk : ClockId} (hrunning : running s = true)
    (hname : (islandName clk).isSome = true) (temp : Int) :
    exec (.thermalReport clk temp) s = .next (watchThresholds s (takeTemp clk temp s)) :=
  congrArg _ (if_pos (by simp [hrunning, hname]))

theorem watchThresholds_keeps (old new : State) : (watchThresholds old new).dev = new.dev
    ∧ (watchThresholds old new).gov = new.gov ∧ (watchThresholds old new).pins.fault = new.pins.fault := by
  unfold watchThresholds
  split <;> exact ⟨rfl, rfl, rfl⟩

/-- A running maximum is no lower than where it starts, nor than any value on its way. -/
theorem foldl_max_ge {α : Type} (f : α → Int) (l : List α) (b : Int) :
    b ≤ l.foldl (fun m x => max m (f x)) b ∧ ∀ x ∈ l, f x ≤ l.foldl (fun m x => max m (f x)) b := by
  induction l generalizing b with
  | nil => simp
  | cons y l ih =>
    obtain ⟨hstart, hall⟩ := ih (max b (f y))
    refine ⟨(le_max_left ..).trans hstart, fun x hx => ?_⟩
    rcases List.mem_cons.1 hx with rfl | hx
    · exact (le_max_right ..).trans hstart
    · exact hall x hx

theorem courseTemp_ge {clk : ClockId} {c : Fin 4} (h : clk ∈ courseIslands c) (temp : Int) (s : State) :
    temp ≤ courseTemp (atTemp clk temp s) c := by
  have hmax := (foldl_max_ge (fun k => (look (atTemp clk temp s).islands k).temp) (courseIslands c) (-4096)).2 clk h
  rwa [atTemp, setIsland, look_upd_self] at hmax

theorem takeTemp_limit {s : State} {clk : ClockId} {temp : Int} (h : (tjMax s + 10) * 16 ≤ temp) :
    takeTemp clk temp s = enterHold (some .thermal) (atTemp clk temp s) := if_pos h

theorem takeTemp_course {s : State} {clk : ClockId} {temp : Int} {c : Fin 4} (h : temp < (tjMax s + 10) * 16)
    (hc : (List.finRange 4).find? (fun k => (courseIslands k).contains clk) = some c) :
    takeTemp clk temp s = heatCourse c (atTemp clk temp s) := by
  have hlow : ¬ (tjMax (atTemp clk temp s) + 10) * 16 ≤ temp := not_le.2 h
  unfold takeTemp
  rw [hc]
  exact if_neg hlow

/-- The ladder of a course at every floor. -/
def floors : Ladder := { arraySteps := 17, tileSteps := 12, duty := 6, running := true }

/-- A course at the limit of the ordering suffix goes to every floor, whether or not its ladder runs. -/
theorem heatCourse_floors {s : State} {c : Fin 4} (h : tjMax s * 16 ≤ courseTemp s c) :
    (heatCourse c s).dev = s.dev ∧ look (heatCourse c s).gov.courses c = floors := by
  simp only [heatCourse, if_pos h]
  split
  · exact ⟨(relock_spec ..).2.2.1, by rw [setCourseLadder_gov]; exact look_put_self ..⟩
  · simp only [startLadder, count_dev, count_gov, setCourseLadder_gov]
    exact ⟨(relock_spec ..).2.2.1, look_put_self ..⟩

/-- Settles O55: each row by its conditions, and what a change of the ladder leaves of the rest. -/
theorem powerAndGovernor : Obligations.PowerAndGovernor := by
  intro s
  refine ⟨fun id c hr => ?cap, exec_wakeOnWork, exec_idleTimeout, fun w hservice hfew => ⟨fun habove hduty => ?jump,
      fun hstays => ?joins⟩, fun n hservice hfull hsum => ?window, fun l => ⟨ladderStep_array, ladderStep_tile,
      ladderStep_duty, ladderStep_floors, find_ladder l⟩, fun hawake hgated hearly => ?early,
    fun hawake hgated hdue => ?pause, fun clk temp hrunning hname => ⟨fun hlimit => ?hold,
      fun c hlow hhigh hc => ?floor⟩⟩
  case cap =>
    refine ⟨exec_powerCap hr, fun himm hservice hasleep => ?_, fun himm hservice hasleep hbegun hwait => ?_,
      fun himm hservice hasleep hupdate hstay => ⟨fun hbusy => ?_, fun hquiet => ?_⟩, fun himm hasleep => ?_,
      fun himm hasleep => ⟨wake s, ?_, rfl⟩⟩
    · exact (exec_powerEnterP3 hr himm hservice).trans (congrArg _ (enterP3_asleep hasleep))
    · exact (exec_powerEnterP3 hr himm hservice).trans (congrArg _ (enterP3_waits hasleep hbegun hwait))
    · rw [exec_powerEnterP3 hr himm hservice, enterP3_goes hasleep hupdate hstay, if_neg (by simp [hbusy])]
      exact ⟨_, rfl, rfl⟩
    · rw [exec_powerEnterP3 hr himm hservice, enterP3_goes hasleep hupdate hstay, if_pos hquiet]
      obtain ⟨w, hw, hdev, hcap, hjournal⟩ := asleep_dev { c with begun := true } (drowsy c s)
      exact ⟨w, _, congrArg _ hw, rfl, hdev, hcap, hjournal⟩
    · rw [exec_powerLeaveP3 hr himm, if_neg (by simp [hasleep])]
      rfl
    · rw [exec_powerLeaveP3 hr himm, if_pos hasleep]
  case jump =>
    refine ⟨_, exec_governorSample hservice hfew w, ?_⟩
    rw [takeSample_jumps habove hduty]
    exact ⟨rfl, rfl, rfl, rfl⟩
  case joins => exact (exec_governorSample hservice hfew w).trans (congrArg _ (takeSample_joins hstays))
  case window =>
    obtain ⟨hladder, hbelow, haverage, hsamples⟩ := watched_endWindow hsum
    refine ⟨_, exec_governorWindow hservice hfull, haverage, hsamples, ?_⟩
    rw [hladder, hbelow]
    refine ⟨fun h => judgeWindow_over (s := averaged n s) h, fun h hfew => ?_, fun h hten => ?_, fun hcap hnear => ?_⟩
    · rw [judgeWindow_below (s := averaged n s) h hfew]
      exact ⟨rfl, rfl⟩
    · rw [judgeWindow_tenth (s := averaged n s) h hten]
      exact ⟨rfl, rfl⟩
    · rw [judgeWindow_inside (s := averaged n s) hcap hnear]
      exact ⟨rfl, rfl⟩
  case early => exact (exec_pauseDutyInterval hawake hgated).trans (congrArg _ (if_neg (by simp [hearly])))
  case pause =>
    refine ⟨_, (exec_pauseDutyInterval hawake hgated).trans (congrArg _ (if_pos hdue)), fun a => ?_⟩
    have hcount := pause_fold (List.finRange 16) { s with gov := { s.gov with dutyAt := some s.now } }
      (List.nodup_finRange 16) a
    simp only [List.mem_finRange, true_and] at hcount
    exact hcount
  case hold =>
    refine ⟨_, exec_thermalReport hrunning hname temp, ?_⟩
    obtain ⟨hdev, -, hfault⟩ := watchThresholds_keeps s (takeTemp clk temp s)
    rw [hdev, hfault, takeTemp_limit hlimit]
    obtain ⟨hstage, -, hcause, -, -, -, -, -, -, -, -, -, -, hpin, -⟩ :=
      hold_facts (some .thermal) (atTemp clk temp s)
    exact ⟨hstage, hcause, hpin.trans (by simp)⟩
  case floor =>
    refine ⟨_, exec_thermalReport hrunning hname temp, ?_⟩
    obtain ⟨hdev, hgov, -⟩ := watchThresholds_keeps s (takeTemp clk temp s)
    rw [hdev, hgov, takeTemp_course hlow hc]
    have hmem : clk ∈ courseIslands c := by simpa using List.find?_some hc
    have hhot : tjMax (atTemp clk temp s) * 16 ≤ courseTemp (atTemp clk temp s) c :=
      hhigh.trans (courseTemp_ge hmem temp s)
    obtain ⟨hkept, hfloors⟩ := heatCourse_floors hhot
    rw [hkept, hfloors]
    exact ⟨rfl, rfl, rfl, rfl⟩

end Sys2Proof.Proofs
end

section
/-! SUPPORT. Proofs about start-up, HOLD, P4, the resets of the device, of a port and of a function (R420, R421, R465, R500
to R502, R511 to R518, R533, R541, R542). -/

open Sys2Proof Sys2Proof.Machine Sys2Proof.Laws
namespace Sys2Proof.Proofs

/-! ## HOLD and P4 -/

/-- The device has entered HOLD for a cause, with FAULT_N as `fault` says before it. -/
def AtHold (fault : Bool) (cause : Option Cause) (t : State) : Prop :=
  t.dev.stage = .hold ∧ t.dev.ready = false ∧ t.dev.holdCause = cause ∧ t.cmds = [] ∧ t.sessions = []
    ∧ t.obj = {} ∧ t.host.pairs = [] ∧ t.nvme = [] ∧ t.flash.staging = [] ∧ t.flash.waiting = []
    ∧ t.flash.journal = 0 ∧ t.flash.shutdownOpen = false ∧ t.pins.fault = (fault || cause.isSome)
    ∧ (∀ p, (look t.host.ports p).link = false) ∧ ∃ e, t.log.entries.getLast? = some e ∧ e.cls = 9

theorem enterHold_atHold (cause : Option Cause) (s : State) : AtHold s.pins.fault cause (enterHold cause s) := by
  obtain ⟨hstage, hready, hcause, -, hcmds, hsessions, hobj, hpairs, hnvme, hstaging, hwaiting, hjournal, hopen, hfault,
    -, hlinks, hlog⟩ := hold_facts cause s
  exact ⟨hstage, hready, hcause, hcmds, hsessions, hobj, hpairs, hnvme, hstaging, hwaiting, hjournal, hopen, hfault,
    hlinks, hlog⟩

/-- HOLD leaves the input pins as they are. -/
theorem enterHold_inputs (cause : Option Cause) (s : State) : inputsOf (enterHold cause s).pins = inputsOf s.pins := by
  obtain ⟨f, hf, -, -, -, hinputs, -⟩ := hold_fixed cause s
  exact (congrArg Fixed.inputs hf).trans hinputs

/-- The device is in P4, and drives no output. -/
def AtOff (t : State) : Prop :=
  t.dev.stage = .off ∧ t.dev.ready = false ∧ t.cmds = [] ∧ t.sessions = [] ∧ t.obj = {}
    ∧ t.pins.fault = false ∧ t.pins.alert = false ∧ ∀ p, (look t.host.ports p).link = false

theorem powerOff_atOff (s : State) : AtOff (powerOff s) := by
  obtain ⟨hstage, hready, hcmds, hsessions, hobj, -, hfault, halert, -, -, hlinks⟩ := off_facts s
  exact ⟨hstage, hready, hcmds, hsessions, hobj, hfault, halert, hlinks⟩

theorem not_running_of_hold {s : State} (h : s.dev.stage = .hold) : running s = false := by simp [running, h]

theorem not_hold_of_running {s : State} (h : running s = true) : s.dev.stage ≠ .hold := fun e => by
  rw [not_running_of_hold e] at h
  cases h

/-! ## What a loss of power leaves (R421) -/

theorem dropFolds_keeps (s : State) : (dropFolds s).flash.shutdownOpen = s.flash.shutdownOpen
    ∧ (dropFolds s).flash.namespaces = s.flash.namespaces :=
  ⟨foldS_same (fun s : State => s.flash.shutdownOpen) (fun s (f : Fold) => eraseBand f.dst (dropFold f.dst s))
      (fun _ _ => rfl) _ _,
    foldS_same (fun s : State => s.flash.namespaces) (fun s (f : Fold) => eraseBand f.dst (dropFold f.dst s))
      (fun _ _ => rfl) _ _⟩

/-- A loss of power after a completed shutdown costs no block. -/
theorem lossyFlash_namespaces {s : State} (h : s.flash.shutdownOpen = false) :
    (lossyFlash s).flash.namespaces = s.flash.namespaces := by
  obtain ⟨hopen, hspaces⟩ := dropFolds_keeps s
  have hclosed : ¬ (dropFolds s).flash.shutdownOpen = true := by simp [hopen, h]
  exact (if_neg hclosed).trans hspaces

/-! ## The rows of the pins -/

section Pins
variable {s : State}

theorem exec_pfailAssert (hpin : s.pins.pfailN = true) (hrun : running s = true) :
    exec .pfailAssert s = .next (enterHold none { s with pins := { s.pins with pfailN := false } }) :=
  congrArg _ ((if_pos hpin).trans (if_pos hrun))

/-- PFAIL_N goes high, with the straps that the next sampling finds. -/
def pfailHigh (x : Straps) (s : State) : State := withStraps x { s with pins := { s.pins with pfailN := true } }

theorem exec_holdExit (x : Straps) (hpin : s.pins.pfailN = false) (hreset : s.pins.sysResetN = true)
    (hhold : s.dev.stage = .hold) : exec (.holdExit x) s
      = .next (if s.dev.holdCause.isNone || s.dev.holdReset then
          coldStart (holdExitCause (pfailHigh x s)) (pfailHigh x s) else pfailHigh x s) := by
  have hhigh : ¬ (!(pfailHigh x s).pins.sysResetN) = true := by simp [pfailHigh, withStraps, hreset]
  have hstage : (pfailHigh x s).dev.stage = .hold := hhold
  refine congrArg _ ((if_neg (by simp [hpin])).trans ((if_neg hhigh).trans ?_))
  change (match (pfailHigh x s).dev.stage with
    | .hold => _
    | .off => _
    | _ => _) = _
  rw [hstage]
  rfl

theorem exec_supplyFall (hhold : s.dev.stage = .hold) : exec .supplyFall s = .next (powerOff s) :=
  congrArg _ (if_pos hhold)

theorem exec_powerOn (b : Board) (hoff : s.dev.stage = .off) (hpwr : s.pins.pwrOk = false) :
    let up : State := { s with
      pins := { s.pins with pwrOk := true, pfailN := true, reference := b.reference }
      dev := { s.dev with board := b }
      host := { s.host with ports := [] } }
    exec (.powerOn b) s = .next (if s.pins.sysResetN then coldStart .powerOn up else up) :=
  congrArg _ (if_pos ⟨hoff, by simp [hpwr]⟩)

theorem exec_pwrOkLoss_running (hpwr : s.pins.pwrOk = true) (hrun : running s = true) (hpin : s.pins.pfailN = true) :
    exec .pwrOkLoss s = .next (powerOff (lossyFlash s)) :=
  congrArg _ ((if_neg (by simp [hpwr])).trans (if_pos (by simp [hrun, hpin])))

theorem exec_pwrOkLoss_hold (hpwr : s.pins.pwrOk = true) (hhold : s.dev.stage = .hold) :
    exec .pwrOkLoss s = .next (powerOff s) :=
  congrArg _ ((if_neg (by simp [hpwr])).trans (if_neg (by simp [not_running_of_hold hhold])))

/-- SYS_RESET_N goes low. -/
def sysResetLow (s : State) : State := { s with pins := { s.pins with sysResetN := false } }

theorem exec_sysReset_hold (hpin : s.pins.sysResetN = true) (hhold : s.dev.stage = .hold) : exec .sysReset s
    = .next { s with pins := { s.pins with sysResetN := false }, dev := { s.dev with holdReset := true } } :=
  congrArg _ ((if_neg (by simp [hpin])).trans (if_pos hhold))

/-- The domains are off; PWR_OK stays. -/
def suppliedOff (s : State) : State := { powerOff s with pins := { (powerOff s).pins with pwrOk := true } }

theorem exec_sysReset_running (hpin : s.pins.sysResetN = true) (hrun : running s = true) :
    exec .sysReset s = .next (suppliedOff (cleanFlash (sysResetLow s))) :=
  congrArg _ ((if_neg (by simp [hpin])).trans ((if_neg (not_hold_of_running hrun)).trans (if_pos hrun)))

theorem cleanFlash_pins (s : State) : (cleanFlash s).pins = s.pins := by
  have h := clean_held s
  simp only [heldBy, Prod.mk.injEq] at h
  obtain ⟨-, hpins, -⟩ := h
  exact hpins

/-- SYS_RESET_N goes high, with the straps that the next sampling finds. -/
def sysResetHigh (x : Straps) (s : State) : State := withStraps x { s with pins := { s.pins with sysResetN := true } }

theorem exec_sysResetRelease (x : Straps) (hpin : s.pins.sysResetN = false) (hpfail : s.pins.pfailN = true) :
    exec (.sysResetRelease x) s = .next (match s.dev.stage with
      | .hold => if s.dev.holdReset then coldStart (holdExitCause (sysResetHigh x s)) (sysResetHigh x s)
        else sysResetHigh x s
      | .off => if s.pins.pwrOk then coldStart .sysReset (sysResetHigh x s) else sysResetHigh x s
      | _ => sysResetHigh x s) := by
  have hhigh : ¬ (!(sysResetHigh x s).pins.pfailN) = true := by simp [sysResetHigh, withStraps, hpfail]
  exact congrArg _ ((if_neg (by simp [hpin])).trans (if_neg hhigh))

theorem exec_referenceLost (hpin : s.pins.reference = true) (hrun : running s = true) : exec .referenceLost s
    = .next (enterHold (some .reference) { s with
        pins := { s.pins with reference := false }
        dev := { s.dev with board := { s.dev.board with reference := false } } }) :=
  congrArg _ ((if_neg (by simp [hpin])).trans (if_pos hrun))

end Pins

/-! ## The resets that the device orders itself (R465, R512) -/

section Orders
variable {s : State}

/-- The reset that a DEVICE_RESET orders (R512). -/
def orderedReset (k : ResetKind) (x : Straps) (s : State) : State :=
  match k with
  | .cold => coldStart .cold (withStraps x (cleanFlash s))
  | .engine => engineStart (withStraps x (cleanFlash s))

theorem exec_resetStart (x : Straps) {k : ResetKind} {d : Nat} (hpending : s.dev.pendingReset = some (k, d))
    (hservice : s.dev.stage = .service) : exec (.resetStart x) s = .next (if d + 100000 ≤ s.now then orderedReset k x s else s) := by
  show execResetStart x s = _
  simp only [execResetStart, hpending, hservice, true_and]
  rfl

theorem exec_quoinLockstepMismatch (x : Straps) (hservice : s.dev.stage = .service) :
    exec (.quoinLockstepMismatch x) s = .next (quoinMismatch x s) :=
  congrArg _ (if_pos (by simp [inService, hservice]))

/-- Without a mismatch in the second before it, the Quoin restarts alone. -/
theorem quoinMismatch_first (x : Straps) (h : ∀ d, s.dev.quoinMismatch = some d → 1000000000 ≤ s.now - d) :
    quoinMismatch x s = count 0x0A20 1 { logFault mgmtClk 4 2 0 1 s with
      dev := { s.dev with quoinMismatch := some s.now } } := by
  unfold quoinMismatch
  cases hlast : s.dev.quoinMismatch with
  | none => rfl
  | some d => exact if_neg (by simpa using h d hlast)

theorem quoinMismatch_again (x : Straps) {d : Nat} (hlast : s.dev.quoinMismatch = some d)
    (hrecent : s.now - d < 1000000000) :
    quoinMismatch x s = coldStart .quoin (withStraps x (cleanFlash (logFault mgmtClk 4 2 0 1 s))) := by
  unfold quoinMismatch
  rw [hlast]
  exact if_pos (by simpa using hrecent)

end Orders

/-! ## Resets of a port and of a function (R513, R542) -/

section Port
variable (p : Fin 2) (s : State)

/-- A port that is in reset has no link; its link, where it was up, has gone down. -/
def linkLost : State :=
  if (look s.host.ports p).link then linkDown p (setPort p (fun x => { x with perst := true }) s)
  else setPort p (fun x => { x with perst := true }) s

theorem resetPort_eq : resetPort p s = resetCtrl p { linkLost p s with
    host := { (linkLost p s).host with conf := (linkLost p s).host.conf.filter (fun f => f.1.1 != p) } } := by
  have hlink : (look (setPort p (fun x => { x with perst := true }) s).host.ports p).link
      = (look s.host.ports p).link := by rw [setPort, look_upd_self]
  unfold resetPort
  dsimp only
  rw [hlink]
  rfl

theorem linkLost_port : (look (linkLost p s).host.ports p).link = false
    ∧ (look (linkLost p s).host.ports p).perst = true := by
  unfold linkLost
  split
  next => simp [linkDown_ports, setPort]
  next hdown => simpa [setPort] using hdown

theorem linkLost_host : ∃ l, (linkLost p s).host = { s.host with ports := l } := by
  unfold linkLost
  split <;> exact ⟨_, rfl⟩

theorem linkLost_work : (linkLost p s).cmds = s.cmds ∧ (linkLost p s).obj = s.obj := by
  unfold linkLost
  split <;> exact ⟨rfl, rfl⟩

theorem linkLost_sessions (h : (look s.host.ports p).link = true) : (linkLost p s).sessions
    = mapTbl s.sessions (fun _ x =>
        if x.port = p ∧ x.state = .opened then { x with state := .detached, holdAt := s.now } else x) := by
  rw [linkLost, if_pos h]
  rfl

end Port

section Function
variable {s : State} {p : Fin 2}

theorem exec_flrVf (hlink : (look s.host.ports p).link = true) {vf : Nat} (h : 1 ≤ vf) (hlast : vf < 256) :
    exec (.flrVf p vf) s = .next (flrFn p vf s) := congrArg _ (if_pos ⟨hlink, h, hlast⟩)

theorem exec_flrPf0 (hlink : (look s.host.ports p).link = true) :
    exec (.flrPf0 p) s = .next (foldS (fun u fn => flrFn p fn u) (usedFns s p) s) := congrArg _ (if_pos hlink)

/-- An FLR leaves no register of its function written. -/
theorem flrFn_registers (p : Fin 2) (fn : Nat) (s : State) : find? (flrFn p fn s).host.funcs (p, fn) = none
    ∧ (∀ f ∈ (flrFn p fn s).host.pairs, ¬ (f.1.1 = p ∧ f.1.2.1 = fn))
    ∧ ∀ f ∈ (flrFn p fn s).host.vecs, ¬ (f.1.1 = p ∧ f.1.2.1 = fn) := by
  refine ⟨find?_del_self .., fun f hf => ?_, fun f hf => ?_⟩
  all_goals
    have hkept := (List.mem_filter.1 hf).2
    simpa [imp_iff_not_or] using hkept

end Function

/-- Settles O56: the resets by the laws of start-up, HOLD and P4, each row by its pins and its stage. -/
theorem resetsAndStartUp : Obligations.ResetsAndStartUp := by
  intro s gone cold held off
  refine ⟨fun cause => cold_facts cause s, ?engine,
    fun k d x hpending hservice => ⟨fun hdue => ?due, fun hearly => ?early⟩, fun x => rfl,
    fun hpin hrun => ?pfail, fun hpin hhold hreset x => ⟨fun hcause => ?exit, fun hcause hkept => ?stay⟩,
    fun hhold => ?fall, fun b hoff hpwr => ⟨fun hpin => ?on, fun hpin => ?waits⟩,
    fun l hstage => ⟨congrArg _ (if_pos hstage), rfl, rfl, rfl⟩, fun hservice => congrArg _ (if_pos hservice),
    fun hpwr => ⟨fun hrun hpin => ?loss, fun hhold => ?gone⟩,
    fun hpin => ⟨exec_sysReset_hold hpin, fun hrun => ?sysReset⟩,
    fun hpin hpfail x => ⟨fun hoff hpwr => ?released, fun hhold hreset => ?releasedHold⟩,
    fun hpin hrun => ?reference,
    fun hservice => ⟨fun y h => ?first, fun x y hlast hrecent => ?again⟩,
    fun p => ⟨fun hport => ?perst, rfl, fun hlink => ⟨fun vf => exec_flrVf hlink, exec_flrPf0 hlink,
      fun fn => flrFn_registers p fn s⟩⟩⟩
  case engine =>
    obtain ⟨hgone, hnow, hsmb, htenants, hports, hcause, hboard, hstops, hgoes⟩ := engine_facts s
    exact ⟨hgone, hnow, hsmb, htenants, hports, hcause, hboard, hstops, fun h => (hgoes h).1⟩
  case due => exact (exec_resetStart x hpending hservice).trans (congrArg _ (if_pos hdue))
  case early => exact (exec_resetStart x hpending hservice).trans (congrArg _ (if_neg (Nat.not_le.2 hearly)))
  case pfail =>
    have hinputs := enterHold_inputs none { s with pins := { s.pins with pfailN := false } }
    simp only [inputsOf, Prod.mk.injEq] at hinputs
    obtain ⟨-, -, hpfail, -⟩ := hinputs
    exact ⟨_, exec_pfailAssert hpin hrun, enterHold_atHold none _, hpfail⟩
  case exit =>
    rw [exec_holdExit x hpin hreset hhold, if_pos (by simp [hcause])]
    simp only [holdExitCause, pfailHigh, withStraps, hcause, Option.getD_none]
  case stay =>
    rw [exec_holdExit x hpin hreset hhold, if_neg (by simpa [hkept] using Option.isSome_iff_ne_none.1 hcause)]
    rfl
  case fall =>
    obtain ⟨-, -, -, -, -, hpwr, -, -, hflash, -⟩ := off_facts s
    exact ⟨_, exec_supplyFall hhold, powerOff_atOff s, hpwr, hflash⟩
  case on => rw [exec_powerOn b hoff hpwr, if_pos hpin]
  case waits => rw [exec_powerOn b hoff hpwr, if_neg (by simp [hpin])]
  case loss =>
    exact ⟨_, exec_pwrOkLoss_running hpwr hrun hpin, powerOff_atOff _, rfl, rfl, (dropFolds_keeps s).1,
      lossyFlash_namespaces⟩
  case gone => exact ⟨_, exec_pwrOkLoss_hold hpwr hhold, powerOff_atOff s, rfl⟩
  case sysReset =>
    exact ⟨_, exec_sysReset_running hpin hrun, powerOff_atOff _,
      congrArg Pins.sysResetN (cleanFlash_pins (sysResetLow s)), rfl, clean_journal _, rfl⟩
  case released =>
    rw [exec_sysResetRelease x hpin hpfail, hoff]
    exact congrArg _ (if_pos hpwr)
  case releasedHold =>
    rw [exec_sysResetRelease x hpin hpfail, hhold]
    refine congrArg _ ((if_pos hreset).trans ?_)
    simp only [holdExitCause, sysResetHigh, withStraps, hreset, if_true]
  case reference =>
    have hinputs := enterHold_inputs (some .reference) { s with
      pins := { s.pins with reference := false }
      dev := { s.dev with board := { s.dev.board with reference := false } } }
    simp only [inputsOf, Prod.mk.injEq] at hinputs
    obtain ⟨-, -, -, href⟩ := hinputs
    exact ⟨_, exec_referenceLost hpin hrun, enterHold_atHold (some .reference) _, href⟩
  case first =>
    exact ⟨_, (exec_quoinLockstepMismatch y hservice).trans (congrArg _ (quoinMismatch_first y h)), rfl, rfl, rfl⟩
  case again =>
    exact (exec_quoinLockstepMismatch y hservice).trans (congrArg _ (quoinMismatch_again y hlast hrecent))
  case perst =>
    refine ⟨resetPort p s, congrArg _ (if_neg (by simp [hport])), ?_⟩
    rw [resetPort_eq]
    obtain ⟨hlink, hperst⟩ := linkLost_port p s
    obtain ⟨l, hhost⟩ := linkLost_host p s
    obtain ⟨hcmds, hobj⟩ := linkLost_work p s
    refine ⟨hlink, hperst, look_put_self .., ?_, ?_, ?_, ?_, hcmds, hobj, linkLost_sessions p s⟩
    all_goals
      show _ = _
      simp only [resetCtrl, hhost]

end Sys2Proof.Proofs
end

section
/-! SUPPORT. Proofs about ISLAND_RETIRE of each class of island (R481 to R485). -/

open Sys2Proof Sys2Proof.Machine Sys2Proof.Laws
namespace Sys2Proof.Proofs

/-! ## The island that the command names (R481) -/

theorem exec_islandRetire {s : State} {id : Nat} {c : Cmd} (hr : Runs s id 0x0F07 c) :
    exec (.islandRetire id) s = .next (retireByCommand c s) := congrArg _ (runCmd_runs hr _)

section Named
variable {s : State} {c : Cmd} {clk : ClockId} (hclk : clk = BitVec.ofNat 16 (c.arg 0 2))
include hclk

theorem retireByCommand_again (h : (look s.islands clk).retired = true) : retireByCommand c s = finish c {} s := by
  subst hclk
  exact if_pos h

variable (hserves : (look s.islands clk).retired = false)
include hserves

/-- The island is marked to leave for the command, and leaves at once where it carries nothing. -/
theorem retireByCommand_array {a : Fin 16} (hname : islandName clk = some (.array a))
    (hstays : (look s.islands clk).leaving = false) : retireByCommand c s
    = if arraysUp s (courseOfArray a) = [a] then fail c .lastInCourse 0 s
      else leaveAtBoundary clk (courseOfArray a) (some c.id) (setCmd c.id (fun x => { x with begun := true }) s) := by
  subst hclk
  simp only [retireByCommand, hserves, hname, hstays, Bool.false_eq_true, if_false]

theorem retireByCommand_tile {a : Fin 64} (hname : islandName clk = some (.tile a))
    (hstays : (look s.islands clk).leaving = false) : retireByCommand c s
    = if tilesUp s (courseOfTile a) = [a] then fail c .lastInCourse 0 s
      else leaveAtBoundary clk (courseOfTile a) (some c.id) (setCmd c.id (fun x => { x with begun := true }) s) := by
  subst hclk
  simp only [retireByCommand, hserves, hname, hstays, Bool.false_eq_true, if_false]

theorem retireByCommand_store {q : Fin 4} (hname : islandName clk = some (.store q)) :
    retireByCommand c s = retireStore q c s := by
  subst hclk
  simp only [retireByCommand, hserves, hname, Bool.false_eq_true, if_false]

theorem retireByCommand_fabric {q : Fin 4} (hname : islandName clk = some (.fabric q)) :
    retireByCommand c s = retireFabric q c s := by
  subst hclk
  simp only [retireByCommand, hserves, hname, Bool.false_eq_true, if_false]

theorem retireByCommand_channel {ch : Fin 96} (hname : islandName clk = some (.channel ch)) (hbegun : c.begun = false) :
    retireByCommand c s = orderEvacuation c ch 2 s := by
  subst hclk
  simp only [retireByCommand, hserves, hname, hbegun, Bool.false_eq_true, if_false]

theorem retireByCommand_port {p : Fin 2} (hname : islandName clk = some (.port p)) : retireByCommand c s
    = if p ≠ s.host.primary then leavePort p (finish c {} s)
      else if (look s.host.ports (otherPort p)).link && !(look s.host.ports (otherPort p)).retired then
        leavePort p (finish c {} (failover s))
      else fail c .islandInUse 0 s := by
  subst hclk
  simp only [retireByCommand, hserves, hname, Bool.false_eq_true, if_false]

theorem retireByCommand_flash {f : Fin 16} (hname : islandName clk = some (.flash f)) :
    retireByCommand c s = retireFlash f c s := by
  subst hclk
  simp only [retireByCommand, hserves, hname, Bool.false_eq_true, if_false]

end Named

/-! ## How each class leaves (R482 to R485) -/

section Classes
variable {s : State} {c : Cmd}

theorem retireStore_full {q : Fin 4} (h : moveStore q s = none) : retireStore q c s = fail c .moveNoRoom 0 s := by
  simp only [retireStore, h]

theorem retireStore_moves {q : Fin 4} {t : State} (h : moveStore q s = some t) :
    retireStore q c s = finish c {} (leaveNow (storeClk q) t) := by
  simp only [retireStore, h]

theorem retireFabric_last {q : Fin 4} (h : otherCourses s q = []) :
    retireFabric q c s = fail c .islandInUse 0 s := if_pos (by simp [h])

/-- Sequences of the course have moved, or are to move, for the command. -/
def courseMoves (q : Fin 4) (c : Cmd) (s : State) : Bool :=
  c.moved || s.obj.seqs.any (fun x => x.2.course == q && !x.2.inFlash && !isDone x.2)

/-- The course is marked to leave for the command. -/
def courseLeaves (q : Fin 4) (c : Cmd) (s : State) : State :=
  { s with
    cmds := s.cmds.map (fun x => if x.id == c.id then { x with begun := true, moved := courseMoves q c s } else x)
    islands := upd s.islands (fabricClk q) (fun i => { i with leaving := true, leaver := some c.id }) }

theorem courseBusy_courseLeaves (q : Fin 4) (c : Cmd) (s : State) :
    courseBusy (courseLeaves q c s) q = courseBusy s q := rfl

theorem retireFabric_waits {q : Fin 4} (hothers : otherCourses s q ≠ [])
    (hfree : (look s.islands (fabricClk q)).leaver = none) (hbusy : courseBusy s q = true) :
    retireFabric q c s = courseLeaves q c s := by
  have hkept : ¬ (otherCourses s q).isEmpty = true := by simpa using hothers
  have hmine : ¬ (look s.islands (fabricClk q)).leaver.any (· != c.id) = true := by simp [hfree]
  exact (if_neg hkept).trans ((if_neg hmine).trans (if_pos hbusy))

theorem leavePort_retired (p : Fin 2) (s : State) : (look (leavePort p s).islands (portClk p)).retired = true :=
  (leaveNow_retired ..).1

theorem retireFlash_full {f : Fin 16} (h : drainFits s (flashDies s f c.imm) = false) :
    retireFlash f c s = fail c .moveNoRoom 0 s := if_pos (by simp [h])

theorem retireFlash_drains {f : Fin 16} (h : drainFits s (flashDies s f c.imm) = true) : retireFlash f c s
    = finish c {} (if bitOf c.imm 4 then drainDies (flashDies s f c.imm) s
        else leaveNow (flashClk f) (drainDies (flashDies s f c.imm) s)) := if_neg (by simp [h])

end Classes

/-- Settles O45: by the class of the island that the command names. -/
theorem islandRetirement : Obligations.IslandRetirement := by
  intro s id c clk hr hclk
  rw [exec_islandRetire hr]
  refine ⟨fun hretired => congrArg _ (retireByCommand_again hclk hretired), fun hserves =>
    ⟨fun a hname hstays => ?array, fun a hname hstays => ?tile, fun q hname => ?store, fun q hname => ?fabric,
      fun ch hname hbegun => congrArg _ (retireByCommand_channel hclk hserves hname hbegun), fun p hname => ?port,
      fun f hname => ?flash⟩⟩
  case array =>
    rw [retireByCommand_array hclk hserves hname hstays]
    exact ⟨fun hlast => congrArg _ (if_pos hlast), fun hmore => congrArg _ (if_neg hmore)⟩
  case tile =>
    rw [retireByCommand_tile hclk hserves hname hstays]
    exact ⟨fun hlast => congrArg _ (if_pos hlast), fun hmore => congrArg _ (if_neg hmore)⟩
  case store =>
    rw [retireByCommand_store hclk hserves hname]
    refine ⟨fun hfull => congrArg _ (retireStore_full hfull), fun t ht => ?_⟩
    obtain ⟨hretired, hobj⟩ := leaveNow_retired (storeClk q) t
    exact ⟨_, congrArg _ (retireStore_moves ht), hretired, hobj⟩
  case fabric =>
    rw [retireByCommand_fabric hclk hserves hname]
    exact ⟨fun hlast => congrArg _ (retireFabric_last hlast),
      fun hothers hfree hbusy => ⟨_, _, congrArg _ (retireFabric_waits hothers hfree hbusy), rfl⟩⟩
  case port =>
    rw [retireByCommand_port hclk hserves hname]
    exact ⟨fun hother => ⟨_, congrArg _ (if_pos hother), rfl, leavePort_retired ..⟩,
      fun hprimary hdown => congrArg _ ((if_neg (not_not.2 hprimary)).trans (if_neg (by simp [hdown]))),
      fun hprimary hup => ⟨_, congrArg _ ((if_neg (not_not.2 hprimary)).trans (if_pos hup)), rfl,
        leavePort_retired ..⟩⟩
  case flash =>
    rw [retireByCommand_flash hclk hserves hname]
    refine ⟨fun hfull => congrArg _ (retireFlash_full hfull), fun hfits hone => ?_, fun hfits hall =>
      ⟨_, congrArg _ (retireFlash_drains hfits), ?_⟩⟩
    · rw [retireFlash_drains hfits, if_pos hone]
    · rw [if_neg (by simp [hall])]
      exact ⟨rfl, (leaveNow_retired ..).1⟩

end Sys2Proof.Proofs
end

section
/-! SUPPORT. Proofs about the flash tier's own work: programs, folds and collections, erases, the journal, reads of closed
bands, reads that need recovery and dies that fail (R392 to R408). -/

open Sys2Proof Sys2Proof.Machine Sys2Proof.Laws
namespace Sys2Proof.Proofs

/-! ## Blocks of a namespace -/

theorem blockAt_setBlock (v : BlockState) (lba : Nat) (n : Namespace) (j : Nat) :
    blockAt { n with blocks := setBlock v lba n.blocks } j = if j = lba then some v else blockAt n j :=
  blockAt_set v lba n.blocks j

theorem issueFlash_namespaces (s : State) : (issueFlash s).flash.namespaces = s.flash.namespaces := by
  obtain ⟨i, t, w, e⟩ := issueFlash_spec s
  rw [e]

theorem sameData_issued {s t : State} (h : sameData s t) : sameData s (issueFlash t) :=
  sameData_trans h (sameData_ns (issueFlash_namespaces t))

/-! ## Programs (R399, R408) -/

section Program
variable {s : State} {nsid lba : Nat}

theorem exec_flashProgramDone {x : Staged} (hx : s.flash.staging.find? (fun y => y.nsid == nsid && y.lba == lba) = some x)
    (hruns : runsOnDie s (.program nsid lba) = true) (failed : Bool) : exec (.flashProgramDone nsid lba failed) s
    = .next (issueFlash (if failed then programFailed x s else programDone nsid lba s)) := by
  show execFlashProgramDone nsid lba failed s = _
  simp [execFlashProgramDone, hx, hruns]

theorem exec_flashProgramDone_idle (h : s.flash.staging.find? (fun y => y.nsid == nsid && y.lba == lba) = none
      ∨ runsOnDie s (.program nsid lba) = false) (failed : Bool) :
    exec (.flashProgramDone nsid lba failed) s = .next s := by
  show execFlashProgramDone nsid lba failed s = _
  unfold execFlashProgramDone
  split
  next => rfl
  next x hx =>
    have hidle := h.resolve_left (by simp [hx])
    simp [hidle]

/-- A program that ends leaves the staging buffer, and 4,096 bytes are counted at its die's channel. -/
theorem programDone_staged {x : Staged} (hx : s.flash.staging.find? (fun y => y.nsid == nsid && y.lba == lba) = some x) :
    programDone nsid lba s = bump (flashClk (Fin.ofNat 16 (dieOf s.flash x.band x.idx / 16))) 0x080A 4096
      { s with flash := { s.flash with
        staging := s.flash.staging.filter (fun y => !(y.nsid == nsid && y.lba == lba)) } } := by
  simp only [programDone, hx]
  rfl

theorem programDone_namespaces : (programDone nsid lba s).flash.namespaces = s.flash.namespaces := by
  unfold programDone
  split <;> rfl

end Program

/-! ## Folds and collections (R401, R402) -/

theorem exec_foldStart {s : State} (hawake : awake s = true)
    (hlow : freeOneBit s * 100 < s.dev.cfg.flash.foldPct * oneBitBands s.flash) :
    exec .foldStart s = .next (issueFlash (startFold false (foldSources s) s)) := by
  show execFoldStart s = _
  simp [execFoldStart, hawake, hlow]

theorem exec_gcStart {s : State} {b : Nat} (hawake : awake s = true) (hlow : freeQlc s < s.dev.cfg.flash.gcStart)
    (hb : victim s = some b) : exec .gcStart s = .next (issueFlash (startFold true [b] s)) := by
  show execGcStart s = _
  simp [execGcStart, hawake, hlow, hb]

theorem exec_bandCloseVerify (s : State) (b : Nat) (failing : Option Nat) :
    exec (.bandCloseVerify b failing) s = .next (issueFlash (bandVerify b failing s)) := rfl

theorem bandVerify_full {s : State} {b : Nat} (hnone : s.flash.folds.find? (fun f => f.dst == b) = none)
    (hfull : bandFull s b = true) : bandVerify b none s = closeBand b s := by
  simp [bandVerify, hnone, hfull]

theorem bandVerify_failed {s : State} {b : Nat} {f : Fold} (hf : s.flash.folds.find? (fun f => f.dst == b) = some f)
    (ch : Nat) : bandVerify b (some ch) s
    = eraseBand b (dropFold b (retireDieBlock (ch % 16 * 16 + bandRow s.flash b) s)) := by
  simp only [bandVerify, hf]

theorem closeBand_band (b : Nat) (s : State) : (look (closeBand b s).flash.bands b).closed = true
    ∧ (closeBand b s).flash.writeBand ≠ some b := by
  refine ⟨by simp [closeBand], ?_⟩
  simp only [closeBand]
  split
  · simp
  · assumption

theorem bandVerify_sameData (b : Nat) (s : State) : sameData s (bandVerify b none s) := by
  unfold bandVerify
  split
  next f _ => exact commitFold_data f s
  next =>
    split
    · exact fun _ _ => rfl
    · exact sameData_ns rfl

/-! ## Erases and the journal (R394, R397) -/

theorem exec_flashEraseDone {s : State} {b : Nat} (hruns : runsOnDie s (.erase b) = true) (failed : List Nat) :
    exec (.flashEraseDone b failed) s = .next (issueFlash (eraseDone b failed s)) := by
  show execFlashEraseDone b failed s = _
  simp only [execFlashEraseDone, hruns, if_true]

theorem eraseDone_sameData (b : Nat) (failed : List Nat) (s : State) : sameData s (eraseDone b failed s) := by
  by_cases h : (look s.flash.bands b).erasing = true
  · exact sameData_ns (eraseDone_spec b failed s h).1
  · have hkept : eraseDone b failed s = s := if_pos (by simpa using h)
    rw [hkept]
    exact fun _ _ => rfl

theorem exec_journalFlush {s : State} (hservice : s.dev.stage = .service) (hsome : s.flash.journal ≠ 0)
    (hdue : s.dev.cfg.flash.flushMs * 1000000 ≤ s.now - s.flash.journalAt) :
    exec .journalFlush s = .next (flushJournal s) := congrArg _ (if_pos ⟨hservice, hsome, by simp [hdue]⟩)

theorem find?_flushJournal (s : State) (nsid : Nat) : find? (flushJournal s).flash.namespaces nsid
    = (find? s.flash.namespaces nsid).map (fun n => { n with journalled := n.blocks }) := by
  simp only [flushJournal, find?_mapTbl]

/-! ## What maintenance keeps (R397, R401, R402) -/

/-- A row that either does nothing or leaves every block its bytes. -/
theorem sameData_ite {s t : State} (p : Prop) [Decidable p] (h : sameData s t) : sameData s (if p then t else s) := by
  split
  · exact h
  · exact fun _ _ => rfl

/-- The rows of maintenance change no data of host software. -/
theorem maintenance_sameData {s : State} {i : Instr} (h : (∃ nsid lba, i = .flashProgramDone nsid lba false)
      ∨ i = .foldStart ∨ i = .gcStart ∨ i = .journalFlush ∨ (∃ b, i = .bandCloseVerify b none)
      ∨ (∃ b f, i = .flashEraseDone b f) ∨ (∃ b soft, i = .closedBandRead b soft) ∨ (∃ c, i = .flashCalibration c)) :
    ∃ t, exec i s = .next t ∧ sameData s t := by
  rcases h with ⟨nsid, lba, rfl⟩ | rfl | rfl | rfl | ⟨b, rfl⟩ | ⟨b, f, rfl⟩ | ⟨b, soft, rfl⟩ | ⟨c, rfl⟩
  · refine ⟨_, rfl, ?_⟩
    split
    · exact fun _ _ => rfl
    · split
      · exact fun _ _ => rfl
      · exact sameData_issued (sameData_ns programDone_namespaces)
  · exact ⟨_, rfl, sameData_ite _ (sameData_issued (sameData_ns (startFold_ns ..)))⟩
  · refine ⟨_, rfl, sameData_ite _ ?_⟩
    split
    · exact fun _ _ => rfl
    · exact sameData_issued (sameData_ns (startFold_ns ..))
  · refine ⟨_, rfl, sameData_ite _ fun nsid lba => ?_⟩
    rw [find?_flushJournal, Option.map_map]
    rfl
  · exact ⟨_, rfl, sameData_issued (bandVerify_sameData b s)⟩
  · exact ⟨_, rfl, sameData_ite _ (sameData_issued (eraseDone_sameData b f s))⟩
  · exact ⟨_, rfl, sameData_ite _ (sameData_ns rfl)⟩
  · exact ⟨_, rfl, sameData_ite _ (sameData_ns rfl)⟩

/-! ## Reads of bands, and calibration (R392, R405) -/

theorem exec_closedBandRead {s : State} {b : Nat} {r : Band} (soft : Bool) (hawake : awake s = true)
    (hr : find? s.flash.bands b = some r) (hclosed : r.closed = true) (hkept : r.erasing = false)
    (hdue : r.readAt / aWeek < s.now / aWeek) : exec (.closedBandRead b soft) s
    = .next { s with flash := { s.flash with
        bands := upd s.flash.bands b (fun r => { r with readAt := s.now, worn := r.worn || soft }) } } := by
  have hlook : look s.flash.bands b = r := by rw [look, hr, Option.getD_some]
  exact congrArg _ (if_pos (by simp [hlook, hr, hawake, hclosed, hkept, hdue]))

theorem exec_flashCalibration {s : State} {ch : Fin 16} (hawake : awake s = true)
    (hup : islandUp s (flashClk ch) = true) (hdue : look s.flash.calAt ch.val + 64000000 ≤ s.now) :
    exec (.flashCalibration ch) s
      = .next { s with flash := { s.flash with calAt := put s.flash.calAt ch.val s.now } } :=
  congrArg _ (if_pos (by simp [hawake, hup, hdue]))

theorem exec_flashReadDone {s : State} {nsid lba : Nat} {n : Namespace} {bytes : List Byte} {b i : Nat}
    (hn : find? s.flash.namespaces nsid = some n) (hat : blockAt n lba = some (.mapped bytes b i))
    (hprogrammed : s.flash.staging.any (fun x => x.nsid == nsid && x.lba == lba) = false) (o : ReadOutcome) :
    exec (.flashReadDone nsid lba o) s = .next (readDone nsid lba o s)
      ∧ (find? s.flash.namespaces nsid).bind (fun n => blockAt n lba) = some (.mapped bytes b i) :=
  ⟨congrArg _ (if_neg (by simp [hprogrammed])), by rw [hn, Option.bind_some, hat]⟩

/-! ## A die that fails (R406) -/

theorem nvmeEvent_keeps (c : Fin 2) (kind : Nat) (s : State) :
    (nvmeEvent c kind s).flash = s.flash ∧ (nvmeEvent c kind s).log = s.log := by
  unfold nvmeEvent
  dsimp only
  repeat' split
  all_goals exact ⟨rfl, rfl⟩

/-- Nothing is placed anew where nothing staged goes to the die. -/
theorem restage_away {s : State} {die : Nat} (h : ∀ x ∈ s.flash.staging, dieOf s.flash x.band x.idx ≠ die)
    (band : Option Nat) : restage die band s = s := by
  have key : ∀ l : List Staged, (∀ x ∈ l, dieOf s.flash x.band x.idx ≠ die) → foldS (fun s x =>
      if dieOf s.flash x.band x.idx = die ∧ (band = none ∨ band = some x.band) then
        match (find? s.flash.namespaces x.nsid).bind (fun n => blockAt n x.lba) with
        | some (.mapped bytes _ _) => match placeBlock x.nsid x.lba bytes s with
          | some s => journal 1 s
          | none => s
        | _ => s
      else s) l s = s := by
    intro l
    induction l with
    | nil => exact fun _ => rfl
    | cons x l ih =>
      intro hl
      rw [foldS_cons, if_neg fun hx => hl x (List.mem_cons_self ..) hx.1]
      exact ih fun y hy => hl y (List.mem_cons_of_mem _ hy)
  exact key s.flash.staging h

/-- The die is listed and its map scan waits. -/
def dieListed (die : Nat) (s : State) : State :=
  { s with flash := { s.flash with
    failedDies := s.flash.failedDies ++ [die], scans := s.flash.scans ++ [die]
    scanAt := max s.flash.scanAt s.now + scanTime s } }

section Die
variable {s : State} {die : Nat}

/-- A die that fails while no band is open and nothing is staged for it moves no block. -/
theorem failDie_quiet (hnew : die ∉ s.flash.failedDies) (hrow : die % 16 < s.flash.dieRows)
    (hfolds : s.flash.folds = []) (hshut : s.flash.bands.all (fun b => b.2.closed || b.2.free) = true)
    (haway : s.flash.staging.all (fun x => dieOf s.flash x.band x.idx != die) = true) : failDie die s
    = issueFlash (nvmeEvent 1 evSmart (nvmeEvent 0 evSmart
        (logFault (flashClk (Fin.ofNat 16 (die / 16))) 7 3 die 1 (dieListed die s)))) := by
  have hfirst : ¬ (s.flash.failedDies.contains die = true ∨ s.flash.dieRows ≤ die % 16) := by simp [hnew, hrow]
  have hdsts (p : Nat → Bool) : (s.flash.folds.map (·.dst)).filter p = [] := by simp [hfolds]
  have hopen (p : Nat × Band → Bool) :
      s.flash.bands.filter (fun b => !b.2.free && !b.2.closed && !b.2.erasing && p b) = [] := by
    rw [List.filter_eq_nil_iff]
    intro b hb
    have hb := List.all_eq_true.1 hshut b hb
    cases hc : b.2.closed <;> simp_all
  have hplaced : ∀ x ∈ s.flash.staging, dieOf s.flash x.band x.idx ≠ die :=
    fun x hx => by simpa using List.all_eq_true.1 haway x hx
  have hstay : restage die none (dieListed die s) = dieListed die s :=
    restage_away (s := dieListed die s) hplaced none
  have hkeep : s.flash.writeBand.filter (fun _ => true) = s.flash.writeBand := by
    cases s.flash.writeBand <;> rfl
  unfold failDie
  rw [if_neg hfirst]
  simp only [hdsts, hopen, List.map_nil, foldS, List.foldl_nil, List.contains_nil, Bool.not_false,
    Bool.false_eq_true, if_false, List.map_id', hkeep]
  exact congrArg (fun u => issueFlash (nvmeEvent 1 evSmart (nvmeEvent 0 evSmart
    (logFault (flashClk (Fin.ofNat 16 (die / 16))) 7 3 die 1 u)))) hstay

theorem exec_flashDieFail {die : Fin 256} (hservice : s.dev.stage = .service) :
    exec (.flashDieFail die) s = .next (failDie die.val s) := congrArg _ (if_pos hservice)

/-- The state after a quiet failure: the die is listed and logged, and no namespace changed. -/
theorem failDie_quiet_keeps (hnew : die ∉ s.flash.failedDies) (hrow : die % 16 < s.flash.dieRows)
    (hfolds : s.flash.folds = []) (hshut : s.flash.bands.all (fun b => b.2.closed || b.2.free) = true)
    (haway : s.flash.staging.all (fun x => dieOf s.flash x.band x.idx != die) = true) :
    (failDie die s).flash.failedDies = s.flash.failedDies ++ [die]
    ∧ (failDie die s).flash.scans = s.flash.scans ++ [die]
    ∧ (failDie die s).flash.scanAt = max s.flash.scanAt s.now + scanTime s
    ∧ (failDie die s).flash.namespaces = s.flash.namespaces
    ∧ (failDie die s).log.next = (s.log.next + 1) % 2 ^ 32 := by
  rw [failDie_quiet hnew hrow hfolds hshut haway]
  generalize hlogged : logFault (flashClk (Fin.ofNat 16 (die / 16))) 7 3 die 1 (dieListed die s) = l
  obtain ⟨i, t, w, hissued⟩ := issueFlash_spec (nvmeEvent 1 evSmart (nvmeEvent 0 evSmart l))
  obtain ⟨hflash₁, hlog₁⟩ := nvmeEvent_keeps 1 evSmart (nvmeEvent 0 evSmart l)
  obtain ⟨hflash₀, hlog₀⟩ := nvmeEvent_keeps 0 evSmart l
  rw [hissued, hlog₁, hlog₀, hflash₁, hflash₀, ← hlogged]
  exact ⟨rfl, rfl, rfl, rfl, rfl⟩

theorem exec_mapScanDone (hservice : s.dev.stage = .service) (hwaits : s.flash.scans ≠ [])
    (hdue : s.flash.scanAt ≤ s.now) : exec .mapScanDone s = .next (scanDone s) :=
  congrArg _ (if_pos ⟨hservice, by simp [hwaits], hdue⟩)

theorem foldS_bumpDie_flash {β : Type} (die sel n : β → Nat) (l : List β) (s : State) :
    (foldS (fun s x => bumpDie (die x) (sel x) (n x) s) l s).flash = s.flash :=
  foldS_same State.flash _ (fun s x => bumpDie_fl (die x) (sel x) (n x) s) l s

/-- A map scan that ends is over, and each namespace has lost what lay on the failed dies. -/
theorem scanDone_keeps (s : State) : (scanDone s).flash.scans = [] ∧ ∀ nsid,
    find? (scanDone s).flash.namespaces nsid
      = (find? s.flash.namespaces nsid).map (scanNamespace s.flash s.flash.scans) := by
  have hflash : (scanDone s).flash = { s.flash with
      scans := [], namespaces := mapTbl s.flash.namespaces (fun _ n => scanNamespace s.flash s.flash.scans n) } := by
    unfold scanDone
    simp only [nvmeEvent_keeps, foldS_bumpDie_flash]
  rw [hflash]
  exact ⟨rfl, fun nsid =>
    find?_mapTbl s.flash.namespaces nsid (fun _ n => scanNamespace s.flash s.flash.scans n)⟩

end Die

/-- Settles O47: each row's equation on the flash state; what maintenance keeps is `maintenance_sameData`. -/
theorem flashMaintenance : Obligations.FlashMaintenance := by
  unfold Obligations.FlashMaintenance
  refine ⟨fun v lba n => ⟨fun h => (setBlock_ok v lba n.blocks h).1, blockAt_setBlock v lba n⟩, fun s =>
    ⟨fun i hi => maintenance_sameData hi, fun nsid lba x hx hruns => ⟨?_, exec_flashProgramDone hx hruns true⟩,
      fun nsid lba failed h => exec_flashProgramDone_idle h failed, fun b hnone hfull => ?closed,
      fun b ch f hf => ?failed, fun ha hl => exec_foldStart ha hl, fun b ha hl hb => exec_gcStart ha hl hb,
      fun b failed her hruns => ?erased, fun hs hj hd => ?flushed, fun b soft r => exec_closedBandRead soft,
      fun ch => exec_flashCalibration, fun nsid lba n bytes b i hn hat hp => ?read,
      fun die hs hnew hrow hf hb hst => ⟨_, exec_flashDieFail hs, failDie_quiet_keeps hnew hrow hf hb hst⟩,
      fun hs hw hd => ⟨_, exec_mapScanDone hs hw hd, (scanDone_keeps s).1, fun nsid => ?scanned⟩⟩⟩
  · rw [exec_flashProgramDone hx hruns false, if_neg (by simp), programDone_staged hx]
  case closed =>
    obtain ⟨i, t, w, hissued⟩ := issueFlash_spec (closeBand b s)
    refine ⟨_, exec_bandCloseVerify s b none, ?_⟩
    rw [bandVerify_full hnone hfull, hissued]
    exact closeBand_band b s
  case failed =>
    refine ⟨_, exec_bandCloseVerify s b (some ch), ?_⟩
    rw [bandVerify_failed hf]
    obtain ⟨i, t, w, hissued⟩ :=
      issueFlash_spec (eraseBand b (dropFold b (retireDieBlock (ch % 16 * 16 + bandRow s.flash b) s)))
    rw [hissued]
    exact ⟨rfl, by simp [eraseBand], rfl, look_upd_self ..⟩
  case erased =>
    obtain ⟨i, t, w, hissued⟩ := issueFlash_spec (eraseDone b failed s)
    refine ⟨_, exec_flashEraseDone hruns failed, ?_⟩
    rw [hissued]
    exact (eraseDone_spec b failed s her).2
  case flushed =>
    refine ⟨_, exec_journalFlush hs hj hd, rfl, fun nsid => ?_⟩
    rw [find?_flushJournal, Option.map_map]
    rfl
  case read =>
    have hrun := fun o => (exec_flashReadDone hn hat hp o).1
    have hmapped := (exec_flashReadDone hn hat hp .decoded).2
    simp only [hrun, readDone, hmapped, and_self]
  case scanned =>
    rw [(scanDone_keeps s).2, Option.map_map]
    rfl

end Sys2Proof.Proofs
end

section
/-! SUPPORT. Proofs about the NVMe controllers: enable, reset, doorbells, completions and the admin commands (R407, R411
to R417, R513, R544). -/

open Sys2Proof Sys2Proof.Machine Sys2Proof.Laws
namespace Sys2Proof.Proofs

/-! ## The controller record -/

section Controller
variable {s : State} {c : Fin 2}

@[simp] theorem ctrlOf_setCtrl (f : Nvme → Nvme) : ctrlOf (setCtrl c f s) c = f (ctrlOf s c) := look_upd_self ..

/-- Taking an entry moves nothing of the flash. -/
@[simp] theorem takeEntry_flash (sq : Nat) : (takeEntry c sq s).flash = s.flash := rfl

@[simp] theorem takeEntry_host (sq : Nat) : (takeEntry c sq s).host = s.host := rfl

@[simp] theorem takeEntry_tenants (sq : Nat) : (takeEntry c sq s).tenants = s.tenants := rfl

theorem exec_nvmeControllerEnable {a b : Nat} (hservice : s.dev.stage = .service) (hallowed : nvmeAllowed s = true)
    (hlink : (look s.host.ports c).link = true) (hoff : (ctrlOf s c).enabled = false)
    (ha : 2 ≤ a) (ha' : a ≤ 4096) (hb : 2 ≤ b) (hb' : b ≤ 4096) :
    exec (.nvmeControllerEnable c a b) s = .next (enableCtrl c a b s) := by
  show execNvmeControllerEnable c a b s = _
  simp [execNvmeControllerEnable, inService, hservice, hallowed, hlink, hoff, ha, ha', hb, hb']

theorem exec_nvmeControllerReset (hlink : (look s.host.ports c).link = true) :
    exec (.nvmeControllerReset c) s = .next (resetCtrl c s) := congrArg _ (if_pos hlink)

end Controller

/-! ## Doorbells -/

section Doorbells
variable {s : State} {c : Fin 2} {q n : Nat} {k : NvmeQueue}
  (hon : (ctrlOf s c).enabled = true) (hlink : (look s.host.ports c).link = true)
include hon hlink

theorem exec_tailDoorbell (hk : find? (ctrlOf s c).sqs q = some k) : exec (.nvmeSqTailDoorbell c q n) s
    = .next (if n < k.size then setCtrl c (fun x => { x with sqs := adj x.sqs q (fun y => { y with tail := n }) }) s
        else nvmeEvent c evError s) := by
  show execNvmeSqTailDoorbell c q n s = _
  simp [execNvmeSqTailDoorbell, reached, hon, hlink, hk]

theorem exec_headDoorbell (hk : find? (ctrlOf s c).cqs q = some k) : exec (.nvmeCqHeadDoorbell c q n) s
    = .next (if n < k.size then drainCq c k.held
          (setCtrl c (fun x => { x with cqs := adj x.cqs q (fun y => { y with head := n, held := [] }) }) s)
        else nvmeEvent c evError s) := by
  show execNvmeCqHeadDoorbell c q n s = _
  simp [execNvmeCqHeadDoorbell, reached, hon, hlink, hk]

end Doorbells

/-! ## Completions (R544) -/

section Complete
variable {s : State} {c : Fin 2} {q cid : Nat} {st : NvmeStatus} {data : List Byte}

/-- The controller no longer remembers that the transfer was refused. -/
def refusalTold (c : Fin 2) (q cid : Nat) (s : State) : State :=
  setCtrl c (fun n => { n with refused := n.refused.filter (· != (q, cid)) }) s

theorem refusalTold_clear : (ctrlOf (refusalTold c q cid s) c).refused.contains (q, cid) = false := by
  simp [refusalTold]

theorem complete_refused (h : (ctrlOf s c).refused.contains (q, cid) = true) :
    complete c q cid st data s = complete c q cid .dataTransferError [] (refusalTold c q cid s) := by
  have hclear := refusalTold_clear (s := s) (c := c) (q := q) (cid := cid)
  simp only [complete, h, hclear, if_true, Bool.false_eq_true, if_false]
  rfl

variable {k e : NvmeQueue} (hk : find? (ctrlOf s c).sqs q = some k) (he : find? (ctrlOf s c).cqs k.target = some e)
  (hsent : (ctrlOf s c).refused.contains (q, cid) = false)
include hk he hsent

theorem complete_full (hfull : qNext e e.tail = e.head) : complete c q cid st data s
    = setCtrl c (fun n => { n with
        cqs := adj n.cqs k.target (fun x => { x with held := x.held ++ [(q, cid, st, data)] }) }) s := by
  simp only [complete, hsent, Bool.false_eq_true, if_false, hk, he, hfull, if_true]

theorem complete_posts (hroom : qNext e e.tail ≠ e.head) : complete c q cid st data s
    = raiseMsix c pf1 e.target { setCtrl c (fun n => { n with
        cqs := adj n.cqs k.target (fun x => { x with tail := qNext x x.tail }) }) s with
          out := s.out ++ [.nvme c q cid st data] } := by
  simp only [complete, hsent, Bool.false_eq_true, if_false, hk, he, hroom]
  rfl

/-- A completion with room goes out next, and its queue's tail moves on. -/
theorem complete_room (hroom : qNext e e.tail ≠ e.head) :
    ∃ more, (complete c q cid st data s).out = s.out ++ .nvme c q cid st data :: more
      ∧ find? (ctrlOf (complete c q cid st data s) c).cqs k.target = some { e with tail := qNext e e.tail } := by
  rw [complete_posts hk he hsent hroom]
  have htail : find? (ctrlOf (setCtrl c (fun n => { n with
      cqs := adj n.cqs k.target (fun x => { x with tail := qNext x x.tail }) }) s) c).cqs k.target
      = some { e with tail := qNext e e.tail } := by
    rw [ctrlOf_setCtrl]
    exact find?_adj_self' (fun x : NvmeQueue => { x with tail := qNext x x.tail }) he
  obtain ⟨⟨more, hout⟩, hnvme, -, -⟩ := raise_out c pf1 e.target { setCtrl c (fun n => { n with
    cqs := adj n.cqs k.target (fun x => { x with tail := qNext x x.tail }) }) s with
      out := s.out ++ [.nvme c q cid st data] }
  refine ⟨more, by rw [hout]; simp, ?_⟩
  rw [ctrlOf, hnvme]
  exact htail

end Complete

/-! ## What the admin commands answer (R411, R412, R414, R415) -/

section Admin
variable {u : State} {c : Fin 2}

/-- An admin command of a ready controller completes with what its body answers. -/
theorem admin_answers {s : State} {cid : Nat} {body : State → NvmeStatus × List Byte × State} {st : NvmeStatus}
    {d : List Byte} {t : State} (hready : nvmeReady s c = true) (hwaits : sqWaiting s c 0 = true)
    (h : body (takeEntry c 0 s) = (st, d, t)) : admin c cid body s = .next (complete c 0 cid st d t) := by
  rw [admin_ready cid hready hwaits, h, adminDone]

theorem createCq_badId {q size v : Nat} (hq : queueId q = false) :
    createCq c q size v u = nvmeFail .invalidQueue u := by simp [createCq, hq]

theorem createSq_badId {q size v : Nat} (hq : queueId q = false) :
    createSq c q size v u = nvmeFail .invalidQueue u := by simp [createSq, hq]

section Queues
variable {q size v : Nat} (hq : queueId q = true) (hlo : 2 ≤ size) (hhi : size ≤ 65536)
include hq hlo hhi

theorem createCq_sized (hnew : find? (ctrlOf u c).cqs q = none) : createCq c q size v u
    = if 129 ≤ v then nvmeFail .invalidVector u
      else nvmeOk (setCtrl c (fun n => { n with cqs := put n.cqs q { size, target := v } }) u) := by
  have hid : (!queueId q || (find? (ctrlOf u c).cqs q).isSome) = false := by simp [hq, hnew]
  have hsize : ¬ (size < 2 ∨ 65536 < size) := by omega
  simp only [createCq, hid, Bool.false_eq_true, if_false, if_neg hsize]

theorem createSq_sized (hnew : find? (ctrlOf u c).sqs q = none) : createSq c q size v u
    = if v = 0 ∨ (find? (ctrlOf u c).cqs v).isNone = true then nvmeFail .invalidCq u
      else nvmeOk (setCtrl c (fun n => { n with sqs := put n.sqs q { size, target := v } }) u) := by
  have hid : (!queueId q || (find? (ctrlOf u c).sqs q).isSome) = false := by simp [hq, hnew]
  have hsize : ¬ (size < 2 ∨ 65536 < size) := by omega
  simp only [createSq, hid, Bool.false_eq_true, if_false, if_neg hsize]

end Queues

theorem deleteSq_quiet {q : Nat} (hq : q ≠ 0) (hthere : (find? (ctrlOf u c).sqs q).isSome = true)
    (hnone : u.flash.waiting.all (fun w => !(w.ctrl == c && w.sq == q && !w.begun)) = true) :
    deleteSq c q u = nvmeOk (setCtrl c (fun n => { n with sqs := del n.sqs q }) u) := by
  have hfound : ¬ (q = 0 ∨ (find? (ctrlOf u c).sqs q).isNone = true) := by
    simp [hq, Option.isSome_iff_ne_none.1 hthere]
  have hkept : u.flash.waiting.filter (fun w => !(w.ctrl == c && w.sq == q && !w.begun)) = u.flash.waiting :=
    List.filter_eq_self.2 (List.all_eq_true.1 hnone)
  have hmine : u.flash.waiting.filter (fun w => w.ctrl == c && w.sq == q && !w.begun) = [] :=
    List.filter_eq_nil_iff.2 fun w hw => by
      simpa only [Bool.not_eq_true, Bool.not_eq_true'] using List.all_eq_true.1 hnone w hw
  simp only [deleteSq, if_neg hfound, hkept, hmine, foldS, List.foldl_nil]

theorem deleteCq_there {q : Nat} (hq : q ≠ 0) (hthere : (find? (ctrlOf u c).cqs q).isSome = true) : deleteCq c q u
    = if (ctrlOf u c).sqs.any (fun x => x.2.target == q && x.1 != 0) then nvmeFail .invalidQueueDeletion u
      else nvmeOk (setCtrl c (fun n => { n with cqs := del n.cqs q }) u) := by
  have hfound : ¬ (q = 0 ∨ (find? (ctrlOf u c).cqs q).isNone = true) := by
    simp [hq, Option.isSome_iff_ne_none.1 hthere]
  simp only [deleteCq, if_neg hfound]

theorem identify_listed {cns : Nat} (nsid : Nat) (h : cns = 1 ∨ cns = 2 ∨ cns = 3) : identify c cns nsid u
    = (.success, Config.nvmeIdentify cns (identifyFacts u c nsid), u) := by
  have hlow : cns ≤ 3 := by omega
  have hpos : cns ≠ 0 := by omega
  simp [identify, hlow, hpos]

theorem identify_unknown {cns : Nat} (nsid : Nat) (h : 0x14 ≤ cns) :
    identify c cns nsid u = nvmeFail .invalidField u := if_neg (by omega)

theorem setFeature_takes {f v : Nat} (hf : f ≠ 7) (hknown : featureKnown f = true) (htakes : featureTakes f v = true) :
    setFeature c f v u
      = nvmeOk (setCtrl c (fun n => { n with features := put n.features f (if f = 1 then v % 8 else v) }) u) := by
  simp only [setFeature, if_neg hf, hknown, htakes, Bool.and_self, if_true]

theorem feature_ne_seven {f : Nat} (hunknown : featureKnown f = false) : f ≠ 7 := by
  rintro rfl
  exact absurd hunknown (by decide)

theorem setFeature_unknown {f : Nat} (v : Nat) (hunknown : featureKnown f = false) :
    setFeature c f v u = nvmeFail .invalidField u := by
  simp [setFeature, feature_ne_seven hunknown, hunknown]

theorem getFeature_unknown {f : Nat} (hunknown : featureKnown f = false) :
    getFeature c f u = nvmeFail .invalidField u := by
  simp [getFeature, feature_ne_seven hunknown, hunknown]

theorem getFeature_known {f : Nat} (hf : f ≠ 7) (hknown : featureKnown f = true) :
    getFeature c f u = (.success, leBytes 4 (look (ctrlOf u c).features f), u) := by
  simp [getFeature, hf, hknown]

end Admin

/-! ## Event requests and Abort (R414, R417) -/

section Requests
variable {s : State} {c : Fin 2} {cid : Nat} (hready : nvmeReady s c = true) (hwaits : sqWaiting s c 0 = true)
include hready hwaits

theorem exec_nvmeAsyncEventRequest :
    exec (.nvmeAsyncEventRequest c cid) s = .next (eventRequest c cid (takeEntry c 0 s)) :=
  congrArg _ (run_ready hready hwaits _)

theorem exec_nvmeAbort (q x : Nat) :
    exec (.nvmeAbort c cid q x false) s = .next (abortCommand c cid q x false (takeEntry c 0 s)) :=
  congrArg _ (run_ready hready hwaits _)

end Requests

theorem abortCommand_waiting {u : State} {c : Fin 2} {cid q x : Nat}
    (h : ∃ w ∈ u.flash.waiting, w.ctrl = c ∧ w.sq = q ∧ w.cid = x ∧ w.begun = false) :
    abortCommand c cid q x false u = complete c 0 cid .success (leBytes 4 0) (complete c q x .abortedByRequest []
      { u with flash := { u.flash with
        waiting := u.flash.waiting.filter (fun w => !(w.ctrl == c && w.sq == q && w.cid == x && !w.begun)) } }) := by
  obtain ⟨w, hw, hctrl, hsq, hcid, hbegun⟩ := h
  exact if_pos (List.any_eq_true.2 ⟨w, hw, by simp [hctrl, hsq, hcid, hbegun]⟩)

theorem abortCommand_absent {u : State} {c : Fin 2} {cid q x : Nat}
    (h : u.flash.waiting.all (fun w => !(w.ctrl == c && w.sq == q && w.cid == x && !w.begun)) = true) :
    abortCommand c cid q x false u = complete c 0 cid .success (leBytes 4 1) u := by
  have hnone : ¬ u.flash.waiting.any (fun w => w.ctrl == c && w.sq == q && w.cid == x && !w.begun) = true := by
    rw [List.any_eq_true]
    rintro ⟨w, hw, hmine⟩
    have hother := List.all_eq_true.1 h w hw
    rw [hmine] at hother
    exact Bool.noConfusion hother
  rw [abortCommand, if_neg hnone, Bool.false_and, if_neg (by simp)]

/-! ## Namespace commands (R412, R415) -/

section Namespaces
variable {u : State} {c : Fin 2} {nsid : Nat}

theorem primaryOnly_other {body : State → NvmeStatus × List Byte × State} (h : c ≠ u.host.primary) :
    primaryOnly c body u = nvmeFail .invalidOpcode u := if_neg h

theorem primaryOnly_primary {body : State → NvmeStatus × List Byte × State} (h : c = u.host.primary) :
    primaryOnly c body u = body u := if_pos h

theorem createNamespace_ok {r : NsRequest} (htenant : r.tenant < 1024) (hactive : (look u.tenants r.tenant).state = .active)
    (hkind : r.kind ≤ 1) (hsize : r.nsze = r.ncap) (hflbas : r.flbas = 0) (hdps : r.dps = 0) (hroom : r.nsze ≤ flashFree u)
    (hmap : mapFits u r.nsze = true) (hquota : tenantFlash u r.tenant + r.nsze * 4096 ≤ (quotasOf u r.tenant).flash)
    (hid : firstFree u.flash.namespaces 1 1024 = some nsid) : createNamespace r u
    = (.success, leBytes 4 nsid, journal 1 { u with flash := { u.flash with
        namespaces := put u.flash.namespaces nsid { nsze := r.nsze, tenant := r.tenant, kind := r.kind } } }) := by
  have hfields : ¬ (1024 ≤ r.tenant ∨ (look u.tenants r.tenant).state ≠ .active ∨ 1 < r.kind ∨ r.nsze ≠ r.ncap
      ∨ r.flbas ≠ 0 ∨ r.dps ≠ 0) := by
    simp [hactive, hflbas, hdps, htenant, hkind, hsize]
  have hfits : ¬ (flashFree u < r.nsze ∨ (!mapFits u r.nsze) = true) := by
    simp only [hmap, Bool.not_true, Bool.false_eq_true, or_false]
    omega
  simp only [createNamespace, if_neg hfields, if_neg hfits, if_neg (Nat.not_lt.2 hquota), hid]

theorem namedNamespaces_one (hone : nsid ≠ 0xFFFFFFFF) (hthere : (find? u.flash.namespaces nsid).isSome = true) :
    namedNamespaces u nsid = [nsid] := by
  rw [namedNamespaces, if_neg hone, if_pos hthere]

theorem deleteNamespace_one (hone : nsid ≠ 0xFFFFFFFF) (hthere : (find? u.flash.namespaces nsid).isSome = true) :
    deleteNamespace nsid u = nvmeOk (removeNamespace nsid u) := by
  rw [deleteNamespace, namedNamespaces_one hone hthere]
  rfl

theorem attachment_attaches {n : Namespace} {cs : List (Fin 2)} (hn : find? u.flash.namespaces nsid = some n)
    (hsome : cs ≠ []) (hnew : cs.any n.attached.contains = false) : attachment nsid true cs u
    = nvmeOk (tellChanged nsid cs
        (journal 1 (setNamespace nsid (fun n => { n with attached := n.attached ++ cs.dedup }) u))) := by
  simp [attachment, hn, hsome, hnew]

theorem formatNamespaces_secure {ses : Nat} (h : 2 ≤ ses) : formatNamespaces nsid ses u = nvmeFail .invalidField u :=
  if_pos h

theorem formatNamespaces_one {ses : Nat} (hses : ses ≤ 1) (hone : nsid ≠ 0xFFFFFFFF)
    (hthere : (find? u.flash.namespaces nsid).isSome = true) : formatNamespaces nsid ses u
    = nvmeOk (issueFlash (journal 1 (unmapBlocks nsid (fun _ => true) u))) := by
  rw [formatNamespaces, if_neg (Nat.not_lt.2 hses), namedNamespaces_one hone hthere]
  rfl

theorem lbaStatus_ok {slba : Nat} {n : Namespace} (hn : find? u.flash.namespaces nsid = some n)
    (hattached : n.attached.contains c = true) (hin : slba < n.nsze) :
    lbaStatus c nsid slba u = (.success, Config.nvmeLbaStatus (lostRuns n slba), u) := by
  simp only [lbaStatus, hn, hattached, Bool.not_true, Bool.false_eq_true, if_false, if_neg (Nat.not_le.2 hin)]

/-- The delete command goes on where no kind-2 read of its namespace runs. -/
theorem exec_namespaceDelete {s : State} {cid : Nat}
    (h : ¬ (c = s.host.primary ∧ (namedNamespaces s nsid).any (kind2Reads s) = true)) :
    exec (.namespaceDelete c cid nsid) s = admin c cid (primaryOnly c (deleteNamespace nsid)) s := if_neg h

end Namespaces

/-! ## The obligation -/

section Ready
variable {s : State} {c : Fin 2} {cid : Nat} (hready : nvmeReady s c = true) (hwaits : sqWaiting s c 0 = true)
include hready hwaits

/-- On the port that is not primary, no namespace command is known. -/
theorem namespaceCommands_other (h : c ≠ s.host.primary) (r : NsRequest) (nsid : Nat) (attach : Bool)
    (cs : List (Fin 2)) (ses : Nat) :
    let unknown := Host.Outcome.next (complete c 0 cid .invalidOpcode [] (takeEntry c 0 s))
    exec (.namespaceCreate c cid r) s = unknown ∧ exec (.namespaceDelete c cid nsid) s = unknown
      ∧ exec (.namespaceAttachment c cid nsid attach cs) s = unknown ∧ exec (.formatNvm c cid nsid ses) s = unknown :=
  have hunknown := fun {body : State → NvmeStatus × List Byte × State} =>
    admin_answers (cid := cid) hready hwaits (primaryOnly_other (u := takeEntry c 0 s) (body := body) h)
  ⟨hunknown, (exec_namespaceDelete fun hp => h hp.1).trans hunknown, hunknown, hunknown⟩

theorem primary_answers (h : c = s.host.primary) {body : State → NvmeStatus × List Byte × State} {st : NvmeStatus}
    {d : List Byte} {t : State} (hbody : body (takeEntry c 0 s) = (st, d, t)) :
    admin c cid (primaryOnly c body) s = .next (complete c 0 cid st d t) :=
  admin_answers hready hwaits ((primaryOnly_primary (u := takeEntry c 0 s) h).trans hbody)

theorem exec_namespaceDelete_one {nsid : Nat} (h : c = s.host.primary) (hone : nsid ≠ 0xFFFFFFFF)
    (hthere : (find? s.flash.namespaces nsid).isSome = true) (hunread : kind2Reads s nsid = false) :
    exec (.namespaceDelete c cid nsid) s
      = .next (complete c 0 cid .success [] (removeNamespace nsid (takeEntry c 0 s))) := by
  have hfree : ¬ (c = s.host.primary ∧ (namedNamespaces s nsid).any (kind2Reads s) = true) := by
    simp [namedNamespaces_one hone hthere, hunread]
  rw [exec_namespaceDelete hfree]
  exact primary_answers hready hwaits h (deleteNamespace_one hone hthere)

/-- A format leaves no block of its namespace mapped. -/
theorem exec_formatNvm_one {nsid ses : Nat} (h : c = s.host.primary) (hses : ses ≤ 1) (hone : nsid ≠ 0xFFFFFFFF)
    (hthere : (find? s.flash.namespaces nsid).isSome = true) :
    ∃ t, exec (.formatNvm c cid nsid ses) s = .next (complete c 0 cid .success [] t)
      ∧ ∀ lba, (find? t.flash.namespaces nsid).map (fun n => blockAt n lba) = some none := by
  obtain ⟨n, hn⟩ := Option.isSome_iff_exists.1 hthere
  obtain ⟨n', hn', hgone⟩ := unmap_spec nsid (fun _ => true) (takeEntry c 0 s) n hn
  refine ⟨_, primary_answers hready hwaits h (formatNamespaces_one hses hone hthere), fun lba => ?_⟩
  rw [hn', Option.map_some, hgone, if_pos rfl]

end Ready

/-- Settles O48: each admin command by what its body answers (`admin_answers`), the rest by the equations above. -/
theorem nvmeAdmin : Obligations.NvmeAdmin := by
  unfold Obligations.NvmeAdmin
  intro s c cid
  refine ⟨fun a b hs hal hl hoff ha ha' hb hb' => exec_nvmeControllerEnable hs hal hl hoff ha ha' hb hb',
    exec_nvmeControllerReset, fun q n k hon hl => ⟨?tailIn, ?tailOut, ?headIn, ?headOut⟩,
    fun q st data => complete_refused, fun q k e st data hk he hsent =>
      ⟨complete_full hk he hsent, complete_room hk he hsent⟩, fun hready hwaits => ?admin⟩
  case tailIn => exact fun hk hin => (exec_tailDoorbell hon hl hk).trans (by rw [if_pos hin]; rfl)
  case tailOut => exact fun hk hout => (exec_tailDoorbell hon hl hk).trans (by rw [if_neg (Nat.not_lt.2 hout)])
  case headIn => exact fun hk hheld hin => (exec_headDoorbell hon hl hk).trans (by rw [if_pos hin, hheld]; rfl)
  case headOut => exact fun hk hout => (exec_headDoorbell hon hl hk).trans (by rw [if_neg (Nat.not_lt.2 hout)])
  case admin =>
    intro u done bad edit
    have answers {body : State → NvmeStatus × List Byte × State} {st : NvmeStatus} {d : List Byte} {t : State}
        (h : body u = (st, d, t)) : admin c cid body s = done st d t := admin_answers hready hwaits h
    refine ⟨fun q size v => ⟨?_, ?_, ?_, ?_, ?_⟩, fun q => ⟨?_, ?_, ?_, ?_⟩, fun cns nsid => ⟨?_, ?_⟩,
      fun nsid => ⟨?_, ?_, ?_⟩, fun f v => ⟨?_, ?_, ?_, ?_⟩, ?_, ?_, fun q x h => ?_, fun q x h => ?_,
      fun r nsid attach cs ses h => ?_, fun r nsid h ht ha hk hsz hfl hd hroom hmap hquota hid => ?_,
      fun nsid h hone hthere hunread => ?_, fun nsid n cs h hn hsome hnew => ?_, fun nsid ses h hses => ?_,
      fun nsid ses h hses hone hthere => ?_, fun nsid slba n hn hat hin => ?_⟩
    -- queues made
    · exact fun hq => answers (createCq_badId hq)
    · exact fun hq hnew hlo hhi hv => answers ((createCq_sized hq hlo hhi hnew).trans (if_pos hv))
    · exact fun hq hnew hlo hhi hv => answers ((createCq_sized hq hlo hhi hnew).trans (if_neg (Nat.not_le.2 hv)))
    · exact fun hq hnew hlo hhi hv => answers ((createSq_sized hq hlo hhi hnew).trans
        (if_pos (hv.imp id fun hnone => Option.isNone_iff_eq_none.2 hnone)))
    · exact fun hq hnew hlo hhi hv hcq => answers ((createSq_sized hq hlo hhi hnew).trans
        (if_neg (by simp [hv, Option.isSome_iff_ne_none.1 hcq])))
    -- queues deleted
    · exact fun hq => answers (if_pos (Or.inl hq))
    · exact fun hq hthere hnone => answers (deleteSq_quiet hq hthere hnone)
    · exact fun hq hthere hused => answers ((deleteCq_there hq hthere).trans (if_pos hused))
    · exact fun hq hthere hunused => answers ((deleteCq_there hq hthere).trans (if_neg (by simp [hunused])))
    -- Identify, log pages and features
    · exact fun h => answers (identify_listed nsid h)
    · exact fun h => answers (identify_unknown nsid h)
    · exact answers rfl
    · exact answers rfl
    · exact answers rfl
    · exact fun hf => ⟨answers (if_pos hf), answers (if_pos hf)⟩
    · exact fun hf hknown htakes => answers (setFeature_takes hf hknown htakes)
    · exact fun hunknown => ⟨answers (setFeature_unknown v hunknown), answers (getFeature_unknown hunknown)⟩
    · exact fun hf hknown => answers (getFeature_known hf hknown)
    -- event requests and Abort
    · exact fun hmany => (exec_nvmeAsyncEventRequest hready hwaits).trans (congrArg _ (if_pos hmany))
    · intro hfew hquiet
      refine (exec_nvmeAsyncEventRequest hready hwaits).trans (congrArg _ ?_)
      simp only [eventRequest, u, if_neg (Nat.not_le.2 hfew), hquiet]
      rfl
    · exact ⟨_, (exec_nvmeAbort hready hwaits q x).trans (congrArg _ (abortCommand_waiting h)), rfl⟩
    · exact (exec_nvmeAbort hready hwaits q x).trans (congrArg _ (abortCommand_absent h))
    -- namespaces
    · exact namespaceCommands_other hready hwaits h r nsid attach cs ses
    · exact primary_answers hready hwaits h (createNamespace_ok ht ha hk hsz hfl hd hroom hmap hquota hid)
    · exact exec_namespaceDelete_one hready hwaits h hone hthere hunread
    · exact primary_answers hready hwaits h (attachment_attaches hn hsome hnew)
    · exact primary_answers hready hwaits h (formatNamespaces_secure hses)
    · exact exec_formatNvm_one hready hwaits h hses hone hthere
    · exact answers (lbaStatus_ok hn hat hin)

end Sys2Proof.Proofs
end

section
/-! SUPPORT. Proofs about the NVMe I/O commands: flushes, reads, writes and deallocations (R399, R400, R403, R407, R413,
R461). -/

open Sys2Proof Sys2Proof.Machine Sys2Proof.Laws
namespace Sys2Proof.Proofs

/-! ## Reads, verifies and flushes (R400, R407) -/

section Read
variable {s u : State} {c : Fin 2} {sq cid nsid slba count : Nat}

theorem exec_nvmeRead_waits (h : overlapsWaiting s nsid slba count = true) :
    exec (.nvmeRead c sq cid nsid slba count) s = .next s
      ∧ exec (.nvmeVerify c sq cid nsid slba count) s = .next s := ⟨congrArg _ (if_pos h), congrArg _ (if_pos h)⟩

theorem exec_nvmeRead (hready : nvmeReady s c = true) (hwaits : sqWaiting s c sq = true)
    (hfree : overlapsWaiting s nsid slba count = false) :
    exec (.nvmeRead c sq cid nsid slba count) s
        = .next (readBlocks c sq cid nsid slba count true (takeEntry c sq s))
      ∧ exec (.nvmeVerify c sq cid nsid slba count) s
        = .next (readBlocks c sq cid nsid slba count false (takeEntry c sq s)) := by
  have hgo : ¬ overlapsWaiting s nsid slba count = true := by simp [hfree]
  exact ⟨congrArg _ ((if_neg hgo).trans (run_ready hready hwaits _)),
    congrArg _ ((if_neg hgo).trans (run_ready hready hwaits _))⟩

theorem exec_nvmeFlush (hready : nvmeReady s c = true) (hwaits : sqWaiting s c sq = true) :
    exec (.nvmeFlush c sq cid nsid) s = .next (complete c sq cid
      (if nsid = 0xFFFFFFFF then .success else (rangeFault (takeEntry c sq s) c nsid 0 0).getD .success) []
      (takeEntry c sq s)) := congrArg _ (run_ready hready hwaits _)

variable {transfer : Bool} (hsome : 0 < count) (hsize : transfer = true → count ≤ 512)
include hsome hsize

theorem readCount_ok : ¬ (512 < count ∧ transfer = true ∨ count = 0) := by
  rintro (⟨hbig, htransfer⟩ | hzero)
  · exact Nat.not_lt.2 (hsize htransfer) hbig
  · exact hsome.ne' hzero

theorem readBlocks_fault {st : NvmeStatus} (hfault : rangeFault u c nsid slba count = some st) :
    readBlocks c sq cid nsid slba count transfer u = complete c sq cid st [] u := by
  simp only [readBlocks, if_neg (readCount_ok hsome hsize), hfault]

variable (hfault : rangeFault u c nsid slba count = none)
include hfault

theorem readBlocks_lost (hlost : readRange u nsid (look u.flash.namespaces nsid) slba count = none) :
    readBlocks c sq cid nsid slba count transfer u = complete c sq cid .unrecoveredRead [] u := by
  simp only [readBlocks, if_neg (readCount_ok hsome hsize), hfault, hlost]

theorem readBlocks_data {b : List Byte}
    (hdata : readRange u nsid (look u.flash.namespaces nsid) slba count = some b) :
    readBlocks c sq cid nsid slba count transfer u
      = complete c sq cid .success (if transfer then b else []) u := by
  simp only [readBlocks, if_neg (readCount_ok hsome hsize), hfault, hdata]

end Read

/-! ## Writes (R399, R403, R413) -/

section Write
variable {s u : State} {c : Fin 2} {sq cid nsid slba : Nat} {bs : List Block}

theorem exec_nvmeWrite (hready : nvmeReady s c = true) (hwaits : sqWaiting s c sq = true) :
    exec (.nvmeWrite c sq cid nsid slba bs true) s
        = .next (complete c sq cid .dataTransferError [] (takeEntry c sq s))
      ∧ exec (.nvmeWrite c sq cid nsid slba bs false) s
        = .next (writeBlocks c sq cid nsid slba bs (takeEntry c sq s)) :=
  ⟨congrArg _ (run_ready hready hwaits _), congrArg _ (run_ready hready hwaits _)⟩

theorem writeBlocks_badSize (h : bs = [] ∨ 512 < bs.length) :
    writeBlocks c sq cid nsid slba bs u = complete c sq cid .invalidField [] u :=
  if_pos (h.symm.imp id List.isEmpty_iff.2)

section Sized
variable (hsome : bs ≠ []) (hsize : bs.length ≤ 512)
include hsome hsize

theorem writeSize_ok : ¬ (512 < bs.length ∨ bs.isEmpty = true) := by simp [hsome, hsize]

theorem writeBlocks_fault {st : NvmeStatus} (hfault : rangeFault u c nsid slba bs.length = some st) :
    writeBlocks c sq cid nsid slba bs u = complete c sq cid st [] u := by
  simp only [writeBlocks, if_neg (writeSize_ok hsome hsize), hfault]

theorem writeBlocks_readOnly (hfault : rangeFault u c nsid slba bs.length = none) (hfull : flashReadOnly u = true) :
    writeBlocks c sq cid nsid slba bs u = complete c sq cid .writeFault [] u := by
  simp only [writeBlocks, if_neg (writeSize_ok hsome hsize), hfault, hfull, if_true]

/-- A write without a fault joins the writes and is admitted as far as it can be. -/
theorem writeBlocks_joins {n : Namespace} (hfault : rangeFault u c nsid slba bs.length = none)
    (hroom : flashReadOnly u = false) (hn : find? u.flash.namespaces nsid = some n)
    (hkey : (look u.tenants n.tenant).dataKey.isNone = false) : writeBlocks c sq cid nsid slba bs u
    = admitAll { u with flash := { u.flash with
        waiting := u.flash.waiting ++ [{ ctrl := c, sq, cid, nsid, slba, blocks := bs.map (padTo 4096) }] } } := by
  have hlook : look u.flash.namespaces nsid = n := by rw [look, hn, Option.getD_some]
  simp only [writeBlocks, if_neg (writeSize_ok hsome hsize), hfault, hroom, hlook, hkey, Bool.false_eq_true, if_false]

end Sized

end Write

/-! ## One block in the staging buffer (R399, R403) -/

section Admit
variable {v : State} {w : WaitingWrite} {b : List Byte} {n : Namespace}
  (hw : w.blocks = [b]) (hn : find? v.flash.namespaces w.nsid = some n) (hraw : n.kind ≠ 1)
include hw hn hraw

theorem stagePortion_one : stagePortion w v = if mayStage v 1 then
    (placeBlock w.nsid w.slba b v).map (fun s =>
      ({ w with slba := w.slba + 1, blocks := [], begun := true }, journal 1 s)) else none := by
  have hportion : portionOf n = 1 := if_neg hraw
  simp only [stagePortion, hn, hportion, hw, placeAll, List.take_succ_cons, List.take_zero, List.length_cons,
    List.length_nil, List.drop_succ_cons, List.drop_zero, Nat.zero_add]
  cases placeBlock w.nsid w.slba b v <;> rfl

/-- Without room in the staging buffer the write waits whole. -/
theorem admitWrites_held (hwaits : v.flash.waiting = [w]) (hfull : mayStage v 1 = false) :
    admitWrites [w] v = countIn 0 v := by
  have hportion : stagePortion w v = none := by simp [stagePortion_one hw hn hraw, hfull]
  have hstage : stageWrite (w.blocks.length + 1) w v = (w, v) := by simp [hw, stageWrite, hportion]
  have hleft : w.blocks.isEmpty = false := by simp [hw]
  simp only [admitWrites, hstage, hleft, Nat.sub_self, Nat.zero_mul, ← hwaits, Bool.false_eq_true, if_false]
  rfl

/-- With room and a place, the block is staged and the write completes. -/
theorem admitWrites_staged {t : State} (hroom : mayStage v 1 = true) (hplace : placeBlock w.nsid w.slba b v = some t) :
    admitWrites [w] v = complete w.ctrl w.sq w.cid .success []
      { countIn 4096 (journal 1 t) with flash := { (countIn 4096 (journal 1 t)).flash with waiting := [] } } := by
  have hlen : w.blocks.length = 1 := by rw [hw, List.length_singleton]
  have hstage : stageWrite (1 + 1) w v = ({ w with slba := w.slba + 1, blocks := [], begun := true }, journal 1 t) := by
    simp [hw, stageWrite, stagePortion_one hw hn hraw, hroom, hplace]
  simp only [admitWrites, hlen, hstage, List.isEmpty_nil, if_true, List.length_nil, Nat.sub_zero, Nat.one_mul]

end Admit

/-- The state with a block at its place: its namespace maps it there, and the staging buffer holds it. -/
theorem placeBlock_keeps {nsid lba : Nat} {b : List Byte} {s t : State} {n : Namespace}
    (h : placeBlock nsid lba b s = some t) (hn : find? s.flash.namespaces nsid = some n) :
    ∃ band idx, find? t.flash.namespaces nsid = some { n with blocks := setBlock (.mapped b band idx) lba n.blocks }
      ∧ (∀ k, k ≠ nsid → find? t.flash.namespaces k = find? s.flash.namespaces k)
      ∧ t.flash.staging.any (fun x => x.nsid == nsid && x.lba == lba && x.band == band && x.idx == idx) = true
      ∧ t.tenants = s.tenants ∧ t.flash.bytesIn = s.flash.bytesIn := by
  obtain ⟨p, hp, rfl⟩ := Option.map_eq_some_iff.1 h
  obtain ⟨hns, hstaging, hbytes⟩ := place_ns hp
  refine ⟨p.1, p.2.1, ?_, fun k hk => ?_, by simp [setNamespace], rfl, hbytes⟩
  · simp only [setNamespace, find?_adj, if_true, hns, hn, Option.map_some]
  · simp only [setNamespace, find?_adj, if_neg (Ne.symm hk), hns]

/-- A block that is mapped where it is staged reads as its bytes. -/
theorem readBlock_staged {s : State} {nsid lba band idx : Nat} {b : List Byte} {n : Namespace}
    (hkey : (look s.tenants n.tenant).dataKey.isNone = false) (hat : blockAt n lba = some (.mapped b band idx))
    (hstaged : s.flash.staging.any (fun x => x.nsid == nsid && x.lba == lba && x.band == band && x.idx == idx) = true) :
    readBlock s nsid lba n = some b := by
  simp only [readBlock, hkey, hat, hstaged, Bool.false_eq_true, if_false, if_true]

/-! ## Deallocation (R407, R411, R413) -/

section Deallocate
variable {s u : State} {c : Fin 2} {sq cid nsid slba count : Nat} {rs : List (Nat × Nat)}

theorem exec_writeZeroes (hready : nvmeReady s c = true) (hwaits : sqWaiting s c sq = true)
    (hfree : overlapsWaiting s nsid slba count = false) : exec (.writeZeroes c sq cid nsid slba count) s
    = .next (writeZeroes c sq cid nsid slba count (takeEntry c sq s)) :=
  congrArg _ ((if_neg (by simp [hfree])).trans (run_ready hready hwaits _))

theorem exec_datasetManagement (hready : nvmeReady s c = true) (hwaits : sqWaiting s c sq = true)
    (hfree : rs.any (fun r => overlapsWaiting s nsid r.1 r.2) = false) :
    exec (.datasetManagement c sq cid nsid rs) s = .next (deallocate c sq cid nsid rs (takeEntry c sq s)) :=
  congrArg _ ((if_neg (by simp [hfree])).trans (run_ready hready hwaits _))

theorem writeZeroes_readOnly (hfault : rangeFault u c nsid slba count = none) (hfull : flashReadOnly u = true) :
    writeZeroes c sq cid nsid slba count u = complete c sq cid .writeFault [] u :=
  if_pos (by simp [hfault, hfull])

theorem writeZeroes_room (hroom : flashReadOnly u = false) :
    writeZeroes c sq cid nsid slba count u = deallocate c sq cid nsid [(slba, count)] u := if_neg (by simp [hroom])

theorem inRanges_one (j : Nat) : inRanges [(slba, count)] j = true ↔ slba ≤ j ∧ j < slba + count := by
  simp [inRanges]

/-- A deallocation unmaps exactly the blocks of its ranges. -/
theorem deallocate_unmaps {n : Namespace} (hsome : rs ≠ []) (hfew : rs.length ≤ 256)
    (hfault : ∀ r ∈ rs, rangeFault u c nsid r.1 r.2 = none) (hn : find? u.flash.namespaces nsid = some n) :
    ∃ t n', deallocate c sq cid nsid rs u = complete c sq cid .success [] t
      ∧ find? t.flash.namespaces nsid = some n'
      ∧ ∀ j, blockAt n' j = if inRanges rs j = true then none else blockAt n j := by
  obtain ⟨n', hn', hblocks⟩ := unmap_spec nsid (inRanges rs) u n hn
  exact ⟨_, n', dealloc_ok c sq cid nsid rs u hsome hfew hfault, hn', hblocks⟩

end Deallocate

/-! ## A one-block write from its queue -/

section WriteOne
variable {s : State} {c : Fin 2} {sq cid nsid slba : Nat} {b : Block} {n : Namespace}

/-- A write of one block that joins the writes. -/
def oneWrite (c : Fin 2) (sq cid nsid slba : Nat) (b : Block) : WaitingWrite :=
  { ctrl := c, sq, cid, nsid, slba, blocks := [padTo 4096 b] }

/-- The state in which a write is the only one that waits. -/
def onlyWaiting (w : WaitingWrite) (u : State) : State := { u with flash := { u.flash with waiting := [w] } }

section Ready
variable (hready : nvmeReady s c = true) (hwaits : sqWaiting s c sq = true)
  (hfault : rangeFault (takeEntry c sq s) c nsid slba 1 = none) (hfree : flashReadOnly (takeEntry c sq s) = false)
  (hquiet : s.flash.waiting = []) (hn : find? s.flash.namespaces nsid = some n)
  (hkey : (look s.tenants n.tenant).dataKey.isNone = false)
include hready hwaits hfault hfree hquiet hn hkey

theorem exec_nvmeWrite_one : exec (.nvmeWrite c sq cid nsid slba [b] false) s
    = .next (issueFlash (admitWrites [oneWrite c sq cid nsid slba b]
        (onlyWaiting (oneWrite c sq cid nsid slba b) (takeEntry c sq s)))) := by
  have hjoin : writeBlocks c sq cid nsid slba [b] (takeEntry c sq s)
      = admitAll (onlyWaiting (oneWrite c sq cid nsid slba b) (takeEntry c sq s)) := by
    rw [writeBlocks_joins (by simp) (by simp) hfault hfree hn hkey]
    simp only [onlyWaiting, oneWrite, takeEntry_flash, hquiet, List.nil_append, List.map_cons, List.map_nil]
  rw [(exec_nvmeWrite hready hwaits).2, hjoin]
  rfl

end Ready

/-- What a staged block changes: it reads as its data, no other block changes, and 4,096 bytes came in. -/
theorem staged_keeps {v t : State} (hn : find? v.flash.namespaces nsid = some n)
    (hkey : (look v.tenants n.tenant).dataKey.isNone = false) (hplace : placeBlock nsid slba b v = some t) :
    ∃ n', find? t.flash.namespaces nsid = some n' ∧ readBlock t nsid slba n' = some b
      ∧ (∀ j, j ≠ slba → blockAt n' j = blockAt n j)
      ∧ (∀ k, k ≠ nsid → find? t.flash.namespaces k = find? v.flash.namespaces k)
      ∧ t.flash.bytesIn = v.flash.bytesIn := by
  obtain ⟨band, idx, hmapped, hothers, hstaged, htenants, hbytes⟩ := placeBlock_keeps hplace hn
  have hat := blockAt_setBlock (.mapped b band idx) slba n
  refine ⟨_, hmapped, ?_, fun j hj => (hat j).trans (if_neg hj), hothers, hbytes⟩
  exact readBlock_staged (by rw [htenants]; exact hkey) ((hat slba).trans (if_pos rfl)) hstaged

end WriteOne

/-- A place is all that a block needs to be placed. -/
theorem placeBlock_isSome {nsid lba : Nat} {b : List Byte} {s : State} (h : (place? s).isSome = true) :
    ∃ t, placeBlock nsid lba b s = some t := by
  obtain ⟨p, hp⟩ := Option.isSome_iff_exists.1 h
  exact ⟨_, by rw [placeBlock, hp, Option.map_some]⟩

theorem exec_stagingAdmit {s : State} (hservice : s.dev.stage = .service) (hawake : s.dev.asleep = false) :
    exec .stagingAdmit s = .next (admitAll s) := by
  show execStagingAdmit s = _
  simp [execStagingAdmit, inService, hservice, hawake]

/-- Settles O49: each command by its body; a one-block write by the place that its block takes. -/
theorem nvmeBlocks : Obligations.NvmeBlocks := by
  unfold Obligations.NvmeBlocks
  intro s c sq cid
  refine ⟨fun hready hwaits => ?_, fun hservice hawake => ⟨exec_stagingAdmit hservice hawake, fun hquiet => ?quiet⟩⟩
  case quiet =>
    rw [exec_stagingAdmit hservice hawake, admitAll, hquiet, admitWrites]
  intro u done
  refine ⟨exec_nvmeFlush hready hwaits, fun nsid hone hfault => ?flush, fun nsid slba count => exec_nvmeRead_waits,
    fun nsid slba count hfree hsome => ⟨fun st hsize hfault => ?_, fun hfault => ⟨fun hlost => ?_, fun b hdata => ?_⟩⟩,
    fun nsid slba bs => (exec_nvmeWrite hready hwaits).1, fun nsid slba bs => ⟨fun hbad => ?_,
      fun hsome hsize st hfault => ?_, fun hsome hsize hfault hfull => ?_⟩,
    fun nsid slba b n hfault hfree hquiet hn hraw hkey => ⟨fun hfull => ?held, fun hroom hplace => ?staged⟩,
    fun nsid slba count n hfault hfree hn => ⟨fun hroom => ?zeroes, fun hfull => ?_⟩,
    fun nsid rs n hsome hfew hfault hfree hn => ?ranges⟩
  case flush => rw [exec_nvmeFlush hready hwaits, if_neg hone, hfault, Option.getD_none]
  -- reads and verifies
  · obtain ⟨hread, hverify⟩ := exec_nvmeRead (cid := cid) hready hwaits hfree
    exact ⟨hread.trans (congrArg _ (readBlocks_fault hsome (fun _ => hsize) hfault)),
      hverify.trans (congrArg _ (readBlocks_fault hsome (by simp) hfault))⟩
  · obtain ⟨hread, hverify⟩ := exec_nvmeRead (cid := cid) hready hwaits hfree
    exact ⟨fun hsize => hread.trans (congrArg _ (readBlocks_lost hsome (fun _ => hsize) hfault hlost)),
      hverify.trans (congrArg _ (readBlocks_lost hsome (by simp) hfault hlost))⟩
  · obtain ⟨hread, hverify⟩ := exec_nvmeRead (cid := cid) hready hwaits hfree
    exact ⟨fun hsize => hread.trans (congrArg _ (readBlocks_data hsome (fun _ => hsize) hfault hdata)),
      hverify.trans (congrArg _ (readBlocks_data hsome (by simp) hfault hdata))⟩
  -- writes that do not join
  · exact (exec_nvmeWrite hready hwaits).2.trans (congrArg _ (writeBlocks_badSize hbad))
  · exact (exec_nvmeWrite hready hwaits).2.trans (congrArg _ (writeBlocks_fault hsome hsize hfault))
  · exact (exec_nvmeWrite hready hwaits).2.trans (congrArg _ (writeBlocks_readOnly hsome hsize hfault hfull))
  case held =>
    exact (exec_nvmeWrite_one hready hwaits hfault hfree hquiet hn hkey).trans
      (congrArg (fun v => Host.Outcome.next (issueFlash v)) (admitWrites_held rfl hn hraw rfl hfull))
  case staged =>
    obtain ⟨t, ht⟩ := placeBlock_isSome (nsid := nsid) (lba := slba) (b := padTo 4096 b) hplace
    obtain ⟨n', hn', hread, hkept, hothers, hbytes⟩ :=
      staged_keeps (v := onlyWaiting (oneWrite c sq cid nsid slba b) u) hn hkey ht
    refine ⟨_, n', (exec_nvmeWrite_one hready hwaits hfault hfree hquiet hn hkey).trans
      (congrArg (fun v => Host.Outcome.next (issueFlash v)) (admitWrites_staged rfl hn hraw hroom ht)),
      hn', hread, hkept, hothers, rfl, ?_⟩
    exact congrArg (· + 4096) hbytes
  case zeroes =>
    obtain ⟨t, n', hgone, hn', hblocks⟩ := deallocate_unmaps (u := u) (sq := sq) (cid := cid) (c := c)
      (rs := [(slba, count)]) (by simp) (by simp) (by simpa using hfault) hn
    refine ⟨t, n', (exec_writeZeroes hready hwaits hfree).trans
      (congrArg _ ((writeZeroes_room hroom).trans hgone)), hn', fun j => ?_⟩
    simp only [hblocks, inRanges_one]
  · exact (exec_writeZeroes hready hwaits hfree).trans (congrArg _ (writeZeroes_readOnly hfault hfull))
  case ranges =>
    obtain ⟨t, n', hgone, hn', hblocks⟩ := deallocate_unmaps (u := u) (sq := sq) (cid := cid) hsome hfew hfault hn
    exact ⟨t, n', (exec_datasetManagement hready hwaits hfree).trans (congrArg _ hgone), hn', hblocks⟩

end Sys2Proof.Proofs
end
